-- ==== Sys2Proof/Word.lean ====
section
/-!
DEFINITION. The words of the model: bytes, the register words of the silt core, and the sparse maps in which State
holds every numbered collection (rings, slots, cores, dictionary values, memory bytes).
-/

namespace Sys2Proof

/-- One byte of the store (00 R5: the byte at the lowest address holds bits [7:0]). -/
abbrev Byte := BitVec 8

/-- A scalar register of a silt core (07 R176). -/
abbrev Word := BitVec 64

/-- A vector register (07 R176): 1,024 bits. -/
abbrev VReg := BitVec 1024

/-- An accumulator (07 R176): 64 lanes of 32 bits. -/
abbrev AReg := BitVec 2048

/-- A predicate register (07 R176): one bit per vector byte. -/
abbrev PReg := BitVec 128

/-- One 64-byte descriptor (06 R146). -/
abbrev Desc := BitVec 512

/-- A sparse map from numbers: pairs of a key and a value, keys strictly rising. -/
abbrev SMap (α : Type) := List (Nat × α)

end Sys2Proof
end

