-- ==== Sys2Proof/Objects.lean ====
section
/-!
DEFINITION. The objects of the package as plain data, those that the twin mirrors among them, and the records that the
operands of the commands are made of.
-/

namespace Sys2Proof.Machine

/-- Completion status codes (06 Table 6-11). -/
inductive Status where
  | ok | fewer | resumedByTwin | okStalePin
  | faultUnresolved | revoked | targetDead | publishConflict | contextLost | offerExpired | poisoned
  | timeout | badDescriptor | notPermitted | crcMismatch | aborted | resource
  deriving DecidableEq, Repr

/-- Ring states (06 Table 6-3). -/
inductive RingState where
  | active | quiesced | error | step | draining
  deriving DecidableEq, Repr

/-- Ring modes (15 R416). -/
inductive RingMode where
  | normal | serial | step
  deriving DecidableEq, Repr

/-- The descriptor read of a ring (06 R497): none outstanding, waiting on a translation fault, or the fault failed. -/
inductive FetchWait where
  | idle | faulted | failed
  deriving DecidableEq, Repr

/-- A response of another package kept for the access that waits on it. -/
structure Resp where
  address : Nat
  status : Nat
  data : List Byte
  deriving DecidableEq, Repr

/-- A command ring (06 R146 to R172, 15 R416 to R419). -/
structure Ring where
  driver : Bool
  tenant : Nat
  asid : Nat
  cq : Nat
  lease : Nat
  baseVa : Nat
  wordVa : Nat
  statusVa : Nat
  log2 : Nat
  wordLine : Nat
  fetched : Nat
  tailSeen : Nat
  lastPresented : Nat
  state : RingState
  cause : Nat
  discarded : Nat
  inFlightWritten : Nat
  /-- A status block write waits to be made (06 R496). -/
  statusDue : Bool
  fetchWait : FetchWait
  resp : List Resp
  mode : RingMode
  recAsid : Nat
  recVa : Nat
  recLog2 : Nat
  stepRecords : Nat
  /-- Sequence numbers of the RUN_ONE, the ENTER_STEP and the OP 1 that wait on the ring (15 R418, 06 R154). -/
  runOne : Option Nat
  runGrant : Bool
  stepEnter : Option Nat
  dereg : Option Nat
  deriving DecidableEq, Repr

/-- A completion ring (06 R146, R151, R165). -/
structure Cq where
  tenant : Nat
  asid : Nat
  baseVa : Nat
  wordVa : Nat
  statusVa : Nat
  log2 : Nat
  wordLine : Nat
  msix : Nat
  irqAll : Bool
  written : Nat
  headSeen : Nat
  deriving DecidableEq, Repr

/-- An ASID (04 R86). -/
structure Asid where
  tenant : Nat
  hostWin : Nat
  devWin : Nat
  winSize : Nat
  deriving DecidableEq, Repr

/-- Who made a mapping: an EXTENT_MAP, the device for a counter page or the status page, or the device for a context. -/
inductive MapKind where
  | host | devicePage | context
  deriving DecidableEq, Repr

/-- One mapping (04 R90): page size code 0 to 3, VA, and the physical address, local (01 R14) or on another package. -/
structure Mapping where
  asid : Nat
  va : Nat
  page : Nat
  package : Option Nat
  address : Nat
  readOnly : Bool
  kind : MapKind
  deriving DecidableEq, Repr

/-- Extent states (04 Table 4-10). -/
inductive ExtState where
  | freeClean | freeDirty | owned | draining | scrubbing
  deriving DecidableEq, Repr

/-- Why the device holds an extent for itself (05 R128, 13 R374, 18 R469). -/
inductive Hold where
  | none | remoteCache | staging | statePool | management | mirror
  deriving DecidableEq, Repr

/-- One extent: 1 GiB at local address key × 2^30 (04 R105). -/
structure Extent where
  state : ExtState
  owner : Nat
  shares : List Nat
  protect : Bool
  hold : Hold
  /-- Mirror extent at the twin, or, for a mirror, the primary's extent (13 R359). -/
  mirror : Option Nat
  /-- The revocation under way: its SCRUB bit, its limit in microseconds and the sequence numbers of the
  commands that complete with it. -/
  scrub : Bool
  drainUs : Nat
  revokers : List Nat
  /-- Written while the pair was split (13 R363), or while the twin was away (13 R369). -/
  written : Bool
  deriving DecidableEq, Repr

/-- A publish taken by a region's home (05 R134): the publisher, its request tag (of this package: the sequence number of its
command), the announced lines, its base version, whether staging was granted, how many lines were staged, and those of them
not yet applied. -/
structure Publish where
  package : Option Nat
  tag : Nat
  announced : Nat
  base : Nat
  granted : Bool
  received : Nat
  staged : List (Nat × List Byte × BitVec 64)
  deriving DecidableEq, Repr

/-- A versioned region (05 R133): its local ranges in order of device VA, its length, its version, the accepted publish and
the opens that wait behind it. -/
structure Region where
  pieces : List (Nat × Nat)
  length : Nat
  tenant : Nat
  version : Nat
  current : Option Publish
  waiting : List Publish
  deriving DecidableEq, Repr

/-- Merge states (10 Table 10-10). -/
inductive MergeState where
  | idle | building | built
  deriving DecidableEq, Repr

/-- An index (10 R262 to R287). `desc` is the copied 128-byte descriptor. -/
structure Index where
  tenant : Nat
  asid : Nat
  desc : BitVec 1024
  generation : Nat
  areaB : Bool
  head : Nat
  tail : Nat
  merge : MergeState
  s0 : Nat
  commit : Bool
  mergeSlot : Option Nat
  buildStarted : Bool
  failure : Option Status
  /-- Running searches: (slot or leg key, generation, HEAD, TAIL) of their snapshots (10 R271). -/
  searches : List (Nat × Nat × Nat × Nat)
  mergeSince : Nat
  resp : List Resp
  deriving DecidableEq, Repr

/-- A replacement that runs on a table (11 R311, R312): the sequence number of its command at the issuing package, its row
range, its source there, the next row to write, and the status met so far. -/
structure Replace where
  slot : Option Nat
  first : Nat
  count : Nat
  srcVa : Nat
  asid : Nat
  cursor : Nat
  status : Status
  deriving DecidableEq, Repr

/-- An embedding table (11 R294 to R316). `desc` is the copied descriptor. -/
structure Table where
  tenant : Nat
  asid : Nat
  desc : Desc
  replicated : Bool
  version : Nat
  replacing : Option Replace
  /-- The last completed replacement, for readers of older pins (11 R313): the version it replaced, its first row and its
  count; and the time of its completion. -/
  passed : Option (Nat × Nat × Nat)
  doneTime : Nat
  /-- Keys of the commands that run on the table on this package. -/
  running : List Nat
  /-- At the primary: keys of the SCATTERs that run, and the pins of other members as (package × 4096 + pin, version). -/
  scatters : List Nat
  holds : List (Nat × Nat)
  resp : List Resp
  deriving DecidableEq, Repr

/-- A pin (11 R313). -/
structure Pin where
  table : Nat
  tenant : Nat
  version : Nat
  stale : Bool
  deriving DecidableEq, Repr

/-- Ledger states (13 Table 13-7). -/
inductive LedgerState where
  | owned | offered | inbound | taking | gone | lost | released
  deriving DecidableEq, Repr

/-- A ledger entry (13 Table 13-7), keyed by CTX_ID. `pool` lists the 2 MiB pages of the state pool that hold the context
here, as local address div 2^21; `offerSlot` is the sequence number of the OFFER that runs. -/
structure Ledger where
  tenant : Nat
  epoch : Nat
  state : LedgerState
  owner : Nat
  peer : Nat
  phaseDone : Nat
  ckptSeq : Nat
  deadline : Nat
  asid : Nat
  length : Nat
  va : Nat
  pool : List Nat
  offerSlot : Option Nat
  deriving DecidableEq, Repr

/-- A CONTEXT_RUN in progress (13 R383), keyed by the sequence number of its command, or, for another package's, by 2^70 and
its request: the phase that runs or comes next, the first and the one past the last, the VA of the phase table, the slot of the
phase that runs, and, once it has ended, its status, count and result. -/
structure Running where
  context : Nat
  phase : Nat
  first : Nat
  last : Nat
  table : Nat
  driver : Bool
  child : Option Nat
  /-- The phase has succeeded and its checkpoint is on its way. -/
  saved : Bool
  done : Option (Status × Nat × Nat)
  deriving DecidableEq, Repr

/-- What a mirror record carries beside lines and metadata: a step boundary, the end of a resilver, a rollback counter (16
R434), a tenant's key (16 R439), a stored response (12 R340) as its requester's key, header and payload, or a checkpoint of a
context (13 R377): the ledger entry and the context's bytes and poisoned lines, by offset. -/
inductive TwinNote where
  | none
  | stepAdmit
  | resilverDone
  | witness (svn : Nat)
  | key (tenant : Nat) (installed : Bool) (key : List Byte) (generation : Nat)
  | response (key : Nat) (header : BitVec 384) (payload : List Byte)
  | checkpoint (context : Nat) (entry : Ledger) (bytes : SMap Byte) (bad : List Nat)
  deriving DecidableEq, Repr

/-- A command fetched from a ring and not yet completed, as the twin holds it (13 R358): whether a change that it made to the
metadata stands. -/
structure Fetched where
  ring : Nat
  pos : Nat
  tenant : Nat
  opcode : Nat
  desc : Desc
  committed : Bool
  deriving DecidableEq, Repr

/-- The mirrored metadata of one package id (13 R358), as a META record carries it: every part of it, with a resilver's
cursor. `handover` hands the rings of the id to their package (13 R371). -/
structure Meta where
  id : Nat
  handover : Bool
  ext : SMap Extent
  asids : SMap Asid
  maps : List Mapping
  rings : SMap Ring
  cqs : SMap Cq
  leases : SMap Nat
  fetched : List Fetched
  regions : SMap Region
  indexes : SMap Index
  tables : SMap Table
  pins : SMap Pin
  ledger : SMap Ledger
  runs : SMap Running
  /-- Lines held exclusively by caching agents (13 R361). -/
  summary : List Nat
  /-- Extents that the resilver has copied. -/
  resilver : List Nat
  /-- Free 2 MiB pages of the sender's state pool (13 R374). -/
  poolFree : Nat
  deriving DecidableEq, Repr

end Sys2Proof.Machine

namespace Sys2Proof

/-- A row of AGENT_TABLE (05 R113). Ports 0 and 1 are the UCIe sites, port 2 + i is CXi; WIN_BASE and WIN_SIZE are
in units of 64 KiB, DEV_BASE is a device VA. -/
structure AgentRow where
  port : Nat
  index : Nat
  enable : Bool
  tenant : Nat
  asid : Nat
  winBase : Nat
  winSize : Nat
  devBase : Nat
  deriving DecidableEq, Repr, Inhabited

/-- One atomic that reaches its home (05 R120, R121): the requester's tenant, the local address, the operation code and
size code of Table 5-5 and Table 12-7, the operand and the compare value. -/
structure AtomicRequest where
  tenant : Nat
  address : Nat
  op : BitVec 4
  size : BitVec 2
  operand : BitVec 128
  compare : BitVec 128
  deriving DecidableEq, Repr

/-- A flash write that reaches the FTL (02 R26, R28): the stack, the logical page of 16 KiB, the bytes of the page
written, the write stream (0 whole-page sequential, 1 other) and the microseconds it stalled at the floor so far. -/
structure FtlWrite where
  stack : Nat
  page : Nat
  bytes : Nat
  stream : Nat
  stalledUs : Nat
  deriving DecidableEq, Repr

/-- What the media answers to a flash page read (02 Table 2-3): the first step that succeeds. -/
inductive FlashReadOutcome where
  | corrected
  | retried
  | rebuilt
  | fromTwin (data : List Byte)
  | lost
  deriving DecidableEq, Repr

/-- One mesh flit at a queue's input (08 Table 8-7): sideband, payload of 32 bytes, and whether the two copies of a
pointer are found to differ at its update (R240). -/
structure MeshFlit where
  sideband : BitVec 96
  payload : List Byte
  mismatch : Bool
  deriving DecidableEq, Repr

/-- A transaction packet of the fabric (12 R330, Table 12-7): the port it arrived on, its 48-byte header and payload. -/
structure Packet where
  port : Nat
  header : BitVec 384
  payload : List Byte
  deriving DecidableEq, Repr

/-- A link flit as received (12 R322): the link header of Table 12-4, the opened payload of 224 bytes, and the outcomes
of the CRC check and of the tag check. -/
structure LinkFlit where
  header : BitVec 128
  payload : List Byte
  crcOk : Bool
  tagOk : Bool
  deriving DecidableEq, Repr

/-- A mirror record (13 R360, Table 13-2): header and data lines. -/
structure MirrorRecord where
  header : BitVec 256
  data : List Byte
  /-- Which of the data lines are poisoned (13 R392). -/
  bad : List Nat := []
  content : List Machine.Meta := []
  note : Machine.TwinNote := .none
  deriving DecidableEq, Repr

/-- The twin's identity record with the rollback exchange (13 R354, 16 R434). `packageId` 0xFF: none. -/
structure IdentityRecord where
  packageId : Nat
  hbm : Nat
  flash : Nat
  ports : Nat
  stepping : Nat
  firmware : Nat
  answersForUs : Bool
  rollbackSvn : Nat
  witnessForUs : Option Nat
  deriving DecidableEq, Repr

/-- A heartbeat frame (13 R356, 19 R485): whether it came on TWHB, the sender's id, its pair state, its sequence number
and the outcome of its CRC check. -/
structure HeartbeatFrame where
  onTwhb : Bool
  packageId : Nat
  pairState : Nat
  sequence : BitVec 16
  crcOk : Bool
  deriving DecidableEq, Repr

/-- A request that enters a queue of a scheduler port (14 R400): tenant, class and size in bytes. -/
structure PortArrival where
  tenant : Nat
  cls : Nat
  size : Nat
  deriving DecidableEq, Repr

/-- A range of the far-tier region found behind memory expanders: its base and size in bytes, interleave ways and granule,
and the CX ports of its set (02 R37, R38). -/
structure Expander where
  base : Nat
  size : Nat
  ways : Nat
  granule : Nat
  ports : List Nat
  deriving DecidableEq, Repr

/-- How a start-up stage ended (17 R442, R444): the unit that failed it, if any. Of stage 1: whether the images of slots A and
B pass the checks of their bytes (16 R430), whether the PUF response could be corrected (16 R428), whether a copy of the
selected profile passes its CRC (17 R446), and whether REFCLK was found in its window (19 R493). Of stage 2: the UCIe modules
retired, as site × 8 + module (05 R110). From stage 2 on: the expanders enumerated (02 R38). Of stage 3: whether the twin
answers for this package's id (17 R449). Of stage 4: the cores that failed, each as (die, physical column, row) (08 R216). -/
structure StageResult where
  failedUnit : Option Nat
  imageA : Bool
  imageB : Bool
  identityOk : Bool
  profileOk : Bool
  refclkGood : Bool
  modules : List Nat
  expanders : List Expander
  twinAnswers : Bool
  failingCores : List (Nat × Nat × Nat)
  deriving DecidableEq, Repr

/-- A management frame as received (18 R465, R466): its source address, whether its destination, EtherType and FCS pass
R465, and its payload. -/
structure MgmtFrame where
  source : Nat
  addressed : Bool
  fcsOk : Bool
  payload : List Byte
  deriving DecidableEq, Repr

end Sys2Proof
end

