-- ==== Sys2Proof/Syntax.lean ====
section
/-!
DEFINITION. The commands of the HJL-2900 as data: one constructor of Instr per row of the table of operations and
events. The table gives its rows no bits and no operand fields; the operands are those the rule of each row names: a ring,
an executing slot, a line, a packet, a register value.
-/

namespace Sys2Proof

/-- The commands of the part: one constructor for each row of the table of operations and events. -/
inductive Instr where
  /-- TAIL_PRESENTED (R157). -/
  | tailPresented (ring : Nat) (value : BitVec 64)
  /-- HEAD_PRESENTED (R165). -/
  | headPresented (cq : Nat) (value : BitVec 64)
  /-- DESCRIPTOR_FETCH (R157). -/
  | descriptorFetch
  /-- COMPLETION_WRITE (R165). -/
  | completionWrite (slot : Nat)
  /-- IRQ_HOLDOFF_EXPIRY (R168). -/
  | irqHoldoffExpiry (vector : Nat)
  /-- IN_FLIGHT_REFRESH (R149). -/
  | inFlightRefresh (ring : Nat)
  /-- LEASE_LAPSE (R171). -/
  | leaseLapse (lease : Nat)
  /-- COMMAND_TIMEOUT (R162). -/
  | commandTimeout (slot : Nat)
  /-- NOP (R150). -/
  | nop (slot : Nat)
  /-- FENCE (R158). -/
  | fence (slot : Nat)
  /-- SUMMARY (R173). -/
  | summary (slot : Nat)
  /-- LEASE_RENEW (R170). -/
  | leaseRenew (slot : Nat)
  /-- COMMAND_RING_REGISTER (R153). -/
  | commandRingRegister (slot : Nat)
  /-- COMMAND_RING_DEREGISTER (R154). -/
  | commandRingDeregister (slot : Nat)
  /-- DEREGISTER_DRAIN_DONE (R154). -/
  | deregisterDrainDone (ring : Nat)
  /-- COMPLETION_RING_REGISTER (R153). -/
  | completionRingRegister (slot : Nat)
  /-- COMPLETION_RING_DEREGISTER (R154). -/
  | completionRingDeregister (slot : Nat)
  /-- LEASE_RESUME (R151). -/
  | leaseResume (slot : Nat)
  /-- BOOT_RING (R155). -/
  | bootRing (value : BitVec 64)
  /-- RUN_ONE (R418). -/
  | runOne (slot : Nat)
  /-- ENTER_STEP (R418). -/
  | enterStep (slot : Nat)
  /-- ENTER_SERIAL (R418). -/
  | enterSerial (slot : Nat)
  /-- EXIT (R418). -/
  | exitStep (slot : Nat)
  /-- SAMPLE_TENANT_SET (R415). -/
  | sampleTenantSet (slot : Nat)
  /-- SAMPLE_RING_SET (R415). -/
  | sampleRingSet (slot : Nat)
  /-- CLEAR_TENANT_SET (R414). -/
  | clearTenantSet (slot : Nat)
  /-- MAP_COUNTER_PAGE (R412). -/
  | mapCounterPage (slot : Nat)
  /-- UNMAP_COUNTER_PAGE (R412). -/
  | unmapCounterPage (slot : Nat)
  /-- COUNTER_PAGE_REFRESH (R413). -/
  | counterPageRefresh
  /-- COUNTER_CLEAR (R411). -/
  | counterClear (value : BitVec 16)
  /-- TILE_MOVE (R46). -/
  | tileMove (slot : Nat)
  /-- MODEL_LOAD (R55). -/
  | modelLoad (slot : Nat)
  /-- MODEL_UNLOAD (R57). -/
  | modelUnload (slot : Nat)
  /-- MODEL_SCHEDULE (R56). -/
  | modelSchedule (slot : Nat)
  /-- LAYER_FETCH_START (R54). -/
  | layerFetchStart (model : Nat) (execution : Nat)
  /-- LAYER_LANDED (R49). -/
  | layerLanded (model : Nat) (execution : Nat)
  /-- KV_SPILL (R60). -/
  | kvSpill (slot : Nat)
  /-- KV_FETCH (R60). -/
  | kvFetch (slot : Nat)
  /-- FTL_WRITE_ACCEPT (R26). -/
  | ftlWriteAccept (write : FtlWrite)
  /-- FTL_BUFFER_FLUSH (R28). -/
  | ftlBufferFlush (stack : Nat) (page : Nat) (block : Nat)
  /-- GC_RELOCATION (R30). -/
  | gcRelocation (stack : Nat) (source : Nat) (target : Nat)
  /-- WEAR_LEVEL_MOVE (R31). -/
  | wearLevelMove (stack : Nat) (source : Nat) (target : Nat)
  /-- READ_DISTURB_SCAN (R32). -/
  | readDisturbScan (stack : Nat) (block : Nat) (worstBits : Nat)
  /-- PATROL_SCAN (R32). -/
  | patrolScan (stack : Nat) (block : Nat) (worstBits : Nat)
  /-- FTL_READ_DONE (R33). -/
  | ftlReadDone (stack : Nat) (page : Nat) (block : Nat) (outcome : FlashReadOutcome)
  /-- BLOCK_RETIRE (R34). -/
  | blockRetire (stack : Nat) (block : Nat)
  /-- EXPANDER_FAILURE (R39). -/
  | expanderFailure (decoder : Nat)
  /-- ALLOC (R94). -/
  | alloc (slot : Nat) (choice : List Nat)
  /-- BIND (R95). -/
  | bind (slot : Nat)
  /-- UNMAP (R97). -/
  | unmap (slot : Nat)
  /-- EXTENT_REVOKE (R106). -/
  | extentRevoke (slot : Nat)
  /-- DRAIN_END (R106). -/
  | drainEnd (extent : Nat)
  /-- DRAIN_LIMIT (R106). -/
  | drainLimit (extent : Nat)
  /-- SCRUB_DONE (R105). -/
  | scrubDone (extent : Nat)
  /-- RESOLVE_FAULTS (R101). -/
  | resolveFaults (slot : Nat)
  /-- INVALIDATE_ASID (R104). -/
  | invalidateAsid (slot : Nat)
  /-- CONVERT_POINTERS (R89). -/
  | convertPointers (slot : Nat)
  /-- ASID_CREATE (R86). -/
  | asidCreate (slot : Nat)
  /-- ASID_SET_WINDOW (R86). -/
  | asidSetWindow (slot : Nat)
  /-- ASID_DESTROY (R86). -/
  | asidDestroy (slot : Nat)
  /-- FAULT_BATCH_CLOSE (R99). -/
  | faultBatchClose
  /-- FAULT_BATCH_RETRY (R102). -/
  | faultBatchRetry
  /-- FAULT_RING_VA (R102). -/
  | faultRingVa (sub : Nat) (value : BitVec 64)
  /-- AGENT_READ_SHARED (R116). -/
  | agentReadShared (agent : Nat) (address : Nat) (victim : Nat)
  /-- AGENT_READ_OWNERSHIP (R116). -/
  | agentReadOwnership (agent : Nat) (address : Nat) (victim : Nat)
  /-- AGENT_WRITE_BACK (R116). -/
  | agentWriteBack (agent : Nat) (line : Nat) (data : List Byte)
  /-- SNOOP_ANSWER (R117). -/
  | snoopAnswer (agent : Nat) (line : Nat) (data : Option (List Byte)) (held : Bool)
  /-- SNOOP_TIMEOUT (R119). -/
  | snoopTimeout (agent : Nat)
  /-- AGENT_TABLE (R114). -/
  | agentTable (agent : Nat) (row : AgentRow)
  /-- HOME_ATOMIC (R121). -/
  | homeAtomic (request : AtomicRequest)
  /-- ALB_HOLD_EXPIRY (R121). -/
  | albHoldExpiry (die : Nat) (line : Nat)
  /-- ALB_ENTRY_CHOICE (R122). -/
  | albEntryChoice (die : Nat)
  /-- WATCH_RECALL_EXPIRY (R126). -/
  | watchRecallExpiry (line : Nat)
  /-- FLUSH (R132). -/
  | flush (slot : Nat)
  /-- PUBLISH (R134). -/
  | publish (slot : Nat)
  /-- PUBLISH_STAGING_GRANT (R134). -/
  | publishStagingGrant (region : Nat)
  /-- VERSION_QUERY (R136). -/
  | versionQuery (slot : Nat)
  /-- REGION_CREATE (R133). -/
  | regionCreate (slot : Nat)
  /-- REGION_DESTROY (R133). -/
  | regionDestroy (slot : Nat)
  /-- FILL (R141). -/
  | fill (slot : Nat)
  /-- COPY (R141). -/
  | copy (slot : Nat)
  /-- COMPARE (R142). -/
  | compare (slot : Nat)
  /-- REDUCE (R143). -/
  | reduce (slot : Nat)
  /-- SALU (R192). -/
  | salu (core : Nat) (word : BitVec 32)
  /-- ADDI (R190). -/
  | addi (core : Nat) (word : BitVec 32)
  /-- ANDI (R190). -/
  | andi (core : Nat) (word : BitVec 32)
  /-- ORI (R190). -/
  | ori (core : Nat) (word : BitVec 32)
  /-- XORI (R190). -/
  | xori (core : Nat) (word : BitVec 32)
  /-- LUI (R190). -/
  | lui (core : Nat) (word : BitVec 32)
  /-- SHORI (R190). -/
  | shori (core : Nat) (word : BitVec 32)
  /-- BR (R193). -/
  | br (core : Nat) (word : BitVec 32)
  /-- JAL (R190). -/
  | jal (core : Nat) (word : BitVec 32)
  /-- JALR (R190). -/
  | jalr (core : Nat) (word : BitVec 32)
  /-- CSRR (R208). -/
  | csrr (core : Nat) (word : BitVec 32)
  /-- CSRW (R208). -/
  | csrw (core : Nat) (word : BitVec 32)
  /-- HALT (R207). -/
  | halt (core : Nat) (word : BitVec 32)
  /-- BRK (R207). -/
  | brk (core : Nat) (word : BitVec 32)
  /-- DRAIN (R190). -/
  | drain (core : Nat) (word : BitVec 32)
  /-- DCWB (R190). -/
  | dcwb (core : Nat) (word : BitVec 32)
  /-- DCWBI (R190). -/
  | dcwbi (core : Nat) (word : BitVec 32)
  /-- ICINV (R184). -/
  | icinv (core : Nat) (word : BitVec 32)
  /-- LD (R187). -/
  | ld (core : Nat) (word : BitVec 32) (victim : Nat)
  /-- ST (R187). -/
  | st (core : Nat) (word : BitVec 32) (victim : Nat)
  /-- VLD (R188). -/
  | vld (core : Nat) (word : BitVec 32) (victim : Nat)
  /-- VST (R188). -/
  | vst (core : Nat) (word : BitVec 32) (victim : Nat)
  /-- AMO (R202). -/
  | amo (core : Nat) (word : BitVec 32)
  /-- XCOPY (R203). -/
  | xcopy (core : Nat) (word : BitVec 32)
  /-- SDF (R204). -/
  | sdf (core : Nat) (word : BitVec 32)
  /-- TRACKER_ENTRY_FREE (R185). -/
  | trackerEntryFree (core : Nat) (entry : Nat)
  /-- WAITGE (R205). -/
  | waitge (core : Nat) (word : BitVec 32)
  /-- WAITNE (R205). -/
  | waitne (core : Nat) (word : BitVec 32)
  /-- WAIT_POLL (R205). -/
  | waitPoll (core : Nat)
  /-- WAIT_TIME_LIMIT (R205). -/
  | waitTimeLimit (core : Nat)
  /-- MSEND (R206). -/
  | msend (core : Nat) (word : BitVec 32)
  /-- MRECV (R206). -/
  | mrecv (core : Nat) (word : BitVec 32)
  /-- MPEEK (R206). -/
  | mpeek (core : Nat) (word : BitVec 32)
  /-- VALU (R195). -/
  | valu (core : Nat) (word : BitVec 32)
  /-- VCVT (R196). -/
  | vcvt (core : Nat) (word : BitVec 32)
  /-- VRED (R197). -/
  | vred (core : Nat) (word : BitVec 32)
  /-- VPERM (R197). -/
  | vperm (core : Nat) (word : BitVec 32)
  /-- PRED (R197). -/
  | pred (core : Nat) (word : BitVec 32)
  /-- MMA (R198). -/
  | mma (core : Nat) (word : BitVec 32)
  /-- ACC (R199). -/
  | acc (core : Nat) (word : BitVec 32)
  /-- HAM (R200). -/
  | ham (core : Nat) (word : BitVec 32)
  /-- LAUNCH (R219). -/
  | launch (slot : Nat)
  /-- LAUNCH_CLAIM (R221). -/
  | launchClaim (slot : Nat)
  /-- KERNEL_WATCHDOG (R225). -/
  | kernelWatchdog (slot : Nat)
  /-- HALT_GRID (R226). -/
  | haltGrid (slot : Nat)
  /-- CHANNEL_OPEN (R228). -/
  | channelOpen (slot : Nat)
  /-- CHANNEL_CLOSE (R230). -/
  | channelClose (slot : Nat)
  /-- CHANNEL_CLOSED (R230). -/
  | channelClosed (producer : Nat) (handle : Nat)
  /-- FLIT_ARRIVE (R234). -/
  | flitArrive (flit : MeshFlit)
  /-- CREDIT_RETURN (R229). -/
  | creditReturn (producer : Nat) (handle : Nat)
  /-- RESET_NOTICE (R240). -/
  | resetNotice (producer : Nat) (handle : Nat)
  /-- RESET_ACKNOWLEDGEMENT (R240). -/
  | resetAcknowledgement (producer : Nat) (handle : Nat)
  /-- SEARCH (R272). -/
  | search (slot : Nat)
  /-- SEARCH_START (R280). -/
  | searchStart (slot : Nat)
  /-- SEARCH_LEG (R288). -/
  | searchLeg (packet : Packet)
  /-- SHARD_RESULT (R289). -/
  | shardResult (packet : Packet)
  /-- INSERT (R281). -/
  | insert (slot : Nat)
  /-- SIDE_LIST_APPEND (R283). -/
  | sideListAppend (slot : Nat)
  /-- DELETE (R281). -/
  | delete (slot : Nat)
  /-- MERGE (R284). -/
  | merge (slot : Nat)
  /-- MERGE_DISCARD (R284). -/
  | mergeDiscard (slot : Nat)
  /-- MERGE_BUILD_START (R285). -/
  | mergeBuildStart (index : Nat)
  /-- BUILD_DONE (R285). -/
  | buildDone (index : Nat)
  /-- INDEX_COMMIT (R286). -/
  | indexCommit (slot : Nat)
  /-- INDEX_CREATE (R262). -/
  | indexCreate (slot : Nat)
  /-- INDEX_DESTROY (R262). -/
  | indexDestroy (slot : Nat)
  /-- GATHER (R302). -/
  | gather (slot : Nat)
  /-- GATHER_START (R305). -/
  | gatherStart (slot : Nat)
  /-- SCATTER (R308). -/
  | scatter (slot : Nat)
  /-- TABLE_REPLACE (R311). -/
  | tableReplace (slot : Nat)
  /-- REPLACE_START (R312). -/
  | replaceStart (table : Nat)
  /-- REPLACE_DONE (R312). -/
  | replaceDone (table : Nat)
  /-- TABLE_PIN (R313). -/
  | tablePin (slot : Nat)
  /-- TABLE_UNPIN (R314). -/
  | tableUnpin (slot : Nat)
  /-- PIN_STALE (R313). -/
  | pinStale (pin : Nat)
  /-- TABLE_CREATE (R297). -/
  | tableCreate (slot : Nat)
  /-- TABLE_DESTROY (R297). -/
  | tableDestroy (slot : Nat)
  /-- PORT_TRAINING (R329). -/
  | portTraining (port : Nat)
  /-- TRAINING_DONE (R321). -/
  | trainingDone (port : Nat) (working : List Nat)
  /-- TRAINING_TIMEOUT (R329). -/
  | trainingTimeout (port : Nat)
  /-- TRAINING_RETRY (R329). -/
  | trainingRetry (port : Nat)
  /-- RETRAIN_TIMEOUT (R329). -/
  | retrainTimeout (port : Nat)
  /-- LOCK_LOST (R329). -/
  | lockLost (port : Nat)
  /-- KEY_CHECK (R329). -/
  | keyCheck (port : Nat) (keyId : BitVec 8)
  /-- RETRAIN_REQUEST (R329). -/
  | retrainRequest (port : Nat)
  /-- ENTER_LOW_RATE (R352). -/
  | enterLowRate (port : Nat)
  /-- EXIT_LOW_RATE (R352). -/
  | exitLowRate (port : Nat)
  /-- LINK_CTL_RESEND (R323). -/
  | linkCtlResend (port : Nat)
  /-- FLIT_RECEIVE (R324). -/
  | flitReceive (port : Nat) (flit : LinkFlit)
  /-- NAK (R324). -/
  | nak (port : Nat) (ackSeq : BitVec 12)
  /-- REKEY (R326). -/
  | rekey (port : Nat) (seq : BitVec 12)
  /-- REKEY_SEND (R326). -/
  | rekeySend (port : Nat)
  /-- CABLE_PRESENT (R479). -/
  | cablePresent (port : Nat) (demandMw : Nat)
  /-- RD (R333). -/
  | rd (packet : Packet)
  /-- REMOTE_FILL (R128). -/
  | remoteFill (packet : Packet)
  /-- ATOMIC (R340). -/
  | atomic (packet : Packet)
  /-- CMD (R332). -/
  | cmd (packet : Packet)
  /-- PUB_OPEN (R134). -/
  | pubOpen (packet : Packet)
  /-- WR (R341). -/
  | wr (packet : Packet)
  /-- WR_FINAL (R341). -/
  | wrFinal (packet : Packet)
  /-- GROUP_END (R341). -/
  | groupEnd (packet : Packet)
  /-- PUB_LINE (R134). -/
  | pubLine (packet : Packet)
  /-- PUB_END (R134). -/
  | pubEnd (packet : Packet)
  /-- RD_RSP (R333). -/
  | rdRsp (packet : Packet)
  /-- FILL_RSP (R129). -/
  | fillRsp (packet : Packet)
  /-- ATOMIC_RSP (R346). -/
  | atomicRsp (packet : Packet)
  /-- CMD_RSP (R332). -/
  | cmdRsp (packet : Packet)
  /-- PUB_RSP (R134). -/
  | pubRsp (packet : Packet)
  /-- WR_ACK (R341). -/
  | wrAck (packet : Packet)
  /-- PENDING (R339). -/
  | pending (packet : Packet)
  /-- PENDING_TIMER (R339). -/
  | pendingTimer (source : Nat) (tag : Nat)
  /-- NO_ROUTE (R336). -/
  | noRoute (packet : Packet)
  /-- REQUEST_TIMER (R339). -/
  | requestTimer (tag : Nat)
  /-- STORED_RESPONSE_EXPIRY (R340). -/
  | storedResponseExpiry (source : Nat) (tag : Nat)
  /-- MIRROR (R361). -/
  | mirror (record : MirrorRecord)
  /-- MIRROR_ACK (R361). -/
  | mirrorAck (mseq : BitVec 64)
  /-- TAKEOVER_NOTICE (R337). -/
  | takeoverNotice (id : Nat) (source : Nat)
  /-- RELEASE_ID_NOTICE (R337). -/
  | releaseIdNotice (id : Nat) (source : Nat)
  /-- NOTICE_ACK (R337). -/
  | noticeAck (id : Nat) (source : Nat) (release : Bool)
  /-- NOTICE_REPEAT (R337). -/
  | noticeRepeat (id : Nat) (destination : Nat)
  /-- ACOPY (R344). -/
  | acopy (slot : Nat)
  /-- ACOPY_FINAL (R345). -/
  | acopyFinal (slot : Nat)
  /-- ACOPY_FINAL_SEND (R345). -/
  | acopyFinalSend (slot : Nat)
  /-- REMOTE_ATOMIC (R346). -/
  | remoteAtomic (slot : Nat)
  /-- ASSIGN_ID (R349). -/
  | assignId (head : BitVec 128)
  /-- ROUTE_SET (R349). -/
  | routeSet (head : BitVec 128) (rows : List (BitVec 64))
  /-- LINK_KEY (R325). -/
  | linkKey (head : BitVec 128) (key : List Byte)
  /-- JOIN (R349). -/
  | join (head : BitVec 128)
  /-- TEARDOWN (R348). -/
  | teardown (head : BitVec 128)
  /-- RESTORE (R348). -/
  | restore (head : BitVec 128)
  /-- LEAVE (R349). -/
  | leave (head : BitVec 128)
  /-- FM_EVENT_ACK (R351). -/
  | fmEventAck (value : BitVec 64)
  /-- IDENTITY_RECORD (R354). -/
  | identityRecord (record : IdentityRecord)
  /-- HEARTBEAT_SEND (R356). -/
  | heartbeatSend
  /-- HEARTBEAT (R356). -/
  | heartbeat (frame : HeartbeatFrame)
  /-- TWIN_LOST (R362). -/
  | twinLost
  /-- PROBE_TIMEOUT (R363). -/
  | probeTimeout
  /-- WARM_RESET_ANNOUNCE (R450). -/
  | warmResetAnnounce
  /-- ANNOUNCE_WAIT_END (R450). -/
  | announceWaitEnd
  /-- RESILVER_CHUNK (R369). -/
  | resilverChunk
  /-- STEP_ADMIT (R371). -/
  | stepAdmit (slot : Nat)
  /-- ADMIT_WAIT_EXPIRY (R371). -/
  | admitWaitExpiry
  /-- ADMISSION_HANDOVER (R371). -/
  | admissionHandover
  /-- CONTEXT_OPEN (R374). -/
  | contextOpen (slot : Nat)
  /-- OFFER (R378). -/
  | offer (slot : Nat)
  /-- OFFER_DEADLINE (R378). -/
  | offerDeadline (context : Nat)
  /-- TAKE (R379). -/
  | take (slot : Nat)
  /-- TAKE_WAIT_EXPIRY (R379). -/
  | takeWaitExpiry (slot : Nat)
  /-- RELEASE (R380). -/
  | release (slot : Nat)
  /-- LEDGER_QUERY (R381). -/
  | ledgerQuery (slot : Nat)
  /-- CHECKPOINT (R377). -/
  | checkpoint (slot : Nat)
  /-- CONTEXT_RUN (R383). -/
  | contextRun (slot : Nat)
  /-- PHASE_COMPLETE (R383). -/
  | phaseComplete (slot : Nat)
  /-- KAT_PERIOD (R388). -/
  | katPeriod
  /-- KAT_DONE (R388). -/
  | katDone (core : Nat) (pass : Bool)
  /-- MGMT_WATCHDOG_EXPIRY (R390). -/
  | mgmtWatchdogExpiry
  /-- PORT_ARBITRATION (R401). -/
  | portArbitration (port : BitVec 16) (arrivals : List PortArrival)
  /-- QUEUE_SAMPLE (R404). -/
  | queueSample
  /-- TENANT_TABLE (R394). -/
  | tenantTable (tenant : Nat) (row : BitVec 256)
  /-- LIMIT_TABLE (R402). -/
  | limitTable (row : BitVec 128)
  /-- SCHED_STATS_CLEAR (R406). -/
  | schedStatsClear (value : BitVec 16)
  /-- ARM (R422). -/
  | arm (request : BitVec 128)
  /-- DISARM (R422). -/
  | disarm (request : BitVec 128)
  /-- CORE_DEBUG_HALT (R422). -/
  | coreDebugHalt (request : BitVec 128)
  /-- CORE_DEBUG_STEP (R422). -/
  | coreDebugStep (request : BitVec 128)
  /-- RESUME (R422). -/
  | resume (request : BitVec 128)
  /-- READ_REG (R421). -/
  | readReg (request : BitVec 128)
  /-- WRITE_REG (R421). -/
  | writeReg (request : BitVec 128) (value : List Byte)
  /-- READ_SPAD (R421). -/
  | readSpad (request : BitVec 128)
  /-- STATUS (R421). -/
  | status (request : BitVec 128)
  /-- ATTEST (R436). -/
  | attest (slot : Nat)
  /-- KEY_INSTALL (R438). -/
  | keyInstall (slot : Nat)
  /-- KEY_DESTROY (R438). -/
  | keyDestroy (slot : Nat)
  /-- FW_STAGE (R432). -/
  | fwStage (offset : BitVec 32) (chunk : List Byte)
  /-- FW_COMMIT (R432). -/
  | fwCommit
  /-- FW_COMMIT_ADVANCE (R434). -/
  | fwCommitAdvance
  /-- KEY_REVOKE (R433). -/
  | keyRevoke (mask : BitVec 8)
  /-- MR_EXTEND (R431). -/
  | mrExtend (index : BitVec 8) (digest : List Byte)
  /-- INPUT_POWER_UP (R487). -/
  | inputPowerUp
  /-- RAIL_TIMEOUT (R487). -/
  | railTimeout (rail : Nat)
  /-- POWER_GOOD (R442). -/
  | powerGood (prof : BitVec 2)
  /-- STAGE_END (R442). -/
  | stageEnd (result : StageResult)
  /-- RESET_N (R484). -/
  | resetN (level : Bool) (hot : List Nat)
  /-- COLD_RESET_REQUEST (R448). -/
  | coldResetRequest (hot : List Nat)
  /-- WARM_RESET_REQUEST (R448). -/
  | warmResetRequest (hot : List Nat)
  /-- TENANT_RESET (R451). -/
  | tenantReset (tenant : BitVec 16)
  /-- TENANT_RESET_COMPLETE (R451). -/
  | tenantResetComplete
  /-- CORE_RESET (R452). -/
  | coreReset (core : BitVec 16)
  /-- PROFILE_SELECT (R447). -/
  | profileSelect (profile : BitVec 8)
  /-- PROFILE_SELECT_RESET (R447). -/
  | profileSelectReset (profile : BitVec 8) (hot : List Nat)
  /-- PROFILE_COPY (R445). -/
  | profileCopy (value : BitVec 16)
  /-- POWER_REQUEST_ACTIVE (R454). -/
  | powerRequestActive
  /-- POWER_REQUEST_DROWSY (R454). -/
  | powerRequestDrowsy
  /-- POWER_REQUEST_DORMANT (R454). -/
  | powerRequestDormant
  /-- DROWSY_IDLE_EXPIRY (R454). -/
  | drowsyIdleExpiry
  /-- POWER_STATE_ENTRY (R454). -/
  | powerStateEntry
  /-- WAKE_COMPLETE (R455). -/
  | wakeComplete
  /-- MGMT_FRAME (R466). -/
  | mgmtFrame (frame : MgmtFrame)
  /-- REASSEMBLY_TIMEOUT (R467). -/
  | reassemblyTimeout (source : Nat)
  /-- DISCOVER (R468). -/
  | discover (source : Nat) (reqId : BitVec 16)
  /-- READ (R462). -/
  | read (entry : BitVec 16) (sub : BitVec 8)
  /-- WRITE (R461). -/
  | write (entry : BitVec 16) (sub : BitVec 8) (value : List Byte)
  /-- READ_ROWS (R462). -/
  | readRows (entry : BitVec 16) (sub : BitVec 8) (first : Nat) (rows : Nat)
  /-- WRITE_ROWS (R462). -/
  | writeRows (entry : BitVec 16) (sub : BitVec 8) (first : Nat) (rows : Nat) (value : List Byte)
  /-- DESCRIBE (R462). -/
  | describe (entry : BitVec 16) (sub : BitVec 8)
  /-- NEXT (R462). -/
  | nextEntry (entry : BitVec 16) (sub : BitVec 8)
  /-- MGMT_TAIL_PRESENTED (R471). -/
  | mgmtTailPresented (value : BitVec 64)
  /-- MGMT_HEAD_PRESENTED (R471). -/
  | mgmtHeadPresented (value : BitVec 64)
  /-- MGMT_REQUEST_TAKE (R471). -/
  | mgmtRequestTake
  /-- LOSS_OF_INPUT (R488). -/
  | lossOfInput
  /-- HOLDUP_FLUSH_DONE (R488). -/
  | holdupFlushDone (blocks : List Nat)
  /-- THERMAL_TRIP (R491). -/
  | thermalTrip (sensor : Nat)
  /-- REFCLK_LOSS (R494). -/
  | refclkLoss
  /-- FIRMWARE_RESTART_DONE (R390). -/
  | firmwareRestartDone
  /-- MODULE_LOSS (R110). -/
  | moduleLoss (site : Nat) (module : Nat)
  deriving DecidableEq, Repr

end Sys2Proof
end

