-- ==== Sys2Proof/WellFormed.lean ====
section
/-!
DEFINITION. Well-formed commands: every operand names an object that the part can have (a ring number, a core number, a
port) and every block of bytes has the length its rule gives. The meanings do not assume it: a command that is not
well-formed names nothing, and changes nothing.
-/

namespace Sys2Proof

/-- A packet arrived at one of 32 ports with at most 8,192 payload bytes (12 R330, R332). -/
def packetWf (p : Packet) : Bool := p.port < 32 && p.payload.length ≤ 8192

/-- An agent row names a port of the package, an index below 32, a 12-bit tenant and a 16-bit ASID (05 R113). -/
def agentRowWf (r : AgentRow) : Bool :=
  r.port < 18 && r.index < 32 && r.tenant < 4096 && r.asid < 65536

/-- A link flit carries 224 payload bytes (12 R322). -/
def linkFlitWf (f : LinkFlit) : Bool := f.payload.length = 224

/-- A mesh flit carries 32 payload bytes (08 Table 8-7). -/
def meshFlitWf (f : MeshFlit) : Bool := f.payload.length = 32

/-- A flash write names one of 8 stacks and at most one page of 16 KiB (02 R26). -/
def ftlWriteWf (w : FtlWrite) : Bool := w.stack < 8 && 0 < w.bytes && w.bytes ≤ 16384 && w.stream < 2

/-- A mirror record carries whole lines (13 Table 13-2). -/
def mirrorRecordWf (r : MirrorRecord) : Bool := r.data.length % 64 = 0

/-- Whether a command is well-formed. -/
def wf (i : Instr) : Bool :=
  match i with
  | .tailPresented ring _ => ring < 65536
  | .headPresented cq _ => cq < 65536
  | .descriptorFetch => true
  | .completionWrite slot => slot < 65536
  | .irqHoldoffExpiry vector => vector < 2048
  | .inFlightRefresh ring => ring < 65536
  | .leaseLapse lease => lease < 1024
  | .commandTimeout slot => slot < 65536
  | .nop slot => slot < 65536
  | .fence slot => slot < 65536
  | .summary slot => slot < 65536
  | .leaseRenew slot => slot < 65536
  | .commandRingRegister slot => slot < 65536
  | .commandRingDeregister slot => slot < 65536
  | .deregisterDrainDone ring => ring < 65536
  | .completionRingRegister slot => slot < 65536
  | .completionRingDeregister slot => slot < 65536
  | .leaseResume slot => slot < 65536
  | .bootRing _ => true
  | .runOne slot => slot < 65536
  | .enterStep slot => slot < 65536
  | .enterSerial slot => slot < 65536
  | .exitStep slot => slot < 65536
  | .sampleTenantSet slot => slot < 65536
  | .sampleRingSet slot => slot < 65536
  | .clearTenantSet slot => slot < 65536
  | .mapCounterPage slot => slot < 65536
  | .unmapCounterPage slot => slot < 65536
  | .counterPageRefresh => true
  | .counterClear _ => true
  | .tileMove slot => slot < 65536
  | .modelLoad slot => slot < 65536
  | .modelUnload slot => slot < 65536
  | .modelSchedule slot => slot < 65536
  | .layerFetchStart _ _ => true
  | .layerLanded _ _ => true
  | .kvSpill slot => slot < 65536
  | .kvFetch slot => slot < 65536
  | .ftlWriteAccept write => ftlWriteWf write
  | .ftlBufferFlush stack _ _ => stack < 8
  | .gcRelocation stack source _ => stack < 8 && source < 64
  | .wearLevelMove stack source _ => stack < 8 && source < 64
  | .readDisturbScan stack _ _ => stack < 8
  | .patrolScan stack _ _ => stack < 8
  | .ftlReadDone stack _ _ _ => stack < 8
  | .blockRetire stack _ => stack < 8
  | .expanderFailure decoder => decoder < 32
  | .alloc slot _ => slot < 65536
  | .bind slot => slot < 65536
  | .unmap slot => slot < 65536
  | .extentRevoke slot => slot < 65536
  | .drainEnd extent => extent < 1048576
  | .drainLimit extent => extent < 1048576
  | .scrubDone extent => extent < 1048576
  | .resolveFaults slot => slot < 65536
  | .invalidateAsid slot => slot < 65536
  | .convertPointers slot => slot < 65536
  | .asidCreate slot => slot < 65536
  | .asidSetWindow slot => slot < 65536
  | .asidDestroy slot => slot < 65536
  | .faultBatchClose => true
  | .faultBatchRetry => true
  | .faultRingVa sub _ => sub < 256
  | .agentReadShared agent address _ => agent < 64 && address < 1125899906842624
  | .agentReadOwnership agent address _ => agent < 64 && address < 1125899906842624
  | .agentWriteBack agent line data => agent < 64 && line < 2 ^ 62 && data.length = 64
  | .snoopAnswer agent line data _ => agent < 64 && line < 2 ^ 62 && (data.all fun d => d.length = 64)
  | .snoopTimeout agent => agent < 64
  | .agentTable agent row => agent < 64 && agentRowWf row
  | .homeAtomic _ => true
  | .albHoldExpiry die line => die < 4 && line < 4611686018427387904
  | .albEntryChoice die => die < 4
  | .watchRecallExpiry line => line < 4611686018427387904
  | .flush slot => slot < 65536
  | .publish slot => slot < 65536
  | .publishStagingGrant region => region < 2097152
  | .versionQuery slot => slot < 65536
  | .regionCreate slot => slot < 65536
  | .regionDestroy slot => slot < 65536
  | .fill slot => slot < 65536
  | .copy slot => slot < 65536
  | .compare slot => slot < 65536
  | .reduce slot => slot < 65536
  | .salu core _ => core < 25600
  | .addi core _ => core < 25600
  | .andi core _ => core < 25600
  | .ori core _ => core < 25600
  | .xori core _ => core < 25600
  | .lui core _ => core < 25600
  | .shori core _ => core < 25600
  | .br core _ => core < 25600
  | .jal core _ => core < 25600
  | .jalr core _ => core < 25600
  | .csrr core _ => core < 25600
  | .csrw core _ => core < 25600
  | .halt core _ => core < 25600
  | .brk core _ => core < 25600
  | .drain core _ => core < 25600
  | .dcwb core _ => core < 25600
  | .dcwbi core _ => core < 25600
  | .icinv core _ => core < 25600
  | .ld core _ _ => core < 25600
  | .st core _ _ => core < 25600
  | .vld core _ _ => core < 25600
  | .vst core _ _ => core < 25600
  | .amo core _ => core < 25600
  | .xcopy core _ => core < 25600
  | .sdf core _ => core < 25600
  | .trackerEntryFree core _ => core < 25600
  | .waitge core _ => core < 25600
  | .waitne core _ => core < 25600
  | .waitPoll core => core < 25600
  | .waitTimeLimit core => core < 25600
  | .msend core _ => core < 25600
  | .mrecv core _ => core < 25600
  | .mpeek core _ => core < 25600
  | .valu core _ => core < 25600
  | .vcvt core _ => core < 25600
  | .vred core _ => core < 25600
  | .vperm core _ => core < 25600
  | .pred core _ => core < 25600
  | .mma core _ => core < 25600
  | .acc core _ => core < 25600
  | .ham core _ => core < 25600
  | .launch slot => slot < 65536
  | .launchClaim slot => slot < 65536
  | .kernelWatchdog slot => slot < 65536
  | .haltGrid slot => slot < 65536
  | .channelOpen slot => slot < 65536
  | .channelClose slot => slot < 65536
  | .channelClosed producer handle => producer < 25600 && handle < 64
  | .flitArrive flit => meshFlitWf flit
  | .creditReturn producer handle => producer < 25600 && handle < 64
  | .resetNotice producer handle => producer < 25600 && handle < 64
  | .resetAcknowledgement producer handle => producer < 25600 && handle < 64
  | .search slot => slot < 65536
  | .searchStart slot => slot < 65536
  | .searchLeg packet => packetWf packet
  | .shardResult packet => packetWf packet
  | .insert slot => slot < 65536
  | .sideListAppend slot => slot < 65536
  | .delete slot => slot < 65536
  | .merge slot => slot < 65536
  | .mergeDiscard slot => slot < 65536
  | .mergeBuildStart index => index < 2048
  | .buildDone index => index < 2048
  | .indexCommit slot => slot < 65536
  | .indexCreate slot => slot < 65536
  | .indexDestroy slot => slot < 65536
  | .gather slot => slot < 65536
  | .gatherStart slot => slot < 65536
  | .scatter slot => slot < 65536
  | .tableReplace slot => slot < 65536
  | .replaceStart table => table < 8192
  | .replaceDone table => table < 8192
  | .tablePin slot => slot < 65536
  | .tableUnpin slot => slot < 65536
  | .pinStale pin => pin < 131072
  | .tableCreate slot => slot < 65536
  | .tableDestroy slot => slot < 65536
  | .portTraining port => port < 32
  | .trainingDone port _ => port < 32
  | .trainingTimeout port => port < 32
  | .trainingRetry port => port < 32
  | .retrainTimeout port => port < 32
  | .lockLost port => port < 32
  | .keyCheck port _ => port < 32
  | .retrainRequest port => port < 32
  | .enterLowRate port => port < 32
  | .exitLowRate port => port < 32
  | .linkCtlResend port => port < 32
  | .flitReceive port flit => port < 32 && linkFlitWf flit
  | .nak port _ => port < 32
  | .rekey port _ => port < 32
  | .rekeySend port => port < 32
  | .cablePresent port _ => port < 32
  | .rd packet => packetWf packet
  | .remoteFill packet => packetWf packet
  | .atomic packet => packetWf packet
  | .cmd packet => packetWf packet
  | .pubOpen packet => packetWf packet
  | .wr packet => packetWf packet
  | .wrFinal packet => packetWf packet
  | .groupEnd packet => packetWf packet
  | .pubLine packet => packetWf packet
  | .pubEnd packet => packetWf packet
  | .rdRsp packet => packetWf packet
  | .fillRsp packet => packetWf packet
  | .atomicRsp packet => packetWf packet
  | .cmdRsp packet => packetWf packet
  | .pubRsp packet => packetWf packet
  | .wrAck packet => packetWf packet
  | .pending packet => packetWf packet
  | .pendingTimer source tag => source < 64 && tag < 262144
  | .noRoute packet => packetWf packet
  | .requestTimer tag => tag < 262144
  | .storedResponseExpiry source tag => source < 64 && tag < 262144
  | .mirror record => mirrorRecordWf record
  | .mirrorAck _ => true
  | .takeoverNotice id source => id < 64 && source < 64
  | .releaseIdNotice id source => id < 64 && source < 64
  | .noticeAck id source _ => id < 64 && source < 64
  | .noticeRepeat id destination => id < 64 && destination < 64
  | .acopy slot => slot < 65536
  | .acopyFinal slot => slot < 65536
  | .acopyFinalSend slot => slot < 65536
  | .remoteAtomic slot => slot < 65536
  | .assignId _ => true
  | .routeSet _ _ => true
  | .linkKey _ key => key.length = 32
  | .join _ => true
  | .teardown _ => true
  | .restore _ => true
  | .leave _ => true
  | .fmEventAck _ => true
  | .identityRecord _ => true
  | .heartbeatSend => true
  | .heartbeat _ => true
  | .twinLost => true
  | .probeTimeout => true
  | .warmResetAnnounce => true
  | .announceWaitEnd => true
  | .resilverChunk => true
  | .stepAdmit slot => slot < 65536
  | .admitWaitExpiry => true
  | .admissionHandover => true
  | .contextOpen slot => slot < 65536
  | .offer slot => slot < 65536
  | .offerDeadline _ => true
  | .take slot => slot < 65536
  | .takeWaitExpiry slot => slot < 65536
  | .release slot => slot < 65536
  | .ledgerQuery slot => slot < 65536
  | .checkpoint slot => slot < 65536
  | .contextRun slot => slot < 65536
  | .phaseComplete slot => slot < 65536
  | .katPeriod => true
  | .katDone core _ => core < 25600
  | .mgmtWatchdogExpiry => true
  | .portArbitration _ _ => true
  | .queueSample => true
  | .tenantTable _ _ => true
  | .limitTable _ => true
  | .schedStatsClear _ => true
  | .arm _ => true
  | .disarm _ => true
  | .coreDebugHalt _ => true
  | .coreDebugStep _ => true
  | .resume _ => true
  | .readReg _ => true
  | .writeReg _ _ => true
  | .readSpad _ => true
  | .status _ => true
  | .attest slot => slot < 65536
  | .keyInstall slot => slot < 65536
  | .keyDestroy slot => slot < 65536
  | .fwStage _ chunk => chunk.length ≤ 4096
  | .fwCommit => true
  | .fwCommitAdvance => true
  | .keyRevoke _ => true
  | .mrExtend _ digest => digest.length = 64
  | .inputPowerUp => true
  | .railTimeout rail => rail < 8
  | .powerGood _ => true
  | .stageEnd _ => true
  | .resetN _ _ => true
  | .coldResetRequest _ => true
  | .warmResetRequest _ => true
  | .tenantReset _ => true
  | .tenantResetComplete => true
  | .coreReset _ => true
  | .profileSelect _ => true
  | .profileSelectReset _ _ => true
  | .profileCopy _ => true
  | .powerRequestActive => true
  | .powerRequestDrowsy => true
  | .powerRequestDormant => true
  | .drowsyIdleExpiry => true
  | .powerStateEntry => true
  | .wakeComplete => true
  | .mgmtFrame _ => true
  | .reassemblyTimeout source => source < 2 ^ 48
  | .discover source _ => source < 2 ^ 48
  | .read _ _ => true
  | .write _ _ _ => true
  | .readRows _ _ _ _ => true
  | .writeRows _ _ _ _ _ => true
  | .describe _ _ => true
  | .nextEntry _ _ => true
  | .mgmtTailPresented _ => true
  | .mgmtHeadPresented _ => true
  | .mgmtRequestTake => true
  | .lossOfInput => true
  | .holdupFlushDone _ => true
  | .thermalTrip sensor => sensor < 64
  | .refclkLoss => true
  | .firmwareRestartDone => true
  | .moduleLoss site module => site < 2 && module < 8

end Sys2Proof
end

