-- ==== Sys2Proof/Decode.lean ====
section
/-!
DEFINITION. The commands spelled by words. The table of operations and events gives no row any bits: a command reaches
the package as a descriptor, a packet, a register access or an event, never as an instruction word. So no word spells a
command.
-/

namespace Sys2Proof

/-- The command that a word spells by the table's bits: the table gives none, so none. -/
def decodeTableWord (_nbits _w : Nat) : Option Instr := none

end Sys2Proof
end

