-- ==== Sys2Proof/Config.lean ====
section
/-!
DEFINITION. What the manual leaves open: free values, as constants without a body, so that no proof can use a value of
them. Each is applied to what it may depend on, or to the model's own count of values drawn (State.free).
-/

namespace Sys2Proof

/-- A value that no rule fixes, one for each draw (DESIGN CHOICE, log 1). -/
opaque Config.freeValue : Nat → Nat

/-- The home grid die of a line; the hash is not architectural (01, "The home of a line"). -/
opaque Config.homeDie : Nat → Nat

/-- The grid die whose engine serves a command with this sequence number; the dispatch choice is open (01 stage 5). -/
opaque Config.engineDie : Nat → Nat

/-- The number of the engine that serves a command with this sequence number. -/
opaque Config.engineUnit : Nat → Nat

/-- The grid die that writes a trace record of a kind that no one die is named for (15 Table 15-9). -/
opaque Config.traceDie : Nat → Nat

/-- SEVERITY of an error-log record with this code; Table 13-12 gives the field and no value per code. -/
opaque Config.logSeverity : Nat → Nat

/-- The place, among the live ports of a route row, that the hash of R335 picks; the hash is not given. -/
opaque Config.portHash : Nat → Nat → Nat

/-- The agent row that bytes written to AGENT_TABLE hold; the byte layout of the row is not given (05 R113). -/
opaque Config.agentRowOf : List Byte → AgentRow

/-- Bytes of a row of a TABLE entry whose row layout the manual does not give, less one, by the entry's key; and such a row, of its
fields (18 Table 18-1, DESIGN CHOICE, log 45). -/
opaque Config.rowSize : Nat → Nat
opaque Config.rowLayout : Nat → List Nat → List Byte

/-- Which two terms of a sum of n terms are added next, and the precision kept, at a step of a sum whose order the
manual leaves open (03 R72, R74, R76): draw, number of terms. -/
opaque Config.sumPick : Nat → Nat → Nat × Nat × Nat

/-- The header and digest of the firmware image, and the serial number, that a package is made with (16 R429, 18 Table 18-10). -/
opaque Config.firmwareHeader : List Byte
opaque Config.firmwareDigest : List Byte
opaque Config.serialNumber : List Byte

/-- The choices of the L1 encoder: element width code and DELTA of a chunk, and the group code of a group (03 R80): the
stored bytes are not architectural. -/
opaque Config.l1Shape : List Byte → Nat × Bool
opaque Config.l1Group : List Nat → Nat

/-- Tiles of a KV block of the model with this MODEL_ID: one key tile and one value tile per KV head; no structure that
the device reads gives the number of heads (02 R59). -/
opaque Config.kvTiles : Nat → Nat

/-- The PUF seed, the Falcon-1024 key pair derived from it and the certificate of the part (16 R426 to R428). -/
opaque Config.deviceSeed : List Byte
opaque Config.falconPublicKey : List Byte → List Byte
opaque Config.falconSign : List Byte → List Byte → Nat → List Byte
opaque Config.identityCertificate : List Byte

/-- Whether a signature verifies under ROM key k over a digest (16 R429, R430). -/
opaque Config.falconVerify : Nat → List Byte → List Byte → Bool

/-- Digests that extend MR0 and MR3, and the digest of a profile's stored values, which extends MR2 (16 Table 16-2). -/
opaque Config.bootDigest : List Byte
opaque Config.phyDigest : List Byte
opaque Config.profileDigest : Nat → List (Nat × Nat) → List Byte

/-- Fraction bits of a limiter credit beyond the 16 that it has at least (14 R403). -/
opaque Config.creditBits : Nat

end Sys2Proof
end

