-- ==== Sys2Proof/Machine/Bits.lean ====
section
/-!
DEFINITION. Bit fields, little-endian bytes, sparse maps and CRC-32C: the plain data operations of every chapter.
-/

namespace Sys2Proof

/-! ### Sparse maps -/

/-- The value at key `k`. -/
def SMap.look {α : Type} (m : SMap α) (k : Nat) : Option α :=
  match m with
  | [] => none
  | (k', v) :: rest => if k = k' then some v else SMap.look rest k

/-- The value at key `k`, or `d`. -/
def SMap.get {α : Type} (m : SMap α) (k : Nat) (d : α) : α :=
  (SMap.look m k).getD d

/-- Whether key `k` holds a value. -/
def SMap.has {α : Type} (m : SMap α) (k : Nat) : Bool :=
  (SMap.look m k).isSome

/-- The map with `v` at key `k`, in rising order of keys. -/
def SMap.put {α : Type} (m : SMap α) (k : Nat) (v : α) : SMap α :=
  match m with
  | [] => [(k, v)]
  | (k', v') :: rest =>
    if k < k' then (k, v) :: (k', v') :: rest
    else if k = k' then (k, v) :: rest
    else (k', v') :: SMap.put rest k v

/-- The map without key `k`. -/
def SMap.del {α : Type} (m : SMap α) (k : Nat) : SMap α :=
  match m with
  | [] => []
  | (k', v') :: rest => if k = k' then rest else (k', v') :: SMap.del rest k

/-- The map with `v` at key `k`, where a key that holds the default `d` is not listed. -/
def SMap.putD {α : Type} [DecidableEq α] (m : SMap α) (k : Nat) (v d : α) : SMap α :=
  if v = d then SMap.del m k else SMap.put m k v

/-- The map with `f` applied to the value at `k`, if there is one. -/
def SMap.upd {α : Type} (m : SMap α) (k : Nat) (f : α → α) : SMap α :=
  match m with
  | [] => []
  | (k', v') :: rest => if k = k' then (k', f v') :: rest else (k', v') :: SMap.upd rest k f

/-- The map with `f` applied to every key and value. -/
def SMap.each {α β : Type} (m : SMap α) (f : Nat → α → β) : SMap β :=
  m.map fun (k, v) => (k, f k v)

/-- The pairs that satisfy `p`. -/
def SMap.only {α : Type} (m : SMap α) (p : Nat → α → Bool) : SMap α :=
  m.filter fun (k, v) => p k v

/-- The keys, rising. -/
def SMap.keys {α : Type} (m : SMap α) : List Nat :=
  m.map (·.1)

/-- The keys rise strictly: the canonical form. -/
abbrev SMap.Sorted {α : Type} (m : SMap α) : Prop :=
  m.Pairwise fun a b => a.1 < b.1

/-- The least number from 0 that is not in `l`, among the first `fuel` + 1 numbers above `n`. -/
def leastFree (l : List Nat) (fuel n : Nat) : Nat :=
  match fuel with
  | 0 => n
  | f + 1 => if l.contains n then leastFree l f (n + 1) else n

/-- `l` with `n` inserted in rising order, once. -/
def insertNat (l : List Nat) (n : Nat) : List Nat :=
  match l with
  | [] => [n]
  | k :: rest => if n < k then n :: k :: rest else if n = k then k :: rest else k :: insertNat rest n

/-! ### Bit fields (00 R5: bit 0 is the least significant bit; a range is written [msb:lsb]) -/

/-- Bits [lo + w - 1 : lo] of `v`, as a number. -/
def bitsOf (v lo w : Nat) : Nat :=
  v / 2 ^ lo % 2 ^ w

/-- Bit `i` of `v`. -/
def bitOf (v i : Nat) : Bool :=
  v / 2 ^ i % 2 = 1

/-- Bits [lo + w - 1 : lo] of a word, as a number. -/
def fld {n : Nat} (v : BitVec n) (lo w : Nat) : Nat :=
  bitsOf v.toNat lo w

/-- Bit `i` of a word. -/
def flag {n : Nat} (v : BitVec n) (i : Nat) : Bool :=
  bitOf v.toNat i

/-- A Boolean as a bit. -/
def bit (b : Bool) : Nat :=
  if b then 1 else 0

/-- `v` with bits [lo + w - 1 : lo] replaced by the low bits of `x`. -/
def setFld (v lo w x : Nat) : Nat :=
  v - bitsOf v lo w * 2 ^ lo + x % 2 ^ w * 2 ^ lo

/-- `x` as a two's complement number of `w` bits. -/
def signed (w x : Nat) : Int :=
  if x % 2 ^ w < 2 ^ (w - 1) then (x % 2 ^ w : Nat) else (x % 2 ^ w : Nat) - (2 ^ w : Nat)

/-- The low `w` bits of an integer. -/
def wrap (w : Nat) (i : Int) : Nat :=
  (i % (2 ^ w : Nat)).toNat

/-- `v` as `n` little-endian bytes (00 R5). -/
def leBytes (n v : Nat) : List Byte :=
  match n with
  | 0 => []
  | k + 1 => BitVec.ofNat 8 v :: leBytes k (v / 256)

/-- The number that little-endian bytes hold (00 R5). -/
def leNat (bs : List Byte) : Nat :=
  match bs with
  | [] => 0
  | b :: rest => b.toNat + 256 * leNat rest

/-- Packs fields, each a value and its width in bits, from bit 0 up. -/
def pack (fields : List (Nat × Nat)) : Nat :=
  match fields with
  | [] => 0
  | (v, w) :: rest => v % 2 ^ w + 2 ^ w * pack rest

/-- The first `n` bytes of `bs`, filled with zeros. -/
def padTo (n : Nat) (bs : List Byte) : List Byte :=
  bs.take n ++ List.replicate (n - bs.length) 0

/-- `bs` cut into pieces of `k` bytes, at most `fuel` of them. -/
def chunksOf (k fuel : Nat) (bs : List Byte) : List (List Byte) :=
  match fuel with
  | 0 => []
  | f + 1 => if bs.isEmpty then [] else bs.take k :: chunksOf k f (bs.drop k)

/-- `x` rounded up to a multiple of `k`. -/
def roundUp (x k : Nat) : Nat :=
  (x + k - 1) / k * k

/-- Whole units of `k` that cover `x`. -/
def ceilDiv (x k : Nat) : Nat :=
  (x + k - 1) / k

/-- The first result `some` of `f` over a list. -/
def firstSome {α β : Type} (l : List α) (f : α → Option β) : Option β :=
  match l with
  | [] => none
  | a :: rest => match f a with
    | some b => some b
    | none => firstSome rest f

/-! ### CRC-32C

The Castagnoli polynomial, reflected, with all-ones start and final inversion. -/

/-- One bit of CRC-32C. -/
def crcBit (c : Nat) : Nat :=
  if c % 2 = 1 then (c / 2) ^^^ 0x82F63B78 else c / 2

/-- One byte of CRC-32C. -/
def crcByte (c : Nat) (b : Byte) : Nat :=
  let c := c ^^^ b.toNat
  crcBit (crcBit (crcBit (crcBit (crcBit (crcBit (crcBit (crcBit c)))))))

/-- CRC-32C of a list of bytes (02 R43, 06 Table 6-13, 18 R466). -/
def crc32c (bs : List Byte) : Nat :=
  bs.foldl crcByte 0xFFFFFFFF ^^^ 0xFFFFFFFF

end Sys2Proof
end

