-- ==== Sys2Proof/Machine/Float.lean ====
section
/-!
DEFINITION. Number formats and arithmetic (chapter 3): every finite value is an exact dyadic number, and each result is
rounded once, to nearest with ties to even.
-/

namespace Sys2Proof

/-- A number: not a number, an infinity, or (-1)^neg × m × 2^e. -/
inductive Num where
  | nan
  | inf (neg : Bool)
  | fin (neg : Bool) (m : Nat) (e : Int)
  deriving DecidableEq, Repr

/-- What the encodings at the top of the exponent range mean: IEEE 754 infinities and NaN (E5M2 follows them), the one
NaN of E4M3, or finite values only (E2M1). -/
inductive FmtTop where
  | ieee | e4m3 | finite
  deriving DecidableEq, Repr

/-- A floating-point format (03 Table 3-1): exponent and mantissa bits, bias, top of range, and whether a finite value
above the largest finite one saturates (03 Table 3-2). -/
structure Fmt where
  ew : Nat
  mw : Nat
  bias : Nat
  top : FmtTop
  saturates : Bool
  deriving DecidableEq, Repr

def binary32 : Fmt := ⟨8, 23, 127, .ieee, false⟩
def bfloat16 : Fmt := ⟨8, 7, 127, .ieee, false⟩
def binary16 : Fmt := ⟨5, 10, 15, .ieee, false⟩
def fmtE4m3 : Fmt := ⟨4, 3, 7, .e4m3, true⟩
def fmtE5m2 : Fmt := ⟨5, 2, 15, .ieee, true⟩
def fmtE2m1 : Fmt := ⟨2, 1, 1, .finite, true⟩

/-- Bits of an element. -/
def Fmt.bits (f : Fmt) : Nat := 1 + f.ew + f.mw

/-! ### Flags (07 Table 7-15): NV bit 0, OF bit 1, UF bit 2, SAT bit 3 -/

def flagNv : Nat := 1
def flagOf : Nat := 2
def flagUf : Nat := 4
def flagSat : Nat := 8

/-! ### Reading an encoding -/

/-- The number that an encoding stands for (03 R65 to R67). -/
def Fmt.read (f : Fmt) (v : Nat) : Num :=
  let neg := bitOf v (f.ew + f.mw)
  let ex := bitsOf v f.mw f.ew
  let mant := bitsOf v 0 f.mw
  let sub : Num := .fin neg mant (1 - (f.bias : Int) - f.mw)
  let norm : Num := .fin neg (mant + 2 ^ f.mw) ((ex : Int) - f.bias - f.mw)
  if ex = 0 then sub
  else match f.top with
    | .ieee => if ex = 2 ^ f.ew - 1 then (if mant = 0 then .inf neg else .nan) else norm
    | .e4m3 => if ex = 2 ^ f.ew - 1 && mant = 2 ^ f.mw - 1 then .nan else norm
    | .finite => norm

/-! ### Rounding (03 R69) -/

/-- Bits of a natural number. -/
def bitLen (m : Nat) : Nat := if m = 0 then 0 else Nat.log2 m + 1

/-- m × 2^e rounded to a multiple of 2^q, to nearest with ties to even: the multiple, and whether it is inexact. -/
def roundAt (m : Nat) (e q : Int) : Nat × Bool :=
  if q ≤ e then (m * 2 ^ (e - q).toNat, false)
  else
    let sh := (q - e).toNat
    let d := m / 2 ^ sh
    let r := m % 2 ^ sh
    let half := 2 ^ (sh - 1)
    (if r > half || (r = half && d % 2 = 1) then d + 1 else d, r ≠ 0)

/-- The place of the last bit kept when m × 2^e is rounded to p bits. -/
def lastPlace (m : Nat) (e : Int) (p : Nat) : Int := max e (e + bitLen m - p)

/-- A number rounded to p bits with no bound on its exponent. -/
def Num.roundBits (p : Nat) (x : Num) : Num :=
  match x with
  | .fin neg m e => .fin neg (roundAt m e (lastPlace m e p)).1 (lastPlace m e p)
  | x => x

/-- The NaN that the device produces (03 R65, R66). -/
def Fmt.nanCode (f : Fmt) : Nat :=
  match f.top with
  | .ieee => (2 ^ f.ew - 1) * 2 ^ f.mw + 2 ^ (f.mw - 1)
  | .e4m3 => 0x7F
  | .finite => 0

/-- The largest finite encoding, sign clear. -/
def Fmt.maxCode (f : Fmt) : Nat :=
  match f.top with
  | .ieee => (2 ^ f.ew - 1) * 2 ^ f.mw - 1
  | .e4m3 => 0x7E
  | .finite => 2 ^ (f.ew + f.mw) - 1

/-- A sign bit in its place. -/
def Fmt.sign (f : Fmt) (neg : Bool) : Nat := if neg then 2 ^ (f.ew + f.mw) else 0

/-- Whether m × 2^e, rounded as if the exponent range were unbounded, lies below the smallest normal (07 Table 7-15). -/
def Fmt.tiny (f : Fmt) (m : Nat) (e : Int) : Bool :=
  let q := lastPlace m e (f.mw + 1)
  let r := (roundAt m e q).1
  m ≠ 0 && (bitLen r : Int) + q ≤ 1 - (f.bias : Int)

/-- The encoding of a number, rounded once (03 R69, R70, Table 3-2), and the flags of 07 Table 7-15. -/
def Fmt.write (f : Fmt) (x : Num) : Nat × Nat :=
  match x with
  | .nan => (f.nanCode, 0)
  | .inf neg => match f.top with
    | .ieee => (f.sign neg + (2 ^ f.ew - 1) * 2 ^ f.mw, 0)
    | .e4m3 => (f.nanCode, flagNv)
    | .finite => (f.sign neg + f.maxCode, flagSat)
  | .fin neg m e =>
    let emin : Int := 1 - (f.bias : Int) - f.mw
    let q := max emin (e + bitLen m - (f.mw + 1 : Nat))
    let (r, inexact) := roundAt m e q
    let uf := if inexact && f.tiny m e then flagUf else 0
    if r < 2 ^ f.mw then (f.sign neg + r, uf)
    else
      -- the place value of a rounded significand of 2^(mw+1) moves up by one
      let (r, q) := if r = 2 ^ (f.mw + 1) then (2 ^ f.mw, q + 1) else (r, q)
      let code := (q - emin + 1).toNat * 2 ^ f.mw + (r - 2 ^ f.mw)
      if code > f.maxCode then
        if f.saturates then (f.sign neg + f.maxCode, flagSat)
        else (f.sign neg + (f.maxCode + 1), flagOf)
      else (f.sign neg + code, uf)

/-! ### Exact arithmetic -/

/-- The sign of a number. -/
def Num.neg? (x : Num) : Bool :=
  match x with
  | .nan => false
  | .inf n => n
  | .fin n _ _ => n

def Num.isNan (x : Num) : Bool := x = .nan
def Num.isInf (x : Num) : Bool :=
  match x with
  | .inf _ => true
  | _ => false

/-- The value with the other sign. -/
def Num.negate (x : Num) : Num :=
  match x with
  | .nan => .nan
  | .inf n => .inf !n
  | .fin n m e => .fin (!n) m e

/-- The value without its sign. -/
def Num.abs (x : Num) : Num :=
  match x with
  | .nan => .nan
  | .inf _ => .inf false
  | .fin _ m e => .fin false m e

/-- Signed significand at a place `e0` at or below `e`. -/
def signedAt (neg : Bool) (m : Nat) (e e0 : Int) : Int :=
  let v : Int := ((m * 2 ^ (e - e0).toNat : Nat) : Int)
  if neg then -v else v

/-- The exact sum (03 R65, R72). -/
def Num.add (a b : Num) : Num :=
  match a, b with
  | .nan, _ => .nan
  | _, .nan => .nan
  | .inf x, .inf y => if x = y then .inf x else .nan
  | .inf x, .fin .. => .inf x
  | .fin .., .inf y => .inf y
  | .fin x m e, .fin y n k =>
    let e0 := min e k
    let v := signedAt x m e e0 + signedAt y n k e0
    if v = 0 then .fin (x && y) 0 e0 else .fin (v < 0) v.natAbs e0

/-- The exact product. -/
def Num.mul (a b : Num) : Num :=
  match a, b with
  | .nan, _ => .nan
  | _, .nan => .nan
  | .inf x, .inf y => .inf (x != y)
  | .inf x, .fin y n _ => if n = 0 then .nan else .inf (x != y)
  | .fin x m _, .inf y => if m = 0 then .nan else .inf (x != y)
  | .fin x m e, .fin y n k => .fin (x != y) (m * n) (e + k)

/-- The quotient to 64 bits or more with a sticky last bit, so that one rounding to any supported format is correct. -/
def Num.div (a b : Num) : Num :=
  match a, b with
  | .nan, _ => .nan
  | _, .nan => .nan
  | .inf _, .inf _ => .nan
  | .inf x, .fin y _ _ => .inf (x != y)
  | .fin x _ _, .inf y => .fin (x != y) 0 0
  | .fin x m e, .fin y n k =>
    if n = 0 then (if m = 0 then .nan else .inf (x != y))
    else
      let sh := 64 + bitLen n
      let q := m * 2 ^ sh / n
      let r := m * 2 ^ sh % n
      .fin (x != y) (2 * q + bit (r ≠ 0)) (e - k - sh - 1)

/-- The integer square root of `n`, by bits from bit `i` - 1 down. -/
def isqrt (i n acc : Nat) : Nat :=
  match i with
  | 0 => acc
  | k + 1 => if (acc + 2 ^ k) * (acc + 2 ^ k) ≤ n then isqrt k n (acc + 2 ^ k) else isqrt k n acc

/-- The square root with a sticky last bit; of a negative number it is NaN, and the root of a zero keeps its sign. -/
def Num.sqrt (a : Num) : Num :=
  match a with
  | .nan => .nan
  | .inf neg => if neg then .nan else .inf false
  | .fin neg m e =>
    if m = 0 then .fin neg 0 e
    else if neg then .nan
    else
      -- an even place below e that leaves at least 64 bits in the root
      let sh : Nat := 128 + (e % 2).toNat
      let n := m * 2 ^ sh
      let r := isqrt ((bitLen n + 1) / 2 + 1) n 0
      .fin false (2 * r + bit (r * r ≠ n)) ((e - sh) / 2 - 1)

/-- Whether a < b as numbers; false with a NaN. -/
def Num.lt (a b : Num) : Bool :=
  match a, b with
  | .nan, _ => false
  | _, .nan => false
  | .inf x, .inf y => x && !y
  | .inf x, .fin .. => x
  | .fin .., .inf y => !y
  | .fin x m e, .fin y n k =>
    let e0 := min e k
    signedAt x m e e0 < signedAt y n k e0

/-- Whether a = b as numbers; false with a NaN. -/
def Num.eqv (a b : Num) : Bool :=
  !a.isNan && !b.isNan && !a.lt b && !b.lt a

/-- Order of 03 R74: by value, with -0 below +0. -/
def Num.below (a b : Num) : Bool :=
  a.lt b || (a.eqv b && a.neg? && !b.neg?)

/-- Minimum by 03 R74: NaN if any input is NaN. -/
def Num.minimum (a b : Num) : Num :=
  if a.isNan || b.isNan then .nan else if b.below a then b else a

/-- Maximum by 03 R74: NaN if any input is NaN. -/
def Num.maximum (a b : Num) : Num :=
  if a.isNan || b.isNan then .nan else if a.below b then b else a

/-- An integer as a number. -/
def Num.ofInt (i : Int) : Num := .fin (i < 0) i.natAbs 0

/-- NV: a NaN produced from inputs none of which is NaN (07 Table 7-15). -/
def nvOf (inputs : List Num) (r : Num) : Nat :=
  if r.isNan && !inputs.any Num.isNan then flagNv else 0

/-- A number as an integer of the range lo to hi, rounded (03 R69), saturated, a NaN as 0; SAT (07 R196). -/
def Num.toInt (x : Num) (lo hi : Int) : Int × Nat :=
  match x with
  | .nan => (0, flagSat)
  | .inf neg => (if neg then lo else hi, flagSat)
  | .fin neg m e =>
    let r := (roundAt m e 0).1
    let v : Int := if neg then -(r : Int) else r
    if v < lo then (lo, flagSat) else if v > hi then (hi, flagSat) else (v, 0)

/-- The binary32 encoding of the exact sum of two binary32 encodings (05 Table 5-5, FADD). -/
def fadd32 (a b : Nat) : Nat :=
  (binary32.write ((binary32.read a).add (binary32.read b))).1

/-! ### Sums whose order the manual leaves open (03 R72, R74, R76) -/

/-- One addition of a sum: rounded in binary32, or to more bits; and the flags it raises. -/
def addOpen (extra : Nat) (a b : Num) : Num × Nat :=
  let r := a.add b
  let nv := nvOf [a, b] r
  if extra = 0 then (binary32.read (binary32.write r).1, nv ||| (binary32.write r).2) else (r.roundBits (24 + extra), nv)

/-- A sum of terms in an order and with intermediate widths that nothing fixes: draw `d` names the next pair. Two terms
are added with one rounding in binary32. -/
def sumOpen (fuel d flags : Nat) (terms : List Num) : Num × Nat :=
  match fuel with
  | 0 => (terms.headD (.fin false 0 0), flags)
  | k + 1 =>
    match terms with
    | [] => (.fin false 0 0, flags)
    | [a] => (a, flags)
    | [a, b] => ((addOpen 0 a b).1, flags ||| (addOpen 0 a b).2)
    | _ =>
      let (i, j, extra) := Config.sumPick d terms.length
      let i := i % terms.length
      let a := terms.getD i .nan
      let rest := terms.eraseIdx i
      let j := j % rest.length
      let b := rest.getD j .nan
      sumOpen k (d + 1) (flags ||| (addOpen extra a b).2) ((addOpen extra a b).1 :: rest.eraseIdx j)

/-- The sum of terms whose order is open, as a binary32 number, from draw `d`, with the flags of its roundings. -/
def sumTerms (d : Nat) (terms : List Num) : Num × Nat := sumOpen terms.length d 0 terms

/-! ### MX blocks (03 R67, R82) -/

/-- The value of a scale byte. -/
def scaleRead (b : Nat) : Num :=
  if b = 0xFF then .nan else .fin false 1 ((b : Int) - 127)

/-- An MX element with its block's scale (03 R67). -/
def mxRead (f : Fmt) (scale elem : Nat) : Num :=
  if scale = 0xFF then .nan else (f.read elem).mul (scaleRead scale)

/-- Whether |x| ≤ M × 2^e, for M of 448 or 6 (03 Table 3-6). -/
def fitsScale (big : Nat) (x : Num) (e : Int) : Bool :=
  !(Num.fin false big e).lt x.abs

/-- The least e from `e` up, within `fuel` steps, with |x| ≤ M × 2^e. -/
def leastScale (big : Nat) (x : Num) (fuel : Nat) (e : Int) : Int :=
  match fuel with
  | 0 => e
  | k + 1 => if fitsScale big x e then e else leastScale big x k (e + 1)

/-- Converts values into one MX block (03 R82): the scale byte, the element encodings, and the flags of 07 Table 7-15. -/
def mxWrite (f : Fmt) (big : Nat) (xs : List Num) : Nat × List Nat × Nat :=
  if xs.any fun x => x.isNan || x.isInf then
    (0xFF, xs.map fun _ => 0, if xs.any Num.isNan then 0 else flagNv)
  else
    let amax := xs.foldl (fun a x => if a.lt x.abs then x.abs else a) (.fin false 0 0)
    if amax.eqv (.fin false 0 0) then (0, xs.map fun x => f.sign x.neg?, 0)
    else
      let e := leastScale big amax 254 (-127)
      let rs := xs.map fun x => f.write (x.mul (.fin false 1 (-e)))
      ((e + 127).toNat, rs.map (·.1), rs.foldl (fun a r => a ||| r.2) 0)

/-! ### Element formats by their FORMAT code (02 Table 2-7, 03 Table 3-1) -/

/-- The floating format of a FORMAT code 0x0 to 0x4. -/
def fmtOfCode (code : Nat) : Option Fmt :=
  match code with
  | 0 => some binary32
  | 1 => some bfloat16
  | 2 => some binary16
  | 3 => some fmtE4m3
  | 4 => some fmtE5m2
  | _ => none

/-- Bytes of an element of a FORMAT code accepted by REDUCE and the embedding tables: 0x0 to 0x4 and 0x7. -/
def elemBytes (code : Nat) : Nat :=
  match code with
  | 0 => 4
  | 1 | 2 => 2
  | _ => 1

/-- The number that element bytes hold. -/
def elemRead (code v : Nat) : Num :=
  match fmtOfCode code with
  | some f => f.read v
  | none => .ofInt (signed 8 v)

/-- The element bytes of a number (03 R70): INT8 saturates and a NaN becomes 0. -/
def elemWrite (code : Nat) (x : Num) : Nat :=
  match fmtOfCode code with
  | some f => (f.write x).1
  | none => wrap 8 (x.toInt (-128) 127).1

end Sys2Proof
end

