-- ==== Sys2Proof/Machine/State.lean ====
section
/-!
DEFINITION. The state of one HJL-2900 package as plain data: every register, ring, table, cache, queue, counter and pin
that the manual gives the package, the queue of pending commands, and the state after reset.
Numbered collections are sparse maps (SMap); an absent key means the object does not exist, or holds its default.
-/

namespace Sys2Proof.Machine

/-! ### How a step can stop -/

/-- Why a step stops with a fault. No rule of the manual stops the part on a command: every bad access, descriptor or
request has an outcome of its own (a status, a poisoned line, an exception record), so there is no constructor. -/
inductive Fault where
  deriving DecidableEq, Repr

/-- Why a step is refused. -/
inductive Refusal where
  /-- Raised by an arm of exec whose command has no meaning yet; safe: nothing is claimed of the command. -/
  | notModelled (mnemonic : String)
  deriving DecidableEq, Repr

/-! ### Status codes -/

/-- Management status codes (18 Table 18-4). -/
inductive MStatus where
  | ok | noEntry | access | range | state | length | format
  deriving DecidableEq, Repr

/-! ### The assembly -/

/-- The die population of the ordering code (00 R1, Table 0-1). -/
structure Assembly where
  hbm : Nat
  flash : Nat
  ports : Nat
  procs : Nat
  deriving DecidableEq, Repr

/-! ### Rings, slots and leases (chapter 6) -/

/-- Where a command that holds an executing slot stands: fetched and not dispatched, waiting at a bound of its own
chapter, running, or finished and waiting for its record to be written. -/
inductive SlotStage where
  | fetched | waiting | running | finished
  deriving DecidableEq, Repr

/-- An executing slot (06 R157, R161 to R167). -/
structure Slot where
  ring : Nat
  pos : Nat
  desc : Desc
  opcode : Nat
  tenant : Nat
  stage : SlotStage
  status : Status
  count : Nat
  result : Nat
  fetchTime : Nat
  dispatchTime : Nat
  waitSince : Nat
  parts : Nat
  cursor : Nat
  /-- Numbers that the command keeps between its runs. -/
  marks : List Nat
  /-- A change of mirrored metadata that it made has been sent to the twin (13 R367). -/
  committed : Bool
  resp : List Resp
  deriving DecidableEq, Repr

/-- An MSI-X vector (06 R168). -/
structure Vector2 where
  holdoff : Bool
  pending : Bool
  sent : Nat
  deriving DecidableEq, Repr

/-- The command front ends. -/
structure FrontEnd where
  rings : SMap Ring
  cqs : SMap Cq
  /-- Leases that are current (06 R170). -/
  leases : SMap Nat
  slots : SMap Slot
  /-- Virtual times of the slot pick (14 R397, R401). -/
  vt : SMap Nat
  lastRing : SMap Nat
  vectors : SMap Vector2
  /-- The first failure of the copy groups of rings, by ring × 16 + group (12 R345). -/
  groupFails : SMap Status
  deriving DecidableEq, Repr

/-! ### Translation and extents (chapter 4) -/

/-- Something that waits on a translation fault. -/
inductive Waiter where
  /-- The command with sequence number `seq` in slot `n`. -/
  | slot (n seq : Nat)
  | ring (n : Nat)
  | core (n : Nat)
  | agent (n : Nat)
  /-- The write of a completion record into completion ring `n` (06 R165). -/
  | cq (n : Nat)
  /-- The write of the status block of ring `n` (06 R154). -/
  | status (n : Nat)
  /-- The write of a trace record, or an access of the management controller (15 R424, 18 R471). -/
  | device
  /-- The tracker entry of a core with an order number. -/
  | track (core order : Nat)
  /-- The streaming of a loaded model (02 R49). -/
  | model (n : Nat)
  /-- The replacement that runs on table `n` (11 R312). -/
  | table (n : Nat)
  /-- The build of a merge of index `n` (10 R285). -/
  | index (n : Nat)
  /-- A part of another package's command, by the source and tag of its request (12 R332). -/
  | part (source tag : Nat)
  deriving DecidableEq, Repr

/-- A pending translation fault (04 R98, Table 4-6). -/
structure PendingFault where
  unit : Nat
  asid : Nat
  va : Nat
  cause : Nat
  write : Bool
  reqCount : Nat
  tenant : Nat
  reqClass : Nat
  reqIndex : Nat
  cmdSeq : Nat
  time : Nat
  batch : Option Nat
  waiters : List Waiter
  deriving DecidableEq, Repr

/-- A closed fault batch (04 R99 to R102): its records, whether it is written and whether it is resolved. -/
structure Batch where
  number : Nat
  records : List PendingFault
  written : Bool
  resolved : Bool
  deriving DecidableEq, Repr

structure Translation where
  asids : SMap Asid
  maps : List Mapping
  /-- Pages held by the translation caches of GD0 to GD3: (unit, asid, VA of the page) (04 R91). -/
  tcache : List (Nat × Nat × Nat)
  /-- TCACHE_MISSES of each unit (0x4001). -/
  misses : SMap Nat
  faults : List PendingFault
  batches : List Batch
  nextBatch : Nat
  ringTail : Nat
  lastBatch : Nat
  deriving DecidableEq, Repr

/-! ### Coherence (chapter 5) -/

/-- A directory entry (05 Table 5-3). While the holders of a B entry are being invalidated it lists them all. -/
inductive DirEntry where
  | shared (agents : List Nat)
  | broadcast
  | exclusive (owner : Nat)
  deriving DecidableEq, Repr

/-- What a snoop asks of an agent (05 Table 5-4): data and keep a shared copy, or invalidate. -/
inductive SnoopKind where
  | data | invalidate
  deriving DecidableEq, Repr

/-- A snoop that waits for its answer. -/
structure Snoop where
  agent : Nat
  line : Nat
  kind : SnoopKind
  /-- Sent by the expiry of the recall timer of a watched line (05 R126). -/
  recalled : Bool
  deriving DecidableEq, Repr

/-- What a watched line drives (05 R124, 18 R469). -/
inductive Watcher where
  | tail (ring : Nat)
  | head (cq : Nat)
  | mgmtTail
  | mgmtHead
  deriving DecidableEq, Repr

/-- A watched line: its watcher, the last value presented, and whether its recall timer runs. -/
structure Watch where
  watcher : Watcher
  last : Nat
  timer : Bool
  deriving DecidableEq, Repr

/-- An entry of a die's atomic line buffer (05 R121): the line and the order of its most recent atomic. -/
structure AlbEntry where
  die : Nat
  line : Nat
  stamp : Nat
  deriving DecidableEq, Repr

structure Coherence where
  agents : SMap AgentRow
  dir : SMap DirEntry
  snoops : List Snoop
  watches : SMap Watch
  alb : List AlbEntry
  albStamp : Nat
  /-- Atomics that wait at their home for an entry (05 R122), in home order. -/
  albWaiting : List AtomicRequest
  /-- The old value that the last atomic of HOME_ATOMIC returned. -/
  albReturn : Nat
  /-- The last answer given to a caching agent: the line's data, or poison. -/
  agentAnswer : Option Resp
  /-- Fill answers for agents, by agent (05 R128). -/
  mail : SMap (List Resp)
  deriving DecidableEq, Repr

/-- State of a remote line cache line (05 R129). -/
inductive RlcState where
  | clean | dirty | held
  deriving DecidableEq, Repr

/-- A line of the remote line cache: its data, one dirty bit per byte (09 R245), whether it lies in a versioned region. -/
structure RlcLine where
  state : RlcState
  data : List Byte
  mask : BitVec 64
  versioned : Bool
  poisoned : Bool
  deriving DecidableEq, Repr

structure RemoteCache where
  lines : SMap RlcLine
  regions : SMap Region
  /-- Order in which accepted publishes take staging (05 R134). -/
  stagingOrder : List Nat
  rlcExtent : Option Nat
  stagingExtents : List Nat
  stagingMib : Nat
  deriving DecidableEq, Repr

/-! ### Flash and far tier (chapter 2) -/

/-- An erase block: erase count, page reads and pages programmed since its erase, valid pages, write stream (0 whole-page
sequential, 1 other, 2 relocations; 3 while erased), whether it is queued for relocation or retired. -/
structure Block where
  erases : Nat
  reads : Nat
  used : Nat
  valid : List Nat
  stream : Nat
  relocate : Bool
  retired : Bool
  deriving DecidableEq, Repr

/-- One flash stack (02 R27 to R36). -/
structure Stack where
  free : Nat
  blocks : SMap Block
  grownBad : Nat
  reserve : Nat
  readOnly : Bool
  /-- Logical pages in the write buffer: page, bytes held, stream (02 R28). -/
  buffer : SMap (Nat × Nat)
  /-- FTL map: logical page to block (02 R30). -/
  map : SMap Nat
  eraseSum : Nat
  hostBytes : Nat
  programmed : Nat
  lifeWarned : Bool
  deriving DecidableEq, Repr

/-- A host-side HDM decoder (02 R38, Table 2-19): base and size in the far-tier region, ways, granule, ports, up. -/
structure Decoder where
  base : Nat
  size : Nat
  ways : Nat
  granule : Nat
  ports : List Nat
  up : Bool
  deriving DecidableEq, Repr

structure Flash where
  flashStacks : SMap Stack
  decoders : SMap Decoder
  deriving DecidableEq, Repr

/-- A loaded model (02 R48 to R58). -/
structure Model where
  asid : Nat
  mdVa : Nat
  tenant : Nat
  /-- Sequence number of the MODEL_LOAD, under which the tile engines stream. -/
  seq : Nat
  desc : Desc
  /-- Layers as (SRC_VA, TILES), and the schedule table in schedule mode. -/
  layers : List (Nat × Nat)
  schedule : List Nat
  /-- A new table, the pass from which it is in effect, and the sequence number of its MODEL_SCHEDULE (02 R56). -/
  nextSchedule : Option (List Nat × Nat × Nat)
  inFlight : List Nat
  issued : Nat
  landed : List Nat
  /-- Executions of resident entries that a new table still has to load (02 R55, R56). -/
  reload : List Nat
  ready : Nat
  stopped : Bool
  /-- Sequence number of the MODEL_LOAD that has not completed. -/
  loadSeq : Option Nat
  /-- Executions whose landing completes the MODEL_LOAD (02 R55). -/
  first : List Nat
  unload : Bool
  resp : List Resp
  deriving DecidableEq, Repr

/-! ### Silt cores and the grid (chapters 7 and 8) -/

/-- What kernel activity a core has. -/
inductive CoreRun where
  | idle | running | ending
  deriving DecidableEq, Repr

/-- Debug state of a core (15 R422). -/
inductive DebugState where
  | running | halted | stepping
  deriving DecidableEq, Repr

/-- A data cache line (07 R182): data, one dirty bit per byte (09 R245), and whether it was filled poisoned. -/
structure DLine where
  data : List Byte
  dirty : BitVec 64
  poisoned : Bool
  deriving DecidableEq, Repr

/-- What a range tracker entry stands for (07 R185). -/
inductive TrackKind where
  | store | writeBack | copySource | copyDest | sdf
  deriving DecidableEq, Repr

/-- A write that a tracker entry still has to make: its global physical address, VA and length within one line; its data,
with a byte mask for a line written back; or, for a copy, the source ranges that it reads. -/
structure TrackWrite where
  address : Nat
  va : Nat
  length : Nat
  data : List Byte
  mask : Option (BitVec 64)
  sources : List (Nat × Nat)
  deriving DecidableEq, Repr

/-- An entry of the range tracker (07 R185): the global physical ranges it covers, whether it writes, the writes that
have not landed, the order number of a copy's source entry, and the copy group, FINAL flag and arrival counter of R203.
`order` counts the entries of the core. -/
structure Track where
  kind : TrackKind
  pieces : List (Nat × Nat)
  write : Bool
  todo : List TrackWrite
  partner : Nat
  group : Option Nat
  final : Bool
  counter : Option Nat
  order : Nat
  resp : List Resp
  deriving DecidableEq, Repr

/-- What a core waits for (07 R205, R206): a counter at a VA, with its target, the CCLK at which its time limit passes (0:
none) and the last value read; or a packet. -/
inductive CoreWait where
  | counter (ge : Bool) (va : Nat) (target : Word) (limit : Nat) (rd : Nat) (last : Word)
  | message (queue : Nat) (target : Nat) (rd : Nat)
  deriving DecidableEq, Repr

/-- A recorded exception (07 Table 7-19). -/
structure CoreExc where
  cause : Nat
  imprecise : Bool
  va : Nat
  pc : Word
  instr : BitVec 32
  time : Nat
  deriving DecidableEq, Repr

/-- A silt core (07 R176 to R212, 15 R422). -/
structure Core where
  run : CoreRun
  slot : Nat
  asid : Nat
  tenant : Nat
  holder : Option Nat
  pc : Word
  s : SMap Word
  v : SMap VReg
  a : SMap AReg
  p : SMap PReg
  /-- Bit k: the lanes of accumulator k are INT32, written by an INT8 MMA (07 R199). -/
  intAcc : BitVec 8
  fflags : BitVec 4
  startTime : Nat
  stall : Nat
  x0 : Nat
  y0 : Nat
  w : Nat
  h : Nat
  argVa : Nat
  imageVa : Nat
  launchSeq : Nat
  dcache : SMap DLine
  icache : SMap (List Byte)
  tracker : SMap Track
  trackOrder : Nat
  failedGroups : List (Nat × Status)
  /-- GROUPED writes sent since the last WR_FINAL, by destination × 16 + group (12 R341). -/
  sentPrior : SMap Nat
  /-- The first failed write of a copy, not yet taken: status, VA and global physical ranges (07 R210). -/
  failure : Option (Status × Nat × List (Nat × Nat))
  /-- Why issue waits: 1 all tracker entries held, 2 an overlapping entry (07 R186). -/
  blocked : Nat
  wait : Option CoreWait
  resp : List Resp
  exc : Option CoreExc
  armed : Bool
  dbg : DebugState
  atBrk : Bool
  available : Bool
  testing : Bool
  lastRun : Nat
  deriving DecidableEq, Repr

/-- A LAUNCH that waits or holds its rectangle (08 R219 to R226). -/
structure Launch where
  x0 : Nat
  y0 : Nat
  w : Nat
  h : Nat
  order : Nat
  claimed : Bool
  entry : Nat
  startTime : Nat
  ended : List Nat
  excs : List (Nat × CoreExc)
  status : Status
  compare : Bool
  deriving DecidableEq, Repr

/-- Channel states (08 Table 8-6). -/
inductive ChanState where
  | open | queueReset | closing
  deriving DecidableEq, Repr

/-- A flit sent and not yet at its queue's input: sideband, payload, and the order number that the producer's tracker
entries had reached at the MSEND (08 R236). -/
structure MeshSent where
  sideband : BitVec 96
  payload : List Byte
  after : Nat
  deriving DecidableEq, Repr

/-- A channel, keyed by producer × 64 + handle (08 R227 to R232): its grant of credits, the credits at the producer, those
held by committed packets, and those on their way back. -/
structure Channel where
  consumer : Nat
  queue : Nat
  granted : Nat
  credits : Nat
  held : Nat
  returning : Nat
  tag : Nat
  tenant : Nat
  state : ChanState
  /-- A reset notice is on its way to the producer; the queue waits for the acknowledgement (08 R240). -/
  notice : Bool
  ack : Bool
  /-- Sequence number of the CHANNEL_CLOSE that waits for it. -/
  closer : Option Nat
  /-- Flits sent and not yet at the queue's input, oldest first. -/
  mesh : List MeshSent
  /-- Number of the channel among all that were opened. -/
  serial : Nat
  deriving DecidableEq, Repr

/-- A committed packet of an inbound queue: source core, TAG, payload, and the channel that brought it. -/
structure CorePacket where
  producer : Nat
  tag : Nat
  payload : List Byte
  channel : Nat
  serial : Nat
  deriving DecidableEq, Repr

/-- Queue states (08 Table 8-8). -/
inductive QueueState where
  | open | assembling | reset
  deriving DecidableEq, Repr

/-- An inbound queue, keyed by core × 4 + queue (08 R234 to R241): its pointers in two copies, its committed packets, the
payload and the channel of the packet being assembled, and whether that packet is being discarded. -/
structure Queue where
  headA : Nat
  commitA : Nat
  wptrA : Nat
  headB : Nat
  commitB : Nat
  wptrB : Nat
  state : QueueState
  resetPending : Bool
  packets : List CorePacket
  partialFlits : List Byte
  assembling : Option Nat
  dropping : Bool
  deriving DecidableEq, Repr

structure Grid where
  cores : SMap Core
  launches : SMap Launch
  launchOrder : Nat
  channels : SMap Channel
  queues : SMap Queue
  channelSerial : Nat
  spare : SMap Nat
  deriving DecidableEq, Repr

/-! ### Search and embeddings (chapters 10 and 11) -/

/-- One entry of a result list (10 Table 10-9): global id, distance, score bits, attribute. -/
structure Hit where
  id : Nat
  ham : Nat
  score : Nat
  attr : Nat
  deriving DecidableEq, Repr

/-- Counts of a search (10 Table 10-8). -/
structure SearchCounts where
  hit : Bool
  widened : Nat
  radius : Nat
  buckets : Nat
  considered : Nat
  deadEdges : Nat
  filtered : Nat
  tombstoned : Nat
  sideScanned : Nat
  generation : Nat
  deriving DecidableEq, Repr

/-- A sharded SEARCH in progress (10 R288, R289). -/
structure Merging where
  awaited : List Nat
  failed : List (Nat × Status)
  twin : Bool
  hits : List Hit
  counts : SearchCounts
  deriving DecidableEq, Repr

structure Indexes where
  indexes : SMap Index
  /-- Destroyed indexes with searches that still run (10 R262). -/
  ending : List Index
  merging : SMap Merging
  /-- Search units and gather units: sequence numbers of the commands that hold a place (10 R280, 11 R305). -/
  searchUnits : List Nat
  gatherUnits : List Nat
  deriving DecidableEq, Repr

structure Embeddings where
  tables : SMap Table
  pins : SMap Pin
  deriving DecidableEq, Repr

/-! ### The rack fabric (chapter 12) -/

/-- Port states (12 Table 12-6). -/
inductive PortState where
  | down | training | keyWait | up | retrain | lowRate
  deriving DecidableEq, Repr

/-- A fabric port (12 R319 to R329). -/
structure Port where
  state : PortState
  lanes : Nat
  cable : Bool
  authFailed : Bool
  key : Option (List Byte)
  keyId : Nat
  salt : Nat
  keyCount : Nat
  txIndex : Nat
  rxIndex : Nat
  nextSeq : Nat
  expectSeq : Nat
  awaitReplay : Bool
  replay : List (Nat × BitVec 128 × List Byte)
  nakSeq : Nat
  nakCount : Nat
  retrainFails : Nat
  flitsSinceKey : Nat
  credits : SMap Nat
  freed : SMap Nat
  lastFreed : SMap Nat
  controls : List Nat
  assembling : SMap (List Byte)
  crcErrors : Nat
  replays : Nat
  authFails : Nat
  deriving DecidableEq, Repr

/-- What a remote request is for: which access takes up its response. -/
inductive Purpose where
  | coreRead (core : Nat)
  | coreAtomic (core : Nat)
  | trackRead (core order : Nat)
  | trackWrite (core order : Nat)
  | agentFill (agent : Nat)
  | ringRead (ring : Nat)
  | ringWrite (ring : Nat)
  | cqWrite (cq : Nat)
  | modelRead (model : Nat)
  | modelWrite (model : Nat)
  | indexRead (index : Nat)
  | indexWrite (index : Nat)
  | tableRead (table : Nat)
  | tableWrite (table : Nat)
  | slotRead (slot : Nat)
  | slotPart (slot : Nat)
  | slotAtomic (slot : Nat)
  | publish (slot : Nat)
  | writeBack (line : Nat)
  | take (slot : Nat)
  | partRead (source tag : Nat)
  | partWrite (source tag : Nat)
  | probe
  | other
  deriving DecidableEq, Repr

/-- A request in flight under a transaction tag (12 R338, R339). -/
structure Request where
  dst : Nat
  type : Nat
  packet : Packet
  reissues : Nat
  /-- No route was found: the request waits for its timer or for a TAKEOVER notice (12 R336). -/
  held : Bool
  /-- When its timer was last started (12 R339). -/
  since : Nat
  purpose : Purpose
  deriving DecidableEq, Repr

/-- A request that a home of this package holds (12 R339): how far it has come, the responses its own accesses wait for, and
its answer, once performed, while lines it wrote await the twin's acknowledgement. -/
structure Holding where
  source : Nat
  tag : Nat
  packet : Packet
  stage : Nat
  resp : List Resp
  answer : Option Packet
  lines : List Nat
  deriving DecidableEq, Repr

/-- A group tracker entry (12 R341): GROUPED WRs performed, failed, and the held WR_FINAL or GROUP_END packets. -/
structure Group where
  count : Nat
  failed : Option Nat
  held : List Packet
  deriving DecidableEq, Repr

/-- A fabric manager event (12 Table 12-14). -/
structure FmEvent where
  code : Nat
  id : Nat
  port : Nat
  detail : Nat
  time : Nat
  number : Nat
  deriving DecidableEq, Repr

/-- A route row (12 Table 12-9). -/
structure Route where
  ports : BitVec 32
  hops : Nat
  deriving DecidableEq, Repr

/-- A notice that is repeated until acknowledged (12 R337). -/
structure Notice where
  id : Nat
  release : Bool
  destination : Nat
  deriving DecidableEq, Repr

structure Fabric where
  id : Nat
  composed : Bool
  composeAsked : Bool
  ports : SMap Port
  routes : SMap Route
  torn : List Nat
  fresh : List Nat
  /-- Ids routed by the row of their twin (12 R337). -/
  rerouted : List Nat
  tags : SMap Request
  nextTag : Nat
  stored : SMap Packet
  groups : SMap Group
  groupCredits : SMap Nat
  holding : List Holding
  outbox : List Packet
  inbox : List Packet
  events : List FmEvent
  nextEvent : Nat
  notices : List Notice
  deriving DecidableEq, Repr

/-! ### Twins, contexts and the error log (chapter 13) -/

/-- Pair states (13 R357). -/
inductive PairState where
  | unpaired | refused | joining | shadow | paired | degraded | resilvering | split | fenced
  deriving DecidableEq, Repr

structure Twin where
  pair : PairState
  twinId : Nat
  record : Option IdentityRecord
  recordedDegraded : Bool
  probing : Bool
  answersFor : Option Nat
  nextMseq : Nat
  /-- Records sent and not acknowledged: (MSEQ, line protected, slot that waits). -/
  unacked : List (Nat × Nat × Option Nat)
  /-- The MSEQ of the next record to apply, and the records received beyond it (13 R361, R365). -/
  appliedMseq : Nat
  received : List MirrorRecord
  sent : List MirrorRecord
  /-- The directory summary held for the twin, and the own lines that DIR records named to the twin (13 R361). -/
  summary : List Nat
  named : List Nat
  /-- The twin's metadata (13 R358). -/
  held : Option Meta
  /-- The resilver, or the copy before PAIRED: extents copied, chunks copied of the current one, bytes done. -/
  copied : List Nat
  resilverChunk : Nat
  resilverDone : Nat
  /-- The other twin has copied its extents, after a split. -/
  peerDone : Bool
  /-- Every extent has been copied, and the joining package told so. -/
  resilvered : Bool
  /-- The twin announced the warm reset for which it is away (13 R369). -/
  announced : Bool
  /-- This package announced its warm reset, at this time, and waits (17 R450); and it returns from one. -/
  awaitingTakeover : Option Nat
  announcedAbsence : Bool
  heartbeats : Nat
  lastHeartbeat : Nat
  /-- An admission runs: the twin's rings do not fetch (13 R371). -/
  admission : Bool
  /-- Stored responses mirrored by the twin. -/
  mirrored : SMap Packet
  deriving DecidableEq, Repr

structure Contexts where
  ledger : SMap Ledger
  serial : Nat
  runs : SMap Running
  poolExtents : List Nat
  poolGib : Nat
  /-- Mirror slots of the twin's contexts: pages of the pool, by CTX_ID (13 R374). -/
  mirror : SMap (List Nat)
  deriving DecidableEq, Repr

/-- An error-log record (13 Table 13-12). -/
structure LogRecord where
  code : Nat
  severity : Nat
  sourceClass : Nat
  tenant : Nat
  sourceIndex : Nat
  detail : Nat
  number : Nat
  time : Nat
  deriving DecidableEq, Repr

structure ErrorLog where
  records : List LogRecord
  newest : Nat
  lost : Nat
  readTo : Nat
  deriving DecidableEq, Repr

/-! ### Scheduling (chapter 14) -/

/-- A waiting request of a port queue: its size and its arrival in CCLK (14 R400). -/
structure Waiting where
  size : Nat
  arrival : Nat
  deriving DecidableEq, Repr

/-- A scheduler port: its queues that hold a request, keyed tenant × 8 + class, virtual times, and limiter credits in
fractions of a byte, keyed by the limiter row (14 R399 to R403). -/
structure SchedPort where
  /-- CCLKs that the port has gone through, each in one PORT_ARBITRATION (DESIGN CHOICE, log 39). -/
  cclk : Nat
  queues : SMap (List Waiting)
  vt : SMap Nat
  vc : SMap Nat
  credits : SMap Nat
  deriving DecidableEq, Repr

/-- A limiter row (14 Table 14-4), keyed tenant × 128 + class × 8 + port kind. -/
structure Limit where
  rate : Nat
  burst : Nat
  deriving DecidableEq, Repr

/-- A queue statistics row (14 Table 14-5), keyed port × 32768 + tenant × 8 + class. -/
structure QStats where
  samples : Nat
  maxDepth : Nat
  maxDelay : Nat
  maxDelayTime : Nat
  bytes : Nat
  requests : Nat
  depthBin : SMap Nat
  delayBin : SMap Nat
  deriving DecidableEq, Repr

structure Scheduler where
  tenants : SMap (BitVec 256)
  limits : SMap Limit
  ports : SMap SchedPort
  stats : SMap QStats
  /-- The count of samples at which the tenant's statistics were last cleared, and the count of all (14 R405). -/
  samples : SMap Nat
  totalSamples : Nat
  /-- Ticks that rings of a tenant waited for a slot (14 R396), and CCLKs that its queues waited at a limiter (14 R403). -/
  quotaStall : SMap Nat
  limitStall : SMap Nat
  deriving DecidableEq, Repr

/-! ### Counters, trace and debug (chapter 15) -/

/-- A counter set (15 R408): counter type × 16 + column. -/
abbrev CounterSet := SMap Nat

/-- A counter page mapping (15 R412), keyed by ASID. -/
structure CounterPage where
  tenant : Nat
  va : Nat
  address : Nat
  refreshes : Nat
  deriving DecidableEq, Repr

/-- A ring's counter set with its tag (15 R416, R417). -/
structure RingSet where
  set : CounterSet
  tag : Option Nat
  since : Nat
  running : Bool
  deriving DecidableEq, Repr

structure Counters where
  package : CounterSet
  tenants : SMap CounterSet
  since : SMap Nat
  ringSets : SMap RingSet
  pages : SMap CounterPage
  /-- Trace records staged and not yet written (15 R424). -/
  staging : List (BitVec 512)
  debugResult : List Byte
  deriving DecidableEq, Repr

/-! ### Security (chapter 16) -/

/-- A firmware slot (16 R429, R430): the image bytes staged and how far they reach; of an image that passed its checks, that it
did, its header and the digest of header and code. -/
structure FwSlot where
  image : SMap Byte
  length : Nat
  accepted : Bool
  header : List Byte
  digest : List Byte
  deriving DecidableEq, Repr

/-- A tenant's key (16 R438, R439). -/
structure TenantKey where
  installed : Bool
  key : List Byte
  generation : Nat
  changed : Nat
  deriving DecidableEq, Repr

structure Security where
  identityOk : Bool
  mr : SMap (List Byte)
  measureLog : List (Nat × List Byte × Nat)
  slotA : FwSlot
  slotB : FwSlot
  activeB : Bool
  /-- The MSEQ of the record that a FW_COMMIT with value 1 waits for (16 R434). -/
  commit : Option Nat
  rollback : Nat
  revoked : BitVec 4
  /-- The witness held for the twin, and the twin's for this package at the last pairing (16 R434). -/
  witness : Option Nat
  ownWitness : Nat
  keys : SMap TenantKey
  attests : Nat
  signs : Nat
  deriving DecidableEq, Repr

/-! ### Management, profiles, bring-up and power (chapters 17 to 19) -/

/-- A response of the management controller (18 R462, R463). -/
structure Reply where
  status : MStatus
  value : List Byte
  rows : Nat
  deriving DecidableEq, Repr

/-- Management traffic of one source address (18 R467). -/
structure MgmtSource where
  reqId : Nat
  frag : Nat
  message : List Byte
  header : BitVec 128
  kept : List (Nat × List Byte)
  heard : Nat
  deriving DecidableEq, Repr

/-- Management ring states; SUSPENDED is how it reads during a firmware restart (18 Table 18-8, R472). -/
inductive MgmtRingState where
  | active | error | absent
  deriving DecidableEq, Repr

structure Management where
  reply : Option Reply
  sources : SMap MgmtSource
  heardCount : Nat
  framesSent : List (Nat × List Byte)
  restarting : Bool
  fetched : Nat
  tailSeen : Nat
  written : Nat
  headSeen : Nat
  ring : MgmtRingState
  extent : Option Nat
  /-- The request whose response waits for the twin (16 R434): its source (none: the ring), its management header and its
  operation header. -/
  owed : Option (Option Nat × BitVec 128 × BitVec 128)
  deriving DecidableEq, Repr

/-- A stored profile (17 R445): the values and Boolean rows that differ from their defaults, by the keys of State.vals, and the
rows of the tables of tenants, limits and agents. -/
structure Profile where
  vals : SMap Nat
  tenants : SMap (BitVec 256)
  limits : SMap Limit
  agents : SMap AgentRow
  deriving DecidableEq, Repr

structure Profiles where
  stored : SMap Profile
  active : Nat
  pins : Nat
  fallback : Bool
  deriving DecidableEq, Repr

/-- Device states (17 Table 17-6). -/
inductive DeviceState where
  | boot | calibrating | initialising | selfTest | ready | recovery | failed | resetting | fenced
  deriving DecidableEq, Repr

/-- The supply (19 R487, R488): off, rails coming up, a rail failed, power-good, hold-up sequence, tripped. -/
inductive Supply where
  | off | rising | railFailed | good | holdup | tripped
  deriving DecidableEq, Repr

/-- A row of BRINGUP_STATUS (17 R444): stage, start and end times, result, failing unit. -/
structure StageRow where
  start : Nat
  finish : Nat
  ok : Bool
  unit : Nat
  deriving DecidableEq, Repr

structure Power where
  device : DeviceState
  /-- DEVICE_STATE has read READY or RECOVERY since the last cold or warm reset (17 R443). -/
  served : Bool
  /-- The management port answers: stage 1 has ended once (17 R443). -/
  mgmtUp : Bool
  /-- No firmware image is accepted: the controller stays in the boot code (16 R430). -/
  bootOnly : Bool
  stages : SMap StageRow
  startTime : Nat
  readyMs : Nat
  cause : Nat
  cold : Bool
  /-- A reset that waits for a wake, or for the end of its announcement: whether it is cold, and its cause (17 R450, R455). -/
  pendingReset : Option (Bool × Nat)
  tenantBusy : Option Nat
  /-- The input is in its range (19 R487). -/
  input : Bool
  supply : Supply
  /-- A sensor has tripped, and no rail has come up since (19 R491). -/
  tripped : Bool
  /-- RESET_N is high. -/
  resetPin : Bool
  refclk : Bool
  refLost : Option Nat
  state : Nat
  armed : Nat
  waking : Option Nat
  /-- UCIe modules that are retired, as site × 8 + module (05 R110). -/
  retired : List Nat
  deriving DecidableEq, Repr

/-! ### The whole package -/

/-- The state of one package. -/
structure State where
  /-- Commands that wait, first in, first out. -/
  pending : List Instr
  asm : Assembly
  /-- The store by local address (01 R14, R15): HBM, flash, scratchpads, device pages and far tier. -/
  mem : SMap Byte
  /-- Poisoned lines, by local address div 64, rising (13 R392). -/
  poison : List Nat
  /-- The TCLK timestamp counter (15 R423). -/
  time : Nat
  /-- Dictionary values by entry × 256 + sub where they differ from the default (18 R457). -/
  vals : SMap Nat
  /-- The model's own count of free values drawn; no register of the part. -/
  free : Nat
  /-- Ticks of waiting counted so far, by the key of the dictionary entry that reads them in microseconds. -/
  stall : SMap Nat
  fe : FrontEnd
  tr : Translation
  ext : SMap Extent
  coh : Coherence
  rlc : RemoteCache
  flash : Flash
  models : SMap Model
  grid : Grid
  idx : Indexes
  emb : Embeddings
  fab : Fabric
  twin : Twin
  ctx : Contexts
  log : ErrorLog
  sched : Scheduler
  cnt : Counters
  sec : Security
  mgmt : Management
  prof : Profiles
  pwr : Power
  deriving DecidableEq, Repr

/-- A firmware slot that holds no image. -/
def FwSlot.empty : FwSlot := { image := [], length := 0, accepted := false, header := [], digest := [] }

/-- The image that the package is made with (DESIGN CHOICE, log 40). -/
def FwSlot.shipped : FwSlot :=
  { image := [], length := 0, accepted := true, header := Config.firmwareHeader, digest := Config.firmwareDigest }

/-- The package at power-on: the input is off, nothing is trained, stored or registered. The assembly is the fully
populated H16F8P4C2 (DESIGN CHOICE, log 3); no statement rests on it. -/
def State.reset : State where
  pending := []
  asm := { hbm := 16, flash := 8, ports := 4, procs := 2 }
  mem := []
  poison := []
  time := 0
  vals := []
  free := 0
  stall := []
  fe := { rings := [], cqs := [], leases := [], slots := [], vt := [], lastRing := [], vectors := [], groupFails := [] }
  tr := { asids := [(0, { tenant := 0, hostWin := 0, devWin := 0, winSize := 0 })], maps := [], tcache := [], misses := [],
          faults := [], batches := [], nextBatch := 0, ringTail := 0, lastBatch := 0 }
  ext := []
  coh := { agents := [], dir := [], snoops := [], watches := [], alb := [], albStamp := 0, albWaiting := [],
           albReturn := 0, agentAnswer := none, mail := [] }
  rlc := { lines := [], regions := [], stagingOrder := [], rlcExtent := none, stagingExtents := [], stagingMib := 0 }
  flash := { flashStacks := [], decoders := [] }
  models := []
  grid := { cores := [], launches := [], launchOrder := 0, channels := [], queues := [], channelSerial := 0, spare := [] }
  idx := { indexes := [], ending := [], merging := [], searchUnits := [], gatherUnits := [] }
  emb := { tables := [], pins := [] }
  fab := { id := 0xFF, composed := false, composeAsked := false, ports := [], routes := [], torn := [], fresh := [],
           rerouted := [], tags := [], nextTag := 0, stored := [], groups := [], groupCredits := [], holding := [],
           outbox := [], inbox := [], events := [], nextEvent := 0, notices := [] }
  twin := { pair := .unpaired, twinId := 0xFF, record := none, recordedDegraded := false, probing := false,
            answersFor := none, nextMseq := 0, unacked := [], appliedMseq := 0, received := [], sent := [], summary := [],
            named := [], held := none, copied := [], resilverChunk := 0, resilverDone := 0, peerDone := false, resilvered := false,
            announced := false, awaitingTakeover := none, announcedAbsence := false, heartbeats := 0, lastHeartbeat := 0,
            admission := false, mirrored := [] }
  ctx := { ledger := [], serial := 0, runs := [], poolExtents := [], poolGib := 0, mirror := [] }
  log := { records := [], newest := 0, lost := 0, readTo := 0 }
  sched := { tenants := [], limits := [], ports := [], stats := [], samples := [], totalSamples := 0,
             quotaStall := [], limitStall := [] }
  cnt := { package := [], tenants := [], since := [], ringSets := [], pages := [], staging := [], debugResult := [] }
  sec := { identityOk := true, mr := [], measureLog := [], slotA := .shipped, slotB := .empty, activeB := false,
           commit := none, rollback := 0, revoked := 0, witness := none, ownWitness := 0, keys := [],
           attests := 0, signs := 0 }
  mgmt := { reply := none, sources := [], heardCount := 0, framesSent := [], restarting := false, fetched := 0,
            tailSeen := 0, written := 0, headSeen := 0, ring := .absent, extent := none, owed := none }
  prof := { stored := [], active := 0, pins := 0, fallback := false }
  pwr := { device := .boot, served := false, mgmtUp := false, bootOnly := false, stages := [], startTime := 0, readyMs := 0,
           cause := 0, cold := true, pendingReset := none, tenantBusy := none, input := false, supply := .off, tripped := false,
           resetPin := true, refclk := false, refLost := none, state := 0, armed := 0, waking := none,
           retired := [] }

end Sys2Proof.Machine
end

