-- ==== Sys2Proof/Machine/Dict.lean ====
section
/-!
DEFINITION. The object dictionary (18 R457 to R459, R473): one row per line of the entry tables of the chapters, with
type, access, default, range and the number and size of a table's rows where the manual gives them.
-/

namespace Sys2Proof.Machine

/-- Value types (18 Table 18-1). -/
inductive DType where
  | u8 | u16 | u32 | u64 | i32 | bool | enum | str | blob | table
  deriving DecidableEq, Repr

/-- Access codes (00 Table 0-5). -/
inductive Access where
  | ro | rw | rwp | rwl | wo
  deriving DecidableEq, Repr

/-- A line of an entry table: entry number, first and last sub-entry, type, access, default, the intervals of its range
(none: every value of the type), name, and for a TABLE its rows and row size (0: the manual gives none). -/
structure DictRow where
  entry : Nat
  first : Nat
  last : Nat
  type : DType
  access : Access
  dflt : Nat
  range : List (Nat × Nat)
  name : String
  rows : Nat
  rowSize : Nat
  deriving DecidableEq, Repr

/-- Entries of range 0x1000, identity, state and management (Tables 17-6, 18-10). -/
def dict1000 : List DictRow := [
  ⟨0x1000, 0, 0, .str, .ro, 0, [], "PART_NUMBER", 0, 0⟩,
  ⟨0x1000, 1, 1, .str, .ro, 0, [], "ORDERING_CODE", 0, 0⟩,
  ⟨0x1000, 2, 2, .u32, .ro, 0, [], "ASSEMBLY", 0, 0⟩,
  ⟨0x1000, 3, 3, .u8, .ro, 1, [(1, 1)], "STEPPING", 0, 0⟩,
  ⟨0x1000, 4, 4, .u32, .ro, 0, [], "FW_RELEASE", 0, 0⟩,
  ⟨0x1000, 5, 5, .u32, .ro, 0, [], "FW_SVN", 0, 0⟩,
  ⟨0x1000, 6, 6, .str, .ro, 0, [], "SERIAL", 0, 0⟩,
  ⟨0x1000, 7, 7, .u16, .ro, 256, [(256, 256)], "DICT_VERSION", 0, 0⟩,
  ⟨0x1001, 0, 0, .enum, .ro, 0, [(0, 8)], "DEVICE_STATE", 0, 0⟩,
  ⟨0x1001, 1, 1, .table, .ro, 0, [], "BRINGUP_STATUS", 5, 0⟩,
  ⟨0x1001, 2, 2, .u32, .ro, 0, [(0, 6000)], "READY_TIME_MS", 0, 0⟩,
  ⟨0x1002, 0, 0, .u8, .wo, 0, [(1, 2)], "RESET_REQUEST", 0, 0⟩,
  ⟨0x1002, 1, 1, .u16, .wo, 0, [(0, 4095)], "TENANT_RESET", 0, 0⟩,
  ⟨0x1002, 2, 2, .u16, .wo, 0, [(0, 25599)], "CORE_RESET", 0, 0⟩,
  ⟨0x1002, 3, 3, .enum, .ro, 0, [(0, 4)], "RESET_CAUSE", 0, 0⟩,
  ⟨0x1002, 4, 4, .u16, .ro, 65535, [(0, 4095), (65535, 65535)], "TENANT_RESET_BUSY", 0, 0⟩,
  ⟨0x1100, 0, 0, .blob, .ro, 0, [], "MGMT_MAC", 0, 0⟩,
  ⟨0x1100, 1, 1, .u8, .rwp, 255, [(1, 255)], "PLCA_NODE_ID", 0, 0⟩,
  ⟨0x1100, 2, 2, .bool, .rwp, 1, [(0, 1)], "MGMT_PORT_ENABLE", 0, 0⟩,
  ⟨0x1100, 3, 3, .u64, .ro, 0, [], "MGMT_FRAMES_RX", 0, 0⟩,
  ⟨0x1100, 4, 4, .u64, .ro, 0, [], "MGMT_DUP_ANSWERS", 0, 0⟩,
  ⟨0x1100, 5, 5, .u64, .ro, 0, [], "MGMT_FRAMES_BAD", 0, 0⟩,
  ⟨0x1101, 0, 0, .enum, .ro, 0, [(0, 3)], "MGMT_RING_STATE", 0, 0⟩,
  ⟨0x1101, 1, 1, .u64, .ro, 0, [], "MGMT_RING_BASE", 0, 0⟩,
  ⟨0x1101, 2, 2, .u64, .ro, 0, [], "MGMT_REQUESTS", 0, 0⟩]

/-- Entries of range 0x2000, profiles and power states (Tables 17-6). -/
def dict2000 : List DictRow := [
  ⟨0x2000, 0, 0, .u8, .ro, 0, [(0, 3)], "PROFILE_ACTIVE", 0, 0⟩,
  ⟨0x2000, 1, 1, .u8, .ro, 0, [(0, 3)], "PROFILE_PINS", 0, 0⟩,
  ⟨0x2000, 2, 2, .u8, .wo, 0, [(0, 3), (128, 131)], "PROFILE_SELECT", 0, 0⟩,
  ⟨0x2000, 3, 3, .bool, .ro, 0, [(0, 1)], "PROFILE_PENDING", 0, 0⟩,
  ⟨0x2000, 4, 4, .bool, .ro, 0, [(0, 1)], "PROFILE_FALLBACK", 0, 0⟩,
  ⟨0x2000, 5, 5, .u16, .wo, 0, [], "PROFILE_COPY", 0, 0⟩,
  ⟨0x2010, 0, 0, .enum, .ro, 0, [(0, 2)], "POWER_STATE", 0, 0⟩,
  ⟨0x2010, 1, 1, .enum, .rwl, 0, [(0, 2)], "POWER_REQUEST", 0, 0⟩,
  ⟨0x2010, 2, 2, .u32, .rwl, 0, [(0, 3600000), (0, 0)], "DROWSY_IDLE_MS", 0, 0⟩,
  ⟨0x2010, 3, 3, .u64, .ro, 0, [], "WAKE_COUNT", 0, 0⟩,
  ⟨0x2010, 4, 4, .u32, .ro, 0, [(0, 2000)], "LAST_WAKE_US", 0, 0⟩]

/-- Entries of range 0x3000, tiers and tiles (Tables 2-19). -/
def dict3000 : List DictRow := [
  ⟨0x3000, 0, 0, .table, .ro, 0, [], "TIER_CAPACITY", 3, 0⟩,
  ⟨0x3001, 0, 0, .bool, .rwl, 1, [(0, 1)], "FALLBACK_ENABLE", 0, 0⟩,
  ⟨0x3002, 0, 0, .u64, .ro, 0, [], "FALLBACK_TO_FLASH", 0, 0⟩,
  ⟨0x3002, 1, 1, .u64, .ro, 0, [], "FALLBACK_TO_FAR", 0, 0⟩,
  ⟨0x3002, 2, 2, .u64, .ro, 0, [], "ALLOC_NO_TIER", 0, 0⟩,
  ⟨0x3010, 0, 0, .u32, .rwl, 4096, [(1024, 16384)], "FTL_GC_START", 0, 0⟩,
  ⟨0x3010, 1, 1, .u32, .rwl, 512, [(128, 2048)], "FTL_WRITE_FLOOR", 0, 0⟩,
  ⟨0x3011, 0, 0, .u32, .rwl, 1048576, [(65536, 16777216)], "RD_SCAN_READS", 0, 0⟩,
  ⟨0x3011, 1, 1, .u8, .rwl, 40, [(8, 64)], "RD_RELOCATE_BITS", 0, 0⟩,
  ⟨0x3011, 2, 2, .u16, .rwl, 72, [(12, 168)], "PATROL_HOURS", 0, 0⟩,
  ⟨0x3012, 0, 0, .u16, .rwl, 200, [(50, 1000)], "WL_SPREAD", 0, 0⟩,
  ⟨0x3013, 0, 0, .u64, .ro, 0, [], "FTL_WRITE_STALL_US", 0, 0⟩,
  ⟨0x3014, 0, 7, .u64, .ro, 0, [], "FLASH_READ_WAIT_US", 0, 0⟩,
  ⟨0x3020, 0, 7, .table, .ro, 0, [], "FLASH_HEALTH", 1, 0⟩,
  ⟨0x3030, 0, 0, .enum, .rwp, 0, [(0, 1)], "MODEL_DEFAULT_MODE", 0, 0⟩,
  ⟨0x3030, 1, 1, .u8, .rwp, 4, [(2, 64)], "MODEL_DEFAULT_W", 0, 0⟩,
  ⟨0x3031, 0, 0, .u8, .rwl, 1, [(0, 3)], "TILE_CRC_RETRIES", 0, 0⟩,
  ⟨0x3032, 0, 0, .u64, .ro, 0, [], "STREAM_LATE", 0, 0⟩,
  ⟨0x3040, 0, 15, .enum, .rwp, 0, [(0, 2)], "CX_PORT_ROLE", 0, 0⟩,
  ⟨0x3041, 0, 0, .table, .ro, 0, [], "FAR_DECODERS", 32, 0⟩]

/-- Entries of range 0x4000, translation and extents (Tables 4-12). -/
def dict4000 : List DictRow := [
  ⟨0x4000, 0, 0, .u32, .ro, 0, [(0, 65536)], "ASIDS_IN_USE", 0, 0⟩,
  ⟨0x4001, 0, 3, .u64, .ro, 0, [], "TCACHE_MISSES", 0, 0⟩,
  ⟨0x4010, 0, 0, .u8, .rwl, 64, [(1, 64)], "FAULT_BATCH_RECORDS", 0, 0⟩,
  ⟨0x4010, 1, 1, .u16, .rwl, 20, [(1, 1000)], "FAULT_BATCH_US", 0, 0⟩,
  ⟨0x4011, 0, 0, .u64, .rw, 0, [(0, 144115188075855871)], "FAULT_RING_VA", 0, 0⟩,
  ⟨0x4011, 1, 1, .u64, .rw, 0, [(0, 144115188075855871)], "FAULT_CTRL_VA", 0, 0⟩,
  ⟨0x4011, 2, 2, .u16, .rw, 0, [], "FAULT_RING_ASID", 0, 0⟩,
  ⟨0x4011, 3, 3, .u16, .rw, 65535, [(0, 2047), (65535, 65535)], "FAULT_MSIX", 0, 0⟩,
  ⟨0x4012, 0, 0, .bool, .ro, 0, [(0, 1)], "FAULT_OVERFLOW", 0, 0⟩,
  ⟨0x4012, 1, 1, .u64, .ro, 0, [], "FAULT_OVERFLOW_COUNT", 0, 0⟩,
  ⟨0x4012, 2, 2, .u64, .ro, 0, [], "FAULTS_RECORDED", 0, 0⟩,
  ⟨0x4012, 3, 3, .u64, .ro, 0, [], "FAULTS_COALESCED", 0, 0⟩,
  ⟨0x4012, 4, 4, .u64, .ro, 0, [], "FAULT_ISSUE_STALL_US", 0, 0⟩,
  ⟨0x4013, 0, 3, .u16, .ro, 0, [(0, 256)], "FAULTS_PENDING", 0, 0⟩,
  ⟨0x4020, 0, 0, .u32, .rwl, 1000, [(100, 100000)], "EXTENT_DRAIN_US", 0, 0⟩,
  ⟨0x4020, 1, 1, .u64, .ro, 0, [], "EXTENT_REVOKED_ABORTS", 0, 0⟩,
  ⟨0x4030, 0, 0, .table, .ro, 0, [], "EXTENT_TABLE", 0, 0⟩,
  ⟨0x4031, 0, 0, .u32, .rwp, 16384, [(0, 65536)], "MAP64K_LIMIT", 0, 0⟩]

/-- Entries of range 0x5000, coherence and fabric (Tables 12-17, 5-12). -/
def dict5000 : List DictRow := [
  ⟨0x5000, 0, 0, .u8, .ro, 0, [(0, 64)], "AGENTS_REGISTERED", 0, 0⟩,
  ⟨0x5001, 0, 63, .table, .rwl, 0, [], "AGENT_TABLE", 1, 0⟩,
  ⟨0x5002, 0, 3, .u32, .ro, 0, [(0, 8388608)], "DIR_OCCUPANCY", 0, 0⟩,
  ⟨0x5003, 0, 0, .u64, .ro, 0, [], "DIR_BCAST", 0, 0⟩,
  ⟨0x5003, 1, 1, .u64, .ro, 0, [], "DIR_EVICTIONS", 0, 0⟩,
  ⟨0x5003, 2, 2, .u64, .ro, 0, [], "SNOOP_NOT_HELD", 0, 0⟩,
  ⟨0x5003, 3, 3, .u32, .rwl, 10000, [(1000, 1000000)], "SNOOP_TIMEOUT_US", 0, 0⟩,
  ⟨0x5010, 0, 0, .u16, .rwl, 10, [(1, 1000)], "WATCH_RECALL_US", 0, 0⟩,
  ⟨0x5010, 1, 1, .u64, .ro, 0, [], "WATCH_RECALLS", 0, 0⟩,
  ⟨0x5010, 2, 2, .u16, .ro, 0, [(0, 32768)], "WATCHED_LINES", 0, 0⟩,
  ⟨0x5011, 0, 0, .u16, .rwl, 512, [(0, 4096)], "ALB_HOLD_NCLK", 0, 0⟩,
  ⟨0x5011, 1, 1, .u64, .ro, 0, [], "ALB_FULL_STALL_US", 0, 0⟩,
  ⟨0x5011, 2, 2, .u64, .ro, 0, [], "HOME_ATOMICS", 0, 0⟩,
  ⟨0x5020, 0, 0, .u64, .ro, 0, [], "RLC_FILLS", 0, 0⟩,
  ⟨0x5020, 1, 1, .u16, .rwl, 256, [(16, 1024)], "RLC_HELD_LIMIT_MIB", 0, 0⟩,
  ⟨0x5020, 2, 2, .u64, .ro, 0, [], "RLC_HELD_STALL_US", 0, 0⟩,
  ⟨0x5021, 0, 0, .u16, .rwp, 256, [(64, 1024)], "PUBLISH_STAGING_MIB", 0, 0⟩,
  ⟨0x5021, 1, 1, .u64, .ro, 0, [], "PUBLISH_CONFLICTS", 0, 0⟩,
  ⟨0x5021, 2, 2, .u16, .ro, 4096, [(4096, 4096)], "REGION_LIMIT", 0, 0⟩,
  ⟨0x5021, 3, 3, .u16, .ro, 0, [(0, 4096)], "REGIONS_IN_USE", 0, 0⟩,
  ⟨0x5030, 0, 0, .u8, .ro, 255, [(0, 63), (255, 255)], "PACKAGE_ID", 0, 0⟩,
  ⟨0x5030, 1, 1, .enum, .ro, 0, [(0, 1)], "DOMAIN_STATE", 0, 0⟩,
  ⟨0x5031, 0, 31, .table, .ro, 0, [], "PORT_STATE", 1, 0⟩,
  ⟨0x5032, 0, 0, .table, .ro, 0, [], "ROUTE_TABLE", 64, 8⟩,
  ⟨0x5033, 0, 0, .blob, .wo, 0, [], "FM_COMMAND", 0, 0⟩,
  ⟨0x5033, 1, 1, .table, .ro, 0, [], "FM_EVENT_QUEUE", 256, 32⟩,
  ⟨0x5033, 2, 2, .u64, .rwl, 0, [], "FM_EVENT_ACK", 0, 0⟩,
  ⟨0x5033, 3, 3, .u64, .ro, 0, [], "FM_EVENTS_LOST", 0, 0⟩,
  ⟨0x5034, 0, 0, .u64, .rwl, 68719476736, [(1048576, 1099511627776)], "LINK_REKEY_FLITS", 0, 0⟩,
  ⟨0x5034, 1, 1, .u8, .rwl, 8, [(1, 32)], "LINK_REPLAY_LIMIT", 0, 0⟩,
  ⟨0x5034, 2, 2, .u8, .rwl, 3, [(1, 16)], "LINK_RETRAIN_LIMIT", 0, 0⟩,
  ⟨0x5035, 0, 0, .u32, .rwl, 1000, [(100, 100000)], "FABRIC_REQ_TIMEOUT_US", 0, 0⟩,
  ⟨0x5035, 1, 1, .u8, .rwl, 8, [(1, 64)], "FABRIC_REISSUE_LIMIT", 0, 0⟩,
  ⟨0x5036, 0, 0, .u32, .ro, 0, [(0, 262144)], "FABRIC_TAGS_IN_USE", 0, 0⟩,
  ⟨0x5036, 1, 1, .u64, .ro, 0, [], "FABRIC_TAG_STALL_US", 0, 0⟩,
  ⟨0x5036, 2, 2, .u64, .ro, 0, [], "FABRIC_REISSUES", 0, 0⟩,
  ⟨0x5036, 3, 3, .u64, .ro, 0, [], "FABRIC_DEDUP_HITS", 0, 0⟩,
  ⟨0x5036, 4, 4, .u64, .ro, 0, [], "FABRIC_DEAD_COMPLETIONS", 0, 0⟩,
  ⟨0x5036, 5, 5, .u64, .ro, 0, [], "RLC_TEARDOWN_DISCARDS", 0, 0⟩,
  ⟨0x5036, 6, 6, .u64, .ro, 0, [], "GROUP_CREDIT_STALL_US", 0, 0⟩,
  ⟨0x5037, 0, 31, .u64, .ro, 0, [], "LINK_CREDIT_STALL_NS", 0, 0⟩]

/-- Entries of range 0x6000, grid (Tables 7-20, 8-11). -/
def dict6000 : List DictRow := [
  ⟨0x6000, 0, 0, .table, .ro, 0, [], "GRID_CORE_MAP", 4, 0⟩,
  ⟨0x6000, 1, 1, .u16, .ro, 25600, [(0, 25600)], "GRID_CORES_AVAILABLE", 0, 0⟩,
  ⟨0x6001, 0, 0, .u32, .rwl, 1000, [(1, 600000)], "GRID_WATCHDOG_MS", 0, 0⟩,
  ⟨0x6001, 1, 1, .u16, .ro, 0, [(0, 25600)], "LAUNCHES_RUNNING", 0, 0⟩,
  ⟨0x6001, 2, 2, .u64, .ro, 0, [], "LAUNCH_WAIT_US", 0, 0⟩,
  ⟨0x6002, 0, 0, .u32, .ro, 0, [(0, 1638400)], "CHANNELS_OPEN", 0, 0⟩,
  ⟨0x6002, 1, 1, .u64, .ro, 0, [], "PKT_REWOUND_CRC", 0, 0⟩,
  ⟨0x6002, 2, 2, .u64, .ro, 0, [], "PKT_REWOUND_ABORT", 0, 0⟩,
  ⟨0x6002, 3, 3, .u64, .ro, 0, [], "QUEUE_RESETS", 0, 0⟩,
  ⟨0x6002, 4, 4, .u64, .ro, 0, [], "MSEND_CREDIT_STALL_NCLK", 0, 0⟩,
  ⟨0x6003, 0, 0, .table, .ro, 0, [], "GRID_QUEUE_STATE", 102400, 0⟩,
  ⟨0x6100, 0, 0, .u16, .rwl, 64, [(16, 4096)], "WAIT_POLL_CCLK", 0, 0⟩,
  ⟨0x6100, 1, 1, .u64, .ro, 0, [], "RT_FULL_STALL_CCLK", 0, 0⟩,
  ⟨0x6100, 2, 2, .u64, .ro, 0, [], "RT_OVERLAP_STALL_CCLK", 0, 0⟩,
  ⟨0x6100, 3, 3, .u64, .ro, 0, [], "SPAD_ECC_CORRECTED", 0, 0⟩,
  ⟨0x6100, 4, 4, .u64, .ro, 0, [], "SPAD_ECC_POISONED", 0, 0⟩,
  ⟨0x6101, 1, 13, .u64, .ro, 0, [], "CORE_EXCEPTIONS", 0, 0⟩]

/-- Entries of range 0x7000, search (Tables 10-13). -/
def dict7000 : List DictRow := [
  ⟨0x7000, 0, 0, .u16, .ro, 0, [(0, 1024)], "INDEXES_IN_USE", 0, 0⟩,
  ⟨0x7001, 0, 0, .table, .ro, 0, [], "INDEX_TABLE", 0, 0⟩,
  ⟨0x7002, 0, 0, .u64, .ro, 0, [], "SEARCHES", 0, 0⟩,
  ⟨0x7002, 1, 1, .u64, .ro, 0, [], "SEARCH_FEWER", 0, 0⟩,
  ⟨0x7002, 2, 2, .u64, .ro, 0, [], "SEARCH_BUDGET_HITS", 0, 0⟩,
  ⟨0x7002, 3, 3, .u64, .ro, 0, [], "SEARCH_WIDENINGS", 0, 0⟩,
  ⟨0x7002, 4, 4, .u64, .ro, 0, [], "SEARCH_UNIT_WAIT_US", 0, 0⟩,
  ⟨0x7003, 0, 0, .u64, .ro, 0, [], "SEARCH_DEAD_EDGES", 0, 0⟩,
  ⟨0x7003, 1, 1, .u64, .ro, 0, [], "SEARCH_TOMBSTONED", 0, 0⟩,
  ⟨0x7003, 2, 2, .u64, .ro, 0, [], "BUCKET_CRC_ERRORS", 0, 0⟩,
  ⟨0x7004, 0, 0, .u64, .ro, 0, [], "SIDE_FULL_STALL_US", 0, 0⟩,
  ⟨0x7004, 1, 1, .u64, .ro, 0, [], "MERGES_COMMITTED", 0, 0⟩,
  ⟨0x7004, 2, 2, .u64, .ro, 0, [], "MERGES_DISCARDED", 0, 0⟩,
  ⟨0x7004, 3, 3, .u64, .ro, 0, [], "MERGE_WAIT_US", 0, 0⟩,
  ⟨0x7005, 0, 0, .u32, .rwl, 4096, [(1, 4294967295)], "SEARCH_DEFAULT_BUDGET", 0, 0⟩]

/-- Entries of range 0x8000, embeddings (Tables 11-9). -/
def dict8000 : List DictRow := [
  ⟨0x8000, 0, 0, .u16, .ro, 0, [(0, 4096)], "TABLES_IN_USE", 0, 0⟩,
  ⟨0x8001, 0, 0, .u64, .rwl, 4294967296, [(0, 68719476736)], "EMB_REPLICATE_LIMIT", 0, 0⟩,
  ⟨0x8001, 1, 1, .u32, .rwl, 1000, [(10, 600000)], "PIN_RETAIN_MS", 0, 0⟩,
  ⟨0x8002, 0, 0, .table, .ro, 0, [], "EMB_TABLE", 0, 0⟩,
  ⟨0x8003, 0, 0, .u64, .ro, 0, [], "GATHER_ROWS", 0, 0⟩,
  ⟨0x8003, 1, 1, .u64, .ro, 0, [], "GATHER_EMPTY_BAGS", 0, 0⟩,
  ⟨0x8003, 2, 2, .u64, .ro, 0, [], "GATHER_OOR_INDICES", 0, 0⟩,
  ⟨0x8003, 3, 3, .u64, .ro, 0, [], "GATHER_UNIT_WAIT_US", 0, 0⟩,
  ⟨0x8004, 0, 0, .u64, .ro, 0, [], "SCATTER_ROWS", 0, 0⟩,
  ⟨0x8004, 1, 1, .u64, .ro, 0, [], "SCATTER_DISCARDED", 0, 0⟩,
  ⟨0x8005, 0, 0, .u16, .ro, 0, [(0, 4096)], "PINS_IN_USE", 0, 0⟩,
  ⟨0x8005, 1, 1, .u64, .ro, 0, [], "PINS_STALE", 0, 0⟩,
  ⟨0x8005, 2, 2, .u64, .ro, 0, [], "REPLACE_PIN_WAIT_US", 0, 0⟩]

/-- Entries of range 0x9000, scheduler and rings (Tables 14-8, 6-16). -/
def dict9000 : List DictRow := [
  ⟨0x9000, 0, 0, .table, .rwl, 0, [], "TENANT_TABLE", 4096, 32⟩,
  ⟨0x9001, 0, 0, .table, .rwl, 0, [], "LIMIT_TABLE", 8192, 16⟩,
  ⟨0x9001, 1, 1, .u16, .ro, 0, [(0, 8192)], "LIMITS_IN_USE", 0, 0⟩,
  ⟨0x9002, 0, 0, .table, .ro, 0, [], "TENANT_USAGE", 4096, 0⟩,
  ⟨0x9003, 0, 0, .table, .ro, 0, [], "SCHED_QUEUE_STATS", 0, 0⟩,
  ⟨0x9003, 1, 1, .u16, .wo, 0, [(0, 4095), (65535, 65535)], "SCHED_STATS_CLEAR", 0, 0⟩,
  ⟨0x9003, 2, 2, .u16, .ro, 1024, [(1024, 1024)], "SCHED_SAMPLE_CCLK", 0, 0⟩,
  ⟨0x9004, 0, 0, .u32, .ro, 0, [(0, 65536)], "SLOT_RESERVE_TOTAL", 0, 0⟩,
  ⟨0x9100, 0, 0, .u64, .rwl, 0, [], "BOOT_RING", 0, 0⟩,
  ⟨0x9101, 0, 0, .u16, .ro, 0, [(0, 16384)], "RINGS_REGISTERED", 0, 0⟩,
  ⟨0x9101, 1, 1, .u16, .ro, 0, [(0, 16384)], "CQS_REGISTERED", 0, 0⟩,
  ⟨0x9102, 0, 0, .u32, .ro, 0, [(0, 65536)], "SLOTS_IN_USE", 0, 0⟩,
  ⟨0x9102, 1, 1, .u64, .ro, 0, [], "SLOTS_FULL_US", 0, 0⟩,
  ⟨0x9102, 2, 2, .u64, .ro, 0, [], "CQ_FULL_US", 0, 0⟩,
  ⟨0x9103, 0, 0, .u16, .rwl, 100, [(10, 10000)], "LEASE_MS", 0, 0⟩,
  ⟨0x9103, 1, 1, .u64, .ro, 0, [], "LEASE_LAPSES", 0, 0⟩,
  ⟨0x9104, 0, 0, .u16, .rwl, 2, [(0, 1000)], "IRQ_HOLDOFF_US", 0, 0⟩,
  ⟨0x9105, 0, 0, .table, .ro, 0, [], "RING_TABLE", 0, 128⟩,
  ⟨0x9106, 0, 0, .u64, .ro, 0, [], "DESC_REJECTS", 0, 0⟩]

/-- Entries of range 0xA000, twins and resilience (Tables 13-14). -/
def dictA000 : List DictRow := [
  ⟨0xA000, 0, 0, .enum, .ro, 0, [(0, 8)], "PAIR_STATE", 0, 0⟩,
  ⟨0xA000, 1, 1, .u8, .ro, 255, [(0, 63), (255, 255)], "TWIN_ID", 0, 0⟩,
  ⟨0xA001, 0, 0, .u16, .rwl, 20, [(10, 100)], "TWIN_HB_US", 0, 0⟩,
  ⟨0xA001, 1, 1, .u16, .rwl, 1000, [(200, 2000)], "TWIN_DEAD_US", 0, 0⟩,
  ⟨0xA001, 2, 2, .u16, .rwl, 500, [(100, 1000)], "TWIN_PROBE_US", 0, 0⟩,
  ⟨0xA002, 0, 0, .u64, .ro, 0, [], "MIRROR_WRITES", 0, 0⟩,
  ⟨0xA002, 1, 1, .u64, .ro, 0, [], "MIRROR_WAIT_NS", 0, 0⟩,
  ⟨0xA002, 2, 2, .table, .ro, 0, [], "MIRROR_MAP", 0, 0⟩,
  ⟨0xA003, 0, 0, .table, .ro, 0, [], "RESILVER_STATE", 1, 0⟩,
  ⟨0xA003, 1, 1, .u32, .rwl, 0, [(0, 3600000), (0, 0)], "ADMIT_WAIT_MS", 0, 0⟩,
  ⟨0xA004, 0, 0, .u64, .ro, 0, [], "TAKEOVERS", 0, 0⟩,
  ⟨0xA010, 0, 0, .u16, .rwp, 16, [(0, 256)], "STATE_POOL_GIB", 0, 0⟩,
  ⟨0xA010, 1, 1, .u32, .ro, 0, [(0, 65536)], "LEDGER_IN_USE", 0, 0⟩,
  ⟨0xA010, 2, 2, .u32, .rwl, 2000, [(100, 1000000)], "OFFER_DEADLINE_US", 0, 0⟩,
  ⟨0xA010, 3, 3, .u64, .ro, 0, [], "OFFERS_EXPIRED", 0, 0⟩,
  ⟨0xA010, 4, 4, .u64, .ro, 0, [], "CONTEXTS_LOST", 0, 0⟩,
  ⟨0xA020, 0, 0, .table, .rwl, 0, [], "COMPARE_TENANTS", 4096, 1⟩,
  ⟨0xA020, 1, 1, .u64, .ro, 0, [], "COMPARE_MISMATCHES", 0, 0⟩,
  ⟨0xA020, 2, 2, .u16, .rwp, 1024, [(64, 16384)], "COMPARE_AREA_MIB", 0, 0⟩,
  ⟨0xA020, 3, 3, .u64, .ro, 0, [], "COMPARE_SKIPPED", 0, 0⟩,
  ⟨0xA021, 0, 0, .u16, .rwl, 10, [(1, 3600)], "KAT_PERIOD_S", 0, 0⟩,
  ⟨0xA021, 1, 1, .u64, .ro, 0, [], "KAT_FAILURES", 0, 0⟩,
  ⟨0xA030, 0, 10, .u32, .rwl, 0, [(0, 3600000)], "TIMEOUT_CLASS_MS", 0, 0⟩,
  ⟨0xA040, 0, 0, .u16, .rwl, 500, [(100, 10000)], "MGMT_WDOG_MS", 0, 0⟩,
  ⟨0xA040, 1, 1, .u64, .ro, 0, [], "MGMT_RESTARTS", 0, 0⟩,
  ⟨0xA050, 0, 0, .table, .ro, 0, [], "ERROR_LOG", 4096, 32⟩,
  ⟨0xA050, 1, 1, .u64, .ro, 0, [], "ERRLOG_NEWEST", 0, 0⟩,
  ⟨0xA050, 2, 2, .u64, .ro, 0, [], "ERRLOG_LOST", 0, 0⟩,
  ⟨0xA051, 0, 0, .u64, .ro, 0, [], "POISONED_LINES", 0, 0⟩]

/-- Entries of range 0xB000, counters and debug (Tables 15-10). -/
def dictB000 : List DictRow := [
  ⟨0xB000, 0, 0, .table, .ro, 0, [], "COUNTER_PACKAGE", 144, 8⟩,
  ⟨0xB000, 1, 1, .table, .ro, 0, [], "COUNTER_TENANT", 4096, 1152⟩,
  ⟨0xB000, 2, 2, .u16, .wo, 0, [(0, 4095), (65535, 65535)], "COUNTER_CLEAR", 0, 0⟩,
  ⟨0xB001, 0, 0, .u32, .rwl, 100, [(10, 10000)], "COUNTER_PAGE_US", 0, 0⟩,
  ⟨0xB001, 1, 1, .u32, .ro, 0, [(0, 65536)], "COUNTER_PAGES", 0, 0⟩,
  ⟨0xB010, 0, 0, .table, .ro, 0, [], "RING_MODE", 16384, 0⟩,
  ⟨0xB020, 0, 0, .bool, .rwl, 0, [(0, 1)], "TRACE_ENABLE", 0, 0⟩,
  ⟨0xB020, 1, 1, .u64, .rwl, 0, [(0, 144115188075855871)], "TRACE_VA", 0, 0⟩,
  ⟨0xB020, 2, 2, .bool, .rwl, 1, [(0, 1)], "TRACE_WRAP", 0, 0⟩,
  ⟨0xB020, 3, 3, .u16, .rwl, 0, [(0, 511)], "TRACE_SOURCES", 0, 0⟩,
  ⟨0xB020, 4, 4, .u16, .rwl, 65535, [(0, 4095), (65535, 65535)], "TRACE_TENANT", 0, 0⟩,
  ⟨0xB020, 5, 5, .u32, .rwl, 2694840320, [], "TRACE_RECT", 0, 0⟩,
  ⟨0xB020, 6, 6, .u32, .rwl, 4294967295, [], "TRACE_PORTS", 0, 0⟩,
  ⟨0xB020, 7, 7, .u32, .rwl, 256, [(1, 65536)], "TRACE_LEN_MIB", 0, 0⟩,
  ⟨0xB020, 8, 8, .u64, .ro, 0, [], "TRACE_WRITTEN", 0, 0⟩,
  ⟨0xB020, 9, 9, .u64, .ro, 0, [], "TRACE_LOST", 0, 0⟩,
  ⟨0xB030, 0, 0, .u64, .ro, 0, [], "TIME_NOW", 0, 0⟩,
  ⟨0xB040, 0, 0, .blob, .wo, 0, [], "CORE_DEBUG_CMD", 0, 0⟩,
  ⟨0xB040, 1, 1, .blob, .ro, 0, [], "CORE_DEBUG_RESULT", 0, 0⟩,
  ⟨0xB041, 0, 0, .table, .rwl, 0, [], "DEBUG_TENANTS", 4096, 1⟩,
  ⟨0xB041, 1, 1, .u16, .ro, 0, [(0, 25600)], "CORES_HALTED", 0, 0⟩]

/-- Entries of range 0xC000, security (Tables 16-8). -/
def dictC000 : List DictRow := [
  ⟨0xC000, 0, 0, .enum, .ro, 0, [(0, 1)], "IDENTITY_STATE", 0, 0⟩,
  ⟨0xC000, 1, 1, .blob, .ro, 0, [], "IDENTITY_PUBKEY", 0, 0⟩,
  ⟨0xC000, 2, 2, .blob, .ro, 0, [], "DEVICE_ID", 0, 0⟩,
  ⟨0xC000, 3, 3, .blob, .ro, 0, [], "IDENTITY_CERT", 0, 0⟩,
  ⟨0xC001, 0, 0, .table, .ro, 0, [], "FW_SLOT_STATE", 2, 0⟩,
  ⟨0xC001, 1, 1, .blob, .wo, 0, [], "FW_STAGE", 0, 0⟩,
  ⟨0xC001, 2, 2, .u8, .wo, 0, [(0, 1)], "FW_COMMIT", 0, 0⟩,
  ⟨0xC001, 3, 3, .u32, .ro, 0, [], "ROLLBACK_SVN", 0, 0⟩,
  ⟨0xC001, 4, 4, .u8, .ro, 0, [(0, 15)], "KEY_REVOKED", 0, 0⟩,
  ⟨0xC001, 5, 5, .u8, .wo, 0, [(0, 15)], "KEY_REVOKE", 0, 0⟩,
  ⟨0xC002, 0, 7, .blob, .ro, 0, [], "MEASUREMENT", 0, 0⟩,
  ⟨0xC002, 8, 8, .blob, .wo, 0, [], "MR_EXTEND", 0, 0⟩,
  ⟨0xC002, 9, 9, .table, .ro, 0, [], "MEASUREMENT_LOG", 256, 0⟩,
  ⟨0xC003, 0, 0, .u32, .ro, 0, [], "TWIN_WITNESS_SVN", 0, 0⟩,
  ⟨0xC004, 0, 0, .table, .ro, 0, [], "TENANT_KEYS", 4096, 0⟩,
  ⟨0xC004, 1, 1, .u64, .ro, 0, [], "ATTEST_COUNT", 0, 0⟩]

/-- Every line of the dictionary, by range (18 Table 18-9). -/
def dictRange (entry : Nat) : List DictRow :=
  match entry / 0x1000 with
  | 1 => dict1000
  | 2 => dict2000
  | 3 => dict3000
  | 4 => dict4000
  | 5 => dict5000
  | 6 => dict6000
  | 7 => dict7000
  | 8 => dict8000
  | 9 => dict9000
  | 10 => dictA000
  | 11 => dictB000
  | 12 => dictC000
  | _ => []

/-- The key of the value of entry.sub in State.vals. -/
def dkey (entry sub : Nat) : Nat :=
  entry * 256 + sub

/-- The key of row `r` of a table of Boolean rows in State.vals. -/
def rowKey (key r : Nat) : Nat :=
  0x1000000 + key * 0x10000 + r

/-- The line of the dictionary that gives entry.sub (18 R457). -/
def dictFind (entry sub : Nat) : Option DictRow :=
  (dictRange entry).find? fun r => r.entry = entry && r.first ≤ sub && sub ≤ r.last

/-- Default of TIMEOUT_CLASS_MS by opcode range (13 Table 13-11). -/
def timeoutClassDefault (sub : Nat) : Nat :=
  match sub with
  | 0 | 4 => 1000
  | 2 | 5 | 6 => 60000
  | 9 => 0
  | _ => 10000

/-- The default of the value with a key. -/
def dictDefault (key : Nat) : Nat :=
  if key / 256 = 0xA030 then timeoutClassDefault (key % 256)
  else match dictFind (key / 256) (key % 256) with
    | some r => r.dflt
    | none => 0

/-- The value of entry.sub, by its key. -/
def State.val (s : State) (key : Nat) : Nat :=
  SMap.get s.vals key (dictDefault key)

/-- The state with value `v` at a key; a value equal to its default is not listed. -/
def State.setVal (s : State) (key v : Nat) : State :=
  { s with vals := SMap.putD s.vals key v (dictDefault key) }

/-- A counter with `n` added (15 R409: counters are 64 bits wide and wrap). -/
def State.bump (s : State) (key n : Nat) : State :=
  s.setVal key ((s.val key + n) % 2 ^ 64)

end Sys2Proof.Machine
end

