-- ==== Sys2Proof/Machine/Metadata.lean ====
section
/-!
DEFINITION. The metadata that a package mirrors to its twin (13 R358): how it is gathered, and where the objects of a lost
twin stand beside the own ones (13 R365, R366).
-/

namespace Sys2Proof.Machine

open Sys2Proof

/-- The extent of a local address: 1 GiB. -/
def extentOf (la : Nat) : Nat := la / 2 ^ 30

/-- The tier of an extent: 0 HBM, 1 flash, 2 far tier (01 Table 1-2). -/
def tierOf (e : Nat) : Nat := if e < 2 ^ 13 then 0 else if e < 2 ^ 18 then 1 else 2

/-- The package's own id for the addresses it forms (01 R14: 0 while PACKAGE_ID reads 0xFF). -/
def State.ownId (s : State) : Nat := if s.fab.id = 0xFF then 0 else s.fab.id

/-! ### The places of the twin's objects -/

/-- Keys from here on name the rings that this package runs for its lost twin (13 R366). -/
def resumedRing : Nat := 32768

/-- Rings are numbered below this; from here on, up to as much again, numbers stand for the CONTEXT_RUNs whose phases hold slots
(13 R383). -/
def phaseRing : Nat := 16384

/-- Where the twin's objects stand beside the own ones, while this package answers for its twin (13 R365 step 3): rings and
completion rings by their 14-bit ids, and every other object by the width of its id. -/
def twinSpace (w : Nat) : Nat := if w = 14 then resumedRing else 2 ^ w

/-- Where the regions of the twin stand. -/
def regionSpace : Nat := 2 ^ 20

/-- The sequence number of a command of a resumed ring. -/
def resumedSeq (q : Nat) : Nat := 2 ^ 65 + q

/-- A map with its keys moved up. -/
def SMap.up {α : Type} (m : SMap α) (k : Nat) : SMap α := m.map fun (i, v) => (i + k, v)

/-- The part of a map from a key on, moved down by it. -/
def SMap.down {α : Type} (m : SMap α) (k : Nat) : SMap α := (m.filter fun (i, _) => k ≤ i).map fun (i, v) => (i - k, v)

/-- The part of a map below a key. -/
def SMap.below {α : Type} (m : SMap α) (k : Nat) : SMap α := m.filter fun (i, _) => i < k

/-- A line of an extent moved to another extent. -/
def moveLine (line e : Nat) : Nat := e * 2 ^ 24 + line % 2 ^ 24

/-- The mirror extent that stands for extent `e` of the twin (13 R359, R366). -/
def State.mirrorOf (s : State) (e : Nat) : Option Nat :=
  (s.ext.find? fun (_, x) => x.hold = .mirror && x.mirror = some e).map (·.1)

/-- The own extent whose mirror is extent `e` of the twin. -/
def State.primaryOf (s : State) (e : Nat) : Option Nat :=
  (s.ext.find? fun (_, x) => x.hold ≠ .mirror && x.mirror = some e).map (·.1)

/-! ### Gathering -/

/-- An extent of the lost twin's own table. -/
def State.heldExtent? (s : State) (e : Nat) : Option Extent := s.twin.held.bind fun m => SMap.look m.ext e

/-- Changes an extent of the lost twin's own table. -/
def State.setHeldExtent (s : State) (e : Nat) (x : Extent) : State :=
  { s with twin := { s.twin with held := s.twin.held.map fun m => { m with ext := SMap.put m.ext e x } } }

/-- The commands fetched from the rings of one space of keys and not yet completed. -/
def State.fetchedOf (s : State) (lo : Nat) : List Fetched :=
  (s.fe.slots.filter fun (_, x) => lo ≤ x.ring && x.ring < lo + phaseRing).map fun (_, x) =>
    { ring := x.ring - lo, pos := x.pos, tenant := x.tenant, opcode := x.opcode, desc := x.desc, committed := x.committed }

/-- Pages of 2 MiB of the state pool that hold a context, a staged offer or a mirror of the twin's contexts. -/
def State.poolUsed (s : State) : List Nat :=
  s.ctx.ledger.flatMap (fun (_, e) => e.pool) ++ s.ctx.mirror.flatMap fun (_, l) => l

/-- Free pages of the state pool. -/
def State.poolPages (s : State) : List Nat :=
  let used := s.poolUsed
  (s.ctx.poolExtents.flatMap fun e => (List.range 512).map (e * 512 + ·)).filter fun p => !used.contains p

/-- The own metadata of a package (13 R358). -/
def State.metaOf (s : State) : Meta where
  id := s.fab.id
  handover := false
  ext := s.ext.filter fun (_, x) => x.hold = .none || x.hold = .mirror
  asids := SMap.below s.tr.asids (twinSpace 16)
  maps := s.tr.maps.filter (·.asid < twinSpace 16)
  rings := SMap.below s.fe.rings resumedRing
  cqs := SMap.below s.fe.cqs resumedRing
  leases := SMap.below s.fe.leases (twinSpace 10)
  fetched := s.fetchedOf 0
  regions := SMap.below s.rlc.regions regionSpace
  indexes := SMap.below s.idx.indexes (twinSpace 10)
  tables := SMap.below s.emb.tables (twinSpace 12)
  pins := SMap.below s.emb.pins (twinSpace 16)
  ledger := s.ctx.ledger
  runs := s.ctx.runs
  summary := s.twin.named
  resilver := s.twin.copied
  poolFree := s.poolPages.length

/-- The metadata of an id that has none yet. -/
def Meta.blank (id : Nat) : Meta where
  id := id
  handover := false
  ext := []
  asids := []
  maps := []
  rings := []
  cqs := []
  leases := []
  fetched := []
  regions := []
  indexes := []
  tables := []
  pins := []
  ledger := []
  runs := []
  summary := []
  resilver := []
  poolFree := 0

/-- The line of the twin's extent that a line of a mirror extent holds. -/
def State.unmirrorLine (s : State) (line : Nat) : Nat :=
  match SMap.look s.ext (line / 2 ^ 24) with
  | some x => moveLine line (x.mirror.getD (line / 2 ^ 24))
  | none => line

/-- The local ranges of the twin that ranges of mirror extents hold. -/
def State.unmirrorRange (s : State) (p : Nat × Nat) : Nat × Nat :=
  match SMap.look s.ext (extentOf p.1) with
  | some x => (x.mirror.getD (extentOf p.1) * 2 ^ 30 + p.1 % 2 ^ 30, p.2)
  | none => p

/-- The metadata of the twin that this package answers for, as it stands now (13 R369, R371). The extents are those of the
twin's own table, with the states that revocations gave them here. -/
def State.metaFor (s : State) (x : Nat) (handover : Bool) : Meta :=
  let seq := fun q => q - resumedRing * 2 ^ 50
  { id := x
    handover
    ext := (s.twin.held.getD (.blank x)).ext
    asids := SMap.down s.tr.asids (twinSpace 16)
    maps := (s.tr.maps.filter fun m => twinSpace 16 ≤ m.asid && m.kind ≠ .context).map fun m =>
      { m with asid := m.asid - twinSpace 16, package := if m.package = some x then none else some (m.package.getD s.ownId) }
    rings := if handover then SMap.each (SMap.down s.fe.rings resumedRing) fun _ r =>
        { r with asid := r.asid - twinSpace 16, cq := r.cq - resumedRing, lease := r.lease - twinSpace 10,
                 wordLine := s.unmirrorLine r.wordLine, recAsid := r.recAsid - twinSpace 16 }
      else []
    cqs := if handover then SMap.each (SMap.down s.fe.cqs resumedRing) fun _ c =>
        { c with asid := c.asid - twinSpace 16, wordLine := s.unmirrorLine c.wordLine }
      else []
    leases := SMap.down s.fe.leases (twinSpace 10)
    fetched := s.fetchedOf resumedRing
    regions := SMap.each (SMap.down s.rlc.regions regionSpace) fun k r =>
      let whole := (r.pieces.map (·.2)).sum = r.length
      let old := ((s.twin.held.bind fun m => SMap.look m.regions k).map (·.pieces)).getD []
      { r with pieces := if whole then r.pieces.map s.unmirrorRange else old }
    indexes := SMap.each (SMap.down s.idx.indexes (twinSpace 10)) fun _ i =>
      { i with asid := i.asid - twinSpace 16, mergeSlot := i.mergeSlot.map seq }
    tables := SMap.each (SMap.down s.emb.tables (twinSpace 12)) fun _ t =>
      { t with asid := t.asid - twinSpace 16
               replacing := t.replacing.map fun p => { p with slot := p.slot.map seq, asid := p.asid - twinSpace 16 } }
    pins := SMap.each (SMap.down s.emb.pins (twinSpace 16)) fun _ p => { p with table := p.table - twinSpace 12 }
    ledger := s.ctx.ledger.filter fun (k, _) => k / 2 ^ 34 = x || (s.twin.held.any fun m => SMap.has m.ledger k)
    runs := []
    summary := []
    resilver := s.twin.copied
    poolFree := 0 }

end Sys2Proof.Machine
end

