-- ==== Sys2Proof/Machine/Ops.lean ====
section
/-!
DEFINITION. The named operations that the meanings share: objects of the state, the store by local address, poison, the
error log and the fabric manager's events, the home of a line, translation and faults, and the end of a command.
-/

namespace Sys2Proof.Machine

open Sys2Proof

/-! ### Outcomes -/

/-- The state that a command leads to. -/
abbrev Out := Host.Outcome State Fault Refusal

/-- Why an action of an engine, core or front end does not finish at once: it waits, or it fails with a status. -/
inductive Stop where
  | wait
  | fail (st : Status)
  deriving DecidableEq, Repr

/-- An action on the state that may wait or fail; the state changes made before it stopped stand. -/
abbrev Eng (α : Type) := ExceptT Stop (StateM State) α

/-- Runs an action. -/
def Eng.go {α : Type} (e : Eng α) (s : State) : Except Stop α × State :=
  e.run s

/-- The action waits. -/
def waitE {α : Type} : Eng α :=
  throw .wait

/-- The action fails with a status. -/
def failE {α : Type} (st : Status) : Eng α :=
  throw (.fail st)

/-- The action fails with `st` unless `b`. -/
def needE (b : Bool) (st : Status) : Eng Unit :=
  if b then pure () else failE st

/-- The action waits unless `b`. -/
def holdE (b : Bool) : Eng Unit :=
  if b then pure () else waitE

/-- An action whose failure is an answer. -/
def attempt {α : Type} (e : Eng α) : Eng (Except Status α) :=
  tryCatch (do pure (.ok (← e))) fun x => match x with
    | .wait => waitE
    | .fail st => pure (.error st)

/-- The state kept by an action whose failure or wait changes nothing else. -/
def Eng.state {α : Type} (e : Eng α) (s : State) : State :=
  (e.go s).2

/-- Codes of the completion status (06 Table 6-11). -/
def Status.code (st : Status) : Nat :=
  match st with
  | .ok => 0x00 | .fewer => 0x01 | .resumedByTwin => 0x02 | .okStalePin => 0x03
  | .faultUnresolved => 0x40 | .revoked => 0x41 | .targetDead => 0x42 | .publishConflict => 0x43
  | .contextLost => 0x44 | .offerExpired => 0x45 | .poisoned => 0x46 | .timeout => 0x47
  | .badDescriptor => 0x48 | .notPermitted => 0x49 | .crcMismatch => 0x4A | .aborted => 0x4B | .resource => 0x4C

/-- The status with a code; a reserved code reads as none (06 Table 6-11). -/
def statusOf (code : Nat) : Option Status :=
  match code with
  | 0x00 => some .ok | 0x01 => some .fewer | 0x02 => some .resumedByTwin | 0x03 => some .okStalePin
  | 0x40 => some .faultUnresolved | 0x41 => some .revoked | 0x42 => some .targetDead | 0x43 => some .publishConflict
  | 0x44 => some .contextLost | 0x45 => some .offerExpired | 0x46 => some .poisoned | 0x47 => some .timeout
  | 0x48 => some .badDescriptor | 0x49 => some .notPermitted | 0x4A => some .crcMismatch | 0x4B => some .aborted
  | 0x4C => some .resource
  | _ => none

/-- Codes 0x00 to 0x3F report completion (06 R166). -/
def Status.isOk (st : Status) : Bool :=
  st.code < 0x40

/-- The status of a command that met `a` before `b` (06 R167): the first failure decides; any failure outranks every
success; RESUMED_BY_TWIN outranks FEWER, and FEWER outranks OK_STALE_PIN. -/
def Status.join (a b : Status) : Status :=
  if !a.isOk then a
  else if !b.isOk then b
  else if a = .resumedByTwin || b = .resumedByTwin then .resumedByTwin
  else if a = .fewer || b = .fewer then .fewer
  else if a = .okStalePin || b = .okStalePin then .okStalePin
  else .ok

/-! ### Objects of the state -/

def State.slot? (s : State) (n : Nat) : Option Slot := SMap.look s.fe.slots n
def State.setSlot (s : State) (n : Nat) (x : Slot) : State := { s with fe := { s.fe with slots := SMap.put s.fe.slots n x } }
def State.delSlot (s : State) (n : Nat) : State := { s with fe := { s.fe with slots := SMap.del s.fe.slots n } }
def State.updSlot (s : State) (n : Nat) (f : Slot → Slot) : State :=
  { s with fe := { s.fe with slots := SMap.upd s.fe.slots n f } }
def State.ring? (s : State) (n : Nat) : Option Ring := SMap.look s.fe.rings n
def State.setRing (s : State) (n : Nat) (x : Ring) : State := { s with fe := { s.fe with rings := SMap.put s.fe.rings n x } }
def State.updRing (s : State) (n : Nat) (f : Ring → Ring) : State :=
  { s with fe := { s.fe with rings := SMap.upd s.fe.rings n f } }
def State.cq? (s : State) (n : Nat) : Option Cq := SMap.look s.fe.cqs n
def State.setCq (s : State) (n : Nat) (x : Cq) : State := { s with fe := { s.fe with cqs := SMap.put s.fe.cqs n x } }
def State.asid? (s : State) (n : Nat) : Option Asid := SMap.look s.tr.asids n
def State.extent? (s : State) (n : Nat) : Option Extent := SMap.look s.ext n
def State.setExtent (s : State) (n : Nat) (x : Extent) : State := { s with ext := SMap.put s.ext n x }
def State.updExtent (s : State) (n : Nat) (f : Extent → Extent) : State := { s with ext := SMap.upd s.ext n f }

/-- A core that has run nothing since core reset: registers zero, held by no tenant (07 R176, R180). -/
def Core.initial : Core where
  run := .idle
  slot := 0
  asid := 0
  tenant := 0
  holder := none
  pc := 0
  s := []
  v := []
  a := []
  p := []
  intAcc := 0
  fflags := 0
  startTime := 0
  stall := 0
  x0 := 0
  y0 := 0
  w := 0
  h := 0
  argVa := 0
  imageVa := 0
  launchSeq := 0
  dcache := []
  icache := []
  tracker := []
  trackOrder := 0
  failedGroups := []
  sentPrior := []
  failure := none
  blocked := 0
  wait := none
  resp := []
  exc := none
  armed := false
  dbg := .running
  atBrk := false
  available := true
  testing := false
  lastRun := 0

def State.core (s : State) (n : Nat) : Core := SMap.get s.grid.cores n .initial
def State.setCore (s : State) (n : Nat) (c : Core) : State :=
  { s with grid := { s.grid with cores := SMap.put s.grid.cores n c } }
def State.updCore (s : State) (n : Nat) (f : Core → Core) : State := s.setCore n (f (s.core n))

/-- A free value, and the state that has drawn it (DESIGN CHOICE, log 1). -/
def State.draw (s : State) : Nat × State :=
  (Config.freeValue s.free, { s with free := s.free + 1 })

/-- A run of `n` free values: the first draw, and the state that has drawn them. -/
def State.drawRun (s : State) (n : Nat) : Nat × State := (s.free, { s with free := s.free + n })

/-- Free bytes, and the state that has drawn them. -/
def State.drawBytes (s : State) (n : Nat) : List Byte × State :=
  match n with
  | 0 => ([], s)
  | k + 1 =>
    let (v, s) := s.draw
    let (rest, s) := s.drawBytes k
    (BitVec.ofNat 8 v :: rest, s)

/-! ### Time (15 R423: TCLK at 117.5 MHz) -/

/-- Microseconds in a number of TCLK ticks. -/
def ticksToUs (t : Nat) : Nat := t * 2 / 235

/-- TCLK ticks in a number of microseconds. -/
def usToTicks (u : Nat) : Nat := u * 235 / 2

/-- Microseconds since a time. -/
def State.usSince (s : State) (t : Nat) : Nat := ticksToUs (s.time - t)

/-- An event that wakes the package from Drowsy or Dormant (17 R455). -/
def State.wake (s : State) : State :=
  if s.pwr.state = 0 || s.pwr.waking.isSome then s else { s with pwr := { s.pwr with waking := some s.time } }

/-- Whether the package is awake (17 R453). -/
def State.awake (s : State) : Bool := s.pwr.state = 0

/-! ### Counters and trace (chapter 15) -/

/-- A counter set with `n` added to counter (type, column), modulo 2^64 (15 R408, R410). -/
def CounterSet.add (c : CounterSet) (type col n : Nat) : CounterSet :=
  SMap.putD c (type * 16 + col) ((SMap.get c (type * 16 + col) 0 + n) % 2 ^ 64) 0

/-- Counts work of a tenant, in the package set and in the tenant's set; and, for work of the command `seq` that its
ring's set is tagged with, in the ring set (15 R409, R411, R416). -/
def State.countWork (s : State) (tenant : Nat) (seq : Option Nat) (type col n : Nat) : State :=
  if n = 0 then s else
  let cnt := { s.cnt with
    package := CounterSet.add s.cnt.package type col n
    tenants := SMap.put s.cnt.tenants tenant (CounterSet.add (SMap.get s.cnt.tenants tenant []) type col n) }
  match seq with
  | none => { s with cnt := cnt }
  | some q => { s with cnt := { cnt with
      ringSets := SMap.upd cnt.ringSets (q / 2 ^ 50) fun r =>
        if r.tag = some q && r.running then { r with set := CounterSet.add r.set type col n } else r } }

/-- Whether trace capture admits a record of a kind and tenant (15 R424). -/
def State.traces (s : State) (kind tenant : Nat) : Bool :=
  s.val (dkey 0xB020 0) = 1 && bitOf (s.val (dkey 0xB020 3)) (kind - 1) &&
    (s.val (dkey 0xB020 4) = 0xFFFF || s.val (dkey 0xB020 4) = tenant)

/-- Stages a trace record (15 R424, Table 15-9): a record that finds the 4,096 places of its die full is lost. -/
def State.trace (s : State) (kind die port tenant body : Nat) : State :=
  if s.traces kind tenant then
    let r := BitVec.ofNat 512 (pack [(s.time, 64), (kind, 8), (die, 2), (port, 6), (tenant, 12), (0, 36), (body, 384)])
    if s.cnt.staging.length ≥ 4096 && (s.cnt.staging.filter fun x => fld x 72 2 = die % 4).length ≥ 4096 then
      s.bump (dkey 0xB020 9) 1
    else { s with cnt := { s.cnt with staging := s.cnt.staging ++ [r] } }
  else s

/-! ### Error log and events -/

/-- The 32 bytes of an error-log record (13 Table 13-12). -/
def LogRecord.bits (r : LogRecord) : Nat :=
  pack [(r.code, 16), (r.severity, 2), (0, 6), (r.sourceClass, 8), (r.tenant, 12), (0, 4), (r.sourceIndex, 16),
    (r.detail, 64), (r.number, 64), (r.time, 64)]

/-- Writes an error-log record (13 R391): the newest of 4,096 overwrites the oldest, which is counted if unread. -/
def State.logError (s : State) (code sourceClass tenant sourceIndex detail : Nat) : State :=
  let n := s.log.newest + 1
  let r : LogRecord := { code, severity := Config.logSeverity code % 3, sourceClass, tenant, sourceIndex, detail,
                         number := n, time := s.time }
  let full := s.log.records.length ≥ 4096
  let lost := match s.log.records with
    | old :: _ => if full && s.log.readTo < old.number then 1 else 0
    | [] => 0
  let kept := if full then s.log.records.drop 1 else s.log.records
  let s := { s with log := { s.log with records := kept ++ [r], newest := n, lost := s.log.lost + lost } }
  s.trace 8 (Config.traceDie 8) 0 tenant (r.bits % 2 ^ 192)

/-- Writes an error-log record whose DETAIL the manual does not give: a free value (DESIGN CHOICE, log 1). -/
def State.logFree (s : State) (code sourceClass tenant sourceIndex : Nat) : State :=
  let (v, s) := s.draw
  s.logError code sourceClass tenant sourceIndex (v % 2 ^ 64)

/-- Raises a fabric manager event (12 R351): a full queue loses it. -/
def State.fmEvent (s : State) (code id port detail : Nat) : State :=
  if s.fab.nextEvent - s.val (dkey 0x5033 2) ≥ 256 then s.bump (dkey 0x5033 3) 1
  else
    let e : FmEvent := { code, id, port, detail, time := s.time, number := s.fab.nextEvent }
    let kept := if s.fab.events.length ≥ 256 then s.fab.events.drop 1 else s.fab.events
    { s with fab := { s.fab with events := kept ++ [e], nextEvent := s.fab.nextEvent + 1 } }

/-! ### The store by local address -/

/-- The areas of the local window (01 Table 1-2). -/
inductive Area where
  | hbm | flash (stack : Nat) | far | scratch (core : Nat) | reservedSlot | devicePage | nowhere
  deriving DecidableEq, Repr

/-- Bytes of HBM fitted (00 Table 0-3). -/
def Assembly.hbmBytes (a : Assembly) : Nat := 2 ^ 36 * a.hbm

/-- Bytes of flash fitted (00 Table 0-3). -/
def Assembly.flashBytes (a : Assembly) : Nat := a.flash * 2 ^ 42

/-- Whether a decoder covers a far-tier local address (02 R38). -/
def Decoder.covers (d : Decoder) (la : Nat) : Bool :=
  d.base ≤ la && la < d.base + d.size

/-- The decoder of a far-tier local address. -/
def State.decoderOf (s : State) (la : Nat) : Option Decoder :=
  (s.flash.decoders.find? fun (_, d) => d.covers la).map (·.2)

/-- The area of a local address (01 R15, R16): populated memory, a scratchpad window, a device page, or nothing. -/
def State.areaOf (s : State) (la : Nat) : Area :=
  if la < s.asm.hbmBytes then .hbm
  else if 0x2000_0000_0000 ≤ la && la < 0x2000_0000_0000 + s.asm.flashBytes then
    .flash ((la - 0x2000_0000_0000) / 2 ^ 42)
  else if 0x4000_0000_0000 ≤ la && la < 0x4002_0000_0000 then
    let y := (la - 0x4000_0000_0000) / 0x200_0000
    let x := (la - 0x4000_0000_0000) % 0x200_0000 / 0x2_0000
    if x < 160 && y < 160 then .scratch (y * 160 + x) else .reservedSlot
  else if 0x4002_0000_0000 ≤ la && la < 0x4004_0000_0000 then .devicePage
  else if (s.decoderOf la).isSome then .far
  else .nowhere

/-- The local base of a core's scratchpad window (01 R16). -/
def scratchBase (core : Nat) : Nat :=
  0x4000_0000_0000 + core / 160 * 0x200_0000 + core % 160 * 0x2_0000

/-- The line of an address: 64 bytes. -/
def lineOf (a : Nat) : Nat := a / 64

/-- Bytes of the store, unlisted ones reading zero (DESIGN CHOICE, log 4). -/
def memRead (m : SMap Byte) (a n : Nat) : List Byte :=
  match n with
  | 0 => []
  | k + 1 => SMap.get m a 0 :: memRead m (a + 1) k

/-- The store with bytes written from an address up. -/
def memWrite (m : SMap Byte) (a : Nat) (bs : List Byte) : SMap Byte :=
  match bs with
  | [] => m
  | b :: rest => memWrite (SMap.putD m a b 0) (a + 1) rest

/-- The store with every byte of a range zero. -/
def memZero (m : SMap Byte) (a n : Nat) : SMap Byte :=
  m.filter fun (k, _) => !(a ≤ k && k < a + n)

/-- The canonical form of the store: addresses rise strictly and no byte listed is zero. -/
abbrev Memory.wf (m : SMap Byte) : Prop :=
  SMap.Sorted m ∧ ∀ p ∈ m, p.2 ≠ 0

/-- Bytes at a local address. -/
def State.peek (s : State) (la n : Nat) : List Byte := memRead s.mem la n

/-- Whether a line is poisoned (13 R392). -/
def State.poisoned (s : State) (line : Nat) : Bool := s.poison.contains line

/-- Whether a line of flash or the far tier cannot be decrypted: the identity has failed, and the tenant that owns its extent has no
installed key (16 R428, R437, R438). -/
def State.unkeyed (s : State) (line : Nat) : Bool :=
  !s.sec.identityOk && tierOf (line / 2 ^ 24) ≠ 0 && match SMap.look s.ext (line / 2 ^ 24) with
    | some x => !((SMap.look s.sec.keys x.owner).any (·.installed))
    | none => false

/-- Whether a read of a line meets poison (13 R392, 16 R428). -/
def State.readsBad (s : State) (line : Nat) : Bool := s.poisoned line || s.unkeyed line

/-- Marks a line poisoned; POISONED_LINES counts a line that becomes poisoned (13 R392). -/
def State.poisonLine (s : State) (line : Nat) : State :=
  if s.poisoned line then s else { s with poison := insertNat s.poison line }.bump (dkey 0xA051 0) 1

/-- Marks the lines of a list poisoned. -/
def State.poisonLines (s : State) (lines : List Nat) : State :=
  lines.foldl State.poisonLine s

/-- Writes bytes within one line, as one event: a write of the whole line clears its poison (13 R392). -/
def State.poke (s : State) (la : Nat) (bs : List Byte) : State :=
  { s with mem := memWrite s.mem la bs,
           poison := if la % 64 = 0 && bs.length = 64 then s.poison.filter (· ≠ lineOf la) else s.poison }

/-- Writes the bytes of a line that a mask selects, as one event. -/
def State.pokeMasked (s : State) (line : Nat) (data : List Byte) (mask : BitVec 64) : State :=
  let old := s.peek (line * 64) 64
  let new := (List.range 64).map fun i => if mask.getLsbD i then data.getD i 0 else old.getD i 0
  { s with mem := memWrite s.mem (line * 64) new,
           poison := if mask = BitVec.allOnes 64 then s.poison.filter (· ≠ line) else s.poison }

/-- Zeroes a range of whole lines and clears their poison. -/
def State.zeroRange (s : State) (la n : Nat) : State :=
  { s with mem := memZero s.mem la n,
           poison := s.poison.filter fun l => !(la ≤ l * 64 && l * 64 < la + n) }

/-! ### Whose address it is -/

/-- Where a global physical address lies: here, in a mirror that answers for the twin, nowhere live, or away. -/
inductive Place where
  | here (la : Nat)
  | dead
  | away (package la : Nat)
  deriving DecidableEq, Repr

/-- Resolves a package id and local address (01 R14, 13 R366). -/
def State.place (s : State) (package la : Nat) : Place :=
  if package = s.ownId then .here la
  else if s.twin.answersFor = some package then
    match s.mirrorOf (extentOf la) with
    | some m => .here (m * 2 ^ 30 + la % 2 ^ 30)
    | none => .dead
  else .away package la

/-- A global physical address (01 R14). -/
def globalOf (package la : Nat) : Nat := package * 2 ^ 50 + la % 2 ^ 50

/-- Resolves a global physical address. -/
def State.placeOf (s : State) (ga : Nat) : Place := s.place (ga / 2 ^ 50 % 64) (ga % 2 ^ 50)

/-! ### Who asks -/

/-- The maker of an access, as a fault record names it (04 Table 4-6), with its tenant. -/
structure Who where
  unit : Nat
  cls : Nat
  index : Nat
  cmdSeq : Nat
  tenant : Nat
  waiter : Waiter
  deriving DecidableEq, Repr

/-- Sequence number of a command (06 R164). -/
def Slot.seq (sl : Slot) : Nat := sl.ring * 2 ^ 50 + sl.pos

/-- The package whose command a ring holds: this one, or the lost twin that it answers for (13 R366). -/
def State.ringOwn (s : State) (ring : Nat) : Nat := if ring < resumedRing then s.ownId else s.twin.answersFor.getD s.ownId

/-- A field of a command's descriptor. -/
def Slot.f (sl : Slot) (lo w : Nat) : Nat := fld sl.desc lo w

/-- An id of `w` bits in a command's descriptor: on a ring of the lost twin, one of the twin's objects. -/
def Slot.id (sl : Slot) (lo w : Nat) : Nat := fld sl.desc lo w + (if sl.ring < resumedRing then 0 else twinSpace w)

/-- ASID of a command's header (06 Table 6-8). -/
def Slot.asid (sl : Slot) : Nat := sl.id 16 16

/-- The engine of class `cls` that serves a command. -/
def Slot.who (sl : Slot) (n cls : Nat) : Who :=
  { unit := Config.engineDie sl.seq % 4, cls, index := Config.engineUnit sl.seq, cmdSeq := sl.seq % 2 ^ 32,
    tenant := sl.tenant, waiter := .slot n sl.seq }

/-- The grid die of a core (01 R13). -/
def dieOfCore (n : Nat) : Nat := n % 160 / 80 + 2 * (n / 160 / 80)

/-- A silt core as the maker of an access. -/
def State.coreWho (s : State) (n : Nat) : Who :=
  { unit := dieOfCore n, cls := 0, index := n, cmdSeq := (s.core n).launchSeq % 2 ^ 32, tenant := (s.core n).tenant,
    waiter := .core n }

/-- The slot that waits on protected writes made for `w`, if any (01 R23). -/
def Who.slotOf (w : Who) : Option Nat :=
  match w.waiter with
  | .slot n _ => some n
  | _ => none

/-! ### The home directory (05 R115 to R119) -/

/-- The line's entry. -/
def State.dir? (s : State) (line : Nat) : Option DirEntry := SMap.look s.coh.dir line

/-- Sets or drops the line's entry. -/
def State.setDir (s : State) (line : Nat) (e : Option DirEntry) : State :=
  { s with coh := { s.coh with dir := match e with
      | some e => SMap.put s.coh.dir line e
      | none => SMap.del s.coh.dir line } }

/-- Agents with ENABLE TRUE. -/
def State.enabledAgents (s : State) : List Nat :=
  (s.coh.agents.filter fun (_, r) => r.enable).map (·.1)

/-- Agents that may hold the line (05 Table 5-3). -/
def State.holders (s : State) (line : Nat) : List Nat :=
  match s.dir? line with
  | none => []
  | some (.shared l) => l
  | some .broadcast => s.enabledAgents
  | some (.exclusive a) => [a]

/-- Sends a snoop unless the same one waits for its answer. -/
def State.snoop (s : State) (agent line : Nat) (kind : SnoopKind) : State :=
  if s.coh.snoops.any fun x => x.agent = agent && x.line = line then s
  else { s with coh := { s.coh with snoops := s.coh.snoops ++ [{ agent, line, kind, recalled := false }] } }

/-- Sends an invalidation or recall to every holder of the line; a B entry lists its holders until they have answered. -/
def State.snoopAll (s : State) (line : Nat) : State :=
  let t := (s.holders line).foldl (fun s a => s.snoop a line .invalidate) s
  if s.dir? line = some .broadcast then t.setDir line (some (.shared s.enabledAgents)) else t

/-! ### Accesses at the home -/

/-- Extents that satisfy `p` and have a mirror or are one, HBM before flash (13 R369). -/
def State.copyOrder (s : State) (p : Extent → Bool) : List Nat :=
  let l := SMap.keys (s.ext.filter fun (_, x) => p x && x.mirror.isSome)
  l.filter (fun e => tierOf e = 0) ++ l.filter fun e => tierOf e ≠ 0

/-- The extents that are still to be copied to the twin, in order (13 R359, R369, Table 13-1): for a joining twin its own
extents from their mirrors, then mirrors of the extents of this package, HBM before flash; of a twin back from an announced
warm reset, only those flash extents that were written in its absence; between twins that join or meet again, the protected
extents that were written without a mirror. -/
def State.copyList (s : State) : List Nat :=
  let l : List Nat := match s.twin.pair with
    | .resilvering => s.copyOrder (fun (x : Extent) => x.hold = Hold.mirror) ++ s.copyOrder fun x => x.protect && x.hold ≠ .mirror
    | .unpaired | .split => s.copyOrder fun x => x.protect && x.written && x.hold ≠ .mirror
    | _ => []
  l.filter fun e => !s.twin.copied.contains e &&
    !(s.twin.announced && tierOf e = 1 && !((s.extent? e).map (·.written)).getD false)

/-- Whether the copy to the twin has passed a local address. -/
def State.isCopied (s : State) (la : Nat) : Bool :=
  s.twin.copied.contains (extentOf la) ||
    (s.copyList.head? = some (extentOf la) && la % 2 ^ 30 / 2 ^ 22 < s.twin.resilverChunk)

/-- Whether a write to a local address is mirrored to the twin now (13 R358, R359, R369): of a protected extent with a mirror
while PAIRED; of one whose chunk is copied already, during a copy. -/
def State.mirrors (s : State) (la : Nat) : Bool :=
  match s.extent? (extentOf la) with
  | some e => (e.protect || e.hold = .mirror) && e.mirror.isSome && !s.twin.recordedDegraded && match s.twin.pair with
    | .paired => e.hold ≠ .mirror
    | .resilvering | .unpaired | .split => s.isCopied la
    | _ => false
  | none => false

/-- Whether a protected write to the line waits for the twin's acknowledgement (01 R22). -/
def State.awaitsTwin (s : State) (line : Nat) : Bool :=
  s.twin.unacked.any fun (_, l, _) => l = line

/-- What a home answers to a request at a local address that it does not perform (01 R17, 04 R106, 02 R39, 07 R180). -/
def State.homeRefusal (s : State) (tenant la : Nat) : Option Status :=
  match s.areaOf la with
  | .nowhere | .devicePage | .reservedSlot => some .notPermitted
  | .scratch c => if (s.core c).holder = some tenant then none else some .notPermitted
  | .hbm | .flash _ | .far =>
    match s.extent? (extentOf la) with
    | some { state := .draining, .. } | some { state := .scrubbing, .. } => some .revoked
    | _ => match s.decoderOf la with
      | some d => if d.up then none else some .targetDead
      | none => none

/-- A protected extent that is written while the pair is split, or its twin away, is recorded so (13 R363, R369). -/
def State.markWritten (s : State) (la : Nat) : State :=
  if s.mirrors la || s.twin.pair = .paired && !s.twin.recordedDegraded then s else
  match s.extent? (extentOf la) with
  | some e => if (e.protect || e.hold = .mirror) && !e.written then s.setExtent (extentOf la) { e with written := true } else s
  | none => s

/-- Sends a mirror record, which counts as a record of this package's sequence (13 R360); a write to `line` waits for its
acknowledgement, and so does the command of `slot`. -/
def State.sendRecord (s : State) (kind count addr mask line : Nat) (slot : Option Nat) (r : MirrorRecord) : State :=
  let m := s.twin.nextMseq
  let r := { r with header := BitVec.ofNat 256 (pack [(kind, 8), (0, 8), (count, 6), (0, 42), (m, 64), (addr, 50), (0, 14), (mask, 64)]) }
  { s with twin := { s.twin with nextMseq := m + 1, unacked := s.twin.unacked ++ [(m, line, slot)], sent := s.twin.sent ++ [r] } }

/-- The place in `unacked` of a record that names no line. -/
def metaLine : Nat := 2 ^ 60

/-- Sends a mirror record of one line (13 R360, Table 13-2): MIRROR_WRITES counts it and the line waits for its
acknowledgement. -/
def State.mirrorLine (s : State) (line : Nat) (mask : BitVec 64) (slot : Option Nat) : State :=
  (s.sendRecord 1 1 (line * 64) mask.toNat line slot
    { header := 0, data := s.peek (line * 64) 64, bad := if s.poisoned line then [0] else [] }).bump (dkey 0xA002 0) 1

/-- Sends a DIR mirror record that names a line, or clears it from the summary (13 R361). -/
def State.mirrorDir (s : State) (line : Nat) (named : List Nat) : State :=
  let s := s.sendRecord 4 0 (line * 64) (2 ^ 64 - 1) line none { header := 0, data := [] }
  { s with twin := { s.twin with named } }

/-- Whether metadata is mirrored: while PAIRED, and to a twin that joins or is being copied to (13 R358, R369). -/
def State.mirrorsMeta (s : State) : Bool :=
  !s.twin.recordedDegraded && match s.twin.pair with
    | .paired | .resilvering => true
    | .unpaired | .split => s.twin.record.isSome
    | _ => false

/-- The metadata that a META record carries: that of this package, and of the twin that it answers for (13 R369). -/
def State.metas (s : State) (handover : Bool) : List Meta :=
  match s.twin.answersFor with
  | some x => [s.metaFor x handover, s.metaOf]
  | none => [s.metaOf]

/-- Sends a META mirror record for a change of mirrored metadata (13 R358, R360): the command that made the change waits for
its acknowledgement. -/
def State.mirrorMeta (s : State) (slot : Option Nat) : State :=
  if s.mirrorsMeta then
    let s := match slot with
      | some n => s.updSlot n fun x => { x with committed := true }
      | none => s
    s.sendRecord 2 0 0 (2 ^ 64 - 1) metaLine slot { header := 0, data := [], content := s.metas false }
  else s

/-- Sends a META record with a note beside the metadata (13 R358, R371, R377, 16 R434, R439). -/
def State.sendNote (s : State) (kind : Nat) (slot : Option Nat) (note : TwinNote) : State :=
  s.sendRecord kind 0 0 (2 ^ 64 - 1) metaLine slot { header := 0, data := [], note }

/-- A local write takes its place at the home: mirrored if the line is protected (01 R22). -/
def State.placeWrite (s : State) (la : Nat) (bs : List Byte) (slot : Option Nat) : State :=
  let s := (s.poke la bs).markWritten la
  if s.mirrors la then
    s.mirrorLine (lineOf la) (BitVec.ofNat 64 ((2 ^ bs.length - 1) * 2 ^ (la % 64))) slot
  else s

/-- A local write from a poisoned source: the line becomes poisoned, at the mirror too (13 R392). -/
def State.placePoison (s : State) (la : Nat) (bs : List Byte) (slot : Option Nat) : State :=
  let s := ((s.poke la bs).poisonLine (lineOf la)).markWritten la
  if s.mirrors la then
    s.mirrorLine (lineOf la) (BitVec.ofNat 64 ((2 ^ bs.length - 1) * 2 ^ (la % 64))) slot
  else s

/-- A home requester reads bytes of one local line; the Boolean says that the line is poisoned (05 Table 5-4). -/
def homeReadP (tenant la n : Nat) : Eng (List Byte × Bool) := do
  let s ← get
  match s.homeRefusal tenant la with
  | some st => failE st
  | none => pure ()
  holdE (!s.awaitsTwin (lineOf la))
  match s.dir? (lineOf la) with
  | some (.exclusive a) => do
    set (s.snoop a (lineOf la) .data)
    waitE
  | _ => pure (s.peek la n, s.readsBad (lineOf la))

/-- A home requester reads bytes of one local line; a poisoned line fails POISONED (13 R392). -/
def homeRead (tenant la n : Nat) : Eng (List Byte) := do
  let (bs, p) ← homeReadP tenant la n
  needE (!p) .poisoned
  pure bs

/-- A home requester gains a local line for writing: every holder is invalidated or recalled first (05 Table 5-4). -/
def homeClaim (tenant la : Nat) : Eng Unit := do
  let s ← get
  match s.homeRefusal tenant la with
  | some st => failE st
  | none => pure ()
  match s.areaOf la with
  | .flash k => do
    match SMap.look s.flash.flashStacks k with
    | some x => do
      needE (!x.readOnly) .resource
      holdE (s.val (dkey 0x3010 1) ≤ x.free)
    | none => pure ()
  | _ => pure ()
  holdE (!s.awaitsTwin (lineOf la))
  if (s.holders (lineOf la)).isEmpty then
    if (s.dir? (lineOf la)).isSome then set (s.setDir (lineOf la) none) else pure ()
  else do
    set (s.snoopAll (lineOf la))
    waitE

/-- A local masked write of a line takes its place at the home: mirrored if the line is protected (01 R22, 09 R245). -/
def State.placeMasked (s : State) (line : Nat) (data : List Byte) (mask : BitVec 64) (slot : Option Nat) (bad : Bool := false) :
    State :=
  let s := s.pokeMasked line data mask
  let s := (if bad then s.poisonLine line else s).markWritten (line * 64)
  if s.mirrors (line * 64) then s.mirrorLine line mask slot else s

/-- A home requester writes bytes of one local line, as one event (05 R139). -/
def homeWrite (tenant la : Nat) (bs : List Byte) (slot : Option Nat) : Eng Unit := do
  homeClaim tenant la
  modify fun s => s.placeWrite la bs slot

/-- A home requester writes a line that comes from a poisoned source: the line becomes poisoned (05 R141). -/
def homePoison (tenant la : Nat) (bs : List Byte) (slot : Option Nat) : Eng Unit := do
  homeClaim tenant la
  modify fun s => s.placePoison la bs slot

/-! ### Translation and faults (chapter 4) -/

/-- Bytes of a page by its code (04 Table 4-5). -/
def pageBytes (code : Nat) : Nat :=
  match code with
  | 0 => 2 ^ 16
  | 1 => 2 ^ 21
  | 2 => 2 ^ 30
  | _ => 2 ^ 36

/-- Whether a mapping covers a VA under an ASID. -/
def Mapping.covers (m : Mapping) (asid va : Nat) : Bool :=
  m.asid = asid && m.va ≤ va && va < m.va + pageBytes m.page

/-- The mapping of a VA under an ASID. -/
def State.mapOf (s : State) (asid va : Nat) : Option Mapping :=
  s.tr.maps.find? fun m => m.covers asid va

/-- Whether a range of VAs under an ASID holds a mapping. -/
def State.mapped (s : State) (asid va n : Nat) : Bool :=
  s.tr.maps.any fun m => m.asid = asid && m.va < va + n && va < m.va + pageBytes m.page

/-- Removes mappings, and the translations held for them (04 R104). -/
def State.unmapIf (s : State) (p : Mapping → Bool) : State :=
  let gone := s.tr.maps.filter p
  { s with tr := { s.tr with
      maps := s.tr.maps.filter fun m => !p m
      tcache := s.tr.tcache.filter fun (_, asid, va) => !gone.any fun m => m.asid = asid && m.va = va } }

/-- Whether a VA lies in the scratchpad alias (07 R179). -/
def inAlias (va : Nat) : Bool := va / 2 ^ 39 = 2 ^ 18 - 1

/-- Records that a unit looked up a page: a miss is counted and the page is held, in place of an arbitrary page when the
65,536 entries are held (04 R91). -/
def State.touchPage (s : State) (unit asid va : Nat) : State :=
  let full := s.tr.tcache.length ≥ 65536
  let held := s.tr.tcache.contains (unit, asid, va)
  let kept := if full then s.tr.tcache.eraseIdx (Config.freeValue s.free % s.tr.tcache.length) else s.tr.tcache
  { s with tr := { s.tr with
      tcache := if held then s.tr.tcache else kept ++ [(unit, asid, va)]
      misses := if held then s.tr.misses else SMap.put s.tr.misses unit (SMap.get s.tr.misses unit 0 + 1) } }

/-- The 32 bytes of a fault record (04 Table 4-6). -/
def PendingFault.bits (f : PendingFault) (last : Bool) : Nat :=
  pack [(f.cause, 3), (bit f.write, 1), (bit last, 1), (0, 3), (f.reqCount, 8), (f.asid, 16), (f.tenant, 12), (f.unit, 2),
    (0, 2), (f.batch.getD 0, 16), (f.va, 57), (0, 7), (f.reqClass, 8), (f.reqIndex, 16), (0, 8), (f.cmdSeq, 32),
    (f.time, 64)]

/-- A request misses a mapping, or writes a READ_ONLY page (04 R98, R103): it joins the pending fault of its key, makes a
new one, or, where its unit holds 256, has none yet. It waits in every case. -/
def State.fault (s : State) (w : Who) (asid va cause : Nat) (write : Bool) : State :=
  let va := va % 2 ^ 57
  match s.tr.faults.findIdx? (fun f => f.asid = asid && f.va / 2 ^ 16 = va / 2 ^ 16) with
  | some i =>
    match s.tr.faults[i]? with
    | some f =>
      if f.waiters.contains w.waiter then s
      else
        let f := { f with waiters := f.waiters ++ [w.waiter], write := f.write || write }
        { s with tr := { s.tr with faults := s.tr.faults.set i f } }.bump (dkey 0x4012 3) 1
    | none => s
  | none =>
    if s.tr.faults.length ≥ 256 && (s.tr.faults.filter (·.unit = w.unit)).length ≥ 256 then s
    else
      let f : PendingFault :=
        { unit := w.unit, asid, va, cause, write, reqCount := 1, tenant := ((s.asid? asid).map (·.tenant)).getD 0,
          reqClass := w.cls, reqIndex := w.index, cmdSeq := w.cmdSeq, time := s.time, batch := none,
          waiters := [w.waiter] }
      let s := { s with tr := { s.tr with faults := s.tr.faults ++ [f] } }
      s.trace 7 f.unit 0 f.tenant (f.bits false % 2 ^ 192)

/-- Translates a VA under an ASID to a global physical address (04 R91, 07 R179, 01 R14, R19). -/
def translate (w : Who) (asid va : Nat) (write : Bool) : Eng Nat := do
  let s ← get
  match s.asid? asid with
  | none => failE .notPermitted
  | some _ =>
    if inAlias va then do
      let off := va % 2 ^ 33
      needE (off / 0x200_0000 < 160 && off % 0x200_0000 / 0x2_0000 < 160) .badDescriptor
      pure (globalOf (va / 2 ^ 33 % 64) (0x4000_0000_0000 + off))
    else
      match s.mapOf asid va with
      | none => do
        set (s.fault w asid va 0 write)
        waitE
      | some m =>
        if m.readOnly && write then do
          set (s.fault w asid va 1 true)
          waitE
        else do
          set (s.touchPage w.unit asid m.va)
          pure (globalOf (m.package.getD s.ownId) (m.address + (va - m.va)))

/-! ### The end of a command -/

/-- The trace body of a command (15 Table 15-9): SEQ, OPCODE, and STATUS for CMD_COMPLETE. -/
def Slot.traceBody (sl : Slot) (st : Nat) : Nat := pack [(sl.seq, 64), (sl.opcode, 8), (st, 8)]

/-- The unfinished command with a sequence number, and its slot. -/
def State.live? (s : State) (seq : Nat) : Option (Nat × Slot) :=
  s.fe.slots.find? fun (_, sl) => sl.seq = seq && sl.stage ≠ .finished

/-- Whether a command is still unfinished. -/
def State.isLive (s : State) (seq : Option Nat) : Bool :=
  match seq with
  | some q => (s.live? q).isSome
  | none => false

/-- Gives back the search unit, the gather unit and the snapshot that the command or leg with a key holds (10 R271, R280,
11 R305). -/
def State.releaseUnits (s : State) (key : Nat) : State :=
  let cut := fun (x : Index) => { x with searches := x.searches.filter fun (k, _) => k ≠ key }
  { s with
    idx := { s.idx with
      indexes := SMap.each s.idx.indexes fun _ x => cut x
      ending := (s.idx.ending.map cut).filter fun x => !x.searches.isEmpty
      searchUnits := s.idx.searchUnits.filter (· ≠ key)
      gatherUnits := s.idx.gatherUnits.filter (· ≠ key) }
    emb := { s.emb with tables := SMap.each s.emb.tables fun _ x =>
      { x with running := x.running.filter (· ≠ key), scatters := x.scatters.filter (· ≠ key) } } }

/-- A command finishes: it keeps its slot until its record is written (06 R169). -/
def State.finish (s : State) (n : Nat) (st : Status) (count result : Nat) : State :=
  s.updSlot n fun sl => { sl with stage := .finished, status := sl.status.join st, count, result, waitSince := s.time }

/-- A command fails with a status; its count and result stay as they stand. -/
def State.failSlot (s : State) (n : Nat) (st : Status) : State :=
  s.updSlot n fun sl => { sl with stage := .finished, status := sl.status.join st, waitSince := s.time }

/-- The command with a sequence number finishes, if it is still unfinished. -/
def State.finishSeq (s : State) (seq : Nat) (st : Status) (count result : Nat) : State :=
  match s.live? seq with
  | some (n, _) => s.finish n st count result
  | none => s

/-- The command with a sequence number fails, if it is still unfinished. -/
def State.failSeq (s : State) (seq : Nat) (st : Status) : State :=
  match s.live? seq with
  | some (n, _) => s.failSlot n st
  | none => s

/-- A command fails before it has done any work: a refused descriptor is counted (06 Table 6-16, R161 step 4). -/
def State.rejectSlot (s : State) (n : Nat) (st : Status) : State :=
  let s : State := match s.slot? n with
    | some sl =>
      if (st = .badDescriptor || st = .notPermitted) && sl.cursor = 0 && sl.parts = 0 && sl.status = .ok then
        s.bump (dkey 0x9106 0) 1
      else s
    | none => s
  s.failSlot n st

/-- Whether a command may be dispatched: not behind an unfinished FENCE of its ring, and for a FENCE not before every
earlier command of its ring has released its slot (06 R158); in a SERIAL or STEP ring, only when every earlier command
has (15 R416). -/
def State.dispatchable (s : State) (sl : Slot) : Bool :=
  let alone : Bool := match s.ring? sl.ring with
    | some r => r.mode ≠ .normal
    | none => false
  !s.fe.slots.any fun (_, o) => o.ring = sl.ring && o.pos < sl.pos && (alone || o.opcode = 0x01 || sl.opcode = 0x01)

/-- A command is dispatched: in a SERIAL or STEP ring the ring set is reset and tagged with it (15 R416). -/
def State.dispatch (s : State) (n : Nat) (sl : Slot) : State :=
  let s := s.setSlot n { sl with stage := .running, dispatchTime := s.time }
  let s : State := match s.ring? sl.ring with
    | some r =>
      if r.mode ≠ .normal then
        let x : RingSet := { set := [], tag := some sl.seq, since := s.time, running := true }
        { s with cnt := { s.cnt with ringSets := SMap.put s.cnt.ringSets sl.ring x } }
      else s
    | none => s
  s.trace 2 (Config.engineDie sl.seq) 0 sl.tenant (sl.traceBody 0)

/-- The command of slot `n`, as it stands now. -/
def getSlot (n : Nat) : Eng Slot := do
  match (← get).slot? n with
  | some sl => pure sl
  | none => waitE

/-- The end of a run of a command's action: it finishes with a status, count and result, or waits, or fails. -/
def endSlot (n : Nat) (r : Except Stop (Status × Nat × Nat) × State) : State :=
  match r with
  | (.ok (st, c, v), s) => s.finish n st c v
  | (.error .wait, s) => s
  | (.error (.fail st), s) => s.rejectSlot n st

/-- Runs a command of opcode `op` that holds slot `n`: the action finishes it with a status, count and result, or it
waits, or it fails. A slot that is free, finished, or holds another command makes no such step. -/
def runSlotIf (op n : Nat) (here : Slot → Bool) (body : Slot → Eng (Status × Nat × Nat)) (s : State) : State :=
  match s.slot? n with
  | none => s
  | some sl =>
    if sl.opcode ≠ op || !here sl || sl.stage = .finished || !s.dispatchable sl then s
    else
      let s := if sl.stage = .fetched then s.dispatch n sl else s
      endSlot n (Eng.go (do body (← getSlot n)) s)

/-- `runSlotIf` for an opcode that is one row of the table. -/
def runSlot (op n : Nat) (body : Slot → Eng (Status × Nat × Nat)) (s : State) : State :=
  runSlotIf op n (fun _ => true) body s

/-- Records how far a command has come. -/
def setCursor (n c : Nat) : Eng Unit :=
  modify fun s => s.updSlot n fun sl => { sl with cursor := c }

/-- Records the count reached so far. -/
def setCount (n c : Nat) : Eng Unit :=
  modify fun s => s.updSlot n fun sl => { sl with count := c }

/-- Records a status met so far (06 R167). -/
def noteStatus (n : Nat) (st : Status) : Eng Unit :=
  modify fun s => s.updSlot n fun sl => { sl with status := sl.status.join st }

/-- Counts work of a command (15 R409). -/
def countE (sl : Slot) (type col n : Nat) : Eng Unit :=
  modify fun s => s.countWork sl.tenant (some sl.seq) type col n

end Sys2Proof.Machine
end

