-- ==== Sys2Proof/Machine/Net.lean ====
section
/-!
DEFINITION. Transaction packets of the fabric (12 R330 to R341): the header, the choice of a port, the flits of a port,
requests and their tags.
-/

namespace Sys2Proof.Machine

open Sys2Proof

/-- The fields of a transaction header (12 Table 12-7). -/
structure Head where
  type : Nat
  poison : Bool := false
  reissue : Bool := false
  dst : Nat
  src : Nat := 0
  tenant : Nat := 0
  tag : Nat := 0
  hops : Nat := 0
  addr : Nat := 0
  grouped : Bool := false
  group : Nat := 0
  len : Nat := 0
  aop : Nat := 0
  asize : Nat := 0
  status : Nat := 0
  unit : Nat := 0
  isRing : Bool := false
  versioned : Bool := false
  uncached : Bool := false
  ctr : Nat := 0
  prior : Nat := 0
  deriving DecidableEq, Repr

/-- The header's 48 bytes (12 Table 12-7). -/
def Head.bits (h : Head) : BitVec 384 :=
  BitVec.ofNat 384 (pack [(h.type, 5), (bit h.poison, 1), (bit h.reissue, 1), (0, 1), (h.dst, 6), (0, 2), (h.src, 6),
    (0, 2), (h.tenant, 12), (h.tag, 18), (h.hops, 2), (0, 8), (h.addr, 50), (bit h.grouped, 1), (h.group, 4), (0, 9),
    (h.len, 13), (0, 3), (h.aop, 4), (h.asize, 2), (0, 2), (h.status, 8), (h.unit, 16), (bit h.isRing, 1),
    (bit h.versioned, 1), (bit h.uncached, 1), (0, 13), (h.ctr, 50), (0, 14), (h.prior, 32), (0, 96)])

/-- The fields of a header's 48 bytes. -/
def headOf (b : BitVec 384) : Head :=
  { type := fld b 0 5, poison := flag b 5, reissue := flag b 6, dst := fld b 8 6, src := fld b 16 6,
    tenant := fld b 24 12, tag := fld b 36 18, hops := fld b 54 2, addr := fld b 64 50, grouped := flag b 114,
    group := fld b 115 4, len := fld b 128 13, aop := fld b 144 4, asize := fld b 148 2, status := fld b 152 8,
    unit := fld b 160 16, isRing := flag b 176, versioned := flag b 177, uncached := flag b 178, ctr := fld b 192 50,
    prior := fld b 256 32 }

/-- The header of a packet. -/
def packetHead (p : Packet) : Head := headOf p.header

/-- The virtual channel of a packet type (12 Table 12-8). -/
def vcOfType (type : Nat) : Nat :=
  if type ≤ 0x05 then 0
  else if type ≤ 0x0A || type = 0x13 then 2
  else if type = 0x15 then 3
  else 1

/-- Whether a type names a request (12 Table 12-8). -/
def isRequest (type : Nat) : Bool := 1 ≤ type && type ≤ 0x0A

/-- The twin ports of the assembly (01 R12). -/
def State.twinPorts (s : State) : List Nat :=
  if s.asm.ports = 4 then [0, 8, 16, 24] else [0, 1, 8, 9]

/-- Fabric ports fitted (00 Table 0-2). -/
def State.fabricPorts (s : State) : Nat := s.asm.ports * 8

/-- A port that is down and holds no key. -/
def Port.down : Port where
  state := .down
  lanes := 0
  cable := false
  authFailed := false
  key := none
  keyId := 0
  salt := 0
  keyCount := 0
  txIndex := 0
  rxIndex := 0
  nextSeq := 0
  expectSeq := 0
  awaitReplay := false
  replay := []
  nakSeq := 0
  nakCount := 0
  retrainFails := 0
  flitsSinceKey := 0
  credits := []
  freed := []
  lastFreed := []
  controls := []
  assembling := []
  crcErrors := 0
  replays := 0
  authFails := 0

def State.port (s : State) (n : Nat) : Port := SMap.get s.fab.ports n .down
def State.setPort (s : State) (n : Nat) (p : Port) : State := { s with fab := { s.fab with ports := SMap.put s.fab.ports n p } }
def State.updPort (s : State) (n : Nat) (f : Port → Port) : State := s.setPort n (f (s.port n))

/-- Whether a port carries flits: UP, or UP at the low rate (12 R352). -/
def Port.live (p : Port) : Bool := p.state = .up || p.state = .lowRate

/-- Ports that may carry packets to `dst` now: those of its row, or of the row of its twin while a TAKEOVER notice holds
(12 R335, R337). -/
def State.livePorts (s : State) (dst : Nat) : List Nat :=
  let row := if s.fab.rerouted.contains dst then dst ^^^ 1 else dst
  match SMap.look s.fab.routes row with
  | some r => (List.range s.fabricPorts).filter fun i => r.ports.getLsbD i && (s.port i).live
  | none => []

/-- The port that the hash of R335 picks. -/
def pickPort (ports : List Nat) (key tag : Nat) : Option Nat :=
  match ports with
  | [] => none
  | [p] => some p
  | _ => ports[Config.portHash key tag % ports.length]?

/-- Flits that carry a packet: 224 payload bytes each (12 R322, R330). -/
def packetFlitCount (p : Packet) : Nat := ceilDiv (48 + p.payload.length) 224

/-- The credit pool of a packet: VC × 4 + HOP_CLASS (12 R328, R336). -/
def packetPool (p : Packet) : Nat := vcOfType (headOf p.header).type * 4 + (headOf p.header).hops

/-- The DATA flits of a packet, with consecutive sequence numbers from the port's next (12 R323, R330). -/
def packetFlits (vc hop epoch seq total : Nat) (bytes : List (List Byte)) (i : Nat) : List (Nat × BitVec 128 × List Byte) :=
  match bytes with
  | [] => []
  | b :: rest =>
    let n := (seq + i) % 4096
    (n, BitVec.ofNat 128 (pack [(n, 12), (0, 12), (0, 2), (0, 3), (0, 3), (0, 4), (0, 12), (vc, 2), (hop, 2),
      (bit (i = 0), 1), (bit (i + 1 = total), 1), (0, 10), (epoch, 8), (0, 56)]), padTo 224 b) ::
    packetFlits vc hop epoch seq total rest (i + 1)

/-- Puts a packet onto a port's link: its flits take credits and stand in the replay buffer until acknowledged
(12 R324, R328). -/
def Port.send (p : Port) (k : Packet) : Port :=
  let bytes := leBytes 48 k.header.toNat ++ k.payload
  let n := packetFlitCount k
  let fl := packetFlits (vcOfType (headOf k.header).type) (headOf k.header).hops (p.keyCount % 256) p.nextSeq n
    (chunksOf 224 n bytes) 0
  { p with replay := p.replay ++ fl, nextSeq := (p.nextSeq + n) % 4096, txIndex := p.txIndex + n,
           flitsSinceKey := p.flitsSinceKey + n,
           credits := SMap.put p.credits (packetPool k) (SMap.get p.credits (packetPool k) 0 - n) }

/-- Whether a port can send a packet whole now: it is live, its pool holds the credits and the replay buffer the room. -/
def Port.ready (p : Port) (k : Packet) : Bool :=
  p.live && packetFlitCount k ≤ SMap.get p.credits (packetPool k) 0 && p.replay.length + packetFlitCount k ≤ 512

/-- Sends what the waiting packets' pools and replay buffers allow; packets of one pool of a port keep their order. -/
def State.pump (s : State) (todo : List Packet) (kept : List Packet) : State :=
  match todo with
  | [] => { s with fab := { s.fab with outbox := kept } }
  | k :: rest =>
    let blocked := kept.any fun o => o.port = k.port && packetPool o = packetPool k
    if !blocked && (s.port k.port).ready k then
      let h := packetHead k
      let s := s.updPort k.port (·.send k)
      let s := if bitOf (s.val (dkey 0xB020 6)) k.port then s.trace 5 (Config.traceDie 5) k.port h.tenant h.bits.toNat else s
      let s := if h.type = 0x06 || h.type = 0x07 || h.type = 0x09 then s.countWork h.tenant none 7 0xF h.len else s
      s.pump rest kept
    else s.pump rest (kept ++ [k])

/-- Queues a packet at a port. -/
def State.emit (s : State) (k : Packet) : State :=
  s.pump (s.fab.outbox ++ [k]) []

/-- The header with LEN counting the payload, for the types where LEN names no bytes read or written (DESIGN CHOICE, log 36). -/
def Head.sized (h : Head) (payload : List Byte) : Head :=
  if h.type = 0x01 || h.type = 0x02 || (0x06 ≤ h.type && h.type ≤ 0x09) then h else { h with len := payload.length % 2 ^ 13 }

/-- Whether the package answers for an id: its own, or its lost twin's (13 R365). -/
def State.answersTo (s : State) (id : Nat) : Bool := s.fab.id ≠ 0xFF && (id = s.fab.id || s.twin.answersFor = some id)

/-- Sends a packet by the route table (12 R335); none if no port of its row is live. A packet for an id that this package
answers for stays here. -/
def State.route (s : State) (h : Head) (payload : List Byte) : Option State :=
  let h := h.sized payload
  if s.answersTo h.dst then
    some { s with fab := { s.fab with inbox := s.fab.inbox ++ [{ port := 0, header := h.bits, payload }] } }
  else
  match pickPort (s.livePorts h.dst) (if isRequest h.type then h.src else h.dst) h.tag with
  | some p => some (s.emit { port := p, header := h.bits, payload })
  | none => none

/-- Answers a request: the response goes back to the requester with the request's tag (12 R333). A response without a
live route is lost, and its request is recovered by reissue (12 R335). -/
def State.respond (s : State) (q : Head) (r : Head) (payload : List Byte) : State :=
  (s.route { r with dst := q.src, src := q.src, tenant := q.tenant, tag := q.tag, addr := q.addr } payload).getD s

/-- Tags held (12 R338). -/
def State.tagsHeld (s : State) : Nat := s.fab.tags.length

/-- A request of this package completes TARGET_DEAD: 0x5036.04 counts it (12 R347, Table 12-17). -/
def State.countDead (s : State) : State := s.bump (dkey 0x5036 4) 1

/-- Sends a request to another package under a new tag (12 R334, R338, R348). It fails TARGET_DEAD while the package is
not COMPOSED or the id is torn down; it waits while every tag is held; with no live port it is held for reissue. -/
def sendRequest (h : Head) (payload : List Byte) (purpose : Purpose) : Eng Nat := do
  let s ← get
  if !s.fab.composed || s.fab.id = 0xFF || s.fab.torn.contains h.dst then do
    set s.countDead
    failE .targetDead
  else do
    holdE (s.tagsHeld < 262144)
    let tag := leastFree (SMap.keys s.fab.tags) 262144 s.fab.nextTag % 262144
    let h := { h with src := s.fab.id, tag }
    let k : Packet := { port := 0, header := h.bits, payload }
    let (s, held) := match s.route h payload with
      | some s => (s, false)
      | none => (s, true)
    let q : Request := { dst := h.dst, type := h.type, packet := k, reissues := 0, held, since := s.time, purpose }
    set { s with fab := { s.fab with tags := SMap.put s.fab.tags tag q, nextTag := (tag + 1) % 262144 } }
    pure tag

/-- Whether a request with this purpose, destination and address is in flight. -/
def State.inFlight (s : State) (purpose : Purpose) (dst la : Nat) : Bool :=
  s.fab.tags.any fun (_, q) => q.purpose = purpose && q.dst = dst && (headOf q.packet.header).addr = la

/-- Status that a stored response reports, as the failure or success of the access that takes it up. -/
def Resp.check (r : Resp) : Eng Unit :=
  match statusOf r.status with
  | some st => if st.isOk || st = .poisoned then pure () else failE st
  | none => failE .targetDead

end Sys2Proof.Machine
end

