-- ==== Sys2Proof/Machine/Access.lean ====
section
/-!
DEFINITION. Accesses of engines and front ends by device virtual address: reads and writes of ranges line by line, local
or remote, atomics at the home atomic line buffer, and arrival counters.
-/

namespace Sys2Proof.Machine

open Sys2Proof

/-- A range cut at line boundaries: (address, length) pieces, at most `fuel` of them. -/
def linePieces (fuel a n : Nat) : List (Nat × Nat) :=
  match fuel with
  | 0 => []
  | f + 1 =>
    if n = 0 then []
    else
      let k := min n (64 - a % 64)
      (a, k) :: linePieces f (a + k) (n - k)

/-- The line pieces of a whole range. -/
def piecesOf (a n : Nat) : List (Nat × Nat) := linePieces (n / 64 + 2) a n

/-! ### Responses kept for the access that waits on them -/

/-- Marks a stored response of a write, to tell it from a read of the same address. -/
def writeMark : Nat := 2 ^ 56

/-- Marks a stored response of an atomic. -/
def atomicMark : Nat := 2 ^ 57

/-- Marks a stored answer to a part of a command or to a publish. -/
def partMark : Nat := 2 ^ 59

/-- Responses held for a waiter. -/
def State.mailbox (s : State) (w : Waiter) : List Resp :=
  match w with
  | .slot n _ => ((s.slot? n).map (·.resp)).getD []
  | .core n => (s.core n).resp
  | .ring n => ((s.ring? n).map (·.resp)).getD []
  | .model n => ((SMap.look s.models n).map (·.resp)).getD []
  | .index n => ((SMap.look s.idx.indexes n).map (·.resp)).getD []
  | .table n => ((SMap.look s.emb.tables n).map (·.resp)).getD []
  | .agent n => SMap.get s.coh.mail n []
  | .part p t => ((s.fab.holding.find? fun h => h.source = p && h.tag = t).map (·.resp)).getD []
  | .track n o => ((SMap.get s.grid.cores n .initial).tracker.find? fun (_, t) => t.order = o).elim [] (·.2.resp)
  | _ => []

/-- The state with a waiter's responses replaced. -/
def State.setMail (s : State) (w : Waiter) (l : List Resp) : State :=
  match w with
  | .slot n _ => s.updSlot n fun x => { x with resp := l }
  | .core n => s.updCore n fun x => { x with resp := l }
  | .ring n => s.updRing n fun x => { x with resp := l }
  | .model n => { s with models := SMap.upd s.models n fun x => { x with resp := l } }
  | .table n => { s with emb := { s.emb with tables := SMap.upd s.emb.tables n fun x => { x with resp := l } } }
  | .index n => { s with idx := { s.idx with indexes := SMap.upd s.idx.indexes n fun x => { x with resp := l } } }
  | .agent n => { s with coh := { s.coh with mail := SMap.putD s.coh.mail n l [] } }
  | .part p t => { s with fab := { s.fab with holding := s.fab.holding.map fun (h : Holding) =>
      if h.source = p && h.tag = t then { h with resp := l } else h } }
  | .track n o => s.updCore n fun c => { c with tracker := SMap.each c.tracker fun _ t => if t.order = o then { t with resp := l } else t }
  | _ => s

/-- Drops a waiter's responses: the access they answered has been made. -/
def clearMail (w : Who) : Eng Unit :=
  modify fun s => s.setMail w.waiter []

def readPurpose (w : Who) : Purpose :=
  match w.waiter with
  | .slot n _ => .slotRead n
  | .core n => .coreRead n
  | .ring n => .ringRead n
  | .model n => .modelRead n
  | .index n => .indexRead n
  | .table n => .tableRead n
  | .agent n => .agentFill n
  | .track n o => .trackRead n o
  | .part p t => .partRead p t
  | _ => .other

def writePurpose (w : Who) : Purpose :=
  match w.waiter with
  | .slot n _ => .slotPart n
  | .ring n => .ringWrite n
  | .track n o => .trackWrite n o
  | .part p t => .partWrite p t
  | .model n => .modelWrite n
  | .index n => .indexWrite n
  | .table n => .tableWrite n
  | .status n => .ringWrite n
  | .cq n => .cqWrite n
  | _ => .other

def atomicPurpose (w : Who) : Purpose :=
  match w.waiter with
  | .part p t => .partWrite p t
  | .slot n _ => .slotAtomic n
  | .core n => .coreAtomic n
  | _ => .other

/-- Takes up the response to a request, whatever its status, or sends the request and waits. -/
def askRaw (w : Who) (key : Nat) (h : Head) (payload : List Byte) (purpose : Purpose) : Eng Resp := do
  let s ← get
  match (s.mailbox w.waiter).find? (·.address = key) with
  | some r => pure r
  | none =>
    if s.inFlight purpose h.dst h.addr then waitE
    else do
      let _ ← sendRequest h payload purpose
      waitE

/-- An access that a twin answered after a failure marks its command RESUMED_BY_TWIN (06 Table 6-11). -/
def noteTwin (w : Who) (r : Resp) : Eng Unit :=
  match w.waiter with
  | .slot n _ => if r.status % 256 = 2 then noteStatus n .resumedByTwin else pure ()
  | _ => pure ()

/-- Takes up the response to a request, or sends the request and waits; a failure status fails the access. -/
def askRemote (w : Who) (key : Nat) (h : Head) (payload : List Byte) (purpose : Purpose) : Eng Resp := do
  let r ← askRaw w key h payload purpose
  r.check
  noteTwin w r
  pure r

/-! ### Reads and writes of ranges -/

/-- Reads bytes of one line at a global physical address; the Boolean says that the line is poisoned. A device page is
reached only through the device's own mappings (01 R17), and so by every access translated here. -/
def readPhys (w : Who) (ga n : Nat) : Eng (List Byte × Bool) := do
  match (← get).placeOf ga with
  | .here la => do
    let s ← get
    if s.areaOf la = .devicePage then pure (s.peek la n, false) else homeReadP w.tenant la n
  | .dead => failE .targetDead
  | .away p la => do
    let r ← askRemote w ga { type := 0x01, dst := p, tenant := w.tenant, addr := la, len := n } [] (readPurpose w)
    pure (r.data, r.status = 0x46)

/-- Writes bytes of one line at a global physical address, poisoned or not. -/
def writePhys (w : Who) (ga : Nat) (bs : List Byte) (poison : Bool) : Eng Unit := do
  match (← get).placeOf ga with
  | .here la => if poison then homePoison w.tenant la bs w.slotOf else homeWrite w.tenant la bs w.slotOf
  | .dead => failE .targetDead
  | .away p la => do
    let h : Head := { type := 0x06, dst := p, tenant := w.tenant, addr := la, len := bs.length, poison }
    match w.waiter with
    | .ring _ | .cq _ | .status _ | .device => do
      let _ ← sendRequest h bs (writePurpose w)
      pure ()
    | _ => do
      let _ ← askRemote w (ga + writeMark) h bs (writePurpose w)
      pure ()

/-- Reads the pieces of a range under an ASID; the Boolean says that some line is poisoned. -/
def readPieces (w : Who) (asid : Nat) (l : List (Nat × Nat)) : Eng (List Byte × Bool) := do
  match l with
  | [] => pure ([], false)
  | (va, n) :: rest => do
    let ga ← translate w asid va false
    let (bs, p) ← readPhys w ga n
    let (more, q) ← readPieces w asid rest
    pure (bs ++ more, p || q)

/-- Reads a range under an ASID; the Boolean says that some line is poisoned. -/
def readVaP (w : Who) (asid va n : Nat) : Eng (List Byte × Bool) :=
  readPieces w asid (piecesOf va n)

/-- Reads a range under an ASID; a poisoned line fails POISONED (13 R392). -/
def readVa (w : Who) (asid va n : Nat) : Eng (List Byte) := do
  let (bs, p) ← readVaP w asid va n
  needE (!p) .poisoned
  pure bs

/-- Reads a little-endian number. -/
def readNat (w : Who) (asid va n : Nat) : Eng Nat := do
  pure (leNat (← readVa w asid va n))

/-- Writes the pieces of a range under an ASID. -/
def writePieces (w : Who) (asid : Nat) (l : List (Nat × Nat)) (bs : List Byte) (poison : Bool) : Eng Unit := do
  match l with
  | [] => pure ()
  | (va, n) :: rest => do
    let ga ← translate w asid va true
    writePhys w ga (bs.take n) poison
    writePieces w asid rest (bs.drop n) poison

/-- Writes bytes under an ASID, line by line. -/
def writeVa (w : Who) (asid va : Nat) (bs : List Byte) : Eng Unit :=
  writePieces w asid (piecesOf va bs.length) bs false

/-- The global physical ranges of a range of VAs, page by page, at most `fuel` pages. -/
def rangePieces (w : Who) (asid va n : Nat) (write : Bool) (fuel : Nat) : Eng (List (Nat × Nat)) := do
  match fuel with
  | 0 => pure []
  | f + 1 =>
    if n = 0 then pure []
    else do
      let ga ← translate w asid va write
      let k := match (← get).mapOf asid va with
        | some m => min n (m.va + pageBytes m.page - va)
        | none => n
      let rest ← rangePieces w asid (va + k) (n - k) write f
      pure ((ga, k) :: rest)

/-- Translates every page of a range for writing and makes no access. -/
def translateAll (w : Who) (asid : Nat) (write : Bool) (l : List (Nat × Nat)) : Eng Unit := do
  match l with
  | [] => pure ()
  | (va, _) :: rest => do
    let _ ← translate w asid va write
    translateAll w asid write rest

/-- Runs the units `i` to `i + fuel - 1` of a command in turn, and records how far it has come: a unit that waits is
begun again. -/
def loopFrom (w : Who) (n : Nat) (body : Nat → Eng Unit) (fuel i : Nat) : Eng Unit :=
  match fuel with
  | 0 => pure ()
  | f + 1 => do
    body i
    setCursor n (i + 1)
    clearMail w
    loopFrom w n body f (i + 1)

/-- Runs the units of a command that are not yet done, of `total`. -/
def units (w : Who) (n total : Nat) (body : Nat → Eng Unit) : Eng Unit := do
  let sl ← getSlot n
  loopFrom w n body (total - sl.cursor) sl.cursor

/-! ### Parts of a command on another package (12 R332) -/

/-- The payload of a CMD or CMD_RSP: part header, originating descriptor, and the inputs or outputs. -/
def partPayload (opcode kind seq : Nat) (d : Desc) (data : List Byte) : List Byte :=
  leBytes 32 (pack [(opcode, 8), (kind, 8), (seq, 64)]) ++ leBytes 64 d.toNat ++ data

/-- Sends a part of a command to a package, or takes up its answer: the outputs and the status. `key` is a local address of
that package, or a number, and tells the parts of one command apart. -/
def askPartOf (w : Who) (opcode kind seq : Nat) (d : Desc) (package key : Nat) (inputs : List Byte) : Eng Resp := do
  let s ← get
  match (s.mailbox w.waiter).find? (·.address = globalOf package key + partMark) with
  | some r => do
    noteTwin w r
    pure r
  | none => do
    let purpose := writePurpose w
    if s.inFlight purpose package (key % 2 ^ 50) then waitE
    else do
      let h : Head := { type := 0x04, dst := package, tenant := w.tenant, addr := key % 2 ^ 50 }
      let _ ← sendRequest h (partPayload opcode kind seq d inputs) purpose
      waitE

/-- Sends a part of the command of a slot. -/
def askPart (w : Who) (sl : Slot) (kind package key : Nat) (inputs : List Byte) : Eng Resp :=
  askPartOf w sl.opcode kind sl.seq sl.desc package key inputs

/-! ### Atomics (05 R120 to R123) -/

/-- The result written by an atomic operation on `w`-bit operands (05 Table 5-5). -/
def atomicResult (op w old operand compare : Nat) : Nat :=
  let old := old % 2 ^ w
  let x := operand % 2 ^ w
  match op with
  | 0x0 => (old + x) % 2 ^ w
  | 0x1 => old &&& x
  | 0x2 => old ||| x
  | 0x3 => old ^^^ x
  | 0x4 => if signed w old ≤ signed w x then old else x
  | 0x5 => if signed w old ≤ signed w x then x else old
  | 0x6 => min old x
  | 0x7 => max old x
  | 0x8 => x
  | 0x9 => if old = compare % 2 ^ w then x else old
  | 0xA => fadd32 old x
  | _ => old

/-- Bytes of an atomic's operand by its size code (12 Table 12-7). -/
def atomicBytes (size : Nat) : Nat :=
  match size with
  | 0 => 4
  | 1 => 8
  | _ => 16

/-- Whether an operation takes a size (05 R120): 16 bytes only for CAS, only 4 bytes for FADD, no reserved code. -/
def atomicAllowed (op size : Nat) : Bool :=
  op ≤ 0xA && size ≤ 2 && (size ≠ 2 || op = 0x9) && (op ≠ 0xA || size = 0)

/-- Brings a line into the buffer, or marks its entry as used last (05 R121, R122). -/
def State.albTouch (s : State) (line : Nat) : State :=
  let stamp := s.coh.albStamp + 1
  let kept := s.coh.alb.filter (·.line ≠ line)
  { s with coh := { s.coh with albStamp := stamp, alb := kept ++ [{ die := Config.homeDie line % 4, line, stamp }] } }

/-- Whether the line's die has no entry for another line (05 R122). -/
def State.albFull (s : State) (line : Nat) : Bool :=
  !s.coh.alb.any (·.line = line) && s.coh.alb.length ≥ 256 &&
    (s.coh.alb.filter fun e => e.die = Config.homeDie line % 4).length ≥ 256

/-- Records an atomic that waits for an entry (05 R122). -/
def State.albWait (s : State) (tenant la op size operand compare : Nat) : State :=
  let r : AtomicRequest := { tenant, address := la, op := BitVec.ofNat 4 op, size := BitVec.ofNat 2 size,
                             operand := BitVec.ofNat 128 operand, compare := BitVec.ofNat 128 compare }
  if s.coh.albWaiting.contains r then s else { s with coh := { s.coh with albWaiting := s.coh.albWaiting ++ [r] } }

/-- Frees a line's entry. -/
def State.albFree (s : State) (line : Nat) : State :=
  { s with coh := { s.coh with alb := s.coh.alb.filter (·.line ≠ line) } }

/-- The oldest waiting atomic of a die takes a free entry (05 R122). -/
def State.albGive (s : State) (die : Nat) : State :=
  match s.coh.albWaiting.find? fun r => Config.homeDie (lineOf r.address) % 4 = die with
  | none => s
  | some r =>
    if s.albFull (lineOf r.address) then s
    else
      let s := s.albTouch (lineOf r.address)
      { s with coh := { s.coh with albWaiting := s.coh.albWaiting.filter (lineOf ·.address ≠ lineOf r.address) } }

/-- An atomic at its home: the line is brought into the buffer and the operation performed; the old value returns. On a
protected line the result is mirrored, and the next atomic waits for the acknowledgement (05 R121 to R123). -/
def atomicAtHome (tenant la op size operand compare : Nat) (slot : Option Nat) : Eng Nat := do
  homeClaim tenant la
  let s ← get
  let scratch := match s.areaOf la with
    | .scratch _ => true
    | _ => false
  if !scratch && s.albFull (lineOf la) then do
    set (s.albWait tenant la op size operand compare)
    waitE
  else pure ()
  needE (!s.readsBad (lineOf la)) .poisoned
  let n := atomicBytes size
  let old := leNat (s.peek la n)
  let s := if scratch then s else s.albTouch (lineOf la)
  let s := s.placeWrite la (leBytes n (atomicResult op (8 * n) old operand compare)) slot
  let s := s.countWork tenant ((slot.bind s.slot?).map (·.seq)) 8 (if op = 0xA then 0x0 else 0xF) 1
  set (s.bump (dkey 0x5011 2) 1)
  pure old

/-- An atomic at a global physical address, local or remote. -/
def atomicPhys (w : Who) (ga op size operand compare : Nat) : Eng Nat := do
  match (← get).placeOf ga with
  | .here la => atomicAtHome w.tenant la op size operand compare w.slotOf
  | .dead => failE .targetDead
  | .away p la => do
    let n := atomicBytes size
    let h : Head := { type := 0x03, dst := p, tenant := w.tenant, addr := la, len := n, aop := op, asize := size }
    let r ← askRemote w (ga + atomicMark) h (leBytes n operand ++ leBytes n compare) (atomicPurpose w)
    needE (r.status < 0x40) .poisoned
    pure (leNat r.data)

/-- Adds 1 to a 64-bit arrival counter under an ASID (02 R46). -/
def counterAdd (w : Who) (asid va : Nat) : Eng Unit := do
  let ga ← translate w asid va true
  let _ ← atomicPhys w ga 0x0 1 1 0
  pure ()

end Sys2Proof.Machine
end

