-- ==== Sys2Proof/Machine/RemoteLines.lean ====
section
/-!
DEFINITION. The remote line cache (05 R127 to R130): fills, reads and writes of remote lines for plain accesses of cores and
of caching agents.
-/

namespace Sys2Proof.Machine

open Sys2Proof

/-- Marks a stored response of a fill, to tell it from a read of the same address. -/
def fillMark : Nat := 2 ^ 58

/-- Added to the status of a stored fill answer that must not be cached (12 Table 12-7, UNCACHED). -/
def uncachedMark : Nat := 256

/-- The key under which the home directory tracks agents' copies of a cached remote line (05 R128). -/
def remoteKey (gline : Nat) : Nat := 2 ^ 61 + gline

/-- What a fill of a remote line finds: a cached line, or an answer that is not cached. -/
inductive RemoteView where
  | cached (x : RlcLine)
  | uncached (data : List Byte) (poison : Bool)
  deriving DecidableEq, Repr

/-- The state with a remote line cache line set. -/
def State.setRemote (s : State) (gline : Nat) (x : RlcLine) : State :=
  { s with rlc := { s.rlc with lines := SMap.put s.rlc.lines gline x } }

/-- The state without a remote line cache line. -/
def State.dropRemote (s : State) (gline : Nat) : State :=
  { s with rlc := { s.rlc with lines := SMap.del s.rlc.lines gline } }

/-- Lines that the remote line cache's extent holds: 1 GiB of them (05 R128). -/
def rlcCapacity : Nat := 2 ^ 24

/-- The payload of a write-back: the line's bytes, then its byte mask, which AOP 1 in the header announces (DESIGN CHOICE, log 19). -/
def maskedPayload (data : List Byte) (mask : BitVec 64) : List Byte := padTo 64 data ++ leBytes 8 mask.toNat

/-- Writes a Dirty line back to its home as a plain write of its dirty bytes (05 R129, 09 R245). -/
def sendWriteBack (tenant gline : Nat) (x : RlcLine) : Eng Unit := do
  let h : Head := { type := 0x06, dst := gline * 64 / 2 ^ 50 % 64, tenant, addr := gline * 64 % 2 ^ 50, len := 64, aop := 1,
                    poison := x.poisoned }
  let _ ← sendRequest h (maskedPayload x.data x.mask) (.writeBack gline)

/-- Makes room for one more line: a line that no agent holds and that is not Held leaves; which one is not architectural
(05 R129). -/
def State.rlcEvict (s : State) : State :=
  if s.rlc.lines.length < rlcCapacity then s
  else
    let (d, s) := s.draw
    let l := s.rlc.lines.filter fun (g, x) => x.state ≠ .held && (s.dir? (remoteKey g)).isNone
    match l[d % max l.length 1]? with
    | none => s
    | some (g, x) =>
      let s := if x.state = .dirty then (sendWriteBack 0 g x).state s else s
      s.dropRemote g

/-- A fill answer enters the cache (05 R129). -/
def State.rlcInstall (s : State) (gline : Nat) (data : List Byte) (versioned poisoned : Bool) : State :=
  if SMap.has s.rlc.lines gline then s
  else s.rlcEvict.setRemote gline { state := .clean, data := padTo 64 data, mask := 0, versioned, poisoned }

/-- The line at (package, local address), filled from its home if the cache does not hold it (05 R127, R129). -/
def remoteView (w : Who) (p la : Nat) : Eng RemoteView := do
  let g := lineOf (globalOf p la)
  match SMap.look (← get).rlc.lines g with
  | some x => pure (.cached x)
  | none => do
    let h : Head := { type := 0x02, dst := p, tenant := w.tenant, addr := la / 64 * 64, len := 64 }
    let r ← askRaw w (g * 64 + fillMark) h [] (readPurpose w)
    if r.status ≥ uncachedMark then do
      ({ r with status := r.status - uncachedMark } : Resp).check
      pure (.uncached r.data (r.status = 0x46 + uncachedMark))
    else do
      r.check
      -- the line was filled and has left the cache since: it is filled again
      modify fun s => s.setMail w.waiter []
      waitE

/-- Reads bytes of one remote line through the cache; the Boolean says that it is poisoned. -/
def remoteRead (w : Who) (p la n : Nat) : Eng (List Byte × Bool) := do
  let g := lineOf (globalOf p la)
  match ← remoteView w p la with
  | .uncached d q => pure ((d.drop (la % 64)).take n, q)
  | .cached x => do
    let s ← get
    match s.dir? (remoteKey g) with
    | some (.exclusive a) => do
      set (s.snoop a (remoteKey g) .data)
      waitE
    | _ => pure ((x.data.drop (la % 64)).take n, x.poisoned)

/-- Bytes of a line with those that a mask selects replaced. -/
def mergeBytes (old data : List Byte) (mask : BitVec 64) : List Byte :=
  (List.range 64).map fun i => if mask.getLsbD i then data.getD i 0 else old.getD i 0

/-- Lines Held by the package (05 R130). -/
def State.heldLines (s : State) : Nat := (s.rlc.lines.filter fun (_, x) => x.state = .held).length

/-- Merges bytes into a cached line: it becomes Held in a versioned region, else Dirty (05 R129, R130). -/
def remoteStore (g : Nat) (x : RlcLine) (data : List Byte) (mask : BitVec 64) : Eng Unit := do
  let s ← get
  if !(s.holders (remoteKey g)).isEmpty then do
    set (s.snoopAll (remoteKey g))
    waitE
  else do
    let full := x.versioned && x.state ≠ .held && s.heldLines ≥ s.val (dkey 0x5020 1) * 16384
    holdE (!full)
    set (s.setRemote g { x with state := if x.versioned then .held else .dirty, data := mergeBytes x.data data mask,
                                mask := x.mask ||| mask, poisoned := x.poisoned && mask ≠ BitVec.allOnes 64 })

/-- Writes the bytes of a remote line that a mask selects, through the cache; to a line that must not be cached the write
goes straight to the home (05 R127, R129). -/
def remoteMerge (w : Who) (p la : Nat) (data : List Byte) (mask : BitVec 64) : Eng Unit := do
  match ← remoteView w p la with
  | .cached x => remoteStore (lineOf (globalOf p la)) x data mask
  | .uncached _ _ => do
    let h : Head := { type := 0x06, dst := p, tenant := w.tenant, addr := la / 64 * 64, len := 64, aop := 1 }
    let _ ← askRemote w (globalOf p (la / 64 * 64) + writeMark) h (maskedPayload data mask) (writePurpose w)

end Sys2Proof.Machine
end

