-- ==== Sys2Proof/Machine/CoreOps.lean ====
section
/-!
DEFINITION. What every silt core instruction shares (chapter 7): the register files, fetch and retirement, exceptions, the
range tracker, and the end of a kernel on a core and on its rectangle (08 R223, R224).
-/

namespace Sys2Proof.Machine

open Sys2Proof

/-! ### Registers (07 Table 7-1) -/

/-- Reads a scalar register: s0 reads zero. -/
def Core.getS (c : Core) (r : Nat) : Word := if r = 0 then 0 else SMap.get c.s r 0

/-- Writes a scalar register: a write to s0 is ignored. -/
def Core.putS (c : Core) (r : Nat) (v : Word) : Core := if r = 0 then c else { c with s := SMap.putD c.s r v 0 }

/-- Reads a predicate register: p0 reads all ones. -/
def Core.getP (c : Core) (r : Nat) : PReg := if r = 0 then BitVec.allOnes 128 else SMap.get c.p r 0

/-- Writes a predicate register: a write to p0 is ignored. -/
def Core.putP (c : Core) (r : Nat) (v : PReg) : Core := if r = 0 then c else { c with p := SMap.putD c.p r v 0 }

def Core.getV (c : Core) (r : Nat) : VReg := SMap.get c.v r 0
def Core.putV (c : Core) (r : Nat) (v : VReg) : Core := { c with v := SMap.putD c.v r v 0 }
def Core.getA (c : Core) (r : Nat) : AReg := SMap.get c.a r 0
def Core.putA (c : Core) (r : Nat) (v : AReg) : Core := { c with a := SMap.putD c.a r v 0 }

/-- Sets sticky flags (07 R201). -/
def Core.raiseFlags (c : Core) (f : Nat) : Core := { c with fflags := c.fflags ||| BitVec.ofNat 4 f }

/-! ### Instructions as actions -/

/-- Why an instruction does not take effect now: it waits at issue (1: all tracker entries held, 2: an overlapping entry,
0: anything else), or it raises an exception (07 Table 7-18). -/
inductive CoreStop where
  | wait (why : Nat)
  | exc (cause va : Nat) (imprecise : Bool)
  deriving DecidableEq, Repr

/-- An instruction's action. -/
abbrev CoreE (α : Type) := ExceptT CoreStop (StateM State) α

def CoreE.go {α : Type} (e : CoreE α) (s : State) : Except CoreStop α × State := e.run s

/-- Raises a precise exception. -/
def excE {α : Type} (cause va : Nat) : CoreE α := throw (.exc cause va false)

/-- Raises ILLEGAL unless `b` (07 R191). -/
def legalE (b : Bool) : CoreE Unit := if b then pure () else excE 0x01 0

/-- The exception that an access failing with a status raises (07 Table 7-18). A write to a read-only flash stack, for which
the table names no cause, raises NOT_PERMITTED (DEDUCED, log 24). -/
def Status.cause (st : Status) : Nat :=
  match st with
  | .badDescriptor => 0x03
  | .faultUnresolved => 0x05
  | .revoked => 0x07
  | .poisoned => 0x08
  | .targetDead => 0x09
  | _ => 0x06

/-- The LAUNCH status of an exception cause (07 Table 7-18). -/
def causeStatus (cause : Nat) : Status :=
  match cause with
  | 0x05 => .faultUnresolved
  | 0x06 => .notPermitted
  | 0x07 => .revoked
  | 0x08 => .poisoned
  | 0x09 => .targetDead
  | 0x0B | 0x0D => .aborted
  | 0x0C => .timeout
  | _ => .badDescriptor

/-- An access of a core: its failure raises an exception at `va`. -/
def liftC {α : Type} (va : Nat) (e : Eng α) : CoreE α := do
  match e.go (← get) with
  | (.ok a, s) => do
    set s
    pure a
  | (.error .wait, s) => do
    set s
    throw (.wait 0)
  | (.error (.fail st), s) => do
    set s
    excE st.cause va

/-! ### The window of a core -/

/-- Whether a global physical range of `n` bytes lies in the core's own scratchpad. -/
def State.ownSpad (s : State) (core ga n : Nat) : Bool :=
  ga / 2 ^ 50 % 64 = s.ownId && scratchBase core ≤ ga % 2 ^ 50 && ga % 2 ^ 50 + n ≤ scratchBase core + 0x2_0000

/-- The alias VA of a core's own scratchpad (07 R179). -/
def State.spadSelf (s : State) (core : Nat) : Nat :=
  0x1FFFF8000000000 + s.ownId * 2 ^ 33 + core / 160 * 0x200_0000 + core % 160 * 0x2_0000

/-! ### The range tracker (07 R185, R186) -/

/-- Whether two ranges share a byte. -/
def rangesMeet (a b : Nat × Nat) : Bool := a.1 < b.1 + b.2 && b.1 < a.1 + a.2

/-- Whether two lists of ranges share a byte. -/
def piecesMeet (l k : List (Nat × Nat)) : Bool := l.any fun a => k.any (rangesMeet a)

/-- An access is compared at issue with every entry: it waits behind an overlapping one where either writes, and takes the
exception of a failed copy that it overlaps (07 R185, R210). -/
def trackClear (n : Nat) (pieces : List (Nat × Nat)) (write : Bool) : CoreE Unit := do
  let c := (← get).core n
  match c.failure with
  | some (st, va, l) => if piecesMeet pieces l then throw (.exc st.cause va true) else pure ()
  | none => pure ()
  if c.tracker.any fun (_, t) => (write || t.write) && piecesMeet pieces t.pieces then throw (.wait 2) else pure ()

/-- Waits until `k` of the 16 entries are free. -/
def trackRoom (n k : Nat) : CoreE Unit := do
  if ((← get).core n).tracker.length + k ≤ 16 then pure () else throw (.wait 1)

/-- The list in the order that a number codes: the order in which the writes of several lines land is open (09 R243,
DESIGN CHOICE, log 21). -/
def shuffle {α : Type} (fuel d : Nat) (l : List α) : List α :=
  match fuel, l with
  | 0, l => l
  | _, [] => []
  | k + 1, a :: rest =>
    let l := a :: rest
    (l[d % l.length]?).toList ++ shuffle k (d / l.length) (l.eraseIdx (d % l.length))

/-- Allocates the lowest free entry. -/
def Core.track (c : Core) (t : Track) : Core :=
  { c with tracker := SMap.put c.tracker (leastFree (SMap.keys c.tracker) 16 0) { t with order := c.trackOrder }
           trackOrder := c.trackOrder + 1 }

/-- An entry that covers ranges and has nothing to do. -/
def Track.blank (kind : TrackKind) (pieces : List (Nat × Nat)) (write : Bool) : Track :=
  { kind, pieces, write, todo := [], partner := 0, group := none, final := false, counter := none,
    order := 0, resp := [] }

/-- The entry of a dirty data-cache line that is written back as a plain write (07 R182). -/
def writeBackEntry (gline : Nat) (d : DLine) : Track :=
  { Track.blank .writeBack [(gline * 64, 64)] true with
    todo := [{ address := gline * 64, va := 0, length := 64, data := d.data, mask := some d.dirty, sources := [] }] }

/-- Writes back a data-cache line if it is dirty: it stays, clean (07 R182). -/
def Core.cleanLine (c : Core) (gline : Nat) : Core :=
  match SMap.look c.dcache gline with
  | some d => if d.dirty = 0 then c
      else ({ c with dcache := SMap.put c.dcache gline { d with dirty := 0 } }).track (writeBackEntry gline d)
  | none => c

/-- Dirty lines of the data cache. -/
def Core.dirtyLines (c : Core) : List Nat := (c.dcache.filter fun (_, d) => d.dirty ≠ 0).map (·.1)

/-- Starts the write-back of dirty lines of a list while entries are free. -/
def Core.cleanSome (c : Core) (l : List Nat) : Core :=
  (l.take (16 - c.tracker.length)).foldl Core.cleanLine c

/-! ### Exceptions and the end of a kernel -/

/-- The 32 bytes of an exception record (07 Table 7-19). -/
def CoreExc.bits (e : CoreExc) (n imageVa : Nat) : Nat :=
  pack [(e.cause, 8), (n % 160, 8), (n / 160, 8), (bit e.imprecise, 1), (0, 7), (wrap 32 ((e.pc.toNat : Int) - imageVa), 32),
    (e.va, 57), (0, 7), (e.instr.toNat, 32), (0, 32), (e.time, 64)]

/-- The instruction at the PC, where the instruction cache holds it; else a value that no rule gives (DESIGN CHOICE, log 22). -/
def State.instrAt (s : State) (n : Nat) : BitVec 32 × State :=
  let c := s.core n
  match SMap.look c.icache (c.pc.toNat / 64) with
  | some bs => (BitVec.ofNat 32 (leNat ((bs.drop (c.pc.toNat % 64)).take 4)), s)
  | none =>
    let (v, s) := s.draw
    (BitVec.ofNat 32 v, s)

/-- Records an exception: issue stops, the cause is counted, and the LAUNCH takes its status (07 R210, R211, 06 R167). -/
def State.noteExc (s : State) (n cause va : Nat) (imprecise : Bool) (instr : BitVec 32) : State :=
  let c := s.core n
  let e : CoreExc := { cause, imprecise, va, pc := c.pc, instr, time := s.time }
  let s := s.setCore n { c with run := .ending, exc := some e, wait := none, blocked := 0, failure := none,
                                dbg := .running, atBrk := false }
  let s := s.bump (dkey 0x6101 cause) 1
  let s := s.trace 9 (dieOfCore n) 0 c.tenant (e.bits n c.imageVa % 2 ^ 192)
  { s with grid := { s.grid with launches := SMap.upd s.grid.launches c.slot fun l =>
      { l with excs := l.excs ++ [(n, e)], status := l.status.join (causeStatus cause) } } }

/-- Sends GROUP_END for the keys of a core that still hold an entry, at the end of its kernel (12 R341). -/
def State.groupEnds (s : State) (n : Nat) : State :=
  let c := s.core n
  c.sentPrior.foldl (fun s (k, count) =>
    let h : Head := { type := 0x08, dst := k / 16, tenant := c.tenant, grouped := true, group := k % 16, unit := n, prior := count }
    (sendRequest h [] .other).state s) (s.updCore n fun c => { c with sentPrior := [] })

/-- Writes the exception records of a LAUNCH (08 R223). -/
def writeExcs (w : Who) (asid excVa : Nat) (l : Launch) (todo : List (Nat × CoreExc)) (imageVa : Nat) : Eng Unit := do
  match todo with
  | [] => pure ()
  | (n, e) :: rest => do
    let i := (n / 160 - l.y0) * l.w + (n % 160 - l.x0)
    writeVa w asid (excVa + i * 32) (leBytes 32 (e.bits n imageVa))
    writeExcs w asid excVa l rest imageVa

/-- Cores of a rectangle. -/
def rectCores (x0 y0 w h : Nat) : List Nat :=
  (List.range h).flatMap fun j => (List.range w).map fun i => (y0 + j) * 160 + x0 + i

/-- The outcome of a compared LAUNCH (13 R387): whether the twin's CRC differs, or its compare area was too small, is the
twin's, and free here (DESIGN CHOICE, log 23). -/
def State.compareEnd (s : State) (slot : Nat) (sl : Slot) (l : Launch) : State :=
  if !l.compare then s
  else
    let (v, s) := s.draw
    if v % 3 = 0 then s
    else if v % 3 = 1 then s.bump (dkey 0xA020 3) 1
    else
      let s := (s.bump (dkey 0xA020 1) 1).logFree 0x0016 0 sl.tenant (l.y0 * 160 + l.x0)
      let s := (rectCores l.x0 l.y0 l.w l.h).foldl (fun s n => s.updCore n fun c => { c with testing := true }) s
      s.updSlot slot fun x => { x with status := x.status.join .crcMismatch }

/-- A LAUNCH whose cores have all ended writes its records and completes (08 R223, 07 R211). -/
def State.launchEnd (s : State) (slot : Nat) : State :=
  match SMap.look s.grid.launches slot, s.slot? slot with
  | some l, some sl =>
    if !l.claimed || l.ended.length < l.w * l.h || sl.stage = .finished then s
    else
      let write := if sl.f 384 57 = 0 then pure () else writeExcs (sl.who slot 5) sl.asid (sl.f 384 57) l l.excs (sl.f 128 57)
      let stop := fun (s : State) (st : Status) =>
        let s := s.compareEnd slot sl l
        let s := { s with grid := { s.grid with launches := SMap.del s.grid.launches slot } }
        s.finish slot (l.status.join st) l.excs.length (8 * (s.time - l.startTime))
      match write.go s with
      | (.ok _, s) => stop s .ok
      | (.error .wait, s) => s
      | (.error (.fail st), s) => stop s st
  | _, _ => s

/-- A core reports its end to its LAUNCH (07 R207). -/
def State.coreEnded (s : State) (n : Nat) : State :=
  let s := s.groupEnds n
  let c := s.core n
  let s := s.setCore n { c with run := .idle, dcache := [], lastRun := s.time, failedGroups := [], wait := none, resp := [],
                                blocked := 0, dbg := .running, atBrk := false }
  let s := { s with grid := { s.grid with launches := SMap.upd s.grid.launches c.slot fun l =>
      { l with ended := insertNat l.ended n } } }
  s.launchEnd c.slot

/-- A core that ends its kernel writes back its data cache and waits for its tracker (07 R207): then a copy failure not yet
taken is taken at the HALT (R210), and the core has ended. -/
def State.coreProgress (s : State) (n : Nat) : State :=
  if (s.core n).run ≠ .ending then s
  else
    let s := s.updCore n fun c => c.cleanSome c.dirtyLines
    let c := s.core n
    if !c.tracker.isEmpty || !c.dirtyLines.isEmpty then s
    else
      let s := match c.failure, c.exc with
        | some (st, va, _), none =>
          let (i, s) := s.instrAt n
          s.noteExc n st.cause va true i
        | _, _ => s
      s.coreEnded n

/-- Cores of a LAUNCH that still run. -/
def State.runningCores (s : State) (slot : Nat) : List Nat :=
  SMap.keys (s.grid.cores.filter fun (_, c) => c.run = .running && c.slot = slot)

/-- Ends every core of a LAUNCH that still runs, with a cause (08 R224 to R226). -/
def State.haltLaunch (s : State) (slot cause : Nat) : State :=
  (s.runningCores slot).foldl (fun s n =>
    let (i, s) := s.instrAt n
    (s.noteExc n cause 0 false i).coreProgress n) s

/-- An instruction raises an exception: the kernel ends on the core, and, with ON_EXC 1, on the rectangle (07 R210, 08 R224). -/
def State.coreExc (s : State) (n cause va : Nat) (imprecise : Bool) (instr : BitVec 32) : State :=
  let slot := (s.core n).slot
  let s := s.noteExc n cause va imprecise instr
  let s := if (s.slot? slot).any fun sl => sl.f 304 2 = 1 then s.haltLaunch slot 0x0D else s
  s.coreProgress n

/-- The fault that a core waits on is failed: it takes its TRANSLATION exception (04 R101, 07 Table 7-18). -/
def State.coreFaulted (s : State) (n va : Nat) : State :=
  if (s.core n).run = .running then
    let (i, s) := s.instrAt n
    s.coreExc n 0x05 va false i
  else s

/-! ### Fetch and retirement -/

/-- Fetches the instruction at the PC through the instruction cache (07 R184). -/
def fetchWord (n : Nat) : CoreE (BitVec 32) := do
  let s ← get
  let c := s.core n
  let pc := c.pc.toNat
  let word := fun (bs : List Byte) => BitVec.ofNat 32 (leNat ((bs.drop (pc % 64)).take 4))
  match SMap.look c.icache (pc / 64) with
  | some bs => pure (word bs)
  | none => do
    let (bs, poison) ← liftC pc (readVaP (s.coreWho n) c.asid (pc / 64 * 64) 64)
    if poison then excE 0x08 pc else pure ()
    let s ← get
    let (v, s) := if (s.core n).icache.length ≥ 256 then s.draw else (0, s)
    set (s.updCore n fun c =>
      let kept := if c.icache.length ≥ 256 then c.icache.eraseIdx (v % c.icache.length) else c.icache
      { c with icache := SMap.put kept (pc / 64) bs, resp := [] })
    pure (word bs)

/-- The major opcode of an instruction word (07 Table 7-5). -/
def major (w : BitVec 32) : Nat := fld w 0 6

/-- The FN field of a format A word (07 Table 7-4). -/
def fnA (w : BitVec 32) : Nat := fld w 26 6

/-- Whether a word belongs to no instruction: a reserved major, or a reserved FN of SYS, WAIT or MSG (07 Tables 7-5, 7-6). -/
def ownerless (w : BitVec 32) : Bool :=
  match major w with
  | 0x0D => fnA w ≥ 6
  | 0x17 => fnA w ≥ 2
  | 0x18 => fnA w ≥ 3
  | m => m = 0 || m = 0x0E || m = 0x0F || (0x19 ≤ m && m ≤ 0x1F) || 0x28 ≤ m

/-- The PC after an instruction that does not branch. -/
def Core.nextPc (c : Core) : Word := c.pc + 4

/-- An instruction retires: the PC moves on, and a STEPPING core halts after it (15 R422). -/
def State.retire (s : State) (n : Nat) (pc : Word) : State :=
  s.updCore n fun c => { c with pc, resp := [], blocked := 0, dbg := if c.dbg = .stepping then .halted else c.dbg }

/-- Whether a core may issue: its kernel runs, it is not halted, and no WAIT or MRECV holds issue (09 R248). -/
def Core.mayIssue (c : Core) : Bool := c.run = .running && c.dbg ≠ .halted && c.wait.isNone

/-- One instruction of core `n` is `word`, of the row that `mine` describes: the action `body` gives the next PC, or waits,
or raises an exception. A word that is not the one at the PC, or that belongs to another row, is no step of the core;
a word of no row raises ILLEGAL (07 R191). -/
def State.instruction (s : State) (n : Nat) (word : BitVec 32) (mine : Bool) (body : CoreE Word) : State :=
  if n ≥ 25600 || !(s.core n).mayIssue then s
  else
    match (fetchWord n).go s with
    | (.error (.wait _), t) => t
    | (.error (.exc cause va imp), t) =>
      let (i, t) := t.instrAt n
      t.coreExc n cause va imp i
    | (.ok w, t) =>
      if w ≠ word || !(mine || ownerless word) then s
      else
        match (if mine then body else excE 0x01 0 : CoreE Word).go t with
        | (.ok pc, t) => t.retire n pc
        | (.error (.wait why), t) => t.updCore n fun c => { c with blocked := why }
        | (.error (.exc cause va imp), t) => t.coreExc n cause va imp word

/-- Changes the registers of a core. -/
def coreSet (n : Nat) (f : Core → Core) : CoreE Unit := modify fun s => s.updCore n f

/-- Reads the core as it stands. -/
def coreGet (n : Nat) : CoreE Core := do pure ((← get).core n)

/-- Counts work of a core's kernel (15 R409). -/
def countC (n type col k : Nat) : CoreE Unit :=
  modify fun s => s.countWork (s.core n).tenant (some (s.core n).launchSeq) type col k

end Sys2Proof.Machine
end

