-- ==== Sys2Proof/Machine/Descriptor.lean ====
section
/-!
DEFINITION. Descriptors: the header, the fields of every opcode, the encodings, pointer conversion, and the rings that each
command is accepted from (06 R159 to R163, 04 R87).
-/

namespace Sys2Proof.Machine

open Sys2Proof

/-- The fields of an opcode above bit 127, each as (lowest bit, width); none for a reserved opcode (06 Table 6-9). -/
def opFields (op : Nat) : Option (List (Nat × Nat)) :=
  match op with
  | 0x00 | 0x01 => some []
  | 0x02 => some [(128, 57), (192, 64)]
  | 0x03 => some [(128, 14), (142, 4), (192, 57), (256, 4)]
  | 0x04 => some [(128, 4), (132, 12), (144, 14), (192, 57), (256, 1)]
  | 0x05 => some [(128, 1)]
  | 0x06 => some [(128, 4), (132, 14), (146, 1), (148, 12), (160, 16), (176, 14), (192, 5), (208, 16), (224, 10),
      (256, 57), (320, 57), (384, 57), (448, 1)]
  | 0x10 => some [(192, 57), (256, 64), (320, 4), (384, 128)]
  | 0x11 | 0x12 => some [(128, 57), (192, 57), (256, 64)]
  | 0x13 => some [(128, 57), (192, 57), (256, 32), (288, 16), (324, 4), (328, 4), (332, 2), (334, 1), (336, 48)]
  | 0x20 => some [(128, 57), (192, 57), (256, 32), (288, 32), (320, 32), (352, 8), (360, 1), (361, 1), (368, 8), (376, 8),
      (384, 57)]
  | 0x21 => some [(128, 57), (192, 1)]
  | 0x22 => some [(128, 57)]
  | 0x23 | 0x24 => some [(128, 57), (192, 32), (224, 32), (256, 1), (257, 1), (320, 57)]
  | 0x30 => some [(128, 4), (132, 2), (134, 2), (136, 1), (137, 1), (138, 1), (139, 1), (144, 16), (192, 57), (256, 56),
      (320, 32)]
  | 0x31 => some [(128, 57), (192, 1), (200, 24)]
  | 0x32 => some [(128, 16), (192, 64)]
  | 0x33 => some [(128, 16)]
  | 0x34 => some [(128, 57), (192, 32), (224, 8), (232, 1)]
  | 0x35 => some [(128, 16), (144, 12), (156, 2), (160, 57), (224, 57), (288, 32)]
  | 0x40 => some [(128, 57), (192, 64), (320, 1)]
  | 0x41 => some [(128, 57), (256, 64)]
  | 0x42 => some [(128, 57)]
  | 0x43 => some [(128, 57), (192, 64), (321, 1)]
  | 0x50 => some [(128, 57), (192, 57), (256, 8), (264, 8), (272, 8), (280, 8), (288, 16), (304, 2), (320, 32), (384, 57)]
  | 0x51 => some [(128, 64)]
  | 0x52 | 0x53 => some [(128, 57), (192, 16), (208, 1)]
  | 0x60 => some [(128, 10), (138, 1), (192, 57), (256, 57), (320, 64)]
  | 0x61 | 0x62 => some [(128, 10), (192, 57), (256, 32)]
  | 0x63 => some [(128, 10), (256, 1), (257, 1)]
  | 0x64 => some [(128, 10)]
  | 0x65 => some [(128, 10), (138, 2), (160, 16), (192, 57)]
  | 0x70 => some [(128, 12), (140, 2), (142, 4), (146, 1), (160, 16), (176, 16), (192, 57), (256, 57), (320, 16), (384, 57),
      (448, 57)]
  | 0x71 => some [(128, 12), (140, 1), (141, 4), (160, 32), (192, 57), (256, 57), (320, 48)]
  | 0x72 => some [(128, 12), (160, 40), (208, 40), (256, 57)]
  | 0x73 => some [(128, 12)]
  | 0x74 => some [(160, 16)]
  | 0x75 => some [(128, 12), (140, 2), (142, 1), (160, 16), (192, 57)]
  | 0x80 | 0x81 => some [(128, 57), (192, 57), (256, 40), (296, 4), (300, 1), (301, 1), (304, 8), (384, 57)]
  | 0x82 => some [(128, 57), (185, 4), (189, 2), (192, 64), (256, 64), (320, 64), (384, 64), (448, 57)]
  | 0x90 | 0x91 | 0x92 | 0x93 | 0x94 | 0x95 | 0x96 | 0x97 =>
    some [(128, 40), (168, 6), (192, 32), (224, 32), (256, 57), (320, 48)]
  | 0xA0 => some [(128, 12), (192, 57), (256, 57), (320, 32)]
  | 0xA1 => some [(128, 2), (132, 12), (192, 57), (256, 1)]
  | _ => none

/-- The pointer fields of an opcode: those whose name ends in _VA (04 R87). -/
def opPointers (op : Nat) : List Nat :=
  match op with
  | 0x02 => [128]
  | 0x03 => [192]
  | 0x06 => [256, 320, 384]
  | 0x10 => [192]
  | 0x11 | 0x12 | 0x13 => [128, 192]
  | 0x20 => [128, 192, 384]
  | 0x21 | 0x22 => [128]
  | 0x23 | 0x24 => [128, 320]
  | 0x34 => [128]
  | 0x50 => [128, 192, 384]
  | 0x52 | 0x53 => [128]
  | 0x60 => [192, 256]
  | 0x61 | 0x62 => [192]
  | 0x65 => [192]
  | 0x70 => [192, 256, 384, 448]
  | 0x71 => [192, 256]
  | 0x72 => [256]
  | 0x75 => [192]
  | 0x80 | 0x81 => [128, 192, 384]
  | 0x82 => [448]
  | 0xA0 => [192, 256]
  | 0xA1 => [192]
  | _ => []

/-- The fields of the header (06 Table 6-8). -/
def headerFields : List (Nat × Nat) := [(0, 8), (8, 1), (9, 1), (10, 1), (16, 16), (32, 16), (64, 64)]

/-- The bits that a list of fields covers. -/
def fieldMask (l : List (Nat × Nat)) : Nat :=
  match l with
  | [] => 0
  | (lo, w) :: rest => (2 ^ w - 1) * 2 ^ lo ||| fieldMask rest

/-- Whether every reserved bit of a descriptor is zero (00 R6). -/
def reservedClear (op : Nat) (d : Desc) : Bool :=
  match opFields op with
  | some l => d.toNat &&& fieldMask (headerFields ++ l) = d.toNat
  | none => false

/-- Whether a FORMAT code is one that pool operations and tables put out (05 Table 5-11, 11 Table 11-3). -/
def arithFormat (code : Nat) : Bool := code ≤ 0x4 || code = 0x7

/-- Whether a descriptor's enumerations hold no reserved encoding, and the fields that its operation does not use are
zero where its table says that they must be (00 R7, 06 Table 6-6, 15 Tables 15-3 and 15-5, 13 Table 13-6). -/
def encodingsOk (op : Nat) (d : Desc) : Bool :=
  let f := fld d
  match op with
  | 0x03 => f 142 4 ≤ 3 && (f 142 4 = 1 || (f 192 57 = 0 && f 256 4 = 0))
  | 0x04 => f 128 4 ≤ 4
  | 0x06 =>
    match f 128 4 with
    | 0 => f 208 16 = 0 && f 448 1 = 0
    | 1 | 3 => f 146 1 = 0 && d.toNat / 2 ^ 160 = 0
    | 2 => f 146 1 = 0 && f 176 14 = 0 && f 224 10 = 0 && (f 208 16 < 2048 || f 208 16 = 0xFFFF)
    | 4 => f 132 14 = 0 && f 146 1 = 0 && f 148 12 = 0 && f 160 64 = 0 && d.toNat / 2 ^ 256 = 0
    | _ => false
  | 0x10 => f 320 4 ≤ 4
  | 0x13 => f 332 2 ≤ 2 && arithFormat (f 324 4) && arithFormat (f 328 4)
  | 0x20 => f 352 8 ≤ 4
  | 0x24 => f 256 1 = 0
  | 0x30 => f 128 4 ≤ 2 && (f 128 4 ≠ 0 || f 134 2 ≤ 2)
  | 0x35 => f 156 2 ≤ 2
  | 0x50 => f 304 2 ≤ 1
  | 0x52 => f 208 1 = 0
  | 0x60 => f 138 1 = 1 || f 320 64 = 0
  | 0x65 => f 138 2 ≤ 1
  | 0x70 => f 140 2 ≤ 2
  | 0x75 => f 140 2 ≤ 1
  | 0x80 | 0x81 => f 304 8 ≤ 4 && (f 300 1 = 1 || f 304 8 = 0)
  | 0x82 => f 185 4 ≤ 0xA && f 189 2 ≤ 2 && (f 189 2 = 2 || (f 256 64 = 0 && f 384 64 = 0)) &&
      (f 189 2 ≠ 0 || (f 224 32 = 0 && f 352 32 = 0))
  | 0x90 => f 224 32 = 0 && f 256 57 = 0 && f 320 48 = 0
  | 0x91 => f 192 64 = 0 && f 256 57 = 0 && f 320 48 = 0
  | 0x92 | 0x94 => f 168 6 = 0 && f 192 64 = 0 && f 256 57 = 0 && f 320 48 = 0
  | 0x93 => f 168 6 = 0 && f 192 64 = 0 && f 320 48 = 0
  | 0x95 => f 128 40 = 0 && f 168 6 = 0 && f 192 64 = 0 && f 256 57 = 0
  | 0x96 => f 128 40 = 0 && f 168 6 = 0 && f 224 32 = 0 && f 320 48 = 0
  | 0x97 => f 168 6 = 0 && f 320 48 = 0
  | 0xA1 => f 128 2 ≤ 1
  | _ => true

/-- The tenant of the extent at a VA of an ASID, if the page is mapped to this package. -/
def State.extentTenant (s : State) (asid va : Nat) : Option Nat :=
  match s.mapOf asid va with
  | some m =>
    match s.place (m.package.getD s.ownId) (m.address + (va - m.va)) with
    | .here la => (s.extent? (extentOf la)).bind fun e =>
        if e.state = .owned || e.state = .draining || e.state = .scrubbing then some e.owner else none
    | _ => none
  | none => none

/-- A driver ring of tenant 0, or of the tenant that owns the object named; an object that does not exist has no owner,
and every driver ring passes (06 R161 step 2). -/
def driverOf (driver : Bool) (tenant : Nat) (owner : Option Nat) : Bool :=
  driver && (tenant = 0 || owner.all (· = tenant))

/-- The extent of a local address of the package whose ring holds a descriptor (13 R366). -/
def State.ringExtent (s : State) (ring la : Nat) : Option Extent :=
  let x := if ring < resumedRing then s.extent? (extentOf la) else s.heldExtent? (extentOf la)
  x.bind fun e => if e.state = .owned || e.state = .draining || e.state = .scrubbing then some e else none

/-- An id of `w` bits in a descriptor fetched from a ring (13 R366). -/
def descId (ring : Nat) (d : Desc) (lo w : Nat) : Nat := fld d lo w + (if ring < resumedRing then 0 else twinSpace w)

/-- The accepted-from rules (06 R161 step 2 and Tables 6-5, 4-1, 5-7, 8-3, 10-1, 11-1, 13-5, 16-4; 06 R152, 15 R414). -/
def State.accepted (s : State) (ring : Nat) (driver : Bool) (tenant op : Nat) (d : Desc) : Bool :=
  let f := fld d
  let id := descId ring d
  let root := driver && tenant = 0
  let any := fun (o : Option Nat) => o.all (· = tenant)
  let asidTenant := fun n => (s.asid? n).map (·.tenant)
  match op with
  | 0x02 => driver
  | 0x03 => driverOf driver tenant ((s.ring? (id 128 14)).map (·.tenant))
  | 0x04 =>
    let owner := match f 128 4 with
      | 0 | 2 => some (f 132 12)
      | 1 => (s.ring? (id 144 14)).map (·.tenant)
      | _ => some tenant
    root || (any owner && (driver || f 128 4 ≤ 1))
  | 0x06 =>
    root || (driver && match f 128 4 with
      | 0 => f 146 1 = 0 && f 148 12 = tenant
      | 1 => any ((s.ring? (id 132 14)).map (·.tenant))
      | 2 => f 148 12 = tenant
      | 3 => any ((s.cq? (id 132 14)).map (·.tenant))
      | _ => false)
  | 0x30 =>
    if f 128 4 = 1 then
      let owners := if f 256 56 / 2 ^ 50 % 64 = s.ringOwn ring then
          (s.ringExtent ring (f 256 56 % 2 ^ 50)).bind fun e => if e.state = .owned then some e.owner else none
        else none
      driver && (tenant = 0 || any (asidTenant (id 144 16)) || any owners)
    else driverOf driver tenant (asidTenant (id 144 16))
  | 0x31 => driverOf driver tenant ((s.ringExtent ring (f 128 57)).map (·.owner))
  | 0x32 => root
  | 0x33 => driverOf driver tenant (asidTenant (id 128 16))
  | 0x35 => root
  | 0x43 => driverOf driver tenant (s.extentTenant (id 16 16) (f 128 57))
  | 0x51 => driver
  | 0x60 | 0x61 | 0x62 => any ((SMap.look s.idx.indexes (id 128 10)).map (·.tenant))
  | 0x63 | 0x64 => driverOf driver tenant ((SMap.look s.idx.indexes (id 128 10)).map (·.tenant))
  | 0x65 =>
    if f 138 2 = 0 then driverOf driver tenant (asidTenant (id 160 16))
    else driverOf driver tenant ((SMap.look s.idx.indexes (id 128 10)).map (·.tenant))
  | 0x70 | 0x71 | 0x73 => any ((SMap.look s.emb.tables (id 128 12)).map (·.tenant))
  | 0x72 => driverOf driver tenant ((SMap.look s.emb.tables (id 128 12)).map (·.tenant))
  | 0x74 => any ((SMap.look s.emb.pins (id 160 16)).map (·.tenant))
  | 0x75 =>
    if f 140 2 = 0 then driverOf driver tenant (asidTenant (id 160 16))
    else driverOf driver tenant ((SMap.look s.emb.tables (id 128 12)).map (·.tenant))
  | 0x90 | 0x92 | 0x94 | 0x97 => any ((SMap.look s.ctx.ledger (f 128 40)).map (·.tenant))
  | 0x93 => root || any ((SMap.look s.ctx.ledger (f 128 40)).map (·.tenant))
  | 0x95 => root
  | 0xA0 => f 128 12 = tenant || root
  | 0xA1 => driver && (tenant = 0 || f 132 12 = tenant)
  | _ => true

/-- Converts one pointer by the window of an ASID (04 R87). -/
def convertPointer (a : Asid) (va : Nat) : Option Nat :=
  if va = 0 then some 0
  else if a.hostWin ≤ va && va < a.hostWin + a.winSize * 2 ^ 16 then some (va - a.hostWin + a.devWin)
  else none

/-- Converts the pointer fields of a descriptor. -/
def convertFields (a : Asid) (l : List Nat) (d : Desc) : Option Desc :=
  match l with
  | [] => some d
  | lo :: rest =>
    match convertPointer a (fld d lo 57) with
    | some v => convertFields a rest (BitVec.ofNat 512 (setFld d.toNat lo 57 v))
    | none => none

/-- The checks of a fetched descriptor, steps 1 to 3 of 06 R161: the failure, or the descriptor with its pointers
converted. -/
def State.checkDescriptor (s : State) (ring : Nat) (driver : Bool) (tenant : Nat) (d : Desc) : Except Status Desc :=
  let op := fld d 0 8
  if !reservedClear op d || !encodingsOk op d then .error .badDescriptor
  else
    match s.asid? (descId ring d 16 16) with
    | none => .error .notPermitted
    | some a =>
      if a.tenant ≠ tenant || !s.accepted ring driver tenant op d then .error .notPermitted
      else if flag d 8 then
        if a.winSize = 0 then .error .badDescriptor
        else match convertFields a (opPointers op) d with
          | some d => .ok d
          | none => .error .badDescriptor
      else .ok d

/-- The time limit of a command in milliseconds, 0 for none (06 R162, 13 R389). -/
def State.timeLimitMs (s : State) (sl : Slot) : Nat :=
  if sl.f 32 16 ≠ 0 then sl.f 32 16 else s.val (dkey 0xA030 (sl.opcode / 16))

end Sys2Proof.Machine
end

