-- ==== Sys2Proof/Machine/Records.lean ====
section
/-!
DEFINITION. The structures that the front ends write and read in memory: status blocks, completion and step records,
the summary, and the tenant rows and quotas that decide the fetch (chapters 6, 14 and 15).
-/

namespace Sys2Proof.Machine

open Sys2Proof

/-! ### Tenants (14 Table 14-1) -/

/-- The row of a tenant that no write has changed. -/
def defaultTenantRow : BitVec 256 :=
  BitVec.ofNat 256 (pack [(100, 16), (0x0820201020202020, 64), (65536, 17), (0, 15), (0, 17), (0, 31), (0xFFFFFFFF, 32),
    (0xFFFFFFFF, 32), (0xFFFFFFFF, 32)])

def State.tenantRow (s : State) (t : Nat) : BitVec 256 := SMap.get s.sched.tenants t defaultTenantRow
def State.weight (s : State) (t : Nat) : Nat := fld (s.tenantRow t) 0 16
def State.classWeight (s : State) (t c : Nat) : Nat := fld (s.tenantRow t) (16 + 8 * c) 8
def State.slotQuota (s : State) (t : Nat) : Nat := fld (s.tenantRow t) 80 17
def State.slotReserve (s : State) (t : Nat) : Nat := fld (s.tenantRow t) 112 17

/-- Slots a tenant holds. -/
def State.heldSlots (s : State) (t : Nat) : Nat := (s.fe.slots.filter fun (_, x) => x.tenant = t).length

/-- Slots owed to other tenants' reserves (14 R396). -/
def State.owedSlots (s : State) (t : Nat) : Nat :=
  ((SMap.keys s.sched.tenants).map fun u => if u = t then 0 else s.slotReserve u - s.heldSlots u).sum

/-- Whether a tenant may take a slot (14 R396). -/
def State.mayTake (s : State) (t : Nat) : Bool :=
  s.heldSlots t < s.slotQuota t && s.fe.slots.length < 65536 &&
    (s.heldSlots t < s.slotReserve t || 65536 - s.fe.slots.length > s.owedSlots t)

/-- Tenants with a ring that has presented descriptors to fetch. -/
def State.waitingTenants (s : State) : List Nat :=
  s.fe.rings.foldl (fun l (_, r) =>
    if (r.state = .active || r.state = .step) && r.fetched < r.tailSeen then insertNat l r.tenant else l) []

/-- The least virtual time of the slot pick over a list of tenants. -/
def State.leastVt (s : State) (l : List Nat) : Option Nat :=
  (l.map fun t => SMap.get s.fe.vt t 0).min?

/-- Tenants that have begun to wait since `old` resume level with the least served of those that waited (14 R397, R401). -/
def State.catchUp (s : State) (old : List Nat) : State :=
  match s.leastVt old with
  | none => s
  | some m =>
    { s with fe := { s.fe with
        vt := (s.waitingTenants.filter fun t => !old.contains t).foldl
          (fun v t => SMap.put v t (max (SMap.get v t 0) m)) s.fe.vt } }

/-! ### Status blocks (06 Tables 6-3 and 6-4) -/

def RingState.code (x : RingState) : Nat :=
  match x with
  | .active => 0 | .quiesced => 1 | .error => 2 | .step => 3 | .draining => 4

/-- Commands of a ring that hold slots. -/
def State.inFlightOf (s : State) (ring : Nat) : Nat := (s.fe.slots.filter fun (_, x) => x.ring = ring).length

/-- The ring status block. -/
def State.ringBlock (s : State) (n : Nat) (r : Ring) : List Byte :=
  leBytes 64 (pack [(r.fetched, 64), (r.tailSeen, 63), (0, 1), (r.state.code, 3), (0, 5), (r.cause, 8), (0, 16),
    (r.discarded, 32), (s.inFlightOf n, 64)])

/-- The completion status block. -/
def Cq.block (written : Nat) (c : Cq) : List Byte := leBytes 64 (pack [(written, 64), (c.headSeen, 64)])

/-- The front end as the maker of an access for a ring's structures. -/
def ringWho (tenant : Nat) (w : Waiter) : Who :=
  { unit := 0, cls := 5, index := 0, cmdSeq := 0, tenant, waiter := w }

/-- Rings whose structures a write could not be made for enter ERROR with CAUSE 4 (06 R496). -/
def State.ringError (s : State) (n cause : Nat) : State :=
  match s.ring? n with
  | some r => (s.setRing n { r with state := .error, cause }).logError 0x0001 11 r.tenant n cause
  | none => s

/-- Every ring that completes into a completion ring enters ERROR with CAUSE 4 (06 R496). -/
def State.cqError (s : State) (cq : Nat) : State :=
  ((SMap.keys (s.fe.rings.filter fun (_, r) => r.cq = cq))).foldl (fun s n => s.ringError n 4) s

/-- Writes a ring's status block (06 R149, R496): a write that waits is made again later; one that cannot be made puts
the ring in ERROR with CAUSE 4. -/
def State.writeStatus (s : State) (n : Nat) : State :=
  match s.ring? n with
  | none => s
  | some r =>
    let count := s.inFlightOf n
    match (writeVa (ringWho r.tenant (.status n)) r.asid r.statusVa (s.ringBlock n r)).go s with
    | (.ok _, s) => s.updRing n fun r => { r with inFlightWritten := count, statusDue := false }
    | (.error .wait, s) => s.updRing n fun r => { r with statusDue := true }
    | (.error (.fail _), s) => (s.updRing n fun r => { r with statusDue := false }).ringError n 4

/-- A ring enters ERROR for a tail value (06 R157, R172). -/
def State.tailError (s : State) (n cause : Nat) : State := (s.ringError n cause).writeStatus n

/-! ### Leases (06 R170, R171) -/

/-- A lease becomes or stays current. -/
def State.renewLease (s : State) (l : Nat) : State := { s with fe := { s.fe with leases := SMap.put s.fe.leases l s.time } }

/-- Moves every QUIESCED ring of a lease to ACTIVE. -/
def State.resumeLease (s : State) (l : Nat) : State :=
  let old := s.waitingTenants
  let ns := SMap.keys (s.fe.rings.filter fun (_, r) => r.lease = l && r.state = .quiesced)
  (ns.foldl (fun s n => (s.updRing n fun r => { r with state := .active, cause := 0 }).writeStatus n) s).catchUp old

/-! ### MSI-X (06 R168) -/

/-- Raises a vector: the message leaves, or is merged into the one sent when the hold-off ends. -/
def State.raise (s : State) (v : Nat) : State :=
  let x := SMap.get s.fe.vectors v { holdoff := false, pending := false, sent := 0 }
  let x := if x.holdoff then { x with pending := true }
    else { x with holdoff := s.val (dkey 0x9104 0) ≠ 0, sent := x.sent + 1 }
  { s with fe := { s.fe with vectors := SMap.put s.fe.vectors v x } }

/-! ### Completion and step records -/

/-- The completion record of a command as record `n` of a ring of `log2` entries (06 Table 6-10). -/
def Slot.record (sl : Slot) (log2 n : Nat) : List Byte :=
  leBytes 32 (pack [(sl.seq, 64), (sl.f 64 64, 64), (sl.result, 64), (sl.status.code, 8), (sl.opcode, 8),
    (bit (n / 2 ^ log2 % 2 = 0), 1), (0, 3), (min sl.count (2 ^ 44 - 1), 44)])

/-- The bytes of a counter set (15 R408). -/
def CounterSet.bytes (c : CounterSet) : List Byte :=
  (List.range 144).flatMap fun i => leBytes 8 (SMap.get c i 0)

/-- A step record (15 Table 15-6): header and the ring set. -/
def stepRecord (sl : Slot) (number time : Nat) (set : CounterSet) : List Byte :=
  leBytes 64 (pack [(sl.seq, 64), (sl.status.code, 8), (sl.opcode, 8), (0, 48), (sl.dispatchTime, 64), (time, 64),
    (number, 64), (sl.result, 64), (min sl.count (2 ^ 44 - 1), 44)]) ++ set.bytes

/-- Whether every write of a command has taken its place and every protected one is acknowledged (01 R23). -/
def State.slotSettled (s : State) (n : Nat) : Bool :=
  !(s.twin.unacked.any fun (_, _, x) => x = some n) &&
  !(s.fab.tags.any fun (_, q) => q.purpose = .slotPart n || q.purpose = .slotAtomic n || q.purpose = .publish n ||
    q.purpose = .slotRead n || q.purpose = .take n)

/-! ### Ledger entries (13 Table 13-7) -/

def LedgerState.code (x : LedgerState) : Nat :=
  match x with
  | .owned => 1 | .offered => 2 | .inbound => 3 | .taking => 4 | .gone => 5 | .lost => 6 | .released => 7

/-- The 60 bytes of a ledger entry before its CRC. -/
def Ledger.head (id : Nat) (e : Ledger) : List Byte :=
  leBytes 60 (pack [(id, 40), (0, 8), (e.tenant, 12), (0, 4), (e.epoch, 48), (e.state.code, 3), (0, 1), (e.owner, 6),
    (e.peer, 6), (e.phaseDone, 32), (e.ckptSeq, 32), (e.deadline, 64), (e.asid, 16), (e.length, 16), (e.va, 57)])

/-- The 64 bytes of a ledger entry. -/
def Ledger.bytes (id : Nat) (e : Ledger) : List Byte := e.head id ++ leBytes 4 (crc32c (e.head id))

end Sys2Proof.Machine
end

