-- ==== Sys2Proof/Machine/Rings.lean ====
section
/-!
DEFINITION. Command rings (chapter 6): tail and head values, the descriptor fetch, completion records, interrupts, leases,
the summary and ring registration.
-/

namespace Sys2Proof.Machine

open Sys2Proof

/-! ### Tail and head values -/

/-- A tail value with RESTART (06 R172). -/
def State.restart (s : State) (n tail : Nat) (r : Ring) : State :=
  if (r.state = .quiesced || r.state = .error) && r.fetched ≤ tail && tail ≤ r.fetched + 2 ^ r.log2 then
    let old := s.waitingTenants
    let s := s.setRing n { r with discarded := (r.tailSeen - r.fetched) % 2 ^ 32, tailSeen := tail, state := .active, cause := 0, mode := .normal }
    (((s.renewLease r.lease).writeStatus n).mirrorMeta none).catchUp old
  else s.tailError n 3

/-- A tail value without RESTART (06 R157, R171). -/
def State.newTail (s : State) (n tail : Nat) (r : Ring) : State :=
  if r.state = .error then s
  else if tail < r.tailSeen then s.tailError n 1
  else if tail > r.fetched + 2 ^ r.log2 then s.tailError n 2
  else
    let old := s.waitingTenants
    (s.setRing n { r with tailSeen := tail }).catchUp old

/-- TAIL_PRESENTED: a ring is presented a tail word (05 R125, R127, 06 R154, R157, R171, R172, 17 R455). -/
def execTailPresented (ring : Nat) (value : BitVec 64) (s : State) : Out :=
  .next <| match s.ring? ring with
  | none => s
  | some r =>
    if r.state = .draining || value.toNat = r.lastPresented || !SMap.has s.coh.watches r.wordLine then s
    else
      let r := { r with lastPresented := value.toNat }
      let s := (s.setRing ring r).wake
      if flag value 63 then s.restart ring (fld value 0 63) r else s.newTail ring value.toNat r

/-- HEAD_PRESENTED: a completion ring is presented a head word (06 R165). -/
def execHeadPresented (cq : Nat) (value : BitVec 64) (s : State) : Out :=
  .next <| match s.cq? cq with
  | none => s
  | some c =>
    if !SMap.has s.coh.watches c.wordLine then s
    else if value.toNat < c.headSeen || value.toNat > c.written then
      s.logFree 0x0002 11 c.tenant cq
    else s.setCq cq { c with headSeen := value.toNat }

/-! ### The fetch -/

/-- Whether the read of a ring's next descriptor waits already: on a fault, a snoop, the twin or another package. -/
def State.ringBlocked (s : State) (n : Nat) (r : Ring) : Bool :=
  let va := r.baseVa + r.fetched % 2 ^ r.log2 * 64
  r.fetchWait ≠ .failed && (s.tr.faults.any (fun f => f.waiters.contains (.ring n)) ||
    match s.mapOf r.asid va with
    | none => false
    | some m => match s.place (m.package.getD s.ownId) (m.address + (va - m.va)) with
      | .here la => s.coh.snoops.any (·.line = lineOf la) || s.awaitsTwin (lineOf la)
      | .away p la => s.inFlight (.ringRead n) p la
      | .dead => false)

/-- Whether the package carries out commands of its own rings: not while JOINING, SHADOW or FENCED (13 R359), nor asleep
(17 R453), nor once it has announced its reset (17 R450). -/
def State.servesRings (s : State) : Bool :=
  s.awake && s.twin.awaitingTakeover.isNone && s.twin.pair ≠ .joining && s.twin.pair ≠ .shadow && s.twin.pair ≠ .fenced

/-- Whether the next descriptor of a ring is a STEP_ADMIT, which a package in SHADOW fetches too (13 R371). -/
def State.admitNext (s : State) (r : Ring) : Bool :=
  let va := r.baseVa + r.fetched % 2 ^ r.log2 * 64
  s.twin.pair = .shadow && s.awake && match s.mapOf r.asid va with
    | some m => match s.place (m.package.getD s.ownId) (m.address + (va - m.va)) with
      | .here la => s.peek la 1 = [0x95]
      | _ => false
    | none => false

/-- Whether a ring has a descriptor that it would fetch, were a slot its tenant's to take (06 R157, R169, 15 R416). -/
def State.wantsSlot (s : State) (n : Nat) (r : Ring) : Bool :=
  (r.state = .active || (r.state = .step && r.runGrant && s.isLive r.runOne)) && !s.isLive r.stepEnter && r.fetched < r.tailSeen &&
    (s.servesRings || s.admitNext r) && !(s.twin.admission && resumedRing ≤ n) && !s.ringBlocked n r

/-- Whether a ring may fetch now (06 R157, R169, 14 R396, 15 R416). -/
def State.mayFetch (s : State) (n : Nat) (r : Ring) : Bool := s.wantsSlot n r && s.mayTake r.tenant

/-- The tenant that fetches next: least virtual time, ties to the lower id, weight 0 only without a rival (14 R397, R401). -/
def State.pickTenant (s : State) (l : List Nat) : Option Nat :=
  let heavy := l.filter fun t => s.weight t > 0
  let l := if heavy.isEmpty then l else heavy
  l.find? fun t => l.all fun u => SMap.get s.fe.vt t 0 < SMap.get s.fe.vt u 0 ||
    (SMap.get s.fe.vt t 0 = SMap.get s.fe.vt u 0 && t ≤ u)

/-- The ring that fetches next: of the chosen tenant, the next one after the one that fetched last (14 R397). -/
def State.pickRing (s : State) : Option (Nat × Ring) :=
  let ready := s.fe.rings.filter fun (n, r) => s.mayFetch n r
  match s.pickTenant (ready.map fun (_, r) => r.tenant) with
  | none => none
  | some t =>
    let mine := ready.filter fun (_, r) => r.tenant = t
    match SMap.look s.fe.lastRing t with
    | none => mine.head?
    | some k => (mine.find? fun (n, _) => n > k).orElse fun _ => mine.head?

/-- The slot of a command that is fetched at a ring position. The result of a COMPARE is all ones until it completes OK
(05 R142). -/
def Slot.fetch (ring pos tenant time : Nat) (d : Desc) (stage : SlotStage) (st : Status) : Slot :=
  { ring, pos, desc := d, opcode := fld d 0 8, tenant, stage, status := st, count := 0,
    result := if fld d 0 8 = 0x12 then 2 ^ 64 - 1 else 0, fetchTime := time,
    dispatchTime := time, waitSince := time, parts := 0, cursor := 0, marks := [], committed := false, resp := [] }

/-- The descriptor at a ring's FETCHED position is fetched: it takes a slot, and counts as fetched (06 R157, R497). -/
def State.takeDescriptor (s : State) (n : Nat) (r : Ring) (slot : Slot) : State :=
  let k := leastFree (SMap.keys s.fe.slots) 65536 0
  let s := s.setSlot k slot
  let s := s.setRing n { r with fetched := r.fetched + 1, fetchWait := .idle, resp := [], runGrant := false }
  let s := { s with fe := { s.fe with
    vt := SMap.put s.fe.vt r.tenant ((SMap.get s.fe.vt r.tenant 0 + 65536 / max (s.weight r.tenant) 1) % 2 ^ 64)
    lastRing := SMap.put s.fe.lastRing r.tenant n } }
  let s := if slot.opcode = 0x05 && slot.stage = .fetched then s.renewLease r.lease else s
  ((s.trace 1 (Config.engineDie slot.seq) 0 r.tenant (slot.traceBody 0)).writeStatus n).mirrorMeta none

/-- A descriptor that was read is checked (06 R161); a failed check completes it with no effect and is counted. -/
def State.takeRead (s : State) (n : Nat) (r : Ring) (bs : List Byte) : State :=
  let d := BitVec.ofNat 512 (leNat bs)
  match s.checkDescriptor n r.driver r.tenant d with
  | .ok d => s.takeDescriptor n r (Slot.fetch n r.fetched r.tenant s.time d .fetched .ok)
  | .error st => (s.bump (dkey 0x9106 0) 1).takeDescriptor n r (Slot.fetch n r.fetched r.tenant s.time d .finished st)

/-- A descriptor that cannot be read completes with the reason, its header fields zero (06 R497). -/
def State.takeUnread (s : State) (n : Nat) (r : Ring) (st : Status) : State :=
  s.takeDescriptor n r (Slot.fetch n r.fetched r.tenant s.time 0 .finished st)

/-- DESCRIPTOR_FETCH: a free slot takes the next descriptor of the ring that R397 picks (06 R157, R497). -/
def execDescriptorFetch (s : State) : Out :=
  .next <| match s.pickRing with
  | none => s
  | some (n, r) =>
    if r.fetchWait = .failed then s.takeUnread n r .faultUnresolved
    else
      match (readVaP (ringWho r.tenant (.ring n)) r.asid (r.baseVa + r.fetched % 2 ^ r.log2 * 64) 64).go s with
      | (.ok (bs, poison), s) => if poison then s.takeUnread n r .poisoned else s.takeRead n r bs
      | (.error .wait, s) => s
      | (.error (.fail st), s) => s.takeUnread n r st

/-! ### Completion records -/

/-- Whether a command releases its slot without a record (06 R160). -/
def Slot.silent (sl : Slot) : Bool := flag sl.desc 9 && sl.status = .ok

/-- Writes a command's completion record, and WRITTEN after it (06 R149, R164, R165). -/
def writeRecord (sl : Slot) (n : Nat) (c : Cq) : Eng Unit := do
  let w := ringWho c.tenant (.cq n)
  writeVa w c.asid (c.baseVa + c.written % 2 ^ c.log2 * 32) (sl.record c.log2 c.written)
  writeVa w c.asid c.statusVa (Cq.block (c.written + 1) c)
  modify fun s => s.setCq n { c with written := c.written + 1 }

/-- Writes the step record of a stepped command (15 R419). -/
def writeStep (sl : Slot) (r : Ring) : Eng Unit := do
  let s ← get
  let set := ((SMap.look s.cnt.ringSets sl.ring).map (·.set)).getD []
  writeVa (ringWho r.tenant (.status sl.ring)) r.recAsid (r.recVa + 1216 * (r.stepRecords % 2 ^ r.recLog2))
    (stepRecord sl r.stepRecords s.time set)

/-- A command's slot is freed; in a SERIAL or STEP ring its counts are final (15 R416). -/
def State.freeSlot (s : State) (n : Nat) (sl : Slot) : State :=
  let s := s.trace 3 (Config.engineDie sl.seq) 0 sl.tenant (sl.traceBody sl.status.code)
  let s := (s.delSlot n).releaseUnits sl.seq
  let key := sl.ring * 16 + sl.f 296 4
  let s := if sl.opcode = 0x80 && !sl.status.isOk && !SMap.has s.fe.groupFails key then
      { s with fe := { s.fe with groupFails := SMap.put s.fe.groupFails key sl.status } }
    else s
  let s := { s with idx := { s.idx with merging := SMap.del s.idx.merging n } }
  let s := { s with grid := { s.grid with launches := SMap.del s.grid.launches n } }
  let stop := fun (x : RingSet) => if x.tag = some sl.seq then { x with running := false } else x
  ({ s with cnt := { s.cnt with ringSets := SMap.upd s.cnt.ringSets sl.ring stop } } : State).mirrorMeta none

/-- The RUN_ONE that waited for a stepped command completes (15 R418). -/
def State.stepDone (s : State) (ring seq : Nat) (r : Ring) (res : Except Status Unit) : State :=
  let s := s.updRing ring fun x => { x with runOne := none, stepRecords := r.stepRecords + 1 }
  match res with
  | .ok _ => s.finishSeq seq .ok 1 r.stepRecords
  | .error st => s.failSeq seq st

/-- The vector of a completion ring is raised after a record if the header or the ring asks for it (06 R168); none is for a
ring of the lost twin (13 R366). -/
def State.raiseCq (s : State) (sl : Slot) (c : Cq) : State :=
  if sl.ring < resumedRing && c.msix < 2048 && (c.irqAll || flag sl.desc 10) then s.raise c.msix else s

/-- The RUN_ONE that waits for the command at a position of its ring. -/
def State.stepper (s : State) (pos : Nat) (r : Ring) : Option Nat :=
  match r.runOne with
  | none => none
  | some q => match s.live? q with
    | some (_, sl) => if sl.cursor = pos + 1 then some q else none
    | none => none

/-- The step record, if a RUN_ONE waits for this command, and the release of the slot. -/
def State.endCommand (s : State) (n : Nat) (sl : Slot) (r : Ring) : State :=
  match s.stepper sl.pos r with
  | none => s.freeSlot n sl
  | some q =>
    match (writeStep sl r).go s with
    | (.ok _, s) => (s.freeSlot n sl).stepDone sl.ring q r (.ok ())
    | (.error .wait, s) => s
    | (.error (.fail st), s) => (s.freeSlot n sl).stepDone sl.ring q r (.error st)

/-- COMPLETION_WRITE: a finished command writes its record and frees its slot (06 R149, R160, R165, R168, R496, 01 R23). -/
def execCompletionWrite (slot : Nat) (s : State) : Out :=
  .next <| match s.slot? slot with
  | none => s
  | some sl =>
    match s.ring? sl.ring with
    | none => s
    | some r =>
      if sl.stage ≠ .finished || !s.slotSettled slot then s
      else if sl.silent then s.endCommand slot sl r
      else match s.cq? r.cq with
        | none => s
        | some c =>
          if c.written - c.headSeen ≥ 2 ^ c.log2 then s
          else match (writeRecord sl r.cq c).go s with
            | (.error .wait, s) => s
            | (.error (.fail _), s) => (s.cqError r.cq).endCommand slot sl r
            | (.ok _, t) =>
              let t := t.endCommand slot sl r
              if (t.slot? slot).isNone then t.raiseCq sl c else t.setCq r.cq c

/-- IRQ_HOLDOFF_EXPIRY: the merge interval of a vector ends, and a message that fell due in it leaves (06 R168). -/
def execIrqHoldoffExpiry (vector : Nat) (s : State) : Out :=
  .next <| match SMap.look s.fe.vectors vector with
  | none => s
  | some v =>
    let v := if v.holdoff && v.pending then { v with pending := false, sent := v.sent + 1 } else { v with holdoff := false }
    { s with fe := { s.fe with vectors := SMap.put s.fe.vectors vector v } }

/-- IN_FLIGHT_REFRESH: the status block is written while IN_FLIGHT differs from the value written, or a write waits
(06 R149, R496). -/
def execInFlightRefresh (ring : Nat) (s : State) : Out :=
  .next <| match s.ring? ring with
  | none => s
  | some r => if r.inFlightWritten ≠ s.inFlightOf ring || r.statusDue then s.writeStatus ring else s

/-! ### Leases and time limits -/

/-- A ring of a lapsed lease: QUIESCED, in NORMAL mode, its waiting RUN_ONE aborted (06 R171, 15 R420). -/
def State.quiesce (s : State) (n : Nat) (r : Ring) : State :=
  let s := match r.runOne with
    | some q => s.failSeq q .aborted
    | none => s
  (s.updRing n fun r => { r with state := .quiesced, mode := .normal, runOne := none, runGrant := false, stepEnter := none }).writeStatus n

/-- LEASE_LAPSE: a current lease lapses (06 R171); lease periods do not run asleep (17 R455). -/
def execLeaseLapse (lease : Nat) (s : State) : Out :=
  .next <|
    if SMap.has s.fe.leases lease && s.awake then
      let s := { s with fe := { s.fe with leases := SMap.del s.fe.leases lease } }
      let hit := s.fe.rings.filter fun (_, r) => r.lease = lease && (r.state = .active || r.state = .step)
      let s := hit.foldl (fun s (n, r) => s.quiesce n r) s
      ((s.bump (dkey 0x9103 1) 1).logError 0x0003 11 0 (lease % twinSpace 10) (lease % twinSpace 10)).mirrorMeta none
    else s

/-- COMMAND_TIMEOUT: the time limit of a command passes: no further work starts, and it completes TIMEOUT (06 R162). The
cores of a LAUNCH that still run end with WATCHDOG, and the LAUNCH completes with their status (08 R225). A SEARCH still writes
its result: the shards that have not answered fail with TIMEOUT (10 R279, R289). -/
def execCommandTimeout (slot : Nat) (s : State) : Out :=
  .next <| match s.slot? slot with
  | none => s
  | some sl =>
    if sl.stage = .finished || s.timeLimitMs sl = 0 then s
    else if ((SMap.look s.grid.launches slot).map (·.claimed)).getD false then s.haltLaunch slot 0x0C
    else if (sl.opcode = 0x71 || sl.opcode = 0x75) && !sl.marks.isEmpty then
      s.updSlot slot fun x => { x with status := x.status.join .timeout }
    else if sl.opcode = 0x60 && sl.marks.headD 0 = 1 then s.updSlot slot fun x => { x with cursor := Status.timeout.code }
    else
      let s := { s with grid := { s.grid with launches := SMap.del s.grid.launches slot } }
      s.failSlot slot .timeout

/-! ### Control commands -/

/-- NOP: completes OK (06 Table 6-5). -/
def execNop (slot : Nat) (s : State) : Out :=
  .next (runSlot 0x00 slot (fun _ => pure (.ok, 0, 0)) s)

/-- FENCE: dispatched when every earlier command of its ring has completed; it completes OK (06 R158). -/
def execFence (slot : Nat) (s : State) : Out :=
  .next (runSlot 0x01 slot (fun _ => pure (.ok, 0, 0)) s)

/-- LEASE_RENEW: renewed at its fetch; with RESUME_ALL it moves every QUIESCED ring of its lease to ACTIVE (06 R170). -/
def execLeaseRenew (slot : Nat) (s : State) : Out :=
  .next (runSlot 0x05 slot (fun sl => do
    if sl.f 128 1 = 1 then
      modify fun s => match s.ring? sl.ring with
        | some r => s.resumeLease r.lease
        | none => s
    else pure ()
    pure (.ok, 0, 0)) s)

/-! ### SUMMARY -/

/-- Free bytes for each record of a section whose layout the manual does not give, followed by what it does give. -/
def State.freeRecords (s : State) (free : Nat) (l : List (List Byte)) : List Byte × State :=
  match l with
  | [] => ([], s)
  | known :: rest =>
    let (a, s) := s.drawBytes free
    let (b, s) := s.freeRecords free rest
    (a ++ known ++ b, s)

/-- The fault control block (04 Table 4-7). -/
def State.faultBlock (s : State) : List Byte :=
  leBytes 64 (pack [(s.tr.ringTail, 64), (s.tr.lastBatch, 16), (s.val (dkey 0x4012 0), 1)])

/-- One section of a summary: its kind, free bytes per record, and the given part of each record (06 Table 6-14). -/
def State.section (s : State) (all : Bool) (tenant kind : Nat) : Nat × List (List Byte) :=
  let mine := fun t => all || t = tenant
  match kind with
  | 0x01 => (256, [[]])
  | 0x02 => (64, (s.fe.rings.filter fun (_, r) => mine r.tenant).map fun (n, r) => s.ringBlock n r)
  | 0x03 => (80, (s.fe.cqs.filter fun (_, c) => mine c.tenant).map fun (_, c) => leBytes 8 c.written ++ leBytes 8 c.headSeen)
  | 0x04 =>
    let busy := s.fe.slots.foldl (fun l (_, x) => insertNat l x.tenant) s.waitingTenants
    (16, (busy.filter mine).map fun _ => [])
  | 0x05 => (64, [s.faultBlock])
  | 0x06 => (32, (s.ext.filter fun (_, e) => all || (e.state = .owned && e.owner = tenant)).map fun _ => [])
  | 0x07 => (64, [[]])
  | 0x08 => (0, s.ctx.ledger.map fun (id, e) => e.bytes id)
  | _ => (32, [[]])

/-- The directory and the contents of a summary's sections. -/
def State.sections (s : State) (all : Bool) (tenant : Nat) (kinds : List Nat) (offset : Nat) :
    List Byte × List Byte × State :=
  match kinds with
  | [] => ([], [], s)
  | k :: rest =>
    let (free, l) := s.section all tenant k
    let (bs, s) := s.freeRecords free (if k = 0x05 then l.map fun _ => [] else l)
    let bs := if k = 0x05 then l.flatten ++ bs else bs
    let (dir, body, s) := s.sections all tenant rest (offset + bs.length)
    (leBytes 16 (pack [(k, 8), (0, 24), (l.length, 32), (offset, 64)]) ++ dir, bs ++ body, s)

/-- The header of a summary (06 Table 6-13). -/
def summaryHeader (count total time seq crc : Nat) : List Byte :=
  leBytes 64 (pack [(0x5C3A, 16), (0x01, 8), (count, 8), (0, 32), (total, 64), (time, 64), (seq, 64), (0, 224), (crc, 32)])

/-- SUMMARY (06 R173, R174). -/
def execSummary (slot : Nat) (s : State) : Out :=
  .next (runSlot 0x02 slot (fun sl => do
    needE (sl.f 128 57 % 64 = 0) .badDescriptor
    let s ← get
    let all := sl.tenant = 0
    let kinds := if all then [1, 2, 3, 4, 5, 6, 7, 8, 9] else [1, 2, 3, 4, 6]
    let (dir, body, s) := s.sections all sl.tenant kinds (64 + 16 * kinds.length)
    set s
    let total := 64 + dir.length + body.length
    if sl.f 192 64 < total then do
      writeVa (sl.who slot 5) sl.asid (sl.f 128 57)
        (summaryHeader kinds.length total s.time sl.seq
          (crc32c ((summaryHeader kinds.length total s.time sl.seq 0).take 60)))
      setCount slot total
      failE .resource
    else do
      let crc := crc32c ((summaryHeader kinds.length total s.time sl.seq 0).take 60 ++ dir ++ body)
      writeVa (sl.who slot 5) sl.asid (sl.f 128 57) (summaryHeader kinds.length total s.time sl.seq crc ++ dir ++ body)
      pure (.ok, total, 0)) s)

/-! ### Registration (06 R151 to R155) -/

/-- The local line of a word that may be watched: in an HBM extent of this package (06 Table 6-1, 05 R124). -/
def wordLine (w : Who) (asid va : Nat) : Eng Nat := do
  let ga ← translate w asid va true
  let s ← get
  match s.placeOf ga with
  | .here la => do
    needE (s.areaOf la = .hbm && (s.extent? (extentOf la)).isSome) .badDescriptor
    needE (!SMap.has s.coh.watches (lineOf la)) .badDescriptor
    pure (lineOf la)
  | _ => failE .badDescriptor

/-- Whether a range reads as zeros. -/
def readsZero (w : Who) (asid va n : Nat) : Eng Bool := do
  let bs ← readVa w asid va n
  pure (bs.all (· = 0))

/-- The checks that a new ring shares with a new completion ring (06 R153); answers the line of the word. -/
def checkRing (w : Who) (sl : Slot) (ringBytes : Nat) : Eng Nat := do
  let s ← get
  let asid := sl.id 160 16
  needE ((s.asid? asid).any fun a => a.tenant = sl.f 148 12) .badDescriptor
  needE (4 ≤ sl.f 192 5 && sl.f 192 5 ≤ 16) .badDescriptor
  needE (sl.f 256 57 % ringBytes = 0 && sl.f 320 57 % 64 = 0 && sl.f 384 57 % 64 = 0) .badDescriptor
  let line ← wordLine w asid (sl.f 320 57)
  needE (← readsZero w asid (sl.f 320 57) 64) .badDescriptor
  needE (← readsZero w asid (sl.f 384 57) 64) .badDescriptor
  needE (← readsZero w asid (sl.f 256 57) ringBytes) .badDescriptor
  needE (s.coh.watches.length < 32768) .resource
  pure line

/-- Starts watching a line (05 R124). -/
def State.watch (s : State) (line : Nat) (w : Watcher) : State :=
  { s with coh := { s.coh with watches := SMap.put s.coh.watches line { watcher := w, last := 0, timer := false } } }

/-- Ends a watch. -/
def State.unwatch (s : State) (line : Nat) : State :=
  { s with coh := { s.coh with watches := SMap.del s.coh.watches line } }

/-- A command ring as registered (06 R153). -/
def Ring.fresh (driver : Bool) (tenant asid cq lease baseVa wordVa statusVa log2 wordLine : Nat) : Ring :=
  { driver, tenant, asid, cq, lease, baseVa, wordVa, statusVa, log2, wordLine, fetched := 0, tailSeen := 0,
    lastPresented := 0, state := .active, cause := 0, discarded := 0, inFlightWritten := 0, statusDue := false,
    fetchWait := .idle, resp := [], mode := .normal, recAsid := 0, recVa := 0, recLog2 := 0, stepRecords := 0,
    runOne := none, runGrant := false, stepEnter := none, dereg := none }

/-- A RING_CONFIG of operation `op`. -/
def ringConfig (op n : Nat) (body : Slot → Eng (Status × Nat × Nat)) (s : State) : State :=
  runSlotIf 0x06 n (fun sl => sl.f 128 4 = op) body s

/-- COMMAND_RING_REGISTER: RING_CONFIG OP 0 (06 R151, R153, R170). -/
def execCommandRingRegister (slot : Nat) (s : State) : Out :=
  .next (ringConfig 0 slot (fun sl => do
    let s ← get
    let id := sl.id 132 14
    needE ((s.ring? id).isNone) .badDescriptor
    needE ((s.cq? (sl.id 176 14)).any fun c => c.tenant = sl.f 148 12) .badDescriptor
    let line ← checkRing (sl.who slot 5) sl (64 * 2 ^ sl.f 192 5)
    let r := Ring.fresh (sl.f 146 1 = 1) (sl.f 148 12) (sl.id 160 16) (sl.id 176 14) (sl.id 224 10) (sl.f 256 57)
      (sl.f 320 57) (sl.f 384 57) (sl.f 192 5) line
    modify fun s => ((((s.setRing id r).watch line (.tail id)).renewLease r.lease).writeStatus id).mirrorMeta (some slot)
    pure (.ok, 0, 0)) s)

/-- COMMAND_RING_DEREGISTER: RING_CONFIG OP 1 (06 R154). It waits for DEREGISTER_DRAIN_DONE. -/
def execCommandRingDeregister (slot : Nat) (s : State) : Out :=
  .next (ringConfig 1 slot (fun sl => do
    let s ← get
    let id := sl.id 132 14
    match s.ring? id with
    | none => failE .badDescriptor
    | some r => do
      holdE (r.dereg ≠ some sl.seq)
      needE (r.tenant = sl.f 148 12 && id ≠ sl.ring) .badDescriptor
      holdE (r.state ≠ .draining)
      match r.runOne with
      | some q => modify (·.failSeq q .aborted)
      | none => pure ()
      modify fun s => (s.setRing id { r with
        state := .draining, cause := 0, discarded := (r.tailSeen - r.fetched) % 2 ^ 32, mode := .normal, runOne := none,
        runGrant := false, stepEnter := none, dereg := some sl.seq }).writeStatus id
      setCount slot (r.tailSeen - r.fetched)
      waitE) s)

/-- DEREGISTER_DRAIN_DONE: every command of a DRAINING ring has written its record: the watch ends, the id is free (06 R154). -/
def execDeregisterDrainDone (ring : Nat) (s : State) : Out :=
  .next <| match s.ring? ring with
  | none => s
  | some r =>
    if r.state = .draining && s.inFlightOf ring = 0 then
      let s := s.unwatch r.wordLine
      let s := { s with fe := { s.fe with rings := SMap.del s.fe.rings ring }
                        cnt := { s.cnt with ringSets := SMap.del s.cnt.ringSets ring } }
      let s := s.mirrorMeta ((r.dereg.bind s.live?).map (·.1))
      match r.dereg with
      | some q => match s.live? q with
        | some (n, sl) => s.finish n .ok sl.count 0
        | none => s
      | none => s
    else s

/-- COMPLETION_RING_REGISTER: RING_CONFIG OP 2 (06 R151, R153). -/
def execCompletionRingRegister (slot : Nat) (s : State) : Out :=
  .next (ringConfig 2 slot (fun sl => do
    let s ← get
    let id := sl.id 132 14
    needE ((s.cq? id).isNone) .badDescriptor
    let line ← checkRing (sl.who slot 5) sl (32 * 2 ^ sl.f 192 5)
    let c : Cq := { tenant := sl.f 148 12, asid := sl.id 160 16, baseVa := sl.f 256 57, wordVa := sl.f 320 57,
                    statusVa := sl.f 384 57, log2 := sl.f 192 5, wordLine := line, msix := sl.f 208 16,
                    irqAll := sl.f 448 1 = 1, written := 0, headSeen := 0 }
    writeVa (sl.who slot 5) c.asid c.statusVa (c.block 0)
    modify fun s => ((s.setCq id c).watch line (.head id)).mirrorMeta (some slot)
    pure (.ok, 0, 0)) s)

/-- COMPLETION_RING_DEREGISTER: RING_CONFIG OP 3 (06 R154). -/
def execCompletionRingDeregister (slot : Nat) (s : State) : Out :=
  .next (ringConfig 3 slot (fun sl => do
    let s ← get
    let id := sl.id 132 14
    match s.cq? id with
    | none => failE .badDescriptor
    | some c => do
      needE (c.tenant = sl.f 148 12 && !s.fe.rings.any fun (_, r) => r.cq = id) .badDescriptor
      modify fun s => ({ s.unwatch c.wordLine with fe := { s.fe with cqs := SMap.del s.fe.cqs id } }).mirrorMeta (some slot)
      pure (.ok, 0, 0)) s)

/-- LEASE_RESUME: RING_CONFIG OP 4: the lease is renewed and its QUIESCED rings resume (06 R151, R171). A lease under which
no ring is registered stays as it is. -/
def execLeaseResume (slot : Nat) (s : State) : Out :=
  .next (ringConfig 4 slot (fun sl => do
    modify fun s =>
      if s.fe.rings.any fun (_, r) => r.lease = sl.id 224 10 then (s.renewLease (sl.id 224 10)).resumeLease (sl.id 224 10) else s
    pure (.ok, 0, 0)) s)

/-! ### The boot ring -/

/-- Takes a free HBM extent for tenant 0 and registers ring 0 and completion ring 0 in it (06 R155, Table 6-7). -/
def State.bootRing (s : State) (e : Nat) (x : Extent) : State :=
  let va := e * 2 ^ 30
  let s := (s.setExtent e { x with state := .owned, owner := 0, shares := [], protect := false }).zeroRange va (2 ^ 30)
  let m : Mapping := { asid := 0, va, page := 2, package := none, address := va, readOnly := false, kind := .host }
  let s := { s with tr := { s.tr with maps := s.tr.maps ++ [m] } }
  let r := Ring.fresh true 0 0 0 0 (va + 0x40000) va (va + 0x40) 12 (lineOf va)
  let c : Cq := { tenant := 0, asid := 0, baseVa := va + 0x80000, wordVa := va + 0x80, statusVa := va + 0xC0, log2 := 10,
                  wordLine := lineOf (va + 0x80), msix := 0xFFFF, irqAll := false, written := 0, headSeen := 0 }
  let s := ((s.setCq 0 c).setRing 0 r).watch (lineOf va) (.tail 0)
  let s := (s.watch (lineOf (va + 0x80)) (.head 0)).renewLease 0
  (s.setVal (dkey 0x9100 0) va).writeStatus 0

/-- The outcome of a write to BOOT_RING (06 R155): a value that names no HBM extent is out of range; ring 0 registered, or
an extent that is not free, is a wrong state; 0 names none and does nothing. -/
def State.writeBootRing (s : State) (v : Nat) : MStatus × State :=
  if v = 0 then (.ok, s)
  else if v % 2 ^ 30 ≠ 0 || v ≥ s.asm.hbmBytes then (.range, s)
  else if (s.ring? 0).isSome || (s.cq? 0).isSome then (.state, s)
  else match s.extent? (extentOf v) with
    | some x =>
      if (x.state = .freeClean || x.state = .freeDirty) && x.hold = .none then (.ok, s.bootRing (extentOf v) x)
      else (.state, s)
    | none => (.state, s)

/-- The reply of a management write. -/
def State.answer (r : MStatus × State) : State :=
  { r.2 with mgmt := { r.2.mgmt with reply := some { status := r.1, value := [], rows := 0 } } }

/-- Whether the entries of the data path answer (17 R443). -/
def State.dataPath (s : State) : Bool := s.pwr.served && s.pwr.device ≠ .failed && s.pwr.device ≠ .resetting

/-- A write to an entry of the data path is rejected with STATE while they do not answer (17 R443). -/
def State.guarded (s : State) (r : MStatus × State) : MStatus × State := if s.dataPath then r else (.state, s)

/-- Whether the management controller answers: from the end of stage 1 (17 R443), and not during a firmware restart (18 R472). -/
def State.mgmtAnswers (s : State) : Bool := s.pwr.mgmtUp && !s.mgmt.restarting

/-- A management write, performed and answered; the boot code serves only the entries with `boot` (16 R430), and while the
controller does not answer nothing happens. -/
def State.manage (s : State) (boot : Bool) (f : State → MStatus × State) : State :=
  if !s.mgmtAnswers then s
  else if s.pwr.bootOnly && !boot then State.answer (.state, s)
  else State.answer (f s)

/-- A management write to an entry of the data path. -/
def State.manageData (s : State) (f : State → MStatus × State) : State := s.manage false fun s => s.guarded (f s)

/-- BOOT_RING: the operator writes BOOT_RING (06 R155). -/
def execBootRing (value : BitVec 64) (s : State) : Out :=
  .next (s.manageData fun s => s.writeBootRing value.toNat)

end Sys2Proof.Machine
end

