-- ==== Sys2Proof/Machine/Extents.lean ====
section
/-!
DEFINITION. Extents and mappings (chapter 4): EXTENT_MAP with its allocation and binding, EXTENT_REVOKE and its steps.
-/

namespace Sys2Proof.Machine

open Sys2Proof

/-- Whether the free pool holds an extent (04 Table 4-10). -/
def Extent.free (x : Extent) : Bool := (x.state = .freeClean || x.state = .freeDirty) && x.hold = .none

/-- Whether an extent may be allocated: in the free pool, and not in a read-only flash stack (02 R35). -/
def State.isFree (s : State) (e : Nat) : Bool :=
  (s.extent? e).any (·.free) && match s.areaOf (e * 2 ^ 30) with
    | .flash k => !((SMap.look s.flash.flashStacks k).map (·.readOnly)).getD false
    | _ => true

/-- Extents of a tier that a tenant owns (14 R395). -/
def State.ownedIn (s : State) (t tier : Nat) : Nat :=
  (s.ext.filter fun (e, x) => tierOf e = tier && x.owner = t && x.hold = .none && !x.free).length

/-- A tenant's quota of extents in a tier; none means no limit (14 Table 14-1). -/
def State.extentQuota (s : State) (t tier : Nat) : Option Nat :=
  let q := fld (s.tenantRow t) (160 + 32 * tier) 32
  if q = 0xFFFFFFFF then none else some q

/-- The 64 extents of a group, or the one extent of a single. -/
def unitOf (group : Bool) (e : Nat) : List Nat := if group then (List.range 64).map (e + ·) else [e]

/-- Whether a unit of extents can be taken: all free, a group aligned to 64 GiB. -/
def State.unitFree (s : State) (group : Bool) (e : Nat) : Bool :=
  (!group || e % 64 = 0) && (unitOf group e).all s.isFree

/-- Whether a tier is short for a tenant (02 R62, 14 R395). -/
def State.tierShort (s : State) (t : Nat) (group : Bool) (tier : Nat) : Bool :=
  (s.extentQuota t tier).any (fun q => s.ownedIn t tier + (if group then 64 else 1) > q) ||
    !s.ext.any fun (e, _) => tierOf e = tier && s.unitFree group e

/-- An extent is taken for a tenant; one that is not clean is zeroed (04 R94). -/
def State.takeExtent (s : State) (t e : Nat) (protect : Bool) (mirror : Option Nat) : State :=
  match s.extent? e with
  | none => s
  | some x =>
    let s := if x.state = .freeDirty then s.zeroRange (e * 2 ^ 30) (2 ^ 30) else s
    s.setExtent e { state := .owned, owner := t, shares := [], protect, hold := .none, mirror, scrub := false, drainUs := 0,
                    revokers := [], written := protect && mirror.isNone }

/-- The next choices of an allocation: a unit of this package, and with `twin` one of the twin. -/
def nextChoice (twin : Bool) (l : List Nat) : Option (Nat × Option Nat × List Nat) :=
  match l with
  | e :: m :: rest => if twin then some (e, some m, rest) else some (e, none, m :: rest)
  | [e] => if twin then none else some (e, none, [])
  | [] => none

/-- Takes `n` units in turn, each from the first tier of `tiers` that is not short; which extents is the device's own
choice, and, with `twin`, which tiers the twin can serve is the twin's (04 R94, 13 R359). Answers the extents taken. -/
def State.takeUnits (s : State) (t : Nat) (tiers : List Nat) (group protect twin : Bool) (n : Nat) (choice : List Nat) :
    Except Stop (State × List Nat) :=
  match n with
  | 0 => .ok (s, [])
  | k + 1 =>
    let open_ := tiers.filter fun x => !s.tierShort t group x
    match open_ with
    | [] => .error (.fail .resource)
    | first :: _ =>
      match nextChoice twin choice with
      | none => .error (if twin && choice.isEmpty then .fail .resource else .wait)
      | some (e, m, rest) =>
        let tier := tierOf e
        if !s.unitFree group e || !(if twin then open_.contains tier else tier = first) then .error .wait
        else
          let s := (unitOf group e).foldl (fun s x => s.takeExtent t x protect (m.map (· + (x - e)))) s
          let n := (unitOf group e).length
          let s := if tier ≠ tiers.headD 0 then s.bump (dkey 0x3002 (tier - 1)) n else s
          match s.takeUnits t tiers group protect twin k rest with
          | .ok (s, l) => .ok (s, unitOf group e ++ l)
          | .error x => .error x

/-- The pages of a range: page `i` lies at byte `i × size` of the extents listed. -/
def pagesOver (asid va code : Nat) (ro : Bool) (l : List Nat) (n : Nat) : List Mapping :=
  (List.range n).map fun i =>
    let at_ := i * pageBytes code
    { asid, va := va + at_, page := code, package := none, address := l.getD (at_ / 2 ^ 30) 0 * 2 ^ 30 + at_ % 2 ^ 30,
      readOnly := ro, kind := .host }

/-- The limits of a range that EXTENT_MAP maps: aligned, within the VA space below the scratchpad alias, unmapped, and
within the limit of 64 KiB pages (04 R90, R96, 07 R179). -/
def State.rangeOk (s : State) (asid va page bytes : Nat) : Bool :=
  bytes > 0 && va % pageBytes page = 0 && bytes % pageBytes page = 0 && va + bytes ≤ 0x1FFFF8000000000 &&
    !s.mapped asid va bytes &&
    (page ≠ 0 || (s.tr.maps.filter fun m => m.asid = asid && m.page = 0).length + bytes / 2 ^ 16 ≤ s.val (dkey 0x4031 0))

/-- An EXTENT_MAP of operation `op`, on a target ASID that exists. -/
def extentMap (op n : Nat) (body : Slot → Asid → Eng (Status × Nat × Nat)) (s : State) : State :=
  runSlotIf 0x30 n (fun sl => sl.f 128 4 = op) (fun sl => do
    match (← get).asid? (sl.id 144 16) with
    | some a => body sl a
    | none => failE .badDescriptor) s

/-- ALLOC: EXTENT_MAP OP 0 (04 R93, R94, 02 R62, 13 R359). The choice lists the extents the device takes, one for each
unit of the range (one extent, or the first of 64 with PAGE 3), each followed by the twin's extent for a PROTECTED
allocation of a paired package; an empty list then says that the pair cannot serve it (DESIGN CHOICE, log 14). -/
def execAlloc (slot : Nat) (choice : List Nat) (s : State) : Out :=
  .next (extentMap 0 slot (fun sl a => do
    let s ← get
    let page := sl.f 132 2
    let tier := sl.f 134 2
    let bytes := sl.f 320 32 * 2 ^ 16
    needE (s.rangeOk (sl.id 144 16) (sl.f 192 57) page bytes && (page ≠ 0 || tier = 0)) .badDescriptor
    let falls := page ≠ 0 && sl.f 139 1 = 0 && s.val (dkey 0x3001 0) = 1
    let tiers := if falls then (List.range 3).filter (tier ≤ ·) else [tier]
    let protect := sl.f 137 1 = 1
    let n := ceilDiv bytes (if page = 3 then 2 ^ 36 else 2 ^ 30)
    match s.takeUnits a.tenant tiers (page = 3) protect (protect && s.twin.pair = .paired) n choice with
    | .error .wait => waitE
    | .error (.fail st) => do
      if st = .resource then set (s.bump (dkey 0x3002 2) 1) else pure ()
      failE st
    | .ok (t, l) => do
      let maps := pagesOver (sl.id 144 16) (sl.f 192 57) page (sl.f 136 1 = 1) l (bytes / pageBytes page)
      let t := { t with tr := { t.tr with maps := t.tr.maps ++ maps } }
      set (t.mirrorMeta (some slot))
      pure (.ok, l.length, 0)) s)

/-- What BIND does to one extent of its range: the failure it meets, if any (04 R95). With `lost` the range is the lost
twin's, and the extent a mirror that stands for its own. -/
def State.bindExtent (s : State) (lost : Bool) (tenant target : Nat) (root share : Bool) (e : Nat) : Option Status :=
  match s.extent? e with
  | none => some .badDescriptor
  | some x =>
    if x.free || x.hold ≠ (if lost then .mirror else .none) then some .badDescriptor
    else if x.state = .draining || x.state = .scrubbing then some .revoked
    else if (!root && x.owner ≠ tenant) || (target ≠ x.owner && !share) then some .notPermitted
    else if target ≠ x.owner && !x.shares.contains target && x.shares.length ≥ 15 then some .resource
    else none

/-- The failure of least code among those met in one cycle (06 R167). -/
def leastCode (l : List Status) : Option Status :=
  l.foldl (fun b st => match b with
    | none => some st
    | some x => if st.code < x.code then some st else some x) none

/-- The extents that a local range touches. -/
def extentsOver (la bytes : Nat) : List Nat :=
  (List.range (ceilDiv (la % 2 ^ 30 + bytes) (2 ^ 30))).map (extentOf la + ·)

/-- Checks a BIND against this package's extent table and adds the shares it asks for (04 R95). -/
def State.bindHere (s : State) (lost : Bool) (tenant target : Nat) (root share : Bool) (page la bytes : Nat) : Except Status State :=
  let l := extentsOver la bytes
  let bad := l.filterMap (s.bindExtent lost tenant target root share)
  let shape := la % pageBytes page = 0 && (page ≠ 0 || l.all fun e => tierOf e = 0) && l.all fun e => tierOf e = tierOf (extentOf la)
  match leastCode (if shape then bad else .badDescriptor :: bad) with
  | some st => .error st
  | none => .ok (l.foldl (fun s e => s.updExtent e fun x =>
      if target = x.owner then x else { x with shares := insertNat x.shares target }) s)

/-- The inputs of a remote BIND check: range, page size, tenants and flags (12 R332, part kind 7; DESIGN CHOICE, log 15). -/
def bindInputs (la bytes page tenant target : Nat) (root share : Bool) : List Byte :=
  leBytes 8 la ++ leBytes 8 bytes ++ leBytes 8 (pack [(page, 8), (tenant, 16), (target, 16), (bit root, 1), (bit share, 1)])

/-- BIND: EXTENT_MAP OP 1 (04 R93, R95, R96). A remote range is checked at the package that holds it. -/
def execBind (slot : Nat) (s : State) : Out :=
  .next (extentMap 1 slot (fun sl a => do
    let s ← get
    let page := sl.f 132 2
    let bytes := sl.f 320 32 * 2 ^ 16
    let pa := sl.f 256 56
    needE (s.rangeOk (sl.id 144 16) (sl.f 192 57) page bytes && pa % pageBytes page = 0) .badDescriptor
    let root := sl.tenant = 0 && ((s.ring? sl.ring).map (·.driver)).getD false
    let share := sl.f 138 1 = 1
    let package ← match s.placeOf pa with
      | .here la => match s.bindHere (pa / 2 ^ 50 % 64 ≠ s.ownId) sl.tenant a.tenant root share page la bytes with
        | .ok t => do
          set t
          pure (if pa / 2 ^ 50 % 64 = s.ownId then none else some (pa / 2 ^ 50 % 64))
        | .error st => failE st
      | .dead => failE .targetDead
      | .away p la => do
        let r ← askPart (sl.who slot 5) sl 7 p pa (bindInputs la bytes page sl.tenant a.tenant root share)
        match statusOf r.status with
        | some .ok => pure (some p)
        | some st => failE st
        | none => failE .targetDead
    let maps := (List.range (bytes / pageBytes page)).map fun i =>
      ({ asid := sl.id 144 16, va := sl.f 192 57 + i * pageBytes page, page, package,
         address := pa % 2 ^ 50 + i * pageBytes page, readOnly := sl.f 136 1 = 1, kind := .host } : Mapping)
    modify fun s => ({ s with tr := { s.tr with maps := s.tr.maps ++ maps } }).mirrorMeta (some slot)
    pure (.ok, 0, 0)) s)

/-- UNMAP: EXTENT_MAP OP 2 (04 R97). -/
def execUnmap (slot : Nat) (s : State) : Out :=
  .next (extentMap 2 slot (fun sl _ => do
    let s ← get
    let asid := sl.id 144 16
    let va := sl.f 192 57
    let end_ := va + sl.f 320 32 * 2 ^ 16
    let hit := fun (m : Mapping) => m.asid = asid && m.va < end_ && va < m.va + pageBytes m.page
    needE ((s.tr.maps.filter hit).all fun m => va ≤ m.va && m.va + pageBytes m.page ≤ end_) .badDescriptor
    let s := s.unmapIf hit
    let s := { s with cnt := { s.cnt with pages := SMap.only s.cnt.pages fun k p => !(k = asid && va ≤ p.va && p.va < end_) } }
    set (s.mirrorMeta (some slot))
    pure (.ok, 0, 0)) s)

/-! ### Revocation (04 R106 to R108) -/

/-- Whether a line lies in an extent. -/
def lineIn (e line : Nat) : Bool := line / 2 ^ 24 = e

/-- The DRAINING step ends a watch of a line of the extent: its ring is quiesced as one with a lapsed lease is (05 R127). -/
def State.endWatch (s : State) (line : Nat) (w : Watch) : State :=
  let s := s.unwatch line
  match w.watcher with
  | .tail n => match s.ring? n with
    | some r => if r.state = .active || r.state = .step then s.quiesce n r else s
    | none => s
  | _ => s

/-- Step 1: the extent is marked and the home recalls its lines from the caching agents. -/
def State.startDrain (s : State) (e : Nat) (x : Extent) (scrub : Bool) (us seq : Nat) : State :=
  let s := s.setExtent e { x with state := .draining, scrub, drainUs := us, revokers := [seq] }
  let s := (s.coh.watches.filter fun (l, _) => lineIn e l).foldl (fun s (l, w) => s.endWatch l w) s
  ((SMap.keys s.coh.dir).filter (lineIn e)).foldl (fun s l => s.snoopAll l) s

/-- Whether a mapping reaches into an extent of a package; `own` is the id of the package itself. -/
def Mapping.reaches (m : Mapping) (own package e : Nat) : Bool :=
  m.package.getD own = package && m.address < (e + 1) * 2 ^ 30 && e * 2 ^ 30 < m.address + pageBytes m.page

/-- Every mapping of an extent goes, and each ASID that held one is invalidated (04 R106 step 4). -/
def State.unmapExtent (s : State) (package e : Nat) : State :=
  let asids := (s.tr.maps.filter (·.reaches s.ownId package e)).map (·.asid)
  let s := s.unmapIf (·.reaches s.ownId package e)
  { s with tr := { s.tr with tcache := s.tr.tcache.filter fun (_, a, _) => !asids.contains a } }

/-- An extent that is free again. -/
def Extent.freed (st : ExtState) : Extent :=
  { state := st, owner := 0, shares := [], protect := false, hold := .none, mirror := none, scrub := false, drainUs := 0,
    revokers := [], written := false }

/-- An unprotected extent of the lost twin is revoked: its mappings go, and its row is free (04 R108, 13 R366). -/
def State.revokeLost (s : State) (e : Nat) : State :=
  ((s.unmapExtent (s.twin.answersFor.getD 64) e).setHeldExtent e (.freed .freeDirty)).mirrorMeta none

/-- EXTENT_REVOKE (04 R106): it waits until the extent is free; one that names an extent already being revoked waits for
the first (R108). On a ring of the lost twin the extent is one of the twin's: its mirror here is revoked (13 R366). -/
def execExtentRevoke (slot : Nat) (s : State) : Out :=
  .next (runSlot 0x31 slot (fun sl => do
    let s ← get
    let own := sl.ring < resumedRing
    let named := extentOf (sl.f 128 57)
    needE (own || (s.heldExtent? named).any fun x => !x.free && x.hold = .none) .badDescriptor
    if !own && (s.mirrorOf named).isNone then do
      needE (sl.f 128 57 % 2 ^ 30 = 0) .badDescriptor
      set (s.revokeLost named)
      pure (.ok, 0, 0)
    else
    let e := if own then named else (s.mirrorOf named).getD 0
    match s.extent? e with
    | none => failE .badDescriptor
    | some x => do
      holdE (!x.revokers.contains sl.seq)
      needE (sl.f 128 57 % 2 ^ 30 = 0 && !x.free && x.hold = (if own then .none else .mirror)) .badDescriptor
      if x.state = .owned then
        set (s.startDrain e x (sl.f 192 1 = 1) (if sl.f 200 24 = 0 then s.val (dkey 0x4020 0) else sl.f 200 24) sl.seq)
      else set (s.setExtent e { x with revokers := x.revokers ++ [sl.seq] })
      waitE) s)

/-- Whether nothing of an extent waits or is held any more (04 R106 step 2). -/
def State.drained (s : State) (e : Nat) : Bool :=
  !s.coh.snoops.any (fun x => lineIn e x.line) && !s.coh.dir.any (fun (l, _) => lineIn e l) &&
    !s.coh.albWaiting.any (fun r => extentOf r.address = e) && !s.twin.unacked.any (fun (_, l, _) => lineIn e l)

/-- The extent is free: the revocations of it complete (04 R106 step 6, R107). -/
def State.freeExtent (s : State) (e : Nat) (x : Extent) (st : ExtState) : State :=
  let s := s.setExtent e (.freed st)
  let s := match x.hold, x.mirror with
    | .mirror, some p => s.setHeldExtent p (.freed st)
    | _, _ => s
  x.revokers.foldl (fun s q => (s.mirrorMeta ((s.live? q).map (·.1))).finishSeq q .ok 0 0) s

/-- Steps 4 to 6: every mapping of the extent goes, each ASID that held one is invalidated, and the extent is scrubbed or
freed. -/
def State.endDrain (s : State) (e : Nat) (x : Extent) : State :=
  let s := match x.hold, x.mirror with
    | .mirror, some p => s.unmapExtent (s.twin.answersFor.getD 64) p
    | _, _ => s.unmapExtent s.ownId e
  if x.scrub then s.setExtent e { x with state := .scrubbing } else s.freeExtent e x .freeDirty

/-- DRAIN_END: nothing of a draining extent remains (04 R106 step 2). -/
def execDrainEnd (extent : Nat) (s : State) : Out :=
  .next <| match s.extent? extent with
  | some x => if x.state = .draining && s.drained extent then s.endDrain extent x else s
  | none => s

/-- DRAIN_LIMIT: the drain limit passes: what still waits is aborted REVOKED and counted, and the cached copies are
invalidated (04 R106 step 3). -/
def execDrainLimit (extent : Nat) (s : State) : Out :=
  .next <| match s.extent? extent with
  | some x =>
    if x.state = .draining && !s.drained extent then
      let waiting := s.coh.albWaiting.filter fun r => extentOf r.address = extent
      let slots := s.twin.unacked.filterMap fun (_, l, n) => if lineIn extent l then n else none
      let s := slots.foldl (fun s n => s.updSlot n fun sl => { sl with status := sl.status.join .revoked }) s
      let coh := { s.coh with
        snoops := s.coh.snoops.filter fun x => !lineIn extent x.line
        dir := SMap.only s.coh.dir fun l _ => !lineIn extent l
        albWaiting := s.coh.albWaiting.filter fun r => extentOf r.address ≠ extent }
      let twin := { s.twin with unacked := s.twin.unacked.filter fun (_, l, _) => !lineIn extent l }
      let s := { s with coh := coh, twin := twin }
      (s.bump (dkey 0x4020 1) (waiting.length + slots.length)).endDrain extent x
    else s
  | none => s

/-- SCRUB_DONE: every line of a scrubbing extent has been written with zero (04 Table 4-10). -/
def execScrubDone (extent : Nat) (s : State) : Out :=
  .next <| match s.extent? extent with
  | some x =>
    if x.state = .scrubbing then (s.zeroRange (extent * 2 ^ 30) (2 ^ 30)).freeExtent extent x .freeClean else s
  | none => s

end Sys2Proof.Machine
end

