-- ==== Sys2Proof/Machine/Home.lean ====
section
/-!
DEFINITION. Requests of other packages at their home (12 R332 to R342): acceptance, the tenant check, requests held, and
responses with their storage.
-/

namespace Sys2Proof.Machine

open Sys2Proof

/-! ### Responses -/

/-- The type of the response to a request (12 Table 12-8). -/
def responseType (type : Nat) : Nat :=
  match type with
  | 0x01 => 0x0B
  | 0x02 => 0x0C
  | 0x03 => 0x0D
  | 0x04 => 0x0E
  | 0x05 | 0x0A => 0x0F
  | _ => 0x10

/-- The key of a request at its home: its source and tag (12 R340). -/
def requestKey (q : Head) : Nat := q.src * 2 ^ 18 + q.tag

/-- The response to a request: it goes back to the requester under the request's tag (12 R333). -/
def answerHead (q r : Head) : Head :=
  { r with type := responseType q.type, dst := q.src, src := q.src, tenant := q.tenant, tag := q.tag, addr := q.addr }

/-- Sends a response by the route table; one without a live route is lost and recovered by reissue (12 R335). -/
def State.sendAnswer (s : State) (p : Packet) : State := (s.route (packetHead p) p.payload).getD s

/-- Whether the response to a request is stored (12 R340): ATOMIC, WR_FINAL and GROUPED WR. -/
def storedType (q : Head) : Bool := q.type = 0x03 || q.type = 0x07 || (q.type = 0x06 && q.grouped)

/-- The held request with a source and tag. -/
def State.held? (s : State) (src tag : Nat) : Option Holding :=
  s.fab.holding.find? fun x => x.source = src && x.tag = tag

/-- Forgets a held request. -/
def State.unhold (s : State) (src tag : Nat) : State :=
  { s with fab := { s.fab with holding := s.fab.holding.filter fun x => !(x.source = src && x.tag = tag) } }

/-- Holds a request, or changes what is kept of one that is held. -/
def State.hold (s : State) (k : Packet) (f : Holding → Holding) : State :=
  let q := packetHead k
  match s.held? q.src q.tag with
  | some _ =>
    { s with fab := { s.fab with holding := s.fab.holding.map fun (x : Holding) =>
        if x.source = q.src && x.tag = q.tag then f x else x } }
  | none =>
    let x : Holding := { source := q.src, tag := q.tag, packet := k, stage := 0, resp := [], answer := none, lines := [] }
    { s with fab := { s.fab with holding := s.fab.holding ++ [f x] } }

/-- Mirrors a stored response to the twin, with the write it answers (12 R340, 13 R360). -/
def State.mirrorResponse (s : State) (key : Nat) (p : Packet) (line : Nat) : State :=
  s.sendRecord 3 (ceilDiv (48 + p.payload.length) 64) 0 (2 ^ 64 - 1) line none
    { header := 0, data := leBytes 48 p.header.toNat ++ p.payload, note := .response key p.header p.payload }

/-- Answers a request that has been performed: its response is stored where R340 says so, and leaves once the twin has
acknowledged the lines it wrote (01 R22, 12 R340). -/
def State.reply (s : State) (k : Packet) (r : Head) (payload : List Byte) (lines : List Nat) : State :=
  let q := packetHead k
  let p : Packet := { port := k.port, header := (answerHead q r).bits, payload }
  let waits := lines.filter s.awaitsTwin
  let s := if storedType q then
      let s := { s with fab := { s.fab with stored := SMap.put s.fab.stored (requestKey q) p } }
      match waits with
      | l :: _ => s.mirrorResponse (requestKey q) p l
      | [] => s
    else s
  match waits with
  | [] => (s.unhold q.src q.tag).sendAnswer p
  | _ => s.hold k fun x => { x with answer := some p, lines := waits }

/-- Sends the answers whose lines the twin has acknowledged (01 R22). -/
def State.flushAnswers (s : State) : State :=
  s.fab.holding.foldl (fun s x => match x.answer with
    | some p => if x.lines.any s.awaitsTwin then s else (s.unhold x.source x.tag).sendAnswer p
    | none => s) s

/-! ### Parts and their answers (12 R332) -/

/-- PART_KIND of a CMD packet, and the opcode that it is a part of. -/
def partKind (k : Packet) : Nat := leNat ((k.payload.drop 1).take 1)
def partOpcode (k : Packet) : Nat := leNat (k.payload.take 1)

/-- The originating sequence number, descriptor and inputs of a part. -/
def partSeq (k : Packet) : Nat := leNat ((k.payload.drop 2).take 8)
def partDesc (k : Packet) : Desc := BitVec.ofNat 512 (leNat ((k.payload.drop 32).take 64))
def partInputs (k : Packet) : List Byte := k.payload.drop 96

/-- The payload of a CMD_RSP: the part's header and descriptor, and its outputs. -/
def partAnswer (k : Packet) (outputs : List Byte) : List Byte := k.payload.take 96 ++ outputs

/-! ### Responses to requests of this package (12 R338) -/

/-- The request that a response answers. -/
def State.answered? (s : State) (p : Packet) : Option Request :=
  let r := packetHead p
  match SMap.look s.fab.tags r.tag with
  | some q => if responseType q.type = r.type && !s.fab.torn.contains q.dst then some q else none
  | none => none

/-- The status of a response: OK from the twin of a failed package counts as RESUMED_BY_TWIN (06 Table 6-11). -/
def State.answerStatus (s : State) (q : Request) (r : Head) : Nat :=
  if r.status = 0 && s.fab.rerouted.contains q.dst then 2 else r.status

/-- Releases a transaction tag. -/
def State.freeTag (s : State) (tag : Nat) : State := { s with fab := { s.fab with tags := SMap.del s.fab.tags tag } }

/-! ### Acceptance -/

/-- Whether a packet is for this package (12 R334): its own id, or that of a twin it answers for. -/
def State.isMine (s : State) (q : Head) : Bool :=
  s.fab.composed && s.answersTo q.dst

/-- Where the objects stand that a part names by ids of `w` bits: those of the package that it is sent to (13 R366). -/
def State.partSpace (s : State) (q : Head) (w : Nat) : Nat := if q.dst = s.fab.id then 0 else twinSpace w

/-- Whether the package serves no request of the fabric (13 R364, Table 13-1). -/
def State.servesNone (s : State) : Bool :=
  s.twin.pair = .fenced || s.twin.pair = .joining || s.twin.pair = .shadow

/-- The tenant check of R92: an extent's lines are reached by its owner's requests and by those it is shared with. -/
def permitE (tenant la : Nat) : Eng Unit := do
  let s ← get
  match s.areaOf la with
  | .hbm | .flash _ | .far =>
    match s.extent? (extentOf la) with
    | some x => needE (x.state ≠ .freeClean && x.state ≠ .freeDirty && (x.owner = tenant || x.shares.contains tenant)) .notPermitted
    | none => failE .notPermitted
  | _ => pure ()

/-- The local address that a request's address names here: through the mirror map for the id of a twin, where only lines
of protected extents are served (12 R347, 13 R366). -/
def homeAddress (q : Head) (a : Nat) : Eng Nat := do
  match (← get).place q.dst a with
  | .here la => pure la
  | _ => failE .targetDead

/-- A packet that arrived whole is taken from the input buffer. -/
def State.takeIn (s : State) (k : Packet) : State := { s with fab := { s.fab with inbox := s.fab.inbox.erase k } }

/-- Performs a request of a type at this package. A reissue whose response is stored is answered from it and not performed
again (12 R340). The request is held until it is answered. The body answers the fields of the response, its payload and the lines that were written. -/
def serve (type : Nat) (k : Packet) (body : Head → Eng (Head × List Byte × List Nat)) (s : State) : State :=
  let q := packetHead k
  let s := s.takeIn k
  if q.type ≠ type || !s.isMine q then s
  else if s.servesNone then s.reply k { type, dst := q.src, status := Status.targetDead.code } [] []
  else if !s.awake then (s.hold k id).wake
  else if ((s.held? q.src q.tag).bind (·.answer)).isSome then s
  else
    match if storedType q && q.reissue then (SMap.look s.fab.stored (requestKey q)).orElse fun _ =>
        SMap.look s.twin.mirrored (requestKey q) else none with
    | some p => (s.bump (dkey 0x5036 3) 1).sendAnswer p
    | none =>
      match (body q).go (s.hold k id) with
      | (.ok (r, payload, lines), s) => s.reply k r payload lines
      | (.error .wait, s) => s
      | (.error (.fail st), s) => s.reply k { type, dst := q.src, status := st.code } [] []

/-- How far a held request has come. -/
def stageOf (q : Head) : Eng Nat := do
  let s ← get
  pure (((s.held? q.src q.tag).map (·.stage)).getD 0)

/-- Records how far a request has come. -/
def setStage (k : Packet) (n : Nat) : Eng Unit := modify fun s => s.hold k fun x => { x with stage := n }

/-- A response with a status and nothing else. -/
def plainHead (q : Head) (st : Status) : Head := { type := q.type, dst := q.src, status := st.code }

/-- The engine that runs a part of another package's command (12 R332). -/
def partWho (q : Head) (cls : Nat) : Who :=
  { unit := Config.engineDie q.tag % 4, cls, index := Config.engineUnit q.tag, cmdSeq := 0, tenant := q.tenant,
    waiter := .part q.src q.tag }

end Sys2Proof.Machine
end

