-- ==== Sys2Proof/Machine/ContextOps.lean ====
section
/-!
DEFINITION. Request contexts at their owner (13 R372 to R384): the memory of a context, checkpoints, offers, the ownership
word, and the phases of a CONTEXT_RUN.
-/

namespace Sys2Proof.Machine

open Sys2Proof

/-! ### Entries and memory -/

/-- The ledger entry of a context here. -/
def State.entry? (s : State) (k : Nat) : Option Ledger := SMap.look s.ctx.ledger k
def State.setEntry (s : State) (k : Nat) (e : Ledger) : State := { s with ctx := { s.ctx with ledger := SMap.put s.ctx.ledger k e } }
def State.delEntry (s : State) (k : Nat) : State := { s with ctx := { s.ctx with ledger := SMap.del s.ctx.ledger k } }

/-- The 64 bytes of an entry as one number; 0 where there is none. -/
def State.entryBits (s : State) (k : Nat) : Nat := (s.entry? k).elim 0 fun e => leNat (e.bytes k)

/-- Fields of an entry's 64 bytes (13 Table 13-7). -/
def entryState (v : Nat) : Nat := bitsOf v 112 3
def entryEpoch (v : Nat) : Nat := bitsOf v 64 48
def entryOwner (v : Nat) : Nat := bitsOf v 116 6
def entryPeer (v : Nat) : Nat := bitsOf v 122 6

/-- The ownership word: bits [127:64] (13 R375). -/
def entryWord (v : Nat) : Nat := bitsOf v 64 64

/-- The mappings of a context: pages of the pool at CTX_VA (13 R374). -/
def contextMaps (own asid va : Nat) (pages : List Nat) (i : Nat) (ro : Bool) : List Mapping :=
  match pages with
  | [] => []
  | p :: rest => { asid, va := va + i * 2 ^ 21, page := 1, package := some own, address := p * 2 ^ 21, readOnly := ro, kind := .context } ::
      contextMaps own asid va rest (i + 1) ro

/-- Whether a mapping is one of a context's. -/
def Ledger.maps (e : Ledger) (m : Mapping) : Bool :=
  m.asid = e.asid && m.kind = .context && e.va ≤ m.va && m.va < e.va + e.length * 2 ^ 21

/-- The mappings of a context go. -/
def State.unmapContext (s : State) (e : Ledger) : State := s.unmapIf e.maps

/-- A context is mapped. -/
def State.mapContext (s : State) (e : Ledger) : State :=
  { s with tr := { s.tr with maps := s.tr.maps ++ contextMaps s.ownId e.asid e.va e.pool 0 false } }

/-- A context's pages become read-only, or writable (13 R378). -/
def State.protectContext (s : State) (e : Ledger) (ro : Bool) : State :=
  { s with tr := { s.tr with maps := s.tr.maps.map fun m => if e.maps m then { m with readOnly := ro } else m
                             tcache := s.tr.tcache.filter fun (_, a, _) => a ≠ e.asid } }

/-- Zeroes pages of the state pool. -/
def State.zeroPages (s : State) (pages : List Nat) : State := pages.foldl (fun s p => s.zeroRange (p * 2 ^ 21) (2 ^ 21)) s

/-- Writes bytes at offsets of a context into pages of the pool, and poisons lines. -/
def State.fillPages (s : State) (pages : List Nat) (bytes : SMap Byte) (bad : List Nat) : State :=
  let addr := fun (o : Nat) => (pages.getD (o / 2 ^ 21) 0) * 2 ^ 21 + o % 2 ^ 21
  let s := s.zeroPages pages
  let s := bytes.foldl (fun s (o, b) => { s with mem := SMap.putD s.mem (addr o) b 0 }) s
  s.poisonLines (bad.map fun o => addr (o * 64) / 64)

/-- The bytes of pages that are not zero, by their offset. -/
def State.pagesData (s : State) (pages : List Nat) : SMap Byte :=
  (List.range pages.length).flatMap fun i =>
    let p := pages.getD i 0
    (s.mem.filter fun (a, _) => p * 2 ^ 21 ≤ a && a < (p + 1) * 2 ^ 21).map fun (a, b) => (i * 2 ^ 21 + a % 2 ^ 21, b)

/-- The poisoned lines of pages, by their offset. -/
def State.pagesBad (s : State) (pages : List Nat) : List Nat :=
  (List.range pages.length).flatMap fun i =>
    let p := pages.getD i 0
    (s.poison.filter fun l => l / 2 ^ 15 = p).map fun l => i * 2 ^ 15 + l % 2 ^ 15

/-- The context leaves this package: its mappings go and its pages are free. -/
def State.leaveContext (s : State) (k : Nat) (e : Ledger) : State := (s.unmapContext e).setEntry k { e with pool := [] }

/-! ### Checkpoints (13 R377) -/

/-- The lines of a context as they stand in home order: what a caching agent owns is asked for first. -/
def settlePages (pages : List Nat) : Eng Unit := do
  let s ← get
  match s.coh.dir.find? fun (l, d) => pages.contains (l / 2 ^ 15) && (match d with
    | .exclusive _ => true
    | _ => false) with
  | some (l, .exclusive a) => do
    set (s.snoop a l .data)
    waitE
  | _ => pure ()

/-- A checkpoint is sent to the twin with the entry that it goes with; without a twin that mirrors, nothing is copied. -/
def State.sendCheckpoint (s : State) (k : Nat) (e : Ledger) (slot : Option Nat) : State :=
  if s.mirrorsMeta then
    let e := { e with ckptSeq := (e.ckptSeq + 1) % 2 ^ 32 }
    (s.setEntry k e).sendNote 5 slot (.checkpoint k e (s.pagesData e.pool) (s.pagesBad e.pool))
  else s.setEntry k e

/-- Whether what the command of a slot, or of another package, sent to the twin is acknowledged. -/
def State.acked (s : State) (slot : Option Nat) : Bool :=
  !s.twin.unacked.any fun (_, l, n) => match slot with
    | some i => n = some i
    | none => l = metaLine

/-! ### The ownership word (13 R375, R376, R379) -/

/-- The address that an ATOMIC on an ownership word carries; its CTR_ADDR holds CTX_ID (DESIGN CHOICE, log 38). -/
def ledgerWordAddress : Nat := 0x4003_FFFF_FFC0

/-- The TAKE's CAS reaches the owner: on the expected word the entry is GONE, the context leaves, and the OFFER completes OK.
Answers the word that stood there. -/
def ledgerCas (k operand expected : Nat) : Eng Nat := do
  let s ← get
  match s.entry? k with
  | none => pure 0
  | some e =>
    let old := entryWord (s.entryBits k)
    if old = expected && bitsOf operand 48 3 = 5 then do
      let n := { e with state := .gone, epoch := bitsOf operand 0 48, owner := bitsOf operand 52 6, peer := bitsOf operand 58 6,
                        deadline := 0, offerSlot := none }
      let s := (s.leaveContext k e).setEntry k { n with pool := [] }
      let s := s.mirrorMeta none
      set (match e.offerSlot with
        | some q => s.finishSeq q .ok 0 n.epoch
        | none => s)
      pure old
    else pure old

/-- The ownership word with a state, owner and peer at an epoch (13 Table 13-7). -/
def ownershipWord (epoch state owner peer : Nat) : Nat := pack [(epoch, 48), (state, 3), (0, 1), (owner, 6), (peer, 6)]

/-- An offer ends at its deadline: the owner reclaims it at e + 2 (13 R376, R378). -/
def State.reclaim (s : State) (k : Nat) (e : Ledger) : State :=
  let n := { e with state := .owned, epoch := e.epoch + 2, peer := 0, deadline := 0, offerSlot := none }
  let s := (((s.setEntry k n).protectContext e false).mirrorMeta none).bump (dkey 0xA010 3) 1
  match e.offerSlot with
  | some q => s.finishSeq q .offerExpired 0 n.epoch
  | none => s

/-! ### Parts of context commands (13 R380; DESIGN CHOICE, log 38) -/

/-- Inputs of a part: CTX_ID, its step (0 reads the entry, 1 the command itself, 2 frees the entry, 3 an offer's record), and
whether a driver ring sent it. -/
def contextInputs (k step : Nat) (driver : Bool) : List Byte := leBytes 8 k ++ leBytes 8 step ++ leBytes 8 (bit driver)

/-- The payload of an offer: its record and the context. -/
def State.offerPayload (s : State) (k : Nat) (e : Ledger) : List Byte :=
  let bad := s.pagesBad e.pool
  e.bytes k ++ (e.pool.flatMap fun p => s.peek (p * 2 ^ 21) (2 ^ 21)) ++ leBytes 8 bad.length ++ bad.flatMap (leBytes 8)

/-- An offer lands: its record is INBOUND here, and its context staged in the pool (13 R376, R378). -/
def offerLands (k : Nat) (data : List Byte) : Eng Unit := do
  let s ← get
  let v := leNat (data.take 64)
  let len := bitsOf v 272 16
  let pages := s.poolPages.take len
  needE (pages.length = len && (SMap.has s.ctx.ledger k || s.ctx.ledger.length < 65536)) .resource
  let e : Ledger := { tenant := bitsOf v 48 12, epoch := entryEpoch v, state := .inbound, owner := entryOwner v,
                      peer := entryOwner v, phaseDone := bitsOf v 128 32, ckptSeq := bitsOf v 160 32, deadline := bitsOf v 192 64,
                      asid := bitsOf v 256 16, length := len, va := bitsOf v 288 57, pool := pages, offerSlot := none }
  let bytes := (data.drop 64).take (len * 2 ^ 21)
  let rest := data.drop (64 + len * 2 ^ 21)
  let bad := (List.range (leNat (rest.take 8))).map fun i => leNat ((rest.drop (8 + 8 * i)).take 8)
  let sparse := ((List.range bytes.length).zip bytes).filter fun (_, b) => b ≠ 0
  let s := ((s.fillPages pages sparse bad).setEntry k e).mirrorMeta none
  set (s.sendCheckpoint k e none)

/-! ### CONTEXT_RUN (13 R383, R384) -/

/-- Keys of the runs of other packages' commands begin here. -/
def remoteRun : Nat := 2 ^ 70

def State.setRun (s : State) (key : Nat) (r : Running) : State := { s with ctx := { s.ctx with runs := SMap.put s.ctx.runs key r } }

/-- A run ends: the CONTEXT_RUN of this package completes; another package's is answered when its request is served. -/
def State.endRun (s : State) (key : Nat) (r : Running) (st : Status) : State :=
  let count := r.phase - r.first
  if remoteRun ≤ key then s.setRun key { r with child := none, done := some (st, count, r.phase) }
  else ({ s with ctx := { s.ctx with runs := SMap.del s.ctx.runs key } } : State).finishSeq key st count r.phase

/-- The ring number under which the phases of a run hold slots: one of its own, in the space of its context's ASID. -/
def phaseRingOf (asid n : Nat) : Nat := (if asid < twinSpace 16 then 0 else resumedRing) + phaseRing + n % phaseRing

/-- The next phase of a run starts: its descriptor is read from the context and checked (13 R383). -/
def startPhase (key : Nat) (r : Running) (e : Ledger) : Eng Unit := do
  let off := r.table - e.va + 64 * r.phase
  let (bs, bad) ← homeReadP e.tenant (e.pool.getD (off / 2 ^ 21) 0 * 2 ^ 21 + off % 2 ^ 21) 64
  needE (!bad) .poisoned
  let d := BitVec.ofNat 512 (leNat bs)
  needE (fld d 0 8 / 16 ≠ 9 && fld d 16 16 = e.asid % 2 ^ 16) .badDescriptor
  let s ← get
  let n := leastFree (SMap.keys s.fe.slots) 65536 0
  let ring := phaseRingOf e.asid n
  match s.checkDescriptor ring r.driver e.tenant d with
  | .error st => failE st
  | .ok d => set ((s.setSlot n (Slot.fetch ring r.phase e.tenant s.time d .fetched .ok)).setRun key { r with child := some n })

/-- A phase is started, or the run ends with the failure of its start. -/
def State.beginPhase (s : State) (key : Nat) (r : Running) : State :=
  match s.entry? r.context with
  | none => s.endRun key r .aborted
  | some e => match (startPhase key r e).go s with
    | (.ok _, s) => s
    | (.error .wait, s) => s
    | (.error (.fail st), s) => s.endRun key r st

/-- A phase has succeeded and is checkpointed: the next one starts, or the run ends. A run whose command has ended starts no
more. -/
def State.nextPhase (s : State) (key : Nat) (r : Running) : State :=
  let r := { r with phase := r.phase + 1, child := none, saved := false }
  if r.phase = r.last then s.endRun key r .ok
  else if key < remoteRun && (s.live? key).isNone then { s with ctx := { s.ctx with runs := SMap.del s.ctx.runs key } }
  else (s.setRun key r).beginPhase key r

/-! ### Commands at the owner (13 R377 to R383) -/

/-- An action at the owner: who runs it, the command's slot if it is here, the key of its run, whether a driver ring sent it,
how far it has come, and where that is kept. -/
structure ContextAct where
  who : Who
  slot : Option Nat
  key : Nat
  driver : Bool
  stage : Nat
  mark : Nat → Eng Unit

/-- Answered in place of a count where the context is owned elsewhere: the fetching package looks again. -/
def movedMark : Nat := 2 ^ 63

/-- OFFER at the owner (13 R378). Its stages: the checkpoint, the offer, and the wait for its end. -/
def offerAct (a : ContextAct) (k : Nat) (d : Desc) (e : Ledger) : Eng (Status × Nat × Nat) := do
  let s ← get
  match a.stage with
  | 0 => do
    needE (e.state = .owned && fld d 168 6 ≠ s.ownId) .badDescriptor
    settlePages e.pool
    modify fun s => s.sendCheckpoint k e a.slot
    a.mark 1
    waitE
  | 1 => do
    holdE (s.acked a.slot)
    needE (e.state = .owned) .badDescriptor
    let us := if fld d 192 32 = 0 then s.val (dkey 0xA010 2) else fld d 192 32
    let n := { e with state := .offered, owner := s.ownId, peer := fld d 168 6, deadline := s.time + usToTicks us,
                      offerSlot := if a.slot.isSome then some a.key else none }
    let s := ((s.setEntry k n).protectContext e true).mirrorMeta a.slot
    set s
    let h : Head := { type := 0x04, dst := n.peer, tenant := e.tenant }
    let payload := partPayload 0x90 5 0 d (contextInputs k 3 a.driver ++ s.offerPayload k n)
    let _ ← attempt (sendRequest h payload .other)
    a.mark (2 + e.epoch)
    waitE
  | m =>
    let epoch := m - 2
    if e.state = .gone then pure (.ok, 0, epoch + 1)
    else if e.state = .owned && e.epoch = epoch + 2 then pure (.offerExpired, 0, e.epoch)
    else waitE

/-- RELEASE at the owner (13 R376, R380): the entry passes RELEASED and is free. -/
def releaseAct (a : ContextAct) (k : Nat) (e : Ledger) : Eng (Status × Nat × Nat) := do
  let s ← get
  needE (e.state = .owned) .badDescriptor
  holdE (!s.ctx.runs.any fun (_, r) => r.context = k && r.done.isNone)
  set (((s.leaveContext k e).delEntry k).mirrorMeta a.slot)
  pure (.ok, 0, 0)

/-- CHECKPOINT at the owner (13 R377). -/
def checkpointAct (a : ContextAct) (k : Nat) (e : Ledger) : Eng (Status × Nat × Nat) := do
  needE (e.state = .owned || e.state = .offered) .badDescriptor
  settlePages e.pool
  modify fun s => s.sendCheckpoint k e a.slot
  pure (.ok, 0, 0)

/-- CONTEXT_RUN at the owner (13 R383): on an OFFERED context it waits. -/
def runAct (a : ContextAct) (k : Nat) (d : Desc) (e : Ledger) : Eng (Status × Nat × Nat) := do
  let s ← get
  match SMap.look s.ctx.runs a.key with
  | some r =>
    match r.done with
    | some x => do
      set { s with ctx := { s.ctx with runs := SMap.del s.ctx.runs a.key } }
      pure x
    | none => do
      if r.child.isNone then set (s.beginPhase a.key r) else pure ()
      waitE
  | none => do
    holdE (e.state ≠ .offered)
    needE (e.state = .owned) .badDescriptor
    let first := fld d 192 32
    let last := first + (if fld d 224 32 = 0 then 65536 else fld d 224 32)
    let table := fld d 256 57
    needE (fld d 224 32 ≤ 65536 && e.va ≤ table && table % 64 = 0 && table + 64 * last ≤ e.va + e.length * 2 ^ 21) .badDescriptor
    let r : Running := { context := k, phase := first, first, last, table, driver := a.driver, child := none, saved := false, done := none }
    set (((s.setRun a.key r).mirrorMeta none).beginPhase a.key r)
    waitE

/-- A command on a context that this package owns; one that is owned elsewhere by now answers so (13 R380). -/
def contextAct (a : ContextAct) (op k : Nat) (d : Desc) : Eng (Status × Nat × Nat) := do
  match (← get).entry? k with
  | none => pure (.badDescriptor, if a.stage = 0 then movedMark else 0, 0)
  | some e =>
    if e.tenant ≠ a.who.tenant then failE .notPermitted
    else if a.stage = 0 && e.state = .gone then pure (.badDescriptor, movedMark, 0)
    else match op with
      | 0x90 => offerAct a k d e
      | 0x92 => releaseAct a k e
      | 0x94 => checkpointAct a k e
      | _ => runAct a k d e

/-- A part of another package's context command (13 R380, R381). Answers the status, and count and result or the entry. -/
def contextPart (p : Packet) (q : Head) : Eng (Status × List Byte) := do
  let inputs := partInputs p
  let k := leNat (inputs.take 8)
  match leNat ((inputs.drop 8).take 8) with
  | 0 => do
    let s ← get
    let mirrored := (s.twin.held.bind fun m => SMap.look m.ledger k).elim 0 fun e => leNat (e.bytes k)
    pure (.ok, leBytes 64 (if SMap.has s.ctx.ledger k then s.entryBits k else mirrored))
  | 2 => do
    let s ← get
    match s.entry? k with
    | some e => if e.pool.isEmpty && e.tenant = q.tenant then set ((s.delEntry k).mirrorMeta none) else pure ()
    | none => pure ()
    pure (.ok, [])
  | 3 => do
    offerLands k (inputs.drop 24)
    pure (.ok, [])
  | _ => do
    let a : ContextAct := { who := partWho q 5, slot := none, key := remoteRun + requestKey q,
                            driver := leNat ((inputs.drop 16).take 8) = 1, stage := ← stageOf q, mark := setStage p }
    let (st, c, r) ← contextAct a (partOpcode p) k (partDesc p)
    pure (st, leBytes 8 c ++ leBytes 8 r)

/-! ### Finding the owner (13 R380) -/

/-- The entry of a context in the ledger of a package, as its 64 bytes; none where no answer comes. -/
def readEntry (w : Who) (sl : Slot) (k p : Nat) : Eng (Option Nat) := do
  let s ← get
  if s.answersTo p then pure (some (s.entryBits k))
  else
    match ← attempt (askPart w sl 5 p (2 ^ 47) (contextInputs k 0 false)) with
    | .error _ => pure none
    | .ok r => pure (if r.status < 0x40 then some (leNat r.data) else none)

/-- The owner, found from the entry of package `p` on: a GONE entry names the next in PEER, and another owner by this
package's knowledge is asked in turn. Answers the owner, and the packages passed; none where no answer comes. -/
def findOwner (w : Who) (sl : Slot) (k fuel p : Nat) (passed : List Nat) : Eng (Option Nat × List Nat) := do
  match fuel with
  | 0 => failE .badDescriptor
  | f + 1 =>
    match ← readEntry w sl k p with
    | none => pure (none, passed)
    | some v =>
      if v = 0 then failE .badDescriptor
      else if entryState v = 5 && entryPeer v ≠ p then findOwner w sl k f (entryPeer v) (passed ++ [p])
      else if entryState v = 1 && entryOwner v ≠ p && !(← get).answersTo (entryOwner v) then
        findOwner w sl k f (entryOwner v) (passed ++ [p])
      else pure (some p, passed)

end Sys2Proof.Machine
end

