-- ==== Sys2Proof/Machine/Keccak.lean ====
section
/-!
DEFINITION. SHAKE256 (FIPS 202), from which the device derives keys, measurements and digests (12 R326, 16 R425 to R439).
-/

namespace Sys2Proof.Machine

open Sys2Proof

/-- Rotation of a 64-bit lane to the left. -/
def rotl64 (x n : Nat) : Nat := (x * 2 ^ n ||| x / 2 ^ (64 - n)) % 2 ^ 64

/-- Rotation offsets, by x + 5y. -/
def keccakOffsets : List Nat :=
  [0, 1, 62, 28, 27, 36, 44, 6, 55, 20, 3, 10, 43, 25, 39, 41, 45, 15, 21, 8, 18, 2, 61, 56, 14]

/-- Round constants. -/
def keccakRounds : List Nat :=
  [0x0000000000000001, 0x0000000000008082, 0x800000000000808A, 0x8000000080008000, 0x000000000000808B, 0x0000000080000001,
   0x8000000080008081, 0x8000000000008009, 0x000000000000008A, 0x0000000000000088, 0x0000000080008009, 0x000000008000000A,
   0x000000008000808B, 0x800000000000008B, 0x8000000000008089, 0x8000000000008003, 0x8000000000008002, 0x8000000000000080,
   0x000000000000800A, 0x800000008000000A, 0x8000000080008081, 0x8000000000008080, 0x0000000080000001, 0x8000000080008008]

/-- One round of the permutation on 25 lanes, lane (x, y) at x + 5y. -/
def keccakRound (a : List Nat) (rc : Nat) : List Nat :=
  let g := fun (l : List Nat) (x y : Nat) => l.getD (x % 5 + 5 * (y % 5)) 0
  let c := (List.range 5).map fun x => g a x 0 ^^^ g a x 1 ^^^ g a x 2 ^^^ g a x 3 ^^^ g a x 4
  let d := (List.range 5).map fun x => c.getD ((x + 4) % 5) 0 ^^^ rotl64 (c.getD ((x + 1) % 5) 0) 1
  let t := (List.range 25).map fun i => a.getD i 0 ^^^ d.getD (i % 5) 0
  -- lane (x, y) moves to (y, 2x + 3y), rotated
  let b := (List.range 25).map fun i =>
    let x := i % 5
    let y := i / 5
    let u := (x + 3 * y) % 5
    rotl64 (g t u x) (keccakOffsets.getD (u + 5 * x) 0)
  let e := (List.range 25).map fun i =>
    let x := i % 5
    let y := i / 5
    g b x y ^^^ ((2 ^ 64 - 1 - g b (x + 1) y) &&& g b (x + 2) y)
  (List.range 25).map fun i => if i = 0 then e.getD 0 0 ^^^ rc else e.getD i 0

/-- The permutation of 24 rounds. -/
def keccakF (a : List Nat) : List Nat := keccakRounds.foldl keccakRound a

/-- Absorbs blocks of 136 bytes. -/
def absorb (a : List Nat) (blocks : List (List Byte)) : List Nat :=
  blocks.foldl (fun a b => keccakF ((List.range 25).map fun i =>
    a.getD i 0 ^^^ (if i < 17 then leNat ((b.drop (8 * i)).take 8) else 0))) a

/-- Squeezes `fuel` blocks. -/
def squeeze (fuel : Nat) (a : List Nat) : List Byte :=
  match fuel with
  | 0 => []
  | k + 1 => (a.take 17).flatMap (leBytes 8) ++ squeeze k (keccakF a)

/-- The message padded for SHAKE256. -/
def shakePad (bs : List Byte) : List Byte :=
  let z := 135 - bs.length % 136
  bs ++ (if z = 0 then [0x9F] else [0x1F] ++ List.replicate (z - 1) 0 ++ [0x80])

/-- `n` bytes of SHAKE256 of a message. -/
def shake256 (n : Nat) (bs : List Byte) : List Byte :=
  let p := shakePad bs
  (squeeze (n / 136 + 1) (absorb (List.replicate 25 0) (chunksOf 136 p.length p))).take n

end Sys2Proof.Machine
end

