-- ==== Sys2Proof/Machine/Links.lean ====
section
/-!
DEFINITION. The link layer of the fabric (12 R319 to R330, R352, 19 R479): port states, keys, sequence numbers, replay,
credits, and the packets that flits carry.
-/

namespace Sys2Proof.Machine

open Sys2Proof

/-! ### Keys (12 R325, R326) -/

/-- The key after a retrain or a REKEY flit. -/
def nextKey (key : List Byte) (count : Nat) : List Byte :=
  shake256 32 (key ++ ("HJL-2900 rekey".toList.map fun c => BitVec.ofNat 8 c.toNat) ++ leBytes 8 count)

/-- A key event: indexes restart and the key count advances. -/
def Port.keyEvent (p : Port) : Port :=
  { p with txIndex := 0, rxIndex := 0, keyCount := p.keyCount + 1, flitsSinceKey := 0 }

/-- A retrain or REKEY flit: both ends derive the next key. -/
def Port.rekey (p : Port) : Port :=
  { p.keyEvent with key := p.key.map fun k => nextKey k (p.keyCount + 1) }

/-! ### Port states (12 Table 12-6) -/

/-- Whether the fabric ports of the package are enabled: after stage 2 (17 R442), and not under profile 3 (17 R446). -/
def State.portsEnabled (s : State) : Bool :=
  s.prof.active ≠ 3 && match s.pwr.device with
    | .initialising | .selfTest | .ready | .fenced => true
    | _ => false

/-- Packets that wait at a port that has gone DOWN take another live path (12 R335); a request without one is held. -/
def State.rerouteFrom (s : State) (port : Nat) : State :=
  let moved := s.fab.outbox.filter (·.port = port)
  let s := { s with fab := { s.fab with outbox := s.fab.outbox.filter (·.port ≠ port) } }
  moved.foldl (fun s k =>
    let h := packetHead k
    match s.route h k.payload with
    | some s => s
    | none =>
      if isRequest h.type && h.src = s.fab.id then
        { s with fab := { s.fab with tags := SMap.upd s.fab.tags h.tag fun q => { q with held := true } } }
      else s) s

/-- A port goes DOWN: what it holds unacknowledged is discarded (12 R324). -/
def State.portDown (s : State) (n : Nat) : State :=
  let s := s.updPort n fun p =>
    { p with state := .down, lanes := 0, nextSeq := 0, expectSeq := 0, awaitReplay := false, replay := [], nakSeq := 0, nakCount := 0,
             retrainFails := 0, credits := [], freed := [], lastFreed := [], controls := [], assembling := [] }
  s.rerouteFrom n

/-- A port goes DOWN with a LINK_DOWN event. -/
def State.linkDown (s : State) (n : Nat) : State := (s.portDown n).fmEvent 0x02 0 n 0

/-- A port retrains: a key event; sequence numbers and the replay buffer survive (12 R324, R326). -/
def State.retrain (s : State) (n : Nat) : State := s.updPort n fun p => { p.rekey with state := .retrain, nakCount := 0 }

/-- A link control flit is sent, and sent again until it is answered (12 R323). -/
def Port.control (p : Port) (code : Nat) : Port := { p with controls := insertNat p.controls code, txIndex := p.txIndex + 1 }

/-- The credits of a pool at link-up (12 Table 12-5). -/
def poolCredits (pool : Nat) : Nat :=
  match pool / 4 with
  | 0 => 96
  | 1 => 160
  | 2 => 224
  | _ => 32

/-- The widest of 4, 2 and 1 lanes that some lanes allow (12 R321). -/
def widest (n : Nat) : Nat := if n ≥ 4 then 4 else if n ≥ 2 then 2 else min n 1

/-- Raises LANE_DEGRADED for a port below 4 lanes. -/
def State.laneEvent (s : State) (n lanes : Nat) : State := if lanes < 4 then s.fmEvent 0x03 0 n lanes else s

/-- An enabled port begins training. -/
def State.beginTraining (s : State) (n : Nat) : State :=
  let p := s.port n
  if n < s.fabricPorts && s.portsEnabled && p.state = .down && p.cable && !p.authFailed then
    s.setPort n { p with state := .training }
  else s

/-- PORT_TRAINING: an enabled port detects signal (12 Table 12-6). -/
def execPortTraining (port : Nat) (s : State) : Out := .next (s.beginTraining port)

/-- TRAINING_RETRY: one second after a failed training (12 Table 12-6). -/
def execTrainingRetry (port : Nat) (s : State) : Out := .next (s.beginTraining port)

/-- The working lanes of a port, each once. -/
def laneCount (l : List Nat) : Nat := ((List.range 4).filter fun i => l.contains i).length

/-- TRAINING_DONE: training ends at the widest width, and the port waits for its key, or a retrained port is UP again
(12 R321, Table 12-6). The first port to reach KEY_WAIT raises COMPOSE_REQUEST while the package is UNCOMPOSED (R350). -/
def execTrainingDone (port : Nat) (working : List Nat) (s : State) : Out :=
  .next <|
    let p := s.port port
    let w := widest (laneCount working)
    if w = 0 then s
    else match p.state with
      | .training =>
        let p := { p with state := .keyWait, lanes := w }
        let s := (s.setPort port (if p.key.isSome then p.control 0x01 else p)).laneEvent port w
        if !s.fab.composed && !s.fab.composeAsked then
          ({ s with fab := { s.fab with composeAsked := true } } : State).fmEvent 0x06 (s.fab.id % 64) port 0
        else s
      | .retrain => ((s.setPort port { p with state := .up, lanes := w, retrainFails := 0 }).laneEvent port w).pump s.fab.outbox []
      | _ => s

/-- TRAINING_TIMEOUT: no lane trained in 100 ms (12 Table 12-6). -/
def execTrainingTimeout (port : Nat) (s : State) : Out :=
  .next (if (s.port port).state = .training then s.updPort port fun p => { p with state := .down, lanes := 0 } else s)

/-- RETRAIN_TIMEOUT: a retrain fails; at the limit the port goes DOWN (12 Table 12-6). -/
def execRetrainTimeout (port : Nat) (s : State) : Out :=
  .next <|
    let p := s.port port
    if p.state ≠ .retrain then s
    else if p.retrainFails + 1 ≥ s.val (dkey 0x5034 2) then s.linkDown port
    else s.setPort port { p with retrainFails := p.retrainFails + 1 }

/-- LOCK_LOST (12 Table 12-6). -/
def execLockLost (port : Nat) (s : State) : Out := .next (if (s.port port).state = .up then s.retrain port else s)

/-- Both ends hold a key with the same key id: the port is UP, with the credits of link-up (12 R328, Table 12-6). -/
def State.keyCheck (s : State) (n keyId : Nat) : State :=
  let p := s.port n
  if p.state = .keyWait && p.key.isSome && p.keyId = keyId then
    let p := { p with state := .up, controls := p.controls.filter (· ≠ 0x01), txIndex := p.txIndex + 1,
                      credits := (List.range 16).map fun i => (i, poolCredits i) }
    let s := (s.setPort n p).fmEvent 0x01 0 n p.lanes
    s.pump s.fab.outbox []
  else s

/-- KEY_CHECK (12 Table 12-6). -/
def execKeyCheck (port : Nat) (keyId : BitVec 8) (s : State) : Out := .next (s.keyCheck port keyId.toNat)

/-- RETRAIN_REQUEST: answered with the same code, and the port retrains (12 R323, Table 12-6). -/
def execRetrainRequest (port : Nat) (s : State) : Out :=
  .next (if (s.port port).state = .up then
      (s.updPort port fun p => { p with controls := p.controls.filter (· ≠ 0x04), txIndex := p.txIndex + 1 }).retrain port
    else s)

/-- ENTER_LOW_RATE: both ends keep only lane 0 (12 R352). -/
def State.enterLow (s : State) (n : Nat) : State :=
  if (s.port n).state = .up then
    s.updPort n fun p => { p with state := .lowRate, lanes := 1, controls := p.controls.filter (· ≠ 0x02), txIndex := p.txIndex + 1 }
  else s

def execEnterLowRate (port : Nat) (s : State) : Out := .next (s.enterLow port)

/-- EXIT_LOW_RATE: the port retrains to full width, a key event (12 R352). -/
def State.exitLow (s : State) (n : Nat) : State :=
  if (s.port n).state = .lowRate then
    (s.updPort n fun p => { p with controls := p.controls.filter (· ≠ 0x03), txIndex := p.txIndex + 1 }).retrain n
  else s

def execExitLowRate (port : Nat) (s : State) : Out := .next (s.exitLow port)

/-- LINK_CTL_RESEND: link control flits that have no answer after 1 µs are sent again (12 R323). -/
def execLinkCtlResend (port : Nat) (s : State) : Out :=
  .next (s.updPort port fun p => { p with txIndex := p.txIndex + p.controls.length })

/-- CABLE_PRESENT: PRSNT_N falls; a cable that asks for more than 2.5 W is not powered, and its port stays DOWN (19 R479). -/
def execCablePresent (port demandMw : Nat) (s : State) : Out :=
  .next (if port < s.fabricPorts then s.updPort port fun p => { p with cable := demandMw ≤ 2500 } else s)

/-! ### Acknowledgement and replay (12 R324) -/

/-- The replay buffer after an acknowledgement: flits up to the last one taken in order leave it. -/
def ackedUpTo (l : List (Nat × BitVec 128 × List Byte)) (seq : Nat) : List (Nat × BitVec 128 × List Byte) :=
  if l.any fun (n, _) => n = seq then (l.dropWhile fun (n, _) => n ≠ seq).drop 1 else l

/-- A flit sealed afresh under the present key: its KEY_EPOCH follows the key count (12 R325). -/
def resealed (count : Nat) (f : Nat × BitVec 128 × List Byte) : Nat × BitVec 128 × List Byte :=
  (f.1, BitVec.ofNat 128 (setFld f.2.1.toNat 64 8 (count % 256)), f.2.2)

/-- A NAK: the sender sends again from ACK_SEQ + 1; a SEQ that is NAKed too often in a row retrains the port. -/
def State.nak (s : State) (n ackSeq : Nat) : State :=
  let p := s.port n
  if !p.live then s
  else
    let left := ackedUpTo p.replay ackSeq
    let again := if p.nakSeq = ackSeq then p.nakCount + 1 else 1
    if again ≥ s.val (dkey 0x5034 1) && p.state = .up then
      (s.setPort n { p with replay := left, nakSeq := ackSeq, nakCount := 0 }).retrain n
    else
      s.setPort n { p with replay := left.map (resealed p.keyCount), nakSeq := ackSeq, nakCount := again, replays := p.replays + left.length,
                           txIndex := p.txIndex + left.length, flitsSinceKey := p.flitsSinceKey + left.length }

/-- NAK (12 R324). -/
def execNak (port : Nat) (ackSeq : BitVec 12) (s : State) : Out := .next (s.nak port ackSeq.toNat)

/-- The REKEY flit of a port takes the next sequence number and is the last one sealed under the old key (12 R326). -/
def Port.sendRekey (p : Port) : Port :=
  let h := BitVec.ofNat 128 (pack [(p.nextSeq, 12), (0, 14), (2, 3), (0, 35), (p.keyCount % 256, 8)])
  { p with replay := p.replay ++ [(p.nextSeq, h, List.replicate 224 0)], nextSeq := (p.nextSeq + 1) % 4096 }.rekey

/-- REKEY_SEND: after LINK_REKEY_FLITS flits, the sender emits a REKEY flit (12 R326). -/
def execRekeySend (port : Nat) (s : State) : Out :=
  .next <|
    let p := s.port port
    if p.live && s.val (dkey 0x5034 0) ≤ p.flitsSinceKey && p.replay.length < 512 then s.setPort port p.sendRekey else s

/-- A sequenced flit with the expected number is taken in order. -/
def Port.takeSeq (p : Port) : Port := { p with expectSeq := (p.expectSeq + 1) % 4096, awaitReplay := false }

/-- REKEY: a REKEY flit is received in order, and both ends derive the next key (12 R326). -/
def State.takeRekey (s : State) (n seq : Nat) : State :=
  let p := s.port n
  if p.live && p.expectSeq = seq then s.setPort n p.takeSeq.rekey else s

def execRekey (port : Nat) (seq : BitVec 12) (s : State) : Out := .next (s.takeRekey port seq.toNat)

/-! ### Receiving (12 R323, R324, R327, R328, R334 to R336) -/

/-- Whether a port carries only twin traffic. -/
def State.isTwinPort (s : State) (n : Nat) : Bool := s.twinPorts.contains n

/-- Whether a packet type may arrive on a port at all (12 R332). -/
def State.typeOk (s : State) (n type : Nat) : Bool :=
  1 ≤ type && type ≤ 0x15 && ((type ≠ 0x13 && type ≠ 0x14) || s.isTwinPort n)

/-- Answers a request that finds no route here (12 R336). -/
def State.sendNoRoute (s : State) (h : Head) : State :=
  if isRequest h.type then
    let r : Head := { type := 0x12, dst := h.src, src := h.src, tenant := h.tenant, tag := h.tag, addr := h.addr }
    (s.route r []).getD s
  else s

/-- A packet for another package crosses this one (12 R334, R336). -/
def State.forward (s : State) (k : Packet) : State :=
  let h := packetHead k
  if h.hops = 3 then s.sendNoRoute h
  else match pickPort (s.livePorts h.dst) (if isRequest h.type then h.src else h.dst) h.tag with
    | some p => s.emit { port := p, header := ({ h with hops := h.hops + 1 } : Head).bits, payload := k.payload }
    | none => s.sendNoRoute h

/-- The payload of an assembled packet: the bytes that its header counts; the rest of the last flit is filling. -/
def packetPayload (h : Head) (bs : List Byte) : List Byte :=
  match h.type with
  | 0x01 | 0x02 => []
  | 0x06 => bs.take (h.len + 8 * h.aop)
  | 0x09 => bs.take 72
  | 0x13 | 0x14 => bs
  | _ => bs.take h.len

/-- A whole packet has arrived on a port. -/
def State.arrived (s : State) (n : Nat) (bytes : List Byte) : State :=
  let header := BitVec.ofNat 384 (leNat (bytes.take 48))
  let h := headOf header
  let k : Packet := { port := n, header, payload := packetPayload h (bytes.drop 48) }
  let keep := fun (s : State) => { s with fab := { s.fab with inbox := s.fab.inbox ++ [k] } }
  if !s.typeOk n h.type then s.logFree 0x000B 10 h.tenant n
  else
    let s := if bitOf (s.val (dkey 0xB020 6)) n then s.trace 6 (Config.traceDie 6) n h.tenant header.toNat else s
    if s.isTwinPort n then (if h.type = 0x13 || h.type = 0x14 then keep s else s)
    else if !s.fab.composed && h.type ≠ 0x15 then s
    else if h.dst = s.fab.id || s.twin.answersFor = some h.dst then keep s
    else s.forward k

/-- Takes the credits that a flit returns (12 R323, R328). -/
def Port.takeCredits (p : Port) (pool count : Nat) : Port :=
  let old := SMap.get p.lastFreed pool 0
  { p with credits := SMap.put p.credits pool (SMap.get p.credits pool 0 + (count + 4096 - old) % 4096)
           lastFreed := SMap.put p.lastFreed pool count }

/-- The payload of a DATA flit joins its packet; with EOP the packet has arrived. -/
def State.takeData (s : State) (n : Nat) (h : BitVec 128) (payload : List Byte) : State :=
  let pool := fld h 48 4
  let pool := pool % 4 * 4 + pool / 4
  let p := (s.port n).takeSeq
  let old := if flag h 52 then [] else SMap.get p.assembling pool []
  let bytes := old ++ payload
  let p := { p with freed := SMap.put p.freed pool ((SMap.get p.freed pool 0 + 1) % 4096) }
  if flag h 53 then (s.setPort n { p with assembling := SMap.del p.assembling pool }).arrived n bytes
  else s.setPort n { p with assembling := SMap.put p.assembling pool bytes }

/-- A link control flit (12 R323). -/
def State.takeControl (s : State) (n : Nat) (payload : List Byte) : State :=
  match (payload.headD 0).toNat with
  | 0x01 => s.keyCheck n (payload.getD 1 0).toNat
  | 0x02 => s.enterLow n
  | 0x03 => s.exitLow n
  | 0x04 => if (s.port n).state = .up then s.retrain n else s
  | _ => s

/-- An authentication failure takes the port DOWN until it gets a new key (12 R327). -/
def State.authFail (s : State) (n : Nat) : State :=
  let s := (s.portDown n).updPort n fun p => { p with authFailed := true, authFails := p.authFails + 1 }
  ((s.fmEvent 0x04 0 n 0).logFree 0x000C 10 0 n).fmEvent 0x02 0 n 0

/-- FLIT_RECEIVE (12 R323 to R328). -/
def execFlitReceive (port : Nat) (flit : LinkFlit) (s : State) : Out :=
  .next <|
    let p := s.port port
    let h := flit.header
    if p.state = .keyWait then
      (if flit.crcOk && fld h 26 3 = 3 then s.takeControl port flit.payload else s)
    else if !p.live then s
    else
      let s := s.setPort port { p with rxIndex := p.rxIndex + 1 }
      if !flit.crcOk then s.updPort port fun p => { p with crcErrors := p.crcErrors + 1, awaitReplay := true }
      else if !flit.tagOk || fld h 64 8 ≠ p.keyCount % 256 then s.authFail port
      else
        let s := match fld h 24 2 with
          | 1 => s.updPort port fun p => { p with replay := ackedUpTo p.replay (fld h 12 12), nakCount := 0 }
          | 2 => s.nak port (fld h 12 12)
          | _ => s
        let s := s.updPort port fun p => p.takeCredits (fld h 32 4) (fld h 36 12)
        let s := s.pump s.fab.outbox []
        match fld h 26 3 with
        | 0 =>
          if fld h 0 12 = (s.port port).expectSeq then s.takeData port h flit.payload
          else s.updPort port fun p => { p with awaitReplay := true }
        | 2 => s.takeRekey port (fld h 0 12)
        | 3 => s.takeControl port flit.payload
        | _ => s

end Sys2Proof.Machine
end

