-- ==== Sys2Proof/Machine/TileEngine.lean ====
section
/-!
DEFINITION. Tiles (02 R40 to R47, 03 R77 to R84): headers and their checks, the Z0 and L1 encodings, and the move of one tile.
-/

namespace Sys2Proof.Machine

open Sys2Proof

/-! ### Headers (02 Table 2-6) -/

/-- Raw payload bytes of a format (02 Table 2-7). -/
def rawSize (format : Nat) : Nat :=
  match format with
  | 0x0 => 65536
  | 0x1 | 0x2 => 32768
  | 0x3 | 0x4 | 0x7 => 16384
  | 0x5 => 16896
  | 0x6 => 8704
  | _ => 2048

def tileFormat (h : Nat) : Nat := bitsOf h 20 4
def tileKind (h : Nat) : Nat := bitsOf h 24 4
def tileComp (h : Nat) : Nat := bitsOf h 28 4
def tileStored (h : Nat) : Nat := bitsOf h 64 32
def tileSplit (h : Nat) : Bool := bitOf h 47

/-- Whether a header's content passes R43: marker, version, encodings, reserved bits, the rules of R42, and VALID. -/
def headerOk (h : Nat) : Bool :=
  let raw := rawSize (tileFormat h)
  bitsOf h 0 16 = 0xA5C3 && bitsOf h 16 4 = 1 && tileFormat h ≤ 8 && tileKind h ≤ 7 && tileComp h ≤ 4 &&
  bitsOf h 48 16 = 0 && bitsOf h 313 167 = 0 && bitOf h 46 &&
  match tileComp h with
  | 0x0 => tileStored h = raw
  | 0x1 => tileStored h = 0
  | 0x2 => tileStored h ≤ raw + 64 * ceilDiv raw 16384
  | 0x3 => tileFormat h = 0x5 && (tileKind h = 2 || tileKind h = 3)
  | _ => tileFormat h = 0x6 && (tileKind h = 2 || tileKind h = 3)

/-- A header as written at a destination: VALID set, the stored form described, HEADER_CRC recomputed (02 R44). -/
def headerFor (h comp : Nat) (split : Bool) (payloadVa : Nat) (stored : List Byte) : List Byte :=
  let h := setFld (setFld (setFld h 28 4 comp) 46 1 1) 47 1 (bit split)
  let h := setFld (setFld (setFld h 64 32 stored.length) 96 32 (crc32c stored)) 256 57 payloadVa
  let head := leBytes 60 h
  head ++ leBytes 4 (crc32c head)

/-! ### L1 (03 R78 to R81) -/

/-- Reads `n` bits, least significant first. -/
def takeBits (n : Nat) (l : List Bool) : Option (Nat × List Bool) :=
  match n with
  | 0 => some (0, l)
  | k + 1 => match l with
    | [] => none
    | b :: rest => match takeBits k rest with
      | some (v, l) => some (bit b + 2 * v, l)
      | none => none

/-- Counts one-bits up to the zero-bit that ends them. -/
def takeUnary (l : List Bool) : Option (Nat × List Bool) :=
  match l with
  | [] => none
  | false :: rest => some (0, rest)
  | true :: rest => match takeUnary rest with
    | some (q, l) => some (q + 1, l)
    | none => none

/-- One code of a group (03 Table 3-5). -/
def takeCode (g w : Nat) (l : List Bool) : Option (Nat × List Bool) :=
  if g = 62 then some (0, l)
  else if g = 63 then takeBits (8 * w) l
  else if g < 32 && g < 8 * w then
    match takeUnary l with
    | some (q, l) => match takeBits g l with
      | some (r, l) => some (q * 2 ^ g + r, l)
      | none => none
    | none => none
  else none

/-- The zigzag inverse, modulo 2^(8w). -/
def unzigzag (w u : Nat) : Nat := if u % 2 = 0 then u / 2 else 2 ^ (8 * w) - 1 - u / 2

/-- The elements of a coded chunk; `j` counts down the elements of the current group. -/
def l1Elements (fuel : Nat) (w : Nat) (delta : Bool) (prev g j : Nat) (l : List Bool) : Option (List Nat × List Bool) :=
  match fuel with
  | 0 => some ([], l)
  | f + 1 =>
    match (if j = 0 then takeBits 6 l else some (g, l)) with
    | none => none
    | some (g, l) => match takeCode g w l with
      | none => none
      | some (u, l) =>
        if u ≥ 2 ^ (8 * w) then none
        else
          let e := ((if delta then prev else 0) + unzigzag w u) % 2 ^ (8 * w)
          match l1Elements f w delta e g (if j = 0 then 31 else j - 1) l with
          | some (es, l) => some (e :: es, l)
          | none => none

/-- The bits of bytes, least significant first. -/
def bitsOfBytes (bs : List Byte) : List Bool := bs.flatMap fun b => (List.range 8).map fun i => b.getLsbD i

/-- The raw bytes of one chunk: header and body (03 R78, R79, R81). -/
def l1Chunk (h : Nat) (body : List Byte) : Option (List Byte) :=
  let rawLen := bitsOf h 16 16
  let bodyLen := bitsOf h 32 16
  let w := 2 ^ bitsOf h 2 2
  let shape := rawLen > 0 && rawLen ≤ 16384 && bitsOf h 5 11 = 0 && bitsOf h 48 16 = 0 && bitsOf h 96 416 = 0
  let raw : Option (List Byte) := match bitsOf h 0 2 with
    | 0 => if bodyLen = rawLen then some body else none
    | 1 =>
      if bitsOf h 2 2 = 3 || rawLen % w ≠ 0 || bodyLen = 0 || bodyLen > rawLen then none
      else match l1Elements (rawLen / w) w (bitOf h 4) 0 0 0 (bitsOfBytes body) with
        | some (es, rest) => if rest.length < 8 && rest.all (!·) then some (es.flatMap (leBytes w)) else none
        | none => none
    | 2 => if bodyLen = 0 then some (List.replicate rawLen 0) else none
    | _ => none
  match raw with
  | some bs => if shape && crc32c bs = bitsOf h 64 32 then some bs else none
  | none => none

/-- The raw bytes of an L1 payload: chunks that sum to the stored length and to the raw size (03 R78, R81). -/
def l1Decode (fuel : Nat) (left : Nat) (bs : List Byte) : Option (List Byte) :=
  match fuel with
  | 0 => if bs.isEmpty && left = 0 then some [] else none
  | f + 1 =>
    if left = 0 then (if bs.isEmpty then some [] else none)
    else if bs.length < 64 then none
    else
      let h := leNat (bs.take 64)
      let body := (bs.drop 64).take (bitsOf h 32 16)
      if body.length ≠ bitsOf h 32 16 || bitsOf h 16 16 ≠ min left 16384 then none
      else match l1Chunk h body with
        | some raw => match l1Decode f (left - raw.length) (bs.drop (64 + body.length)) with
          | some more => some (raw ++ more)
          | none => none
        | none => none

/-- The bits of a value, least significant first. -/
def lowBits (n v : Nat) : List Bool := (List.range n).map fun i => bitOf v i

/-- The bits of one group under a code; codes that cannot express it become verbatim (03 Table 3-5). -/
def l1GroupBits (w : Nat) (us : List Nat) : List Bool :=
  let g := Config.l1Group us
  if g = 62 && us.all (· = 0) then lowBits 6 62
  else if g < 32 && g < 8 * w then
    lowBits 6 g ++ us.flatMap fun u => List.replicate (u / 2 ^ g) true ++ false :: lowBits g u
  else lowBits 6 63 ++ us.flatMap (lowBits (8 * w))

/-- The codes u of a run of elements. -/
def l1Codes (w : Nat) (delta : Bool) (prev : Nat) (es : List Nat) : List Nat :=
  match es with
  | [] => []
  | e :: rest =>
    let d := signed (8 * w) (e + 2 ^ (8 * w) - (if delta then prev else 0))
    (if d < 0 then (-2 * d - 1).toNat else (2 * d).toNat) :: l1Codes w delta e rest

/-- Eight bits at a time as bytes, the last filled with zeros. -/
def bytesOfBits (fuel : Nat) (l : List Bool) : List Byte :=
  match fuel with
  | 0 => []
  | f + 1 =>
    if l.isEmpty then []
    else BitVec.ofNat 8 (pack ((l.take 8).map fun b => (bit b, 1))) :: bytesOfBits f (l.drop 8)

/-- Cuts a list into groups of 32. -/
def groups32 (fuel : Nat) (l : List Nat) : List (List Nat) :=
  match fuel with
  | 0 => []
  | f + 1 => if l.isEmpty then [] else l.take 32 :: groups32 f (l.drop 32)

/-- One chunk as the encoder writes it: width, DELTA and group codes are its own choice; a coded body longer than the raw
bytes is stored instead (03 R80). -/
def l1EncodeChunk (raw : List Byte) : List Byte :=
  let head := fun (mode wc dl len : Nat) => leBytes 64 (pack [(mode, 2), (wc, 2), (dl, 1), (0, 11), (raw.length, 16),
    (len, 16), (0, 16), (crc32c raw, 32)])
  let (wc, delta) := Config.l1Shape raw
  let w := 2 ^ (wc % 3)
  if raw.all (· = 0) then head 2 0 0 0
  else
    let es := (chunksOf w raw.length raw).map leNat
    let bits := (groups32 es.length (l1Codes w delta 0 es)).flatMap (l1GroupBits w)
    let body := bytesOfBits bits.length bits
    if raw.length % w ≠ 0 || body.length > raw.length then head 0 0 0 raw.length ++ raw
    else head 1 (wc % 3) (bit delta) body.length ++ body

/-- An L1 payload. -/
def l1Encode (raw : List Byte) : List Byte := (chunksOf 16384 raw.length raw).flatMap l1EncodeChunk

/-! ### One tile -/

/-- The raw payload that a stored payload stands for (02 Table 2-9); none if it is malformed. -/
def rawPayload (h : Nat) (stored : List Byte) : Option (List Byte) :=
  match tileComp h with
  | 0x1 => some (List.replicate (rawSize (tileFormat h)) 0)
  | 0x2 => l1Decode 8 (rawSize (tileFormat h)) stored
  | _ => some stored

/-- The stored form at a destination: COMP and payload by DST_ENC and the source's COMP (03 Table 3-7); a scratchpad takes
0 and 2 as 1 (02 R44). -/
def reencode (enc : Nat) (scratch : Bool) (h : Nat) (stored : List Byte) : Except Status (Nat × List Byte) :=
  let comp := tileComp h
  let enc := if scratch && (enc = 0 || (enc = 2 && comp ≤ 2)) then 1 else enc
  let kv := tileKind h = 2 || tileKind h = 3
  match rawPayload h stored with
  | none => .error .crcMismatch
  | some raw =>
    match enc with
    | 0 => .ok (comp, stored)
    | 1 => .ok (if comp ≤ 2 then (0, raw) else (comp, stored))
    | 2 => if comp > 2 then .error .badDescriptor else .ok (if raw.all (· = 0) then (1, []) else (2, l1Encode raw))
    | 3 => if comp = 3 || (comp ≤ 2 && tileFormat h = 5 && kv) then .ok (3, raw) else .error .badDescriptor
    | 4 => if comp = 4 || (comp ≤ 2 && tileFormat h = 6 && kv) then .ok (4, raw) else .error .badDescriptor
    | _ => .error .badDescriptor

/-- Reads and checks a tile header: HEADER_CRC first, the content checks only on a header that passes it (02 R43). A retry
reads the same bytes again. -/
def readHeader (w : Who) (asid va : Nat) : Eng Nat := do
  let bs ← readVa w asid va 64
  needE (crc32c (bs.take 60) = leNat (bs.drop 60)) .crcMismatch
  let h := leNat bs
  needE (headerOk h) .badDescriptor
  pure h

/-- Reads a tile's stored payload and checks PAYLOAD_CRC (02 R43). -/
def readPayload (w : Who) (asid va h : Nat) : Eng (List Byte) := do
  let bs ← readVa w asid (if tileSplit h then bitsOf h 256 57 else va + 64) (tileStored h)
  needE (crc32c bs = bitsOf h 96 32) .crcMismatch
  pure bs

/-- Bytes of a tile as it lies at its source: its inline size, or one header of an array (02 R46). -/
def sourceSize (h : Nat) : Nat := if tileSplit h then 64 else roundUp (64 + tileStored h) 64

/-- The counter type of a tile that has landed: tile in for HBM and scratchpads, tile out for flash, the far tier and
other packages (15 Table 15-1). -/
def landType (w : Who) (asid va : Nat) : Eng Nat := do
  let ga ← translate w asid va true
  let s ← get
  match s.placeOf ga with
  | .here la => match s.areaOf la with
    | .hbm | .scratch _ => pure 4
    | _ => pure 5
  | _ => pure 5

/-- Writes an inline tile: the payload, then the header with VALID set (02 R44). -/
def landInline (w : Who) (asid va h comp : Nat) (stored : List Byte) : Eng Unit := do
  writeVa w asid (va + 64) stored
  writeVa w asid va (headerFor h comp false 0 stored)

/-- Writes a split tile: the payload at its own address, then the header (02 R44). -/
def landSplit (w : Who) (asid hdrVa payloadVa h comp : Nat) (stored : List Byte) : Eng Unit := do
  writeVa w asid payloadVa stored
  writeVa w asid hdrVa (headerFor h comp true payloadVa stored)

/-- Whether an inline tile of `n` bytes at a VA stays inside its core's window of the scratchpad alias (02 R46). -/
def fitsWindow (va n : Nat) : Bool := !inAlias va || va % 2 ^ 17 + n ≤ 2 ^ 17

end Sys2Proof.Machine
end

