-- ==== Sys2Proof/Machine/Models.lean ====
section
/-!
DEFINITION. The streaming of model weights (02 R48 to R58): MODEL_LOAD, MODEL_SCHEDULE, and the fetch and landing of layers.
-/

namespace Sys2Proof.Machine

open Sys2Proof

/-- A field of the model descriptor (02 Table 2-12). -/
def Model.f (m : Model) (lo w : Nat) : Nat := fld m.desc lo w

def Model.layerCount (m : Model) : Nat := m.f 32 16
def Model.ctrlVa (m : Model) : Nat := m.f 416 57

/-- Whether a descriptor streams in schedule mode, and its window in layer-window mode (02 Table 2-12). -/
def scheduled (d : Desc) (dflt : Nat) : Bool := if fld d 48 8 = 2 then dflt = 1 else fld d 48 8 = 1
def windowOf (d : Desc) (dflt : Nat) : Nat := if fld d 56 8 = 0 then dflt else fld d 56 8

/-- The schedule table in layer-window mode: execution order is ascending, execution n uses slot n mod W, which changes
from pass to pass, so the slot is computed; in schedule mode it is the table (02 R49, R52, R53). -/
def Model.entry (m : Model) (n : Nat) : Nat := m.schedule.getD (n % m.layerCount) 0

def Model.windowed (m : Model) : Bool := m.schedule.isEmpty

/-- The layer of an execution (02 R49). -/
def Model.layerAt (m : Model) (n : Nat) : Nat :=
  if m.windowed then n % m.layerCount else bitsOf (m.entry n) 0 16

/-- The slot of an execution. -/
def Model.slotAt (m : Model) (n : Nat) : Nat :=
  if m.windowed then n % m.f 224 16 else bitsOf (m.entry n) 16 12

/-- Whether an execution's entry is resident (02 R53). -/
def Model.resident (m : Model) (n : Nat) : Bool := !m.windowed && bitOf (m.entry n) 28

/-- Whether an execution needs a fetch: all but resident ones that are loaded already. -/
def Model.needs (m : Model) (n : Nat) : Bool := !m.resident n || m.reload.contains n

/-- Executions to stream in all; none where PASSES is 0 (02 Table 2-12). -/
def Model.total (m : Model) : Option Nat := if m.f 240 16 = 0 then none else some (m.f 240 16 * m.layerCount)

/-- The last execution before `n` that held the slot of `n`, among the `fuel` before it. -/
def Model.holderOf (m : Model) (slot fuel n : Nat) : Option Nat :=
  match fuel, n with
  | f + 1, k + 1 => if m.slotAt k = slot then some k else m.holderOf slot f k
  | _, _ => none

/-- The position in a pass of a layer's execution (02 R53). -/
def Model.positionOf (m : Model) (layer : Nat) : Option Nat :=
  (List.range m.layerCount).find? fun p => bitsOf (m.schedule.getD p 0) 0 16 = layer

/-- Whether an execution's slot is free and its FETCH_AFTER condition is met, with RETIRE executions retired (02 R52, R54). -/
def Model.clear (m : Model) (retire n : Nat) : Bool :=
  (match m.holderOf (m.slotAt n) (max m.layerCount (m.f 224 16)) n with
   | some k => k < retire
   | none => true) &&
  (m.windowed || bitsOf (m.entry n) 32 16 = 0xFFFF ||
    match m.positionOf (bitsOf (m.entry n) 32 16) with
    | some p => n / m.layerCount * m.layerCount + p < retire
    | none => false)

/-- The tile engine under which a model streams. -/
def Model.who (m : Model) (k : Nat) : Who :=
  { unit := Config.engineDie m.seq % 4, cls := 4, index := Config.engineUnit m.seq, cmdSeq := m.seq % 2 ^ 32,
    tenant := m.tenant, waiter := .model k }

def State.model? (s : State) (k : Nat) : Option Model := SMap.look s.models k
def State.setModel (s : State) (k : Nat) (m : Model) : State := { s with models := SMap.put s.models k m }

/-- Streaming stops: STATUS and FAIL_LAYER are written, and only then STOPPED (02 R51); the MODEL_LOAD and MODEL_SCHEDULE
that wait complete with the failure. FAIL_LAYER without a failed fetch is a free value (DESIGN CHOICE, log 1). -/
def stopModel (k : Nat) (m : Model) (st : Status) (failed : Option Nat) : Eng Unit := do
  let layer ← match failed with
    | some x => pure x
    | none => do
      let (v, s) := (← get).draw
      set s
      pure v
  writeVa (m.who k) m.asid (m.ctrlVa + 16) (leBytes 3 (pack [(st.code, 8), (layer, 16)]))
  writeVa (m.who k) m.asid m.ctrlVa (leBytes 8 (m.ready + 2 ^ 63))
  modify fun s =>
    let s := s.setModel k { m with stopped := true, loadSeq := none, nextSchedule := none }
    let s := match m.loadSeq with
      | some q => if st = .ok then s.finishSeq q .ok 0 0 else s.failSeq q st
      | none => s
    match m.nextSchedule with
    | some (_, _, q) => if st = .ok then s.finishSeq q .ok 0 0 else s.failSeq q st
    | none => s

/-- Reads RETIRE of a model; RETIRE beyond READY stops the streaming with STATUS BAD_DESCRIPTOR (02 R51). -/
def readRetire (k : Nat) (m : Model) : Eng Nat := readNat (m.who k) m.asid (m.ctrlVa + 8) 8

/-- Advances READY over the executions that have landed or need no fetch (02 R49). -/
def Model.advance (m : Model) (fuel : Nat) : Model :=
  match fuel with
  | 0 => m
  | f + 1 =>
    let more := m.total.all (m.ready < ·)
    let held := m.ready % m.layerCount = 0 && m.reload.any fun n => n ≥ m.ready && !m.landed.contains n && n / m.layerCount = m.ready / m.layerCount && m.ready > 0
    if more && !held && (m.landed.contains m.ready || (!m.needs m.ready && m.ready < m.issued)) then
      ({ m with ready := m.ready + 1, landed := m.landed.filter (· ≠ m.ready), reload := m.reload.filter (· ≠ m.ready) } : Model).advance f
    else m

/-- The first execution from `n` on whose fetch is not yet issued. -/
def Model.nextIssue (m : Model) (fuel n : Nat) : Nat :=
  match fuel with
  | 0 => n
  | f + 1 => if m.inFlight.contains n || m.landed.contains n || !m.needs n then m.nextIssue f (n + 1) else n

/-! ### Loading -/

/-- Reads `n` entries of `size` bytes as numbers. -/
def readTable (w : Who) (asid va size n : Nat) : Eng (List Nat) := do
  let bs ← readVa w asid va (size * n)
  pure ((chunksOf size n bs).map leNat)

/-- Whether a schedule table is well-formed: layers and slots in range, a resident entry's slot named by no other, and as
many slots as the descriptor says (02 R50, R53, R54). -/
def scheduleOk (layers slots : Nat) (t : List Nat) : Bool :=
  t.all (fun e => bitsOf e 0 16 < layers && bitsOf e 29 3 = 0 && bitsOf e 48 16 = 0 &&
    (bitsOf e 32 16 = 0xFFFF || t.any fun o => bitsOf o 0 16 = bitsOf e 32 16)) &&
  (List.range t.length).all (fun i => !bitOf (t.getD i 0) 28 ||
    (List.range t.length).all fun j => i = j || bitsOf (t.getD j 0) 16 12 ≠ bitsOf (t.getD i 0) 16 12) &&
  t.foldl (fun m e => max m (bitsOf e 16 12 + 1)) 0 = slots

/-- Executions that a MODEL_LOAD waits for: every resident layer, and the first occupant of every non-resident slot
(02 R55). -/
def Model.firstLoads (m : Model) : List Nat :=
  (List.range (max m.layerCount (m.f 224 16))).filter fun n => m.total.all (n < ·) &&
    ((m.resident n && n < m.layerCount) || (!m.resident n && (m.holderOf (m.slotAt n) n n).isNone))

/-- MODEL_LOAD (02 R48, R50, R55): the descriptor and its tables are read and checked; it completes when the first layers
have landed. -/
def execModelLoad (slot : Nat) (s : State) : Out :=
  .next (runSlotIf 0x21 slot (fun sl => sl.f 192 1 = 0) (fun sl => do
    let w := sl.who slot 4
    let s ← get
    holdE (!s.models.any fun (_, m) => m.loadSeq = some sl.seq)
    let va := sl.f 128 57
    needE (!s.models.any fun (_, m) => m.asid = sl.asid && m.mdVa = va) .badDescriptor
    let d := BitVec.ofNat 512 (← readNat w sl.asid va 64)
    let f := fld d
    let inSchedule := scheduled d (s.val (dkey 0x3030 0))
    needE (1 ≤ f 32 16 && f 32 16 ≤ 4096 && f 48 8 ≤ 2 && 1 ≤ f 224 16 && f 224 16 ≤ 4096 && f 416 57 % 32 = 0) .badDescriptor
    needE (inSchedule || (2 ≤ windowOf d (s.val (dkey 0x3030 1)) && f 224 16 = windowOf d (s.val (dkey 0x3030 1)))) .badDescriptor
    let t ← readTable w sl.asid (f 64 57) 16 (f 32 16)
    needE (t.all fun e => bitsOf e 64 32 ≤ f 384 32 && bitsOf e 96 32 ≤ f 192 32 * 1024) .badDescriptor
    let sched ← if inSchedule then readTable w sl.asid (f 256 57) 8 (f 32 16) else pure []
    needE (!inSchedule || scheduleOk (f 32 16) (f 224 16) sched) .badDescriptor
    needE (s.models.length < 64) .resource
    let m : Model :=
      { asid := sl.asid, mdVa := va, tenant := sl.tenant, seq := sl.seq, desc := d,
        layers := t.map fun e => (bitsOf e 0 57, bitsOf e 64 32), schedule := sched, nextSchedule := none, inFlight := [],
        issued := 0, landed := [], reload := [], ready := 0, stopped := false, loadSeq := some sl.seq, first := [],
        unload := false, resp := [] }
    let m := { m with reload := (List.range m.layerCount).filter m.resident }
    writeVa w sl.asid m.ctrlVa (leBytes 8 0)
    modify fun s => s.setModel (leastFree (SMap.keys s.models) 64 0) { m with first := m.firstLoads }
    waitE) s)

/-- MODEL_UNLOAD: MODEL_LOAD with UNLOAD: no new fetch starts; when those in flight have ended, STOPPED is set with STATUS
ABORTED and the model's device state is freed (02 R57). -/
def execModelUnload (slot : Nat) (s : State) : Out :=
  .next (runSlotIf 0x21 slot (fun sl => sl.f 192 1 = 1) (fun sl => do
    match (← get).models.find? fun (_, m) => m.asid = sl.asid && m.mdVa = sl.f 128 57 with
    | none => failE .badDescriptor
    | some (k, m) => do
      modify (·.setModel k { m with unload := true })
      holdE m.inFlight.isEmpty
      if m.stopped then pure () else stopModel k { m with unload := true } .aborted none
      modify fun s => { s with models := SMap.del s.models k }
      pure (.ok, 0, 0)) s)

/-- MODEL_SCHEDULE: the schedule table is read again, and takes effect at the next pass boundary (02 R56). -/
def execModelSchedule (slot : Nat) (s : State) : Out :=
  .next (runSlot 0x22 slot (fun sl => do
    match (← get).models.find? fun (_, m) => m.asid = sl.asid && m.mdVa = sl.f 128 57 with
    | none => failE .badDescriptor
    | some (k, m) => do
      holdE (!m.nextSchedule.any fun (_, _, q) => q = sl.seq)
      needE (!m.windowed && !m.stopped && !m.unload) .badDescriptor
      let t ← readTable (sl.who slot 4) sl.asid (m.f 256 57) 8 m.layerCount
      needE (scheduleOk m.layerCount (m.f 224 16) t) .badDescriptor
      holdE m.nextSchedule.isNone
      modify (·.setModel k { m with nextSchedule := some (t, m.issued / m.layerCount + 1, sl.seq) })
      waitE) s)

/-- At a pass boundary the new table comes into effect: its resident layers whose slots changed are loaded again, and the
MODEL_SCHEDULE completes (02 R56). -/
def State.switchTable (s : State) (k n : Nat) (m : Model) : State × Model :=
  match m.nextSchedule with
  | some (t, p, q) =>
    if n / m.layerCount ≥ p then
      let at_ := fun (l : List Nat) (i : Nat) => l.getD i 0 % 2 ^ 29
      let same := fun i => bitOf (t.getD i 0) 28 && m.schedule.any fun e => e % 2 ^ 29 = at_ t i
      let m' := { m with schedule := t, nextSchedule := none }
      let m' := { m' with reload := m'.reload ++ (((List.range m.layerCount).filter fun i =>
        bitOf (t.getD i 0) 28 && !same i).map (n / m.layerCount * m.layerCount + ·)) }
      ((s.setModel k m').finishSeq q .ok 0 0, m')
    else (s, m)
  | none => (s, m)

/-- Runs an action of a streaming model; a failure stops its streaming with the layer concerned (02 R51, R58). -/
def streamRun (k : Nat) (layer : Nat) (e : Eng Unit) (s : State) : State :=
  match e.go s with
  | (.error (.fail st), t) => match t.model? k with
    | some m => (stopModel k { m with inFlight := [] } st (some layer)).state t
    | none => t
  | (_, t) => t

/-- Whether the fetch of an execution may start: in order, but for resident layers in the first pass (02 R54). -/
def Model.mayIssue (m : Model) (n : Nat) : Bool :=
  !m.stopped && !m.unload && m.total.all (n < ·) && m.needs n && !m.inFlight.contains n && !m.landed.contains n &&
    n ≥ m.ready && (n = m.nextIssue (n + 1) m.issued || (n < m.layerCount && m.resident n))

/-- LAYER_FETCH_START: a fetch of a layer starts when its slot is free, its condition is met and every earlier fetch has
been issued (02 R51, R52, R54). -/
def execLayerFetchStart (model execution : Nat) (s : State) : Out :=
  .next <| match s.model? model with
  | none => s
  | some m =>
    let (s, m) := s.switchTable model execution m
    if !m.mayIssue execution then s
    else streamRun model (m.layerAt execution) (do
      let retire ← readRetire model m
      if retire > m.ready then stopModel model { m with inFlight := [] } .badDescriptor none
      else if m.clear retire execution then
        let m := { m with inFlight := m.inFlight ++ [execution], resp := [] }
        modify (·.setModel model { m with issued := m.nextIssue (execution + 2) m.issued })
      else waitE) s

/-- Loads the tiles of a layer into its slot in split layout, payloads back to back and raw (02 R44, Tables 2-12, 2-13; DEDUCED, log 18). -/
def loadTiles (w : Who) (m : Model) (hdr payload src n j : Nat) : Eng Unit := do
  match n with
  | 0 => pure ()
  | k + 1 => do
    let h ← readHeader w m.asid src
    let stored ← readPayload w m.asid src h
    match reencode 1 false h stored with
    | .error st => failE st
    | .ok (comp, bytes) => do
      landSplit w m.asid (hdr + 64 * j) payload h comp bytes
      modify fun s => s.countWork m.tenant (some m.seq) 4 (tileFormat h) 1
      loadTiles w m hdr (payload + bytes.length) (src + roundUp (64 + tileStored h) 64) k (j + 1)

/-- A MODEL_LOAD completes when its first layers have landed (02 R55). -/
def State.loadDone (s : State) (k : Nat) (m : Model) : State :=
  if m.first.isEmpty then match m.loadSeq with
    | some q => (s.setModel k { m with loadSeq := none }).finishSeq q .ok 0 0
    | none => s
  else s

/-- LAYER_LANDED: a layer's tiles are in its slot: READY advances over it in order, an execution that lands after the one
before it has retired counts as late, and streaming stops when the last one has landed (02 R49, R51, R55, R58). -/
def execLayerLanded (model execution : Nat) (s : State) : Out :=
  .next <| match s.model? model with
  | none => s
  | some m =>
    if m.stopped || !m.inFlight.contains execution then s
    else streamRun model (m.layerAt execution) (do
      let (src, tiles) := m.layers.getD (m.layerAt execution) (0, 0)
      let k := m.slotAt execution
      loadTiles (m.who model) m (m.f 320 57 + k * m.f 384 32 * 64) (m.f 128 57 + k * m.f 192 32 * 2 ^ 16) src tiles 0
      let retire ← readRetire model m
      let m' := { m with inFlight := m.inFlight.filter (· ≠ execution), landed := m.landed ++ [execution],
                         first := m.first.filter (· ≠ execution) }
      let m' := m'.advance (m.layerCount + m.landed.length + 1)
      if retire > m.ready then stopModel model { m with inFlight := [] } .badDescriptor none
      else do
        writeVa (m.who model) m.asid m.ctrlVa (leBytes 8 m'.ready)
        clearMail (m.who model)
        modify fun s => (s.setModel model { m' with resp := [] }).loadDone model { m' with resp := [] }
        if execution > 0 && retire ≥ execution then modify (·.bump (dkey 0x3032 0) 1) else pure ()
        if m'.total = some m'.ready then
          match (← get).model? model with
          | some m'' => stopModel model m'' .ok none
          | none => pure ()
        else pure ()) s

/-- Whether the RETIRE word of a model lies at a local address of this package. -/
def State.retireAt (s : State) (m : Model) (la : Nat) : Bool :=
  match s.mapOf m.asid (m.ctrlVa + 8) with
  | some x => s.place (x.package.getD s.ownId) (x.address + (m.ctrlVa + 8 - x.va)) = .here la
  | none => false

/-- An atomic at a local address that takes RETIRE of a model beyond READY stops its streaming (02 R51). -/
def State.checkRetire (s : State) (la : Nat) : State :=
  match s.models.find? fun (_, m) => !m.stopped && s.retireAt m la && leNat (s.peek la 8) > m.ready with
  | some (k, m) => (stopModel k { m with inFlight := [] } .badDescriptor none).state s
  | none => s

end Sys2Proof.Machine
end

