-- ==== Sys2Proof/Machine/PoolOps.lean ====
section
/-!
DEFINITION. Pool operations (05 R138 to R144): FILL, COPY, COMPARE and REDUCE, and the parts of them that run for another
package.
-/

namespace Sys2Proof.Machine

open Sys2Proof

/-- Lines that a range touches. -/
def lineCount (va n : Nat) : Nat := (va + n - 1) / 64 - va / 64 + 1

/-- The part of a range in its line `i`: address and length. -/
def lineAt (va n i : Nat) : Nat × Nat :=
  let lo := max va ((va / 64 + i) * 64)
  (lo, min (va + n) ((va / 64 + i + 1) * 64) - lo)

/-- The inputs of a part that writes bytes of a line (DESIGN CHOICE, log 32). -/
def lineInputs (bs : List Byte) (poison : Bool) : List Byte := leBytes 8 (bit poison) ++ bs

/-- A pool-op unit writes bytes of one line at its home, here or, as a part, on another package (05 R139). -/
def poolWrite (w : Who) (sl : Slot) (va : Nat) (bs : List Byte) (poison : Bool) : Eng Unit := do
  let ga ← translate w sl.asid va true
  match (← get).placeOf ga with
  | .here la => do
    if poison then homePoison w.tenant la bs w.slotOf else homeWrite w.tenant la bs w.slotOf
    countE sl 3 (if sl.opcode = 0x13 then sl.f 324 4 else 0xF) 1
  | .dead => failE .targetDead
  | .away p la => do
    let r ← askPart w sl 0 p la (lineInputs bs poison)
    r.check

/-- Writes line `i` of a destination range, and counts it. -/
def poolLine (w : Who) (n : Nat) (sl : Slot) (va len : Nat) (f : Nat → List Byte × Bool) (i : Nat) : Eng Unit := do
  let (bs, poison) := f i
  poolWrite w sl (lineAt va len i).1 bs poison
  setCount n (i + 1)
  if poison then noteStatus n .poisoned else pure ()

/-- The end of a pool operation: its count stands. -/
def poolEnd (n : Nat) : Eng (Status × Nat × Nat) := do
  pure (.ok, (← getSlot n).count, 0)

/-- FILL (05 R141). -/
def execFill (slot : Nat) (s : State) : Out :=
  .next (runSlot 0x10 slot (fun sl => do
    let len := sl.f 256 64
    let va := sl.f 192 57
    let k := 2 ^ sl.f 320 4
    let pat := leBytes 16 (sl.f 384 128)
    needE (1 ≤ len && len ≤ 2 ^ 50 && (pat.drop k).all (· = 0)) .badDescriptor
    let w := sl.who slot 3
    let line := fun i => let (a, m) := lineAt va len i
      ((List.range m).map fun j => pat.getD ((a - va + j) % k) 0, false)
    units w slot (lineCount va len) (poolLine w slot sl va len line)
    poolEnd slot) s)

/-- A destination line as it is kept between the reads and the writes of a command: its bytes, and bit 512 for poison. -/
def keepLine (bs : List Byte) (poison : Bool) : Nat := leNat bs + bit poison * 2 ^ 512

/-- A kept line of `n` bytes. -/
def keptLine (n x : Nat) : List Byte × Bool := (leBytes n x, bitOf x 512)

/-- Keeps the lines of a result that has been read whole. -/
def keepLines (w : Who) (n : Nat) (l : List Nat) : Eng Unit := do
  modify fun s => s.updSlot n fun x => { x with marks := l }
  clearMail w

/-- Reads the source of the destination lines from line `i` on. -/
def readCopySource (w : Who) (asid src va len fuel i : Nat) : Eng (List Nat) := do
  match fuel with
  | 0 => pure []
  | k + 1 => do
    let (a, m) := lineAt va len i
    let (bs, p) ← readVaP w asid (src + (a - va)) m
    let rest ← readCopySource w asid src va len k (i + 1)
    pure (keepLine bs p :: rest)

/-- Writes the kept lines of a result. -/
def writeKept (w : Who) (n : Nat) (sl : Slot) (va len : Nat) : Eng (Status × Nat × Nat) := do
  let marks := (← getSlot n).marks
  units w n (lineCount va len) (poolLine w n sl va len fun i => keptLine (lineAt va len i).2 (marks.getD i 0))
  poolEnd n

/-- COPY (05 R141): the source is read whole before the first line is written. -/
def execCopy (slot : Nat) (s : State) : Out :=
  .next (runSlot 0x11 slot (fun sl => do
    let len := sl.f 256 64
    let va := sl.f 192 57
    needE (1 ≤ len && len ≤ 2 ^ 50) .badDescriptor
    let w := sl.who slot 3
    if sl.marks.isEmpty then do
      keepLines w slot (← readCopySource w sl.asid (sl.f 128 57) va len (lineCount va len) 0)
    else pure ()
    writeKept w slot sl va len) s)

/-- The first position at which two lists of bytes differ. -/
def firstDiff (a b : List Byte) : Option Nat := (List.range a.length).find? fun i => a.getD i 0 ≠ b.getD i 0

/-- Reads one line of range A at its home and compares it with the bytes of range B: the first difference. -/
def compareLine (w : Who) (sl : Slot) (a : Nat) (b : List Byte) : Eng (Option Nat) := do
  let ga ← translate w sl.asid a false
  match (← get).placeOf ga with
  | .here la => do
    let x ← homeRead w.tenant la b.length
    countE sl 3 0xF 1
    pure (firstDiff x b)
  | .dead => failE .targetDead
  | .away p la => do
    let r ← askPart w sl 0 p la (lineInputs b false)
    needE (r.status ≠ 0x46) .poisoned
    r.check
    pure (if leNat r.data < 64 then some (leNat r.data) else none)

/-- COMPARE (05 R142). Its marks hold the first difference found, plus 1. -/
def execCompare (slot : Nat) (s : State) : Out :=
  .next (runSlot 0x12 slot (fun sl => do
    let len := sl.f 256 64
    let va := sl.f 128 57
    needE (1 ≤ len && len ≤ 2 ^ 50) .badDescriptor
    let w := sl.who slot 3
    units w slot (lineCount va len) (fun i => do
      let (a, m) := lineAt va len i
      let b ← readVa w sl.asid (sl.f 192 57 + (a - va)) m
      let d ← compareLine w sl a b
      modify fun s => s.updSlot slot fun x => { x with count := i + 1, marks := match d with
        | some j => if x.marks.isEmpty then [a - va + j] else x.marks
        | none => x.marks })
    let sl ← getSlot slot
    pure (.ok, sl.count, sl.marks.headD (2 ^ 64 - 1))) s)

/-! ### REDUCE -/

/-- The INT8 terms of a sum as one 32-bit integer, wrapping (03 R74). -/
def intSum (l : List Nat) : Int := signed 32 (wrap 32 ((l.map (signed 8)).sum))

/-- The result of a sum over elements of two formats, from draw `d` (03 R70, R74, R76, 05 R143). -/
def reduceSum (d out : Nat) (terms : List (Nat × Nat)) : Nat :=
  let ints := (terms.filter fun (f, _) => f = 7).map (·.2)
  let floats := (terms.filter fun (f, _) => f ≠ 7).map fun (f, v) => elemRead f v
  if floats.isEmpty then elemWrite out (.ofInt (intSum ints))
  else
    let all := if ints.isEmpty then floats else binary32.read (binary32.write (.ofInt (intSum ints))).1 :: floats
    elemWrite out (sumTerms d all).1

/-- The result of OP over elements of two formats: 0 sum, 1 min, 2 max (05 R143). -/
def reduceValue (d op out : Nat) (terms : List (Nat × Nat)) : Nat :=
  let nums := terms.map fun (f, v) => elemRead f v
  match op, nums with
  | 0, _ => reduceSum d out terms
  | 1, x :: rest => elemWrite out (rest.foldl Num.minimum x)
  | _, x :: rest => elemWrite out (rest.foldl Num.maximum x)
  | _, [] => 0

/-- The fields of a REDUCE. -/
structure Reduction where
  src : Nat
  dst : Nat
  n : Nat
  sources : Nat
  inF : Nat
  outF : Nat
  op : Nat
  acc : Bool
  stride : Nat
  deriving DecidableEq, Repr

/-- The REDUCE that a descriptor holds (05 Table 5-11). -/
def reductionOf (sl : Slot) : Reduction :=
  let n := sl.f 256 32
  { src := sl.f 128 57, dst := sl.f 192 57, n, sources := sl.f 288 16, inF := sl.f 324 4, outF := sl.f 328 4,
    op := sl.f 332 2, acc := sl.f 334 1 = 1,
    stride := if sl.f 336 48 = 0 then n * elemBytes (sl.f 324 4) else sl.f 336 48 }

/-- Whether a destination overlaps a source array other than by coinciding with it element for element (05 R143). -/
def Reduction.clash (r : Reduction) : Bool :=
  (List.range r.sources).any fun k =>
    let a := r.src + k * r.stride
    let n := r.n * elemBytes r.inF
    let m := r.n * elemBytes r.outF
    a < r.dst + m && r.dst < a + n && !(a = r.dst && n = m)

/-- Reads element `j` of every source array from array `k` on: its value, and whether it is poisoned. -/
def readTerms (w : Who) (asid : Nat) (r : Reduction) (j fuel k : Nat) : Eng (List (Nat × Nat) × Bool) := do
  match fuel with
  | 0 =>
    if r.acc then do
      let (bs, p) ← readVaP w asid (r.dst + j * elemBytes r.outF) (elemBytes r.outF)
      pure ([(r.outF, leNat bs)], p)
    else pure ([], false)
  | f + 1 => do
    let (bs, p) ← readVaP w asid (r.src + k * r.stride + j * elemBytes r.inF) (elemBytes r.inF)
    let (rest, q) ← readTerms w asid r j f (k + 1)
    pure ((r.inF, leNat bs) :: rest, p || q)

/-- The lines of a range, each as (line of the VA, physical line). -/
def physLines (w : Who) (asid : Nat) (l : List (Nat × Nat)) : Eng (List (Nat × Nat)) := do
  match l with
  | [] => pure []
  | (va, _) :: rest => do
    let ga ← translate w asid va false
    let more ← physLines w asid rest
    pure ((va / 64, ga / 64) :: more)

/-- The lines of every source array from array `k` on. -/
def sourceLines (w : Who) (asid : Nat) (r : Reduction) (fuel k : Nat) : Eng (List (Nat × Nat)) := do
  match fuel with
  | 0 => pure []
  | f + 1 => do
    let a ← physLines w asid (piecesOf (r.src + k * r.stride) (r.n * elemBytes r.inF))
    let b ← sourceLines w asid r f (k + 1)
    pure (a ++ b)

/-- The results from element `j` on: bytes, and poison for each byte. An element on a line that a source array also reaches
by another VA is a free value (05 R143). -/
def reduceElems (w : Who) (asid : Nat) (r : Reduction) (srcs : List (Nat × Nat)) (fuel j : Nat) : Eng (List (Byte × Bool)) := do
  match fuel with
  | 0 => pure []
  | f + 1 => do
    let k := elemBytes r.outF
    let (terms, p) ← readTerms w asid r j r.sources 0
    let mine ← physLines w asid (piecesOf (r.dst + j * k) k)
    let shared := mine.any fun (v, g) => srcs.any fun (u, h) => g = h && u ≠ v
    let s ← get
    let (d, s) := if shared then s.draw else s.drawRun terms.length
    set s
    let v := if shared then d % 2 ^ (8 * k) else reduceValue d r.op r.outF terms
    let rest ← reduceElems w asid r srcs f (j + 1)
    pure ((leBytes k v).map (·, p) ++ rest)

/-- The destination lines of a result, kept line by line. -/
def resultLines (va : Nat) (l : List (Byte × Bool)) : List Nat :=
  (List.range (lineCount va l.length)).map fun i =>
    let (a, m) := lineAt va l.length i
    let part := (l.drop (a - va)).take m
    keepLine (part.map (·.1)) (part.any (·.2))

/-- REDUCE (05 R143). -/
def execReduce (slot : Nat) (s : State) : Out :=
  .next (runSlot 0x13 slot (fun sl => do
    let r := reductionOf sl
    needE (1 ≤ r.n && 1 ≤ r.sources && r.sources ≤ 4096 && r.stride % elemBytes r.inF = 0 && !r.clash) .badDescriptor
    let w := sl.who slot 3
    if sl.marks.isEmpty then do
      let srcs ← sourceLines w sl.asid r r.sources 0
      keepLines w slot (resultLines r.dst (← reduceElems w sl.asid r srcs r.n 0))
    else pure ()
    writeKept w slot sl r.dst (r.n * elemBytes r.outF)) s)

/-! ### Parts for another package (05 R139, 12 R332) -/

/-- A pool-op part at the home of its line: it writes the bytes it carries, or compares them. Answers its outputs and the
lines written. -/
def poolPart (q : Head) (opcode la : Nat) (d : Desc) (inputs : List Byte) : Eng (List Byte × List Nat) := do
  let bs := inputs.drop 8
  if opcode = 0x12 then do
    let x ← homeRead q.tenant la bs.length
    modify fun s => s.countWork q.tenant none 3 0xF 1
    pure (leBytes 8 ((firstDiff x bs).getD (2 ^ 64 - 1)), [])
  else do
    if leNat (inputs.take 8) = 1 then homePoison q.tenant la bs none else homeWrite q.tenant la bs none
    modify fun s => s.countWork q.tenant none 3 (if opcode = 0x13 then fld d 324 4 else 0xF) 1
    pure ([], [lineOf la])

end Sys2Proof.Machine
end

