-- ==== Sys2Proof/Machine/Scalar.lean ====
section
/-!
DEFINITION. Scalar instructions of the silt core (07 R189 to R193, R208): arithmetic, constants, branches, and the control
and status registers.
-/

namespace Sys2Proof.Machine

open Sys2Proof

/-! ### Fields (07 Table 7-4) -/

def fRd (w : BitVec 32) : Nat := fld w 6 5
def fRs1 (w : BitVec 32) : Nat := fld w 11 5
def fRs2 (w : BitVec 32) : Nat := fld w 16 5
def fRs3 (w : BitVec 32) : Nat := fld w 21 5

/-- IMM16, sign-extended. -/
def immS (w : BitVec 32) : Word := (w.extractLsb' 16 16).signExtend 64

/-- IMM16, zero-extended. -/
def immZ (w : BitVec 32) : Word := (w.extractLsb' 16 16).zeroExtend 64

/-- OFF13 × 4. -/
def offB (w : BitVec 32) : Word := (w.extractLsb' 19 13).signExtend 64 <<< 2

/-- OFF26 × 4. -/
def offJ (w : BitVec 32) : Word := (w.extractLsb' 6 26).signExtend 64 <<< 2

/-! ### SALU -/

/-- Ones in a number, by its low `n` bits. -/
def popCount (n v : Nat) : Nat :=
  match n with
  | 0 => 0
  | k + 1 => v % 2 + popCount k (v / 2)

/-- Zeros above the highest one among `n` bits. -/
def clz (n v : Nat) : Nat := n - bitLen (v % 2 ^ n)

/-- Zeros below the lowest one among `n` bits. -/
def ctz (n v : Nat) : Nat :=
  match n with
  | 0 => 0
  | k + 1 => if v % 2 = 1 then 0 else 1 + ctz k (v / 2)

/-- The result of a SALU function (07 Table 7-7); none for a reserved FN. -/
def salu (fn : Nat) (a b c : Word) : Option Word :=
  match fn with
  | 0 => some (a + b)
  | 1 => some (a - b)
  | 2 => some (a &&& b)
  | 3 => some (a ||| b)
  | 4 => some (a ^^^ b)
  | 5 => some (a <<< (b.toNat % 64))
  | 6 => some (a >>> (b.toNat % 64))
  | 7 => some (a.sshiftRight (b.toNat % 64))
  | 8 => some (a * b)
  | 9 => some (BitVec.ofNat 64 (a.toNat * b.toNat / 2 ^ 64))
  | 10 => some (if b = 0 then BitVec.allOnes 64 else a / b)
  | 11 => some (if b = 0 then a else a % b)
  | 12 => some (if a.slt b then 1 else 0)
  | 13 => some (if a < b then 1 else 0)
  | 14 => some (if a.slt b then a else b)
  | 15 => some (if a.slt b then b else a)
  | 16 => some (if a < b then a else b)
  | 17 => some (if a < b then b else a)
  | 18 => some (BitVec.ofNat 64 (popCount 64 a.toNat))
  | 19 => some (BitVec.ofNat 64 (clz 64 a.toNat))
  | 20 => some (BitVec.ofNat 64 (ctz 64 a.toNat))
  | 21 => some (if c ≠ 0 then a else b)
  | 22 => some (BitVec.ofNat 64 ((leBytes 8 b.toNat).foldl crcByte (a.toNat % 2 ^ 32)))
  | _ => none

/-- The register fields that a SALU function does not use are zero (07 R191). -/
def saluFields (w : BitVec 32) : Bool :=
  (fnA w = 21 || fRs3 w = 0) && (!(18 ≤ fnA w && fnA w ≤ 20) || fRs2 w = 0)

/-- A scalar result goes to a register, and the next instruction follows. -/
def putScalar (n rd : Nat) (v : Word) : CoreE Word := do
  let c ← coreGet n
  coreSet n fun c => c.putS rd v
  pure c.nextPc

/-- SALU (07 R192). -/
def execSalu (core : Nat) (word : BitVec 32) (s : State) : Out :=
  .next (s.instruction core word (major word = 0x01) do
    let c ← coreGet core
    match salu (fnA word) (c.getS (fRs1 word)) (c.getS (fRs2 word)) (c.getS (fRs3 word)) with
    | none => excE 0x01 0
    | some v => do
      legalE (saluFields word)
      putScalar core (fRd word) v)

/-! ### Constants -/

/-- An instruction of format I: s(rd) := f(s(rs1)). -/
def formatI (n : Nat) (word : BitVec 32) (f : Word → Word) : CoreE Word := do
  let c ← coreGet n
  putScalar n (fRd word) (f (c.getS (fRs1 word)))

/-- ADDI (07 Table 7-5). -/
def execAddi (core : Nat) (word : BitVec 32) (s : State) : Out :=
  .next (s.instruction core word (major word = 0x02) (formatI core word fun a => a + immS word))

/-- ANDI (07 Table 7-5). -/
def execAndi (core : Nat) (word : BitVec 32) (s : State) : Out :=
  .next (s.instruction core word (major word = 0x03) (formatI core word fun a => a &&& immZ word))

/-- ORI (07 Table 7-5). -/
def execOri (core : Nat) (word : BitVec 32) (s : State) : Out :=
  .next (s.instruction core word (major word = 0x04) (formatI core word fun a => a ||| immZ word))

/-- XORI (07 Table 7-5). -/
def execXori (core : Nat) (word : BitVec 32) (s : State) : Out :=
  .next (s.instruction core word (major word = 0x05) (formatI core word fun a => a ^^^ immZ word))

/-- LUI: rs1 must be s0 (07 Table 7-5). -/
def execLui (core : Nat) (word : BitVec 32) (s : State) : Out :=
  .next (s.instruction core word (major word = 0x06) do
    legalE (fRs1 word = 0)
    putScalar core (fRd word) (immS word <<< 16))

/-- SHORI (07 Table 7-5). -/
def execShori (core : Nat) (word : BitVec 32) (s : State) : Out :=
  .next (s.instruction core word (major word = 0x07) (formatI core word fun a => a <<< 16 ||| immZ word))

/-! ### Branches and jumps -/

/-- Whether a branch condition holds (07 Table 7-8); none for a reserved COND. -/
def branchHolds (cond : Nat) (a b : Word) : Option Bool :=
  match cond with
  | 0 => some (a = b)
  | 1 => some (a ≠ b)
  | 2 => some (a.slt b)
  | 3 => some (!a.slt b)
  | 4 => some (a < b)
  | 5 => some (!(a < b))
  | _ => none

/-- BR (07 R193): format B has its registers at bits 10:6 and 15:11. -/
def execBr (core : Nat) (word : BitVec 32) (s : State) : Out :=
  .next (s.instruction core word (major word = 0x08) do
    let c ← coreGet core
    match branchHolds (fld word 16 3) (c.getS (fRd word)) (c.getS (fRs1 word)) with
    | none => excE 0x01 0
    | some b => pure (if b then c.pc + offB word else c.nextPc))

/-- JAL: s31 takes the return address (07 Table 7-5). -/
def execJal (core : Nat) (word : BitVec 32) (s : State) : Out :=
  .next (s.instruction core word (major word = 0x09) do
    let c ← coreGet core
    let _ ← putScalar core 31 c.nextPc
    pure (c.pc + offJ word))

/-- JALR: the target is formed before rd is written (07 Table 7-5). -/
def execJalr (core : Nat) (word : BitVec 32) (s : State) : Out :=
  .next (s.instruction core word (major word = 0x0A) do
    let c ← coreGet core
    let _ ← putScalar core (fRd word) c.nextPc
    pure ((c.getS (fRs1 word) + immS word) &&& ~~~3))

/-! ### Control and status registers (07 Table 7-16) -/

/-- The value of a CSR; none for a reserved number. -/
def State.csr (s : State) (n num : Nat) : Option Nat :=
  let c := s.core n
  match num with
  | 0x000 => some (pack [(n % 160, 8), (n / 160, 8), (s.ownId, 6)])
  | 0x001 => some (pack [(n % 160 - c.x0, 8), (n / 160 - c.y0, 8)])
  | 0x002 => some (pack [(c.w, 8), (c.h, 8)])
  | 0x003 => some c.argVa
  | 0x004 => some c.imageVa
  | 0x005 => some c.launchSeq
  | 0x006 => some (pack [(c.asid, 16), (c.tenant, 12)])
  | 0x007 => some (s.spadSelf n)
  | 0x010 => some c.fflags.toNat
  | 0x011 => some (8 * (s.time - c.startTime))
  | 0x012 => some s.time
  | 0x013 => some c.stall
  | _ => none

/-- The core after a write to a CSR: FFLAGS clears the bits written as 1, and every other register is read-only (07 R208). -/
def Core.csrWrite (c : Core) (num : Nat) (v : Word) : Core :=
  if num = 0x010 then { c with fflags := c.fflags &&& ~~~(v.setWidth 4) } else c

/-- CSRR (07 R208): rs1 must be s0. -/
def execCsrr (core : Nat) (word : BitVec 32) (s : State) : Out :=
  .next (s.instruction core word (major word = 0x0B) do
    match (← get).csr core (fld word 16 16) with
    | none => excE 0x01 0
    | some v => do
      legalE (fRs1 word = 0)
      putScalar core (fRd word) (BitVec.ofNat 64 v))

/-- CSRW (07 R208): rd must be s0. -/
def execCsrw (core : Nat) (word : BitVec 32) (s : State) : Out :=
  .next (s.instruction core word (major word = 0x0C) do
    let c ← coreGet core
    legalE (((← get).csr core (fld word 16 16)).isSome && fRd word = 0)
    coreSet core fun c => c.csrWrite (fld word 16 16) (c.getS (fRs1 word))
    pure c.nextPc)

end Sys2Proof.Machine
end

