-- ==== Sys2Proof/Machine/CoreMemory.lean ====
section
/-!
DEFINITION. Memory instructions of the silt core (07 R182 to R188, R202 to R205, R207; chapter 9): loads and stores of both
forms, atomics, copies and FINAL stores, waits, and the instructions of SYS.
-/

namespace Sys2Proof.Machine

open Sys2Proof

/-! ### Fields -/

/-- The address of a format M access (07 R189). -/
def addrM (c : Core) (w : BitVec 32) : Nat :=
  (c.getS (fRs1 w) + ((w.extractLsb' 21 11).signExtend 64 <<< fld w 16 2)).toNat

/-- The (address, length) segments of a format VM access (07 R188, R189). -/
def segsVM (c : Core) (w : BitVec 32) : List (Nat × Nat) :=
  let base := c.getS (fRs1 w) + ((w.extractLsb' 26 6).signExtend 64 <<< 7)
  (List.range (2 ^ fld w 21 3)).map fun i => ((base + BitVec.ofNat 64 i * c.getS (fRs2 w)).toNat, 128 / 2 ^ fld w 21 3)

/-- Whether the fields of a format VM word are legal (07 R189, R191). -/
def legalVM (w : BitVec 32) : Bool := fld w 21 3 ≤ 5 && fld w 24 2 ≤ 1 && (fld w 21 3 ≠ 0 || fRs2 w = 0)

/-! ### Translation and issue -/

/-- A translated piece of an access, within one line: VA, global physical address, length. -/
abbrev Piece := Nat × Nat × Nat

/-- Translates the pieces of a range; all of them translate before any is accessed (07 R188). -/
def translateC (n asid : Nat) (write : Bool) (l : List (Nat × Nat)) : CoreE (List Piece) := do
  match l with
  | [] => pure []
  | (va, k) :: rest => do
    let w := (← get).coreWho n
    let ga ← liftC va (translate w asid va write)
    pure ((va, ga, k) :: (← translateC n asid write rest))

/-- The global physical ranges of pieces. -/
def physOf (l : List Piece) : List (Nat × Nat) := l.map (·.2)

/-- Before an access of any form but plain, the core writes back every dirty data-cache line that it overlaps, and a write
form invalidates the lines (07 R183). -/
def cacheAside (n : Nat) (pieces : List (Nat × Nat)) (write : Bool) : CoreE Unit := do
  let c ← coreGet n
  let hit := (SMap.keys c.dcache).filter fun g => piecesMeet [(g * 64, 64)] pieces
  let dirty := hit.filter c.dirtyLines.contains
  coreSet n fun c => c.cleanSome dirty
  if ((← coreGet n).dirtyLines.any hit.contains : Bool) then throw (.wait 1) else pure ()
  if write then coreSet n fun c => { c with dcache := SMap.only c.dcache fun g _ => !hit.contains g } else pure ()

/-- An access that leaves the core is refused at issue where its home is seen to refuse it (07 R210). -/
def issueCheck (n va ga : Nat) : CoreE Unit := do
  let s ← get
  match s.placeOf ga with
  | .here la => match s.homeRefusal (s.core n).tenant la with
    | some st => excE st.cause va
    | none => pure ()
  | .dead => excE 0x09 va
  | .away p _ => if !s.fab.composed || s.fab.torn.contains p then excE 0x09 va else pure ()

/-! ### The data cache (07 R182) -/

/-- Reads one whole line for the data cache: a local line at its home, a remote one through the remote line cache
(09 Table 9-1). -/
def fillLine (w : Who) (g : Nat) : Eng (List Byte × Bool) := do
  match (← get).placeOf (g * 64) with
  | .away p la => remoteRead w p la 64
  | _ => readPhys w (g * 64) 64

/-- Makes room for a line: with 128 lines held, the victim that the command names leaves, written back if dirty. A victim that
the access itself needs is no choice (07 R182). -/
def evictLine (n victim : Nat) (need : List Nat) : CoreE Unit := do
  let c ← coreGet n
  if c.dcache.length < 128 then pure ()
  else if !SMap.has c.dcache victim || need.contains victim then throw (.wait 0)
  else do
    if c.dirtyLines.contains victim then trackRoom n 1 else pure ()
    coreSet n fun c => let c := c.cleanLine victim; { c with dcache := SMap.del c.dcache victim }

/-- Brings the line of a piece into the data cache (07 R182, R185): a fill is compared with the tracker as an access to the
whole line. -/
def cacheLine (n victim : Nat) (need : List Nat) (p : Piece) : CoreE Unit := do
  let (va, ga, _) := p
  let g := lineOf ga
  if SMap.has (← coreGet n).dcache g then pure ()
  else do
    trackClear n [(g * 64, 64)] false
    trackRoom n 1
    let w := (← get).coreWho n
    let (data, poisoned) ← liftC va (fillLine w g)
    evictLine n victim need
    coreSet n fun c => { c with dcache := SMap.put c.dcache g { data := padTo 64 data, dirty := 0, poisoned } }

/-- Bytes of a piece in the data cache: a line filled poisoned raises POISONED. -/
def cachedRead (n : Nat) (p : Piece) : CoreE (List Byte) := do
  let (va, ga, k) := p
  match SMap.look (← coreGet n).dcache (lineOf ga) with
  | none => throw (.wait 0)
  | some d =>
    if d.poisoned then excE 0x08 va else pure ((d.data.drop (ga % 64)).take k)

/-- The mask of `k` bytes from byte `lo` of a line. -/
def byteMask (lo k : Nat) : BitVec 64 := BitVec.ofNat 64 ((2 ^ k - 1) * 2 ^ lo)

/-- Writes bytes of a piece in the data cache. -/
def cachedWrite (n : Nat) (p : Piece) (bs : List Byte) : CoreE Unit :=
  let (_, ga, k) := p
  coreSet n fun c => { c with dcache := SMap.upd c.dcache (lineOf ga) fun d =>
    { d with data := d.data.take (ga % 64) ++ bs ++ d.data.drop (ga % 64 + k), dirty := d.dirty ||| byteMask (ga % 64) k } }

/-! ### Loads -/

/-- Runs an action on each piece in turn and joins the bytes. -/
def joinPieces (f : Piece → CoreE (List Byte)) (l : List Piece) : CoreE (List Byte) := do
  match l with
  | [] => pure []
  | p :: rest => do
    let bs ← f p
    pure (bs ++ (← joinPieces f rest))

/-- Runs an action on each piece in turn. -/
def eachPiece (f : Piece → CoreE Unit) (l : List Piece) : CoreE Unit := do
  match l with
  | [] => pure ()
  | p :: rest => do
    f p
    eachPiece f rest

/-- Reads a piece at its home; a poisoned line raises POISONED. -/
def homePiece (n : Nat) (p : Piece) : CoreE (List Byte) := do
  let (va, ga, k) := p
  let w := (← get).coreWho n
  let (bs, poison) ← liftC va (readPhys w ga k)
  if poison then excE 0x08 va else pure bs

/-- Loads the bytes of ranges in a form (07 Table 7-3): the own scratchpad is read directly; a plain load of another line goes
through the data cache, an uncached one to the home. -/
def loadRanges (n form victim : Nat) (l : List (Nat × Nat)) : CoreE (List Byte) := do
  let c ← coreGet n
  let ps ← translateC n c.asid false (l.flatMap fun (va, k) => piecesOf va k)
  let s ← get
  let away := ps.filter fun p => !s.ownSpad n p.2.1 p.2.2
  if form = 1 then cacheAside n (physOf away) false else pure ()
  trackClear n (physOf ps) false
  if form = 0 then do
    eachPiece (cacheLine n victim (away.map fun p => lineOf p.2.1)) away
    joinPieces (fun p => if s.ownSpad n p.2.1 p.2.2 then homePiece n p else cachedRead n p) ps
  else do
    if away.isEmpty then pure () else trackRoom n 1
    joinPieces (homePiece n) ps

/-- LD (07 R187, R188). -/
def execLd (core : Nat) (word : BitVec 32) (victim : Nat) (s : State) : Out :=
  .next (s.instruction core word (major word = 0x10) do
    let c ← coreGet core
    let k := 2 ^ fld word 16 2
    let va := addrM c word
    legalE (fld word 19 2 ≤ 1)
    if va % k ≠ 0 then excE 0x02 va else pure ()
    let v := leNat (← loadRanges core (fld word 19 2) victim [(va, k)])
    putScalar core (fRd word) (if flag word 18 then BitVec.ofInt 64 (signed (8 * k) v) else BitVec.ofNat 64 v))

/-- VLD (07 R188): the register is written only when every segment has succeeded. -/
def execVld (core : Nat) (word : BitVec 32) (victim : Nat) (s : State) : Out :=
  .next (s.instruction core word (major word = 0x12) do
    let c ← coreGet core
    legalE (legalVM word)
    let l := segsVM c word
    match l.find? fun (va, k) => va % k ≠ 0 with
    | some (va, _) => excE 0x02 va
    | none => pure ()
    let bs ← loadRanges core (fld word 24 2) victim l
    coreSet core fun c => c.putV (fRd word) (BitVec.ofNat 1024 (leNat bs))
    pure c.nextPc)

/-! ### Stores -/

/-- Cuts bytes along pieces. -/
def pieceWrites (l : List Piece) (bs : List Byte) : List (Piece × List Byte) :=
  match l with
  | [] => []
  | p :: rest => (p, bs.take p.2.2) :: pieceWrites rest (bs.drop p.2.2)

/-- Adds an entry to the tracker, its writes in an order that is open. -/
def addTrack (n : Nat) (t : Track) : CoreE Unit := do
  let s ← get
  let (d, s) := if t.todo.length > 1 then s.draw else (0, s)
  set (s.updCore n fun c => c.track { t with todo := shuffle t.todo.length d t.todo })

/-- Writes the pieces of a store, one by one. -/
def storePieces (n form : Nat) (l : List (Piece × List Byte)) : CoreE Unit := do
  match l with
  | [] => pure ()
  | (p, bs) :: rest => do
    let s ← get
    if s.ownSpad n p.2.1 p.2.2 then liftC p.1 (writePhys (s.coreWho n) p.2.1 bs false)
    else if form = 0 then cachedWrite n p bs
    else pure ()
    storePieces n form rest

/-- Stores bytes to ranges in a form (07 Table 7-3): the own scratchpad is written directly; a plain store to another line
allocates it in the data cache, an uncached one holds a tracker entry until it lands. -/
def storeRanges (n form victim : Nat) (l : List (Nat × Nat)) (bs : List Byte) : CoreE Unit := do
  let c ← coreGet n
  let ps ← translateC n c.asid true (l.flatMap fun (va, k) => piecesOf va k)
  let s ← get
  let away := ps.filter fun p => !s.ownSpad n p.2.1 p.2.2
  if form = 1 then cacheAside n (physOf away) true else pure ()
  trackClear n (physOf ps) true
  if form = 0 then eachPiece (cacheLine n victim (away.map fun p => lineOf p.2.1)) away
  else if away.isEmpty then pure ()
  else do
    eachPiece (fun p => issueCheck n p.1 p.2.1) away
    trackRoom n 1
  storePieces n form (pieceWrites ps bs)
  if form = 0 || away.isEmpty then pure ()
  else
    let todo := (pieceWrites ps bs).filterMap fun (p, b) =>
      if s.ownSpad n p.2.1 p.2.2 then none
      else some { address := p.2.1, va := p.1, length := p.2.2, data := b, mask := none, sources := [] }
    addTrack n { Track.blank .store (physOf away) true with todo }

/-- ST (07 R187, R188): SX must be 0 in a store. -/
def execSt (core : Nat) (word : BitVec 32) (victim : Nat) (s : State) : Out :=
  .next (s.instruction core word (major word = 0x11) do
    let c ← coreGet core
    let k := 2 ^ fld word 16 2
    let va := addrM c word
    legalE (fld word 19 2 ≤ 1 && !flag word 18)
    if va % k ≠ 0 then excE 0x02 va else pure ()
    storeRanges core (fld word 19 2) victim [(va, k)] (leBytes k (c.getS (fRd word)).toNat)
    pure c.nextPc)

/-- VST (07 R188): memory is written only when every segment translates. -/
def execVst (core : Nat) (word : BitVec 32) (victim : Nat) (s : State) : Out :=
  .next (s.instruction core word (major word = 0x13) do
    let c ← coreGet core
    legalE (legalVM word)
    let l := segsVM c word
    match l.find? fun (va, k) => va % k ≠ 0 with
    | some (va, _) => excE 0x02 va
    | none => pure ()
    storeRanges core (fld word 24 2) victim l (leBytes 128 (c.getV (fRd word)).toNat)
    pure c.nextPc)

/-! ### Atomics (07 R202) -/

/-- A register, or the 128 bits of an even pair. -/
def Core.wide (c : Core) (size r : Nat) : Nat :=
  (c.getS r).toNat + (if size = 2 then 2 ^ 64 * (c.getS (r + 1)).toNat else 0)

/-- Whether the fields of an AMO word are legal (07 R191, R202). -/
def legalAmo (w : BitVec 32) : Bool :=
  let op := fld w 26 4
  op ≤ 0xA && fld w 30 2 ≤ 2 && (op = 0x9 || fRs3 w = 0) &&
    (fld w 30 2 ≠ 2 || (fRd w % 2 = 0 && fRs2 w % 2 = 0 && fRs3 w % 2 = 0))

/-- AMO (07 R202): an operand that the operation does not take raises ATOMIC_OPERAND; the old value goes to rd. -/
def execAmo (core : Nat) (word : BitVec 32) (s : State) : Out :=
  .next (s.instruction core word (major word = 0x14) do
    let c ← coreGet core
    let op := fld word 26 4
    let size := fld word 30 2
    let va := (c.getS (fRs1 word)).toNat
    legalE (legalAmo word)
    if va % atomicBytes size ≠ 0 || !atomicAllowed op size then excE 0x04 va else pure ()
    let ps ← translateC core c.asid true [(va, atomicBytes size)]
    cacheAside core (physOf ps) true
    trackClear core (physOf ps) true
    trackRoom core 1
    let w := (← get).coreWho core
    let ga := ((physOf ps).headD (0, 0)).1
    let old ← liftC va (atomicPhys w ga op size (c.wide size (fRs2 word)) (c.wide size (fRs3 word)))
    modify fun s => match s.placeOf ga with
      | .here la => s.checkRetire la
      | _ => s
    if size = 2 then coreSet core fun c => c.putS (fRd word + 1) (BitVec.ofNat 64 (old / 2 ^ 64)) else pure ()
    putScalar core (fRd word) (BitVec.ofNat 64 old))

/-! ### Copies and FINAL stores (07 R203, R204) -/

/-- The source ranges of `k` bytes from byte `off` of translated pieces. -/
def sourceOf (l : List Piece) (off k : Nat) : List (Nat × Nat) :=
  match l with
  | [] => []
  | (_, ga, n) :: rest =>
    if k = 0 then []
    else if off ≥ n then sourceOf rest (off - n) k
    else
      let m := min k (n - off)
      (ga + off, m) :: sourceOf rest 0 (k - m)

/-- The writes of a copy: one for each piece of the destination. -/
def copyWrites (src : List Piece) (dst : List Piece) (off : Nat) : List TrackWrite :=
  match dst with
  | [] => []
  | (va, ga, k) :: rest =>
    { address := ga, va, length := k, data := [], mask := none, sources := sourceOf src off k } :: copyWrites src rest (off + k)

/-- The arrival counter of a FINAL write: it is aligned as an atomic and lies on the destination's package (07 R203). -/
def counterOf (n rd : Nat) (dst : List Piece) : CoreE (Option Nat) := do
  if rd = 0 then pure none
  else do
    let c ← coreGet n
    let va := (c.getS rd).toNat
    if va % 8 ≠ 0 then excE 0x02 va else pure ()
    match ← translateC n c.asid true [(va, 8)] with
    | (_, ga, _) :: _ =>
      if dst.all fun p => p.2.1 / 2 ^ 50 = ga / 2 ^ 50 then pure (some ga) else excE 0x03 va
    | [] => pure none

/-- XCOPY (07 R203): the two ranges are checked at issue; the copy lands under its two tracker entries. -/
def execXcopy (core : Nat) (word : BitVec 32) (s : State) : Out :=
  .next (s.instruction core word (major word = 0x15) do
    let c ← coreGet core
    let final := flag word 30
    legalE (!flag word 31 && (final || fRd word = 0))
    let dstVa := (c.getS (fRs1 word)).toNat
    let len := (c.getS (fRs3 word)).toNat
    if len = 0 || len > 16777216 then excE 0x03 0 else pure ()
    let src ← translateC core c.asid false (piecesOf (c.getS (fRs2 word)).toNat len)
    let dst ← translateC core c.asid true (piecesOf dstVa len)
    if piecesMeet (physOf src) (physOf dst) then excE 0x03 dstVa else pure ()
    let counter ← counterOf core (fRd word) dst
    cacheAside core (physOf src) false
    cacheAside core (physOf dst) true
    trackClear core (physOf src) false
    trackClear core (physOf dst) true
    trackRoom core 2
    addTrack core (Track.blank .copySource (physOf src) false)
    let source := (← coreGet core).trackOrder - 1
    addTrack core { Track.blank .copyDest (physOf dst) true with
      todo := copyWrites src dst 0, partner := source, group := some (fld word 26 4), final, counter }
    pure c.nextPc)

/-- SDF (07 R204): rs3 must be s0. -/
def execSdf (core : Nat) (word : BitVec 32) (s : State) : Out :=
  .next (s.instruction core word (major word = 0x16) do
    let c ← coreGet core
    legalE (fld word 30 2 = 0 && fRs3 word = 0)
    let va := (c.getS (fRs1 word)).toNat
    if va % 8 ≠ 0 then excE 0x02 va else pure ()
    let dst ← translateC core c.asid true [(va, 8)]
    let counter ← counterOf core (fRd word) dst
    cacheAside core (physOf dst) true
    trackClear core (physOf dst) true
    trackRoom core 1
    let data := leBytes 8 (c.getS (fRs2 word)).toNat
    addTrack core { Track.blank .sdf (physOf dst) true with
      todo := (physOf dst).map fun (ga, k) => { address := ga, va, length := k, data, mask := none, sources := [] }
      group := some (fld word 26 4), final := true, counter }
    pure c.nextPc)

/-! ### Landing (07 R185, R203, R204, 12 R341) -/

/-- A tracker entry as the maker of an access. -/
def State.trackWho (s : State) (n : Nat) (t : Track) : Who := { s.coreWho n with waiter := .track n t.order }

/-- Reads the source ranges of a copied line; the Boolean says that one is poisoned. -/
def readSources (w : Who) (l : List (Nat × Nat)) : Eng (List Byte × Bool) := do
  match l with
  | [] => pure ([], false)
  | (ga, k) :: rest => do
    let (bs, p) ← readPhys w ga k
    let (more, q) ← readSources w rest
    pure (bs ++ more, p || q)

/-- The key of a copy group at a destination package, in Core.sentPrior. -/
def groupKey (dst group : Nat) : Nat := dst * 16 + group

/-- Takes a group credit for the first GROUPED write of a key to a destination, and counts the write (12 R341). -/
def takeCredit (n p g : Nat) : Eng Unit := do
  let s ← get
  let key := groupKey p g
  let c := s.core n
  let used := SMap.get s.fab.groupCredits p 0
  if SMap.has c.sentPrior key then pure ()
  else do
    holdE (used < 256)
    set { s with fab := { s.fab with groupCredits := SMap.put s.fab.groupCredits p (used + 1) } }
  modify fun s => s.updCore n fun c => { c with sentPrior := SMap.put c.sentPrior key (SMap.get c.sentPrior key 0 + 1) }

/-- Sends one write of a copy group to another package, or takes up its acknowledgement: the last write of a FINAL write
with a counter is a WR_FINAL, every other one a GROUPED WR (12 Table 12-8, R341). -/
def groupWrite (n : Nat) (t : Track) (p la : Nat) (bs : List Byte) (poison last : Bool) (g : Nat) : Eng Unit := do
  let s ← get
  let w := s.trackWho n t
  match (s.mailbox w.waiter).find? (·.address = globalOf p la + writeMark) with
  | some r => do
    r.check
    if last && t.counter.isSome then
      set (s.updCore n fun c => { c with sentPrior := SMap.del c.sentPrior (groupKey p g) })
    else pure ()
  | none =>
    if s.inFlight (writePurpose w) p la then waitE
    else do
      let h : Head := { type := 0x06, dst := p, tenant := w.tenant, addr := la, len := bs.length, poison, unit := n,
                        grouped := true, group := g }
      match t.counter with
      | some ctr =>
        if last then do
          let h := { h with type := 0x07, ctr := ctr % 2 ^ 50, prior := SMap.get (s.core n).sentPrior (groupKey p g) 0 }
          let _ ← sendRequest h bs (writePurpose w)
          waitE
        else do
          takeCredit n p g
          let _ ← sendRequest h bs (writePurpose w)
          waitE
      | none => do
        takeCredit n p g
        let _ ← sendRequest h bs (writePurpose w)
        waitE

/-- One write of an entry takes its place in home order. -/
def landWrite (n : Nat) (t : Track) (x : TrackWrite) (last : Bool) : Eng Unit := do
  let s ← get
  let w := s.trackWho n t
  match x.mask with
  | some mask => match s.placeOf x.address with
    | .here la => do
      homeClaim w.tenant la
      modify fun s => s.placeMasked (lineOf la) x.data mask none
    | .dead => failE .targetDead
    | .away p la => remoteMerge w p la x.data mask
  | none => do
    let (bs, poison) ← if x.sources.isEmpty then pure (x.data, false) else readSources w x.sources
    match t.group, s.placeOf x.address with
    | some g, .away p la => groupWrite n t p la bs poison last g
    | _, _ => writePhys w x.address bs poison

/-- A write of an entry failed at its target: the first failure is kept for an imprecise exception, the group is failed, and
a FINAL write stops (07 R204, R210). -/
def State.trackFailed (s : State) (n e : Nat) (t : Track) (x : TrackWrite) (st : Status) : State :=
  s.updCore n fun c =>
    { c with
      failure := c.failure.orElse fun _ => some (st, x.va, t.pieces)
      failedGroups := match t.group with
        | some g => if c.failedGroups.any (·.1 = g) then c.failedGroups else c.failedGroups ++ [(g, st)]
        | none => c.failedGroups
      tracker := SMap.upd c.tracker e fun u =>
        if t.final then { u with todo := [], counter := none, resp := [] } else { u with todo := u.todo.drop 1, resp := [] } }

/-- Lands up to `k` of the writes of entry `e`. -/
def State.landSome (s : State) (n e k : Nat) : State :=
  match k with
  | 0 => s
  | k + 1 =>
    match SMap.look (s.core n).tracker e with
    | none => s
    | some t =>
      match t.todo with
      | [] => s
      | x :: rest =>
        match (landWrite n t x rest.isEmpty).go s with
        | (.error .wait, s) => s
        | (.error (.fail st), s) => (s.trackFailed n e t x st).landSome n e k
        | (.ok _, s) =>
          let remote := match s.placeOf x.address with
            | .away _ _ => true
            | _ => false
          let s := s.updCore n fun c => { c with tracker := SMap.upd c.tracker e fun u =>
            { u with todo := rest, resp := [], counter := if rest.isEmpty && remote then none else u.counter } }
          s.landSome n e k

/-- The counter ADD of a local FINAL write, after its last write (07 R203). -/
def State.landCounter (s : State) (n e : Nat) : State :=
  match SMap.look (s.core n).tracker e with
  | some t =>
    match t.todo, t.counter with
    | [], some ga =>
      match (atomicPhys (s.trackWho n t) ga 0x0 1 1 0).go s with
      | (.ok _, s) => s.updCore n fun c => { c with tracker := SMap.upd c.tracker e fun u => { u with counter := none } }
      | (.error .wait, s) => s
      | (.error (.fail st), s) =>
        s.updCore n fun c => { c with
          failure := c.failure.orElse fun _ => some (st, 0, t.pieces)
          tracker := SMap.upd c.tracker e fun u => { u with counter := none } }
    | _, _ => s
  | none => s

/-- An entry with nothing left to do frees, a copy's with its source entry. -/
def State.freeTrack (s : State) (n e : Nat) : State :=
  match SMap.look (s.core n).tracker e with
  | some t =>
    if t.todo.isEmpty && t.counter.isNone then
      s.updCore n fun c => { c with tracker := SMap.only c.tracker fun k u =>
        k ≠ e && !(t.kind = .copyDest && u.kind = .copySource && u.order = t.partner) }
    else s
  | none => s

/-- Whether an entry may land: a FINAL write only after every earlier write of its group (07 R203). -/
def Core.mayLand (c : Core) (t : Track) : Bool :=
  t.kind ≠ .copySource && (!t.final || !c.tracker.any fun (_, u) => u.group = t.group && u.group.isSome && u.order < t.order)

/-- TRACKER_ENTRY_FREE: an access of an entry takes its place in home order; the entry frees when all of it has. How many of
the lines of a long copy land with one such event is open (07 R185, R203, DESIGN CHOICE, log 21). -/
def execTrackerEntryFree (core entry : Nat) (s : State) : Out :=
  .next <| match SMap.look (s.core core).tracker entry with
  | none => s
  | some t =>
    if !(s.core core).mayLand t then s
    else
      let failed := t.final && (s.core core).failedGroups.any fun (g, _) => t.group = some g
      let s :=
        if failed then s.updCore core fun c => { c with tracker := SMap.upd c.tracker entry fun u => { u with todo := [], counter := none } }
        else if t.todo.length ≤ 1 then s.landSome core entry 1
        else
          let (d, s) := s.draw
          s.landSome core entry (1 + d % t.todo.length)
      ((s.landCounter core entry).freeTrack core entry).coreProgress core

/-! ### SYS (07 Table 7-6, R207) -/

/-- A SYS word of function `fn`. -/
def isSys (w : BitVec 32) (fn : Nat) : Bool := major w = 0x0D && fnA w = fn

/-- SYS uses no register (07 R191). -/
def sysFields (w : BitVec 32) : Bool := fld w 6 20 = 0

/-- A copy failure not yet taken is taken here (07 R210). -/
def takeFailure (n : Nat) : CoreE Unit := do
  match (← coreGet n).failure with
  | some (st, va, _) => throw (.exc st.cause va true)
  | none => pure ()

/-- HALT: the kernel ends on this core (07 R207). -/
def execHalt (core : Nat) (word : BitVec 32) (s : State) : Out :=
  .next (
    let t := s.instruction core word (isSys word 0) do
      let c ← coreGet core
      legalE (sysFields word)
      takeFailure core
      coreSet core fun c => { c with run := .ending }
      pure c.pc
    if (s.core core).run = .running then t.coreProgress core else t)

/-- BRK: an armed core halts for the debug port; else BREAK (07 R207). -/
def execBrk (core : Nat) (word : BitVec 32) (s : State) : Out :=
  .next (s.instruction core word (isSys word 1) do
    let c ← coreGet core
    legalE (sysFields word)
    if c.armed then do
      coreSet core fun c => { c with dbg := .halted, atBrk := true }
      pure c.pc
    else excE 0x0B 0)

/-- DRAIN: waits until every tracker entry held at issue has freed (07 Table 7-6). -/
def execDrain (core : Nat) (word : BitVec 32) (s : State) : Out :=
  .next (s.instruction core word (isSys word 2) do
    let c ← coreGet core
    legalE (sysFields word)
    if c.tracker.isEmpty then pure () else throw (.wait 0)
    takeFailure core
    pure c.nextPc)

/-- Writes back every dirty line of the data cache, and waits until the writes have landed. -/
def writeBackAll (n : Nat) : CoreE Unit := do
  coreSet n fun c => c.cleanSome c.dirtyLines
  let c ← coreGet n
  if c.dirtyLines.isEmpty && !c.tracker.any fun (_, t) => t.kind = .writeBack then pure () else throw (.wait 0)

/-- DCWB (07 Table 7-6). -/
def execDcwb (core : Nat) (word : BitVec 32) (s : State) : Out :=
  .next (s.instruction core word (isSys word 3) do
    legalE (sysFields word)
    writeBackAll core
    pure (← coreGet core).nextPc)

/-- DCWBI (07 Table 7-6). -/
def execDcwbi (core : Nat) (word : BitVec 32) (s : State) : Out :=
  .next (s.instruction core word (isSys word 4) do
    legalE (sysFields word)
    writeBackAll core
    coreSet core fun c => { c with dcache := [] }
    pure (← coreGet core).nextPc)

/-- ICINV (07 R184). -/
def execIcinv (core : Nat) (word : BitVec 32) (s : State) : Out :=
  .next (s.instruction core word (isSys word 5) do
    legalE (sysFields word)
    coreSet core fun c => { c with icache := [] }
    pure (← coreGet core).nextPc)

/-! ### Waits (07 R205) -/

/-- Whether a counter value ends a wait. -/
def waitMet (ge : Bool) (v target : Word) : Bool := if ge then target ≤ v else v ≠ target

/-- Reads the word of a wait at its home. -/
def waitRead (n va : Nat) : CoreE Word := do
  let c ← coreGet n
  let ps ← translateC n c.asid false [(va, 8)]
  let s ← get
  let away := ps.filter fun p => !s.ownSpad n p.2.1 p.2.2
  cacheAside n (physOf away) false
  trackClear n (physOf ps) false
  if away.isEmpty then pure () else trackRoom n 1
  pure (BitVec.ofNat 64 (leNat (← joinPieces (homePiece n) ps)))

/-- A wait is issued: it reads its word once, and returns at once or begins to wait (07 R205). -/
def waitIssue (ge : Bool) (core : Nat) (word : BitVec 32) : CoreE Word := do
  let c ← coreGet core
  let va := (c.getS (fRs1 word)).toNat
  if va % 8 ≠ 0 then excE 0x02 va else pure ()
  let v ← waitRead core va
  if waitMet ge v (c.getS (fRs2 word)) then putScalar core (fRd word) v
  else do
    let t := (← get).time
    let limit := (c.getS (fRs3 word)).toNat
    coreSet core fun c => { c with resp := [], wait := some (.counter ge va (c.getS (fRs2 word))
      (if limit = 0 then 0 else 8 * t + limit) (fRd word) v) }
    throw (.wait 0)

/-- WAITGE (07 R205). -/
def execWaitge (core : Nat) (word : BitVec 32) (s : State) : Out :=
  .next (s.instruction core word (major word = 0x17 && fnA word = 0) (waitIssue true core word))

/-- WAITNE (07 R205). -/
def execWaitne (core : Nat) (word : BitVec 32) (s : State) : Out :=
  .next (s.instruction core word (major word = 0x17 && fnA word = 1) (waitIssue false core word))

/-- A wait returns a value: the instruction retires. -/
def State.endWait (s : State) (n rd : Nat) (v : Word) : State :=
  (s.updCore n fun c => { c.putS rd v with wait := none }).retire n (s.core n).nextPc

/-- WAIT_POLL: the word of a waiting core is read again: at a write to the own scratchpad, or every WAIT_POLL_CCLK (07 R205). -/
def execWaitPoll (core : Nat) (s : State) : Out :=
  .next <| match (s.core core).wait with
  | some (.counter ge va target limit rd _) =>
    if (s.core core).run ≠ .running || (s.core core).dbg = .halted then s
    else match (waitRead core va).go s with
      | (.ok v, s) =>
        if waitMet ge v target then s.endWait core rd v
        else s.updCore core fun c => { c with resp := [], wait := some (.counter ge va target limit rd v) }
      | (.error (.wait _), s) => s
      | (.error (.exc cause x imp), s) =>
        let (i, s) := s.instrAt core
        s.coreExc core cause x imp i
  | _ => s

/-- WAIT_TIME_LIMIT: the time limit of a wait passes: the last value read is returned (07 R205). -/
def execWaitTimeLimit (core : Nat) (s : State) : Out :=
  .next <| match (s.core core).wait with
  | some (.counter _ _ _ limit rd last) =>
    if limit ≠ 0 && limit ≤ 8 * s.time && (s.core core).run = .running && (s.core core).dbg ≠ .halted then
      s.endWait core rd last
    else s
  | _ => s

end Sys2Proof.Machine
end

