-- ==== Sys2Proof/Machine/Channels.lean ====
section
/-!
DEFINITION. Channels and message queues of the grid (07 R206; 08 R227 to R241).
-/

namespace Sys2Proof.Machine

open Sys2Proof

/-! ### Objects -/

def State.channel? (s : State) (k : Nat) : Option Channel := SMap.look s.grid.channels k
def State.setChannel (s : State) (k : Nat) (c : Channel) : State :=
  { s with grid := { s.grid with channels := SMap.put s.grid.channels k c } }
def State.updChannel (s : State) (k : Nat) (f : Channel → Channel) : State :=
  { s with grid := { s.grid with channels := SMap.upd s.grid.channels k f } }
def State.delChannel (s : State) (k : Nat) : State :=
  { s with grid := { s.grid with channels := SMap.del s.grid.channels k } }

/-- An empty queue. -/
def Queue.empty : Queue where
  headA := 0
  commitA := 0
  wptrA := 0
  headB := 0
  commitB := 0
  wptrB := 0
  state := .open
  resetPending := false
  packets := []
  partialFlits := []
  assembling := none
  dropping := false

def State.queue (s : State) (k : Nat) : Queue := SMap.get s.grid.queues k .empty
def State.setQueue (s : State) (k : Nat) (q : Queue) : State :=
  { s with grid := { s.grid with queues := SMap.putD s.grid.queues k q .empty } }

/-- The key of a channel. -/
def chanKey (producer handle : Nat) : Nat := producer * 64 + handle

/-- The key of a channel's queue. -/
def Channel.queueKey (c : Channel) : Nat := c.consumer * 4 + c.queue

/-- Credits of a queue that are not granted (08 R228). -/
def State.freeCredits (s : State) (q : Nat) : Nat :=
  let mine := s.grid.channels.filter fun (_, c) => c.queueKey = q
  let closed := (s.queue q).packets.filter fun p => !mine.any fun (_, c) => c.serial = p.serial
  64 - (mine.map fun (_, c) => c.granted).sum - (closed.map fun p => p.payload.length / 32).sum

/-- The queue state word (08 Table 8-8). -/
def State.queueWord (s : State) (k : Nat) : Nat :=
  let q := s.queue k
  let st := match q.state with
    | .open => 0
    | .assembling => 1
    | .reset => 2
  pack [(q.headA, 7), (q.commitA, 7), (q.wptrA, 7), (q.headB, 7), (q.commitB, 7), (q.wptrB, 7), (st, 2),
    (s.freeCredits k, 7), (bit q.resetPending, 1)]

/-! ### Sending (07 R206, 08 R229, R233, R236) -/

/-- The sideband of a flit (08 Table 8-7). -/
def sidebandOf (c : Channel) (key index : Nat) (last abort : Bool) (kind : Nat) (payload : List Byte) : BitVec 96 :=
  let producer := key / 64
  let low := pack [(c.consumer % 160, 8), (c.consumer / 160, 8), (c.queue, 2), (bit (index = 0 && kind = 0), 1), (bit last, 1), (bit abort, 1),
    (index, 4), (kind, 2), (0, 5), (producer % 160, 8), (producer / 160, 8), (key % 64, 6), (0, 2), (c.tag, 8)]
  BitVec.ofNat 96 (low + 2 ^ 64 * crc32c (payload ++ leBytes 8 low))

/-- The flits of a packet. -/
def packetMesh (c : Channel) (key after total : Nat) (abort : Bool) (l : List (List Byte)) (i : Nat) : List MeshSent :=
  match l with
  | [] => []
  | b :: rest =>
    let last := i + 1 = total
    { sideband := sidebandOf c key i last (abort && last) 0 b, payload := b, after } :: packetMesh c key after total abort rest (i + 1)

/-- Reads the flits of an MSEND from the own scratchpad until one meets a poisoned line; the Boolean says that one did. -/
def readFlits (n ga : Nat) (k : Nat) : CoreE (List (List Byte) × Bool) := do
  match k with
  | 0 => pure ([], false)
  | j + 1 => do
    let w := (← get).coreWho n
    let (bs, poison) ← liftC ga (readPhys w ga 32)
    if poison then pure ([List.replicate 32 0], true)
    else do
      let (rest, p) ← readFlits n (ga + 32) j
      pure (bs :: rest, p)

/-- The physical address of an own-scratchpad range given by VA: aligned to 32, else BAD_OPERAND (07 R206). -/
def spadAddress (n va k : Nat) (write : Bool) : CoreE Nat := do
  let c ← coreGet n
  match ← translateC n c.asid write [(va, 32)] with
  | (_, ga, _) :: _ => do
    if !(← get).ownSpad n ga k || va % 32 ≠ 0 then excE 0x03 va else pure ()
    trackClear n [(ga, k)] write
    pure ga
  | [] => excE 0x03 va

/-- MSEND (07 R206, 08 R229): a source that meets a poisoned line ends its packet with ABORT and raises POISONED (08 R238). -/
def execMsend (core : Nat) (word : BitVec 32) (s : State) : Out :=
  .next (s.instruction core word (major word = 0x18 && fnA word = 0) do
    let c ← coreGet core
    let handle := (c.getS (fRs2 word)).toNat
    let n := (c.getS (fRs3 word)).toNat
    let key := chanKey core handle
    let t ← get
    match (if handle < 64 then t.channel? key else none : Option Channel) with
    | none => excE 0x0A 0
    | some ch => do
      if ch.state = .closing || n > ch.granted then excE 0x0A 0 else pure ()
      if n = 0 || n > 16 then excE 0x03 0 else pure ()
      if ch.state = .queueReset then do
        modify fun s => s.updChannel key fun c => { c with state := .open }
        putScalar core (fRd word) 1
      else do
        let va := (c.getS (fRs1 word)).toNat
        let ga ← spadAddress core va (32 * n) false
        if ch.credits < n then throw (.wait 3) else pure ()
        let (l, poison) ← readFlits core ga n
        modify fun s => s.updChannel key fun c =>
          { c with credits := c.credits - l.length,
                   mesh := c.mesh ++ packetMesh c key (s.core core).trackOrder l.length poison l 0 }
        if poison then excE 0x08 va else pure ()
        putScalar core (fRd word) 0)

/-! ### Receiving (07 R206, 08 R235, R237) -/

/-- The flits of a packet that has been received are freed, and their credits start back (08 R229). -/
def State.freePacket (s : State) (k : Nat) (p : CorePacket) : State :=
  let n := p.payload.length / 32
  let q := s.queue k
  let head := (q.headA + n) % 128
  let s := s.setQueue k { q with headA := head, headB := head, packets := q.packets.drop 1 }
  match s.channel? p.channel with
  | some c =>
    if c.serial = p.serial then s.setChannel p.channel { c with held := c.held - n, returning := c.returning + n } else s
  | none => s

/-- The value of s(rd) after an MRECV that copies a packet (08 R237). -/
def recvWord (p : CorePacket) : Word :=
  BitVec.ofNat 64 (pack [(p.payload.length / 32, 5), (0, 3), (p.producer % 160, 8), (p.producer / 160, 8), (p.tag, 8)])

/-- Copies the oldest packet of a queue to the own scratchpad at `ga`, and frees its flits. -/
def recvPacket (n k ga : Nat) (p : CorePacket) : CoreE Unit := do
  let s ← get
  if !s.ownSpad n ga p.payload.length then excE 0x03 0 else pure ()
  let w := s.coreWho n
  liftC 0 (writePieces' w ga p.payload)
  modify fun s => s.freePacket k p
where
  /-- Writes bytes at a global physical address, line by line. -/
  writePieces' (w : Who) (ga : Nat) (bs : List Byte) : Eng Unit :=
    (piecesOf ga bs.length).foldlM (init := ()) fun _ (a, k) => writePhys w a ((bs.drop (a - ga)).take k) false

/-- MRECV (07 R206, 08 R237). -/
def execMrecv (core : Nat) (word : BitVec 32) (s : State) : Out :=
  .next (s.instruction core word (major word = 0x18 && fnA word = 1) do
    let c ← coreGet core
    legalE (fRs3 word = 0)
    let queue := (c.getS (fRs1 word)).toNat
    if queue > 3 then excE 0x0A 0 else pure ()
    let k := core * 4 + queue
    let q := (← get).queue k
    let va := (c.getS (fRs2 word)).toNat
    if q.resetPending then do
      modify fun s => s.setQueue k { q with resetPending := false }
      putScalar core (fRd word) (BitVec.ofNat 64 (2 ^ 63))
    else do
      let ga ← spadAddress core va 32 true
      match q.packets with
      | p :: _ => do
        trackClear core [(ga, p.payload.length)] true
        recvPacket core k ga p
        putScalar core (fRd word) (recvWord p)
      | [] => do
        trackClear core [(ga, 512)] true
        coreSet core fun c => { c with wait := some (.message queue ga (fRd word)) }
        throw (.wait 0))

/-- MPEEK (07 R206, 08 R237): 0 on a queue whose reset is pending. -/
def execMpeek (core : Nat) (word : BitVec 32) (s : State) : Out :=
  .next (s.instruction core word (major word = 0x18 && fnA word = 2) do
    let c ← coreGet core
    legalE (fRs2 word = 0 && fRs3 word = 0)
    let queue := (c.getS (fRs1 word)).toNat
    if queue > 3 then excE 0x0A 0 else pure ()
    let q := (← get).queue (core * 4 + queue)
    let n := match q.packets with
      | p :: _ => if q.resetPending then 0 else p.payload.length / 32
      | [] => 0
    putScalar core (fRd word) (BitVec.ofNat 64 n))

/-- A packet commits at a queue: a core that waits there in MRECV takes it (08 R235). -/
def State.wakeRecv (s : State) (k : Nat) : State :=
  let n := k / 4
  match (s.core n).wait, (s.queue k).packets with
  | some (.message queue ga rd), p :: _ =>
    if queue ≠ k % 4 || (s.core n).dbg = .halted then s
    else match (recvPacket n k ga p).go s with
      | (.ok _, s) => s.endWait n rd (recvWord p)
      | (.error (.wait _), s) => s.updCore n fun c => { c with wait := none }
      | (.error (.exc cause va imp), s) =>
        let (i, s) := s.instrAt n
        s.coreExc n cause va imp i
  | _, _ => s

/-! ### CHANNEL_OPEN and CHANNEL_CLOSE (08 R227 to R231) -/

/-- Entries named by a command: COUNT 0 means 65,536. -/
def Slot.entries (sl : Slot) : Nat := if sl.f 192 16 = 0 then 65536 else sl.f 192 16

/-- The channel that a 16-byte entry describes, and its key. -/
def channelOf (tenant serial e : Nat) : Nat × Channel :=
  let core := fun lo => bitsOf e (lo + 8) 8 * 160 + bitsOf e lo 8
  (chanKey (core 0) (bitsOf e 16 6),
   { consumer := core 24, queue := bitsOf e 40 2, granted := bitsOf e 48 7, credits := bitsOf e 48 7, held := 0, returning := 0,
     tag := bitsOf e 56 8, tenant, state := .open, notice := false, ack := false, closer := none, mesh := [], serial })

/-- Whether an entry's coordinates lie in the grid. -/
def entryInGrid (e : Nat) : Bool := bitsOf e 0 8 < 160 && bitsOf e 8 8 < 160 && bitsOf e 24 8 < 160 && bitsOf e 32 8 < 160

/-- Whether a core's scratchpad is held by another tenant. -/
def State.heldByOther (s : State) (n tenant : Nat) : Bool := (s.core n).holder.any (· ≠ tenant)

/-- Opens the channels of a list of entries in turn; the index and status of the first that fails (08 R228). -/
def State.openChannels (s : State) (tenant : Nat) (l : List Nat) (i : Nat) : Except (Status × Nat) State :=
  match l with
  | [] => .ok s
  | e :: rest =>
    let (key, c) := channelOf tenant s.grid.channelSerial e
    let producer := key / 64
    if !entryInGrid e || !(s.core producer).available || !(s.core c.consumer).available || c.granted = 0 ||
        (s.channel? key).isSome then .error (.badDescriptor, i)
    else if s.heldByOther producer tenant || s.heldByOther c.consumer tenant then .error (.notPermitted, i)
    else if c.granted > s.freeCredits c.queueKey then .error (.resource, i)
    else
      let s := s.setChannel key c
      { s with grid := { s.grid with channelSerial := s.grid.channelSerial + 1 } }.openChannels tenant rest (i + 1)

/-- CHANNEL_OPEN (08 R227, R228): all or nothing; RESULT holds the index of the first failing entry. -/
def execChannelOpen (slot : Nat) (s : State) : Out :=
  .next (runSlot 0x52 slot (fun sl => do
    needE (sl.f 128 57 % 16 = 0) .badDescriptor
    let bs ← readVa (sl.who slot 5) sl.asid (sl.f 128 57) (16 * sl.entries)
    match (← get).openChannels sl.tenant ((chunksOf 16 sl.entries bs).map leNat) 0 with
    | .ok s => do
      set s
      pure (.ok, 0, 0)
    | .error (st, i) => do
      modify fun s => s.updSlot slot fun x => { x with result := i }
      failE st) s)

/-- Moves the channels of a list of entries to CLOSING; a handle that is not open, or is another tenant's, fails the
command, and the others still close (08 R230, DESIGN CHOICE, log 28). -/
def State.closeChannels (s : State) (tenant seq n : Nat) (l : List Nat) : State :=
  l.foldl (fun s e =>
    let (key, _) := channelOf tenant 0 e
    match s.channel? key with
    | some c =>
      if c.state ≠ .closing && c.tenant = tenant then
        (s.setChannel key { c with state := .closing, closer := some seq }).updSlot n fun sl => { sl with marks := sl.marks ++ [c.serial] }
      else s.updSlot n fun sl => { sl with status := sl.status.join .badDescriptor }
    | none => s.updSlot n fun sl => { sl with status := sl.status.join .badDescriptor }) s

/-- CHANNEL_CLOSE (08 R230): it completes when every named channel is CLOSED, and with CREDIT_REUSE when every committed
packet of them has been received. -/
def execChannelClose (slot : Nat) (s : State) : Out :=
  .next (runSlot 0x53 slot (fun sl => do
    needE (sl.f 128 57 % 16 = 0) .badDescriptor
    if sl.cursor = 0 then do
      let bs ← readVa (sl.who slot 5) sl.asid (sl.f 128 57) (16 * sl.entries)
      modify fun s => s.closeChannels sl.tenant sl.seq slot ((chunksOf 16 sl.entries bs).map leNat)
      setCursor slot 1
    else pure ()
    let marks := (← getSlot slot).marks
    let s ← get
    holdE (!s.grid.channels.any fun (_, c) => marks.contains c.serial)
    holdE (sl.f 208 1 = 0 || !s.grid.queues.any fun (_, q) => q.packets.any fun p => marks.contains p.serial)
    pure (.ok, 0, 0)) s)

/-- CHANNEL_CLOSED: a closing channel has no packet in the mesh, has acknowledged every reset, and every credit that no
committed packet holds has returned: it is CLOSED (08 R230, R241). -/
def execChannelClosed (producer handle : Nat) (s : State) : Out :=
  .next <| match s.channel? (chanKey producer handle) with
  | none => s
  | some c =>
    if handle < 64 && c.state = .closing && c.mesh.isEmpty && !c.notice && !c.ack && c.credits + c.held = c.granted then
      s.delChannel (chanKey producer handle)
    else s

/-! ### Flits at a queue (08 R234, R235, R238 to R240) -/

/-- Step 1 and 2 of a queue reset, the count, the log record and the notices (08 R240). -/
def State.resetQueue (s : State) (k : Nat) : State :=
  let s := s.setQueue k { Queue.empty with state := .reset, resetPending := true }
  let mine := s.grid.channels.filter fun (_, c) => c.queueKey = k
  let s := { s with grid := { s.grid with channels := SMap.each s.grid.channels fun _ c =>
    if c.queueKey = k then { c with notice := true, ack := true, held := 0 } else c } }
  let s := if mine.isEmpty then s.setQueue k { (s.queue k) with state := .open } else s
  let s := (s.bump (dkey 0x6002 3) 1).logError 0x000A 0 (s.core (k / 4)).tenant (k / 4) (k % 4)
  match (s.core (k / 4)).wait with
  | some (.message queue _ rd) =>
    if queue = k % 4 then
      (s.setQueue k { (s.queue k) with resetPending := false }).endWait (k / 4) rd (BitVec.ofNat 64 (2 ^ 63))
    else s
  | _ => s

/-- A packet is rewound: WPTR takes COMMIT, what was written is freed, and the loss is reported (08 R238). -/
def State.rewind (s : State) (k key : Nat) (crc last : Bool) : State :=
  let q := s.queue k
  let n := q.partialFlits.length / 32
  let s := s.setQueue k { q with wptrA := q.commitA, wptrB := q.commitB, partialFlits := [],
                                 state := if last then .open else .assembling,
                                 assembling := if last then none else some key, dropping := !last }
  let s := s.updChannel key fun c => { c with returning := c.returning + n + 1 }
  let s := s.bump (dkey 0x6002 (if crc then 1 else 2)) 1
  let c := s.core (k / 4)
  if c.run = .idle then s.logError 0x0009 0 c.tenant (k / 4) (k % 4)
  else if crc then
    { s with grid := { s.grid with launches := SMap.upd s.grid.launches c.slot fun l => { l with status := l.status.join .crcMismatch } } }
  else s

/-- A data flit that passed its check is written at WPTR; the last one commits the packet (08 R235). -/
def State.writeFlit (s : State) (k key : Nat) (x : MeshSent) : State :=
  let q := s.queue k
  let w := (q.wptrA + 1) % 128
  let body := q.partialFlits ++ x.payload
  if flag x.sideband 19 then
    match s.channel? key with
    | some c =>
      let p : CorePacket := { producer := key / 64, tag := c.tag, payload := body, channel := key, serial := c.serial }
      let s := s.setQueue k { q with wptrA := w, wptrB := w, commitA := w, commitB := w, packets := q.packets ++ [p],
                                     partialFlits := [], state := .open, assembling := none }
      (s.setChannel key { c with held := c.held + body.length / 32 }).wakeRecv k
    | none => s
  else s.setQueue k { q with wptrA := w, wptrB := w, partialFlits := body, state := .assembling, assembling := some key }

/-- Whether trace capture admits a flit of a consumer core (15 R424). -/
def State.tracesFlit (s : State) (core : Nat) : Bool :=
  let r := s.val (dkey 0xB020 5)
  bitsOf r 0 8 ≤ core % 160 && core % 160 < bitsOf r 0 8 + bitsOf r 16 8 &&
    bitsOf r 8 8 ≤ core / 160 && core / 160 < bitsOf r 8 8 + bitsOf r 24 8

/-- Whether a received flit passes its FLIT_CRC check. -/
def flitCrcOk (f : MeshFlit) : Bool := fld f.sideband 64 32 = crc32c (padTo 32 f.payload ++ leBytes 8 (fld f.sideband 0 64))

/-- What a queue does with the oldest data flit `x` of a channel, received as `f`. -/
def State.takeFlit (s : State) (k key : Nat) (c : Channel) (x : MeshSent) (f : MeshFlit) : State :=
  let q := s.queue k
  let popped := s.updChannel key fun c => { c with mesh := c.mesh.drop 1 }
  if q.state = .reset then
    if c.ack then (if f.mismatch then popped.resetQueue k else popped) else s
  else if q.assembling.any (· ≠ key) then s
  else if q.dropping then
    let popped := popped.updChannel key fun c => { c with returning := c.returning + 1 }
    if flag x.sideband 19 then popped.setQueue k { q with state := .open, assembling := none, dropping := false } else popped
  else if f.mismatch then popped.resetQueue k
  else if !flitCrcOk f then popped.rewind k key true (flag x.sideband 19)
  else if flag x.sideband 20 then popped.rewind k key false true
  else popped.writeFlit k key x

/-- FLIT_ARRIVE: a data flit reaches its queue's input (08 R234, R235, R238, R240). A flit that passes its check is the
oldest that its channel has in the mesh, and it leaves its producer only behind the writes of R236. -/
def execFlitArrive (flit : MeshFlit) (s : State) : Out :=
  .next <|
    let key := chanKey (fld flit.sideband 40 8 * 160 + fld flit.sideband 32 8) (fld flit.sideband 48 6)
    match s.channel? key with
    | none => s
    | some c =>
      match c.mesh with
      | [] => s
      | x :: _ =>
        let producer := s.core (key / 64)
        let early := producer.tracker.any fun (_, t) => t.write && t.order < x.after
        if early || fld x.sideband 25 2 ≠ 0 || (flitCrcOk flit && (flit.sideband ≠ x.sideband || padTo 32 flit.payload ≠ padTo 32 x.payload)) then s
        else
          let s := if s.tracesFlit c.consumer then s.trace 4 (dieOfCore c.consumer) 0 c.tenant flit.sideband.toNat else s
          s.takeFlit c.queueKey key c x flit

/-- CREDIT_RETURN: the credits of freed flits reach the producer (08 R229). -/
def execCreditReturn (producer handle : Nat) (s : State) : Out :=
  .next (if handle < 64 then
    s.updChannel (chanKey producer handle) fun c => { c with credits := c.credits + c.returning, returning := 0 } else s)

/-- RESET_NOTICE: the notice reaches the producer: its credits are restored, and the acknowledgement follows the flits that
it injected (08 R240, Table 8-6). -/
def execResetNotice (producer handle : Nat) (s : State) : Out :=
  .next <|
    let key := chanKey producer handle
    match s.channel? key with
    | none => s
    | some c =>
      if handle ≥ 64 || !c.notice then s
      else
        let zero := List.replicate 32 0
        let ack : MeshSent := { sideband := sidebandOf c key 0 true false 1 zero, payload := zero, after := 0 }
        s.setChannel key { c with notice := false, credits := c.granted, returning := 0, mesh := c.mesh ++ [ack],
                                  state := if c.state = .open then .queueReset else c.state }

/-- RESET_ACKNOWLEDGEMENT: the acknowledgement reaches the queue behind the flits sent before it; with the last one the
queue is OPEN (08 R240). -/
def execResetAcknowledgement (producer handle : Nat) (s : State) : Out :=
  .next <|
    let key := chanKey producer handle
    match s.channel? key with
    | none => s
    | some c =>
      match c.mesh with
      | x :: rest =>
        if handle ≥ 64 || fld x.sideband 25 2 ≠ 1 then s
        else
          let s := s.setChannel key { c with mesh := rest, ack := c.notice }
          let k := c.queueKey
          if (s.queue k).state = .reset && !s.grid.channels.any fun (_, o) => o.queueKey = k && o.ack then
            s.setQueue k { (s.queue k) with state := .open }
          else s
      | [] => s

/-! ### Tenant change (08 R232) -/

/-- A queue is emptied, and its pointers are zero. -/
def State.emptyQueue (s : State) (k : Nat) : State :=
  { s with grid := { s.grid with queues := SMap.del s.grid.queues k } }

/-- Closes the channels that `p` selects: their packets in the mesh are discarded, a packet being assembled from one of them
is freed, and their credits return to their queues (08 R232). -/
def State.dropChannels (s : State) (p : Nat → Channel → Bool) : State :=
  let gone := s.grid.channels.filter fun (k, c) => p k c
  let s := { s with grid := { s.grid with channels := SMap.only s.grid.channels fun k c => !p k c } }
  gone.foldl (fun s (key, c) =>
    let q := s.queue c.queueKey
    let s := if q.assembling = some key then
        s.setQueue c.queueKey { q with wptrA := q.commitA, wptrB := q.commitB, partialFlits := [], assembling := none, dropping := false,
                                       state := if q.state = .assembling then .open else q.state }
      else s
    let q := s.queue c.queueKey
    if q.state = .reset && !s.grid.channels.any fun (_, o) => o.queueKey = c.queueKey && o.ack then
      s.setQueue c.queueKey { q with state := .open }
    else s) s

/-- The channels with an end on a core that `other` selects close, and the core's queues are emptied (08 R232). -/
def State.tenantChange (s : State) (n : Nat) (other : Channel → Bool) : State :=
  let hit := fun (k : Nat) (c : Channel) => (k / 64 = n || c.consumer = n) && other c
  if s.grid.channels.any fun (k, c) => hit k c then
    let s := s.dropChannels hit
    (List.range 4).foldl (fun s q => s.emptyQueue (n * 4 + q)) s
  else s

end Sys2Proof.Machine
end

