-- ==== Sys2Proof/Machine/Grid.lean ====
section
/-!
DEFINITION. Kernels on the grid (08 R217 to R226): LAUNCH, the claim of its rectangle, the watchdog, and HALT_GRID.
-/

namespace Sys2Proof.Machine

open Sys2Proof

/-! ### LAUNCH -/

/-- Whether a LAUNCH's rectangle and areas keep Table 8-4. -/
def Slot.launchOk (sl : Slot) : Bool :=
  let f := sl.f
  f 128 57 % 64 = 0 && f 256 8 < 160 && f 264 8 < 160 && 1 ≤ f 272 8 && 1 ≤ f 280 8 && f 256 8 + f 272 8 ≤ 160 &&
    f 264 8 + f 280 8 ≤ 160 && f 384 57 % 32 = 0

/-- Whether an image header keeps R218, its CRCs apart (08 Table 8-3). -/
def imageHeadOk (h : Nat) : Bool :=
  let len := bitsOf h 32 32
  let entry := bitsOf h 64 32
  bitsOf h 0 16 = 0x51C0 && bitsOf h 16 8 = 1 && bitsOf h 24 8 = 0 && bitsOf h 96 32 = 0 && bitsOf h 160 320 = 0 &&
    len % 4 = 0 && 4 ≤ len && len ≤ 16777216 && entry % 4 = 0 && 64 ≤ entry && entry ≤ 60 + len

/-- The rectangle of a LAUNCH. -/
def Slot.rect (sl : Slot) : List Nat := rectCores (sl.f 256 8) (sl.f 264 8) (sl.f 272 8) (sl.f 280 8)

/-- Whether a LAUNCH also runs on the twin (13 R387). -/
def State.compares (s : State) (tenant : Nat) : Bool :=
  s.twin.pair = .paired && s.val (rowKey (dkey 0xA020 0) tenant) = 1

/-- LAUNCH (08 R218 to R221): the image is read and checked, and the command waits for its rectangle. A LAUNCH whose cores
have ended, and whose records waited to be written, completes (R223). -/
def execLaunch (slot : Nat) (s : State) : Out :=
  .next <|
    if SMap.has s.grid.launches slot && (s.slot? slot).any (·.opcode = 0x50) then s.launchEnd slot
    else runSlot 0x50 slot (fun sl => do
      needE sl.launchOk .badDescriptor
      let w := sl.who slot 5
      let head ← readVa w sl.asid (sl.f 128 57) 64
      let h := leNat head
      needE (imageHeadOk h) .badDescriptor
      let code ← readVa w sl.asid (sl.f 128 57 + 64) (bitsOf h 32 32)
      needE (crc32c (head.take 60) = bitsOf h 480 32 && crc32c code = bitsOf h 128 32) .crcMismatch
      let s ← get
      needE (sl.rect.all fun n => (s.core n).available) .resource
      let l : Launch :=
        { x0 := sl.f 256 8, y0 := sl.f 264 8, w := sl.f 272 8, h := sl.f 280 8, order := s.grid.launchOrder, claimed := false,
          entry := bitsOf h 64 32, startTime := 0, ended := [], excs := [], status := .ok, compare := s.compares sl.tenant }
      set { s with grid := { s.grid with launches := SMap.put s.grid.launches slot l, launchOrder := s.grid.launchOrder + 1 } }
      waitE) s

/-! ### The claim (08 R221, R222) -/

/-- Whether two rectangles share a core. -/
def Launch.meets (a b : Launch) : Bool :=
  a.x0 < b.x0 + b.w && b.x0 < a.x0 + a.w && a.y0 < b.y0 + b.h && b.y0 < a.y0 + a.h

/-- Whether a waiting LAUNCH may claim its rectangle: no kernel runs and no test runs on it, and no earlier waiting LAUNCH
overlaps it. -/
def State.mayClaim (s : State) (l : Launch) : Bool :=
  !l.claimed && (rectCores l.x0 l.y0 l.w l.h).all (fun n => (s.core n).run = .idle && !(s.core n).testing) &&
    !s.grid.launches.any fun (_, o) => !o.claimed && o.order < l.order && o.meets l

/-- The state of a core at the start of a kernel (07 R176, R182, R184). -/
def Core.start (c : Core) (sl : Slot) (slot n time entry : Nat) : Core :=
  { Core.initial with
    run := .running, slot, asid := sl.asid, tenant := sl.tenant, holder := some sl.tenant
    pc := BitVec.ofNat 64 (sl.f 128 57 + entry), startTime := time
    x0 := sl.f 256 8, y0 := sl.f 264 8, w := sl.f 272 8, h := sl.f 280 8
    argVa := sl.f 192 57 + ((n / 160 - sl.f 264 8) * sl.f 272 8 + (n % 160 - sl.f 256 8)) * sl.f 288 16 * 64
    imageVa := sl.f 128 57, launchSeq := sl.seq, trackOrder := c.trackOrder
    armed := c.armed, available := c.available, testing := c.testing, lastRun := c.lastRun }

/-- Prepares one core: channels of other tenants close, the scratchpad of another tenant is zeroed, and the kernel's state is
set (08 R222, R232, 07 R180). -/
def State.prepareCore (s : State) (sl : Slot) (slot entry n : Nat) : State :=
  let s := s.tenantChange n fun c => c.tenant ≠ sl.tenant
  let s :=
    if (s.core n).holder = some sl.tenant then s
    else (List.range 4).foldl (fun s q => s.emptyQueue (n * 4 + q)) (s.zeroRange (scratchBase n) 0x2_0000)
  s.setCore n ((s.core n).start sl slot n s.time entry)

/-- LAUNCH_CLAIM: a LAUNCH claims its rectangle, and its cores start (08 R221, R222). -/
def execLaunchClaim (slot : Nat) (s : State) : Out :=
  .next <| match SMap.look s.grid.launches slot, s.slot? slot with
  | some l, some sl =>
    if sl.stage = .finished || sl.opcode ≠ 0x50 || !s.mayClaim l then s
    else
      let s := (rectCores l.x0 l.y0 l.w l.h).foldl (fun s n => s.prepareCore sl slot l.entry n) s
      { s with grid := { s.grid with launches := SMap.put s.grid.launches slot { l with claimed := true, startTime := s.time } } }
  | _, _ => s

/-! ### Ends -/

/-- The watchdog of a LAUNCH in TCLK (08 R225). -/
def State.watchdogTicks (s : State) (sl : Slot) : Nat :=
  usToTicks (1000 * (if sl.f 320 32 = 0 then s.val (dkey 0x6001 0) else sl.f 320 32))

/-- KERNEL_WATCHDOG: at WDOG_MS, every core still running ends with WATCHDOG (08 R225). -/
def execKernelWatchdog (slot : Nat) (s : State) : Out :=
  .next <| match SMap.look s.grid.launches slot, s.slot? slot with
  | some l, some sl =>
    if l.claimed && s.time ≥ l.startTime + s.watchdogTicks sl then s.haltLaunch slot 0x0C else s
  | _, _ => s

/-- HALT_GRID (08 R226): it completes when the cores of the LAUNCH that it names have ended. -/
def execHaltGrid (slot : Nat) (s : State) : Out :=
  .next (runSlot 0x51 slot (fun sl => do
    let s ← get
    let mine := s.grid.cores.filter fun (_, c) => c.run ≠ .idle && c.launchSeq = sl.f 128 64
    match mine with
    | [] => pure (.ok, 0, 0)
    | (_, c) :: _ => do
      needE (sl.tenant = 0 || c.tenant = sl.tenant) .notPermitted
      set (s.haltLaunch c.slot 0x0D)
      holdE (!(← get).grid.cores.any fun (_, c) => c.run ≠ .idle && c.launchSeq = sl.f 128 64)
      pure (.ok, 0, 0)) s)

end Sys2Proof.Machine
end

