-- ==== Sys2Proof/Machine/Search.lean ====
section
/-!
DEFINITION. Vector search (10 R258 to R280, R288 to R290): the query, the snapshot, probing, expansion, scores and re-rank,
results, search units, and sharded searches.
-/

namespace Sys2Proof.Machine

open Sys2Proof

/-! ### The index descriptor (10 Tables 10-3 and 10-4) -/

def Index.f (x : Index) (lo w : Nat) : Nat := fld x.desc lo w
/-- L, m, s and E. -/
def Index.bits (x : Index) : Nat := x.f 24 5 * 64
def Index.tables (x : Index) : Nat := 2 ^ x.f 32 2
def Index.sub (x : Index) : Nat := x.bits / x.tables
def Index.edges (x : Index) : Nat := x.f 40 6
/-- FORMAT, D and stride of the full vectors (10 R259). -/
def Index.format (x : Index) : Nat := x.f 56 4
def Index.dim (x : Index) : Nat := x.f 64 13
def Index.stride (x : Index) : Nat := roundUp (x.dim * elemBytes x.format) 64
def Index.idLimit (x : Index) : Nat := x.f 96 40
def Index.attrVa (x : Index) : Nat := x.f 256 57
def Index.vectorVa (x : Index) : Nat := x.f 384 57
def Index.sideSize (x : Index) : Nat := 2 ^ x.f 576 5

/-- The area of a generation: A for generation 1, and the other one after each commit (10 R267, R286). -/
def Index.area (x : Index) (generation : Nat) : Nat := if generation % 2 = 1 then x.f 640 57 else x.f 704 57

/-- The address of a table's head bucket. -/
def Index.bucketVa (x : Index) (generation t b : Nat) : Nat := x.area generation + (t * 2 ^ x.f 48 5 + b) * 4096

/-- One round of the bucket hash. -/
def hashWord (h u : Nat) : Nat :=
  let h := (h ^^^ u) * 0x9E3779B97F4A7C15 % 2 ^ 64
  h ^^^ (h / 2 ^ 29)

/-- The bucket number of a substring in table t (10 R266). -/
def Index.bucket (x : Index) (t u : Nat) : Nat :=
  let h := (List.range (ceilDiv x.sub 64)).foldl (fun h w => hashWord h (bitsOf u (64 * w) 64)) (x.f 832 64 ^^^ t)
  h / 2 ^ (64 - x.f 48 5)

/-- Substring t of a code. -/
def Index.substring (x : Index) (code t : Nat) : Nat := bitsOf code (t * x.sub) x.sub

/-! ### The query block (10 R269) -/

/-- A query: its header of 64 bytes, its code, and its vector as binary32 elements. -/
structure Query where
  head : Nat
  code : Nat
  vec : List Nat
  deriving DecidableEq, Repr

def Query.f (q : Query) (lo w : Nat) : Nat := bitsOf q.head lo w
def Query.k (q : Query) : Nat := q.f 32 11
def Query.filter (q : Query) : Nat := q.f 56 2
def Query.rerank (q : Query) : Nat := q.f 58 2
def Query.metric (q : Query) : Nat := q.f 60 2
def Query.mode (q : Query) : Nat := q.f 62 2
/-- Whether the query's vector is read. -/
def Query.scores (q : Query) : Bool := q.rerank ≠ 0 || q.mode = 2
/-- Entries that the candidate list keeps (10 R272). -/
def Query.keeps (q : Query) : Nat := if q.rerank = 0 then q.k else q.f 96 11

/-- The fields of Table 10-7. -/
def queryFields : List (Nat × Nat) :=
  [(0, 16), (16, 8), (32, 11), (48, 3), (51, 2), (56, 2), (58, 2), (60, 2), (62, 2), (64, 32), (96, 11), (112, 7), (128, 32),
    (160, 32), (192, 57), (256, 8), (264, 8), (272, 8), (280, 8), (288, 40), (352, 40)]

/-- The rectangle of a re-rank by the grid. -/
def Query.rect (q : Query) : Launch :=
  { x0 := q.f 256 8, y0 := q.f 264 8, w := q.f 272 8, h := q.f 280 8, order := 0, claimed := false, entry := 0,
    startTime := 0, ended := [], excs := [], status := .ok, compare := false }

/-- Whether a rectangle lies on the grid, and is not empty. -/
def Launch.onGrid (l : Launch) : Bool :=
  l.x0 < 160 && l.y0 < 160 && 1 ≤ l.w && 1 ≤ l.h && l.x0 + l.w ≤ 160 && l.y0 + l.h ≤ 160

/-- Whether a query keeps Table 10-7 and the further checks of R269. -/
def Query.ok (q : Query) (x : Index) : Bool :=
  q.f 0 16 = 0x9E41 && q.f 16 8 = 1 && q.head &&& fieldMask queryFields = q.head &&
    1 ≤ q.k && q.k ≤ 1024 && q.f 48 3 + q.f 51 2 ≤ 7 && q.f 48 3 + q.f 51 2 ≤ x.sub &&
    q.filter ≤ 2 && q.rerank ≤ 2 && q.metric ≤ 2 && q.mode ≤ 2 && (q.scores || q.metric = 0) &&
    (if q.rerank = 0 then q.f 96 11 = 0 else q.k ≤ q.f 96 11 && q.f 96 11 ≤ 1024) &&
    q.f 112 7 ≤ 64 && (x.edges ≠ 0 || q.f 112 7 = 0) && (q.rerank ≠ 2 || q.rect.onGrid) &&
    (q.mode = 0 || (1 ≤ q.f 352 40 && q.f 288 40 + q.f 352 40 ≤ x.idLimit)) &&
    (q.filter ≠ 2 || x.attrVa ≠ 0) && (!q.scores || x.vectorVa ≠ 0) &&
    (q.mode ≠ 2 || (q.rerank = 0 && q.f 112 7 = 0))

/-- The query that a block holds. -/
def queryOf (x : Index) (bs : List Byte) : Query :=
  { head := leNat (bs.take 64), code := leNat ((bs.drop 64).take 128) % 2 ^ x.bits,
    vec := (List.range x.dim).map fun i => leNat ((bs.drop (192 + 4 * i)).take 4) }

/-- Reads a query block: its header and code, and its vector where it is used. -/
def readQuery (w : Who) (asid va : Nat) (x : Index) : Eng (List Byte) := do
  let head ← readVa w asid va 192
  if (queryOf x head).scores then do
    let vec ← readVa w asid (va + 192) (4 * x.dim)
    pure (head ++ vec)
  else pure head

/-! ### A search of one index (10 R271 to R279) -/

/-- A search that runs: who reads, its key, its index and snapshot, its query, and the key of its waiting rectangle. -/
structure Job where
  who : Who
  seq : Option Nat
  key : Nat
  rectKey : Nat
  x : Index
  q : Query
  generation : Nat
  head : Nat
  tail : Nat
  deriving DecidableEq, Repr

/-- How far a search has come: the ids seen, the best candidates, the budget spent, the buckets read, the counts, the status
met, whether it has ended early or expansion met the end of the budget, the radius being probed, code words compared, vectors scored, and buckets whose CRC failed. -/
structure Probe where
  seen : List Nat
  best : List Hit
  spent : Nat
  read : List Nat
  counts : SearchCounts
  st : Status
  ended : Bool
  out : Bool
  rho : Nat
  compared : Nat
  scored : Nat
  badBuckets : Nat
  deriving DecidableEq, Repr

def SearchCounts.zero : SearchCounts :=
  { hit := false, widened := 0, radius := 8, buckets := 0, considered := 0, deadEdges := 0, filtered := 0, tombstoned := 0,
    sideScanned := 0, generation := 0 }

def Probe.fresh (generation : Nat) : Probe :=
  { seen := [], best := [], spent := 0, read := [], counts := { SearchCounts.zero with generation }, st := .ok, ended := false, out := false,
    rho := 0, compared := 0, scored := 0, badBuckets := 0 }

/-- A failure ends the search early. -/
def Probe.fail (p : Probe) (st : Status) : Probe := { p with st := p.st.join st, ended := true }

/-- An id whose code, attribute, edge or vector line is poisoned is dropped, and the search completes POISONED (10 R279). -/
def Probe.drop (p : Probe) (id : Nat) : Probe :=
  { p with st := p.st.join .poisoned, best := p.best.filter fun h => h.id ≠ id }

/-- Whether probing leaves its loops. -/
def Probe.leaves (p : Probe) : Bool := p.ended || p.counts.hit

/-- Puts an entry into a ranked list of at most `n`. -/
def offer (before : Hit → Hit → Bool) (n : Nat) (h : Hit) (l : List Hit) : List Hit :=
  (l.takeWhile (before · h) ++ h :: l.dropWhile (before · h)).take n

/-- Ranking by HAM, then by lower id (10 R272). -/
def byHam (a b : Hit) : Bool := a.ham < b.ham || (a.ham = b.ham && a.id < b.id)

/-- Ranking by score under a metric, NaN last, then by lower id (10 R277). -/
def byScore (metric : Nat) (a b : Hit) : Bool :=
  let x := binary32.read a.score
  let y := binary32.read b.score
  let first := if metric = 2 then x.lt y else y.lt x
  let last := if metric = 2 then y.lt x else x.lt y
  if x.isNan || y.isNan then (!x.isNan && y.isNan) || (x.isNan && y.isNan && a.id < b.id)
  else first || (!last && a.id < b.id)

/-- Whether the tombstone bit of an id is set. -/
def deleted (j : Job) (id : Nat) : Eng Bool := do
  pure (bitOf (← readNat j.who j.x.asid (j.x.f 448 57 + id / 8) 1) (id % 8))

/-- The attribute of an id, 0 without an attribute array; none if its line is poisoned. -/
def attrOf (j : Job) (id : Nat) : Eng (Option Nat) := do
  if j.x.attrVa = 0 then pure (some 0)
  else do
    let (bs, p) ← readVaP j.who j.x.asid (j.x.attrVa + 4 * id) 4
    pure (if p then none else some (leNat bs))

/-- Whether the filter admits an id (10 R273). -/
def admits (j : Job) (id attr : Nat) : Eng Bool := do
  if j.q.filter = 1 then do
    pure (bitOf (← readNat j.who j.x.asid (j.q.f 192 57 + id / 8) 1) (id % 8))
  else pure (j.q.filter ≠ 2 || (j.q.f 128 32 ≤ attr && attr ≤ j.q.f 160 32))

/-- Population count of the low `n` bits. -/
def popcount (n v : Nat) : Nat := ((List.range n).filter (bitOf v)).length

/-! #### Scores (10 R277) -/

/-- The binary32 value of a sum of terms, from draw `d` (03 R76). -/
def sum32 (d : Nat) (terms : List Num) : Num := binary32.read (binary32.write (sumTerms d terms).1).1

/-- A norm: a binary32 sum of squares followed by a square root. -/
def norm32 (d : Nat) (xs : List Num) : Num :=
  binary32.read (binary32.write (sum32 d (xs.map fun x => x.mul x)).sqrt).1

/-- The score of a vector under a metric, as binary32 bits, from draw `d`: a zero norm gives NaN. -/
def scoreOf (d metric : Nat) (qs xs : List Num) : Nat :=
  let n := xs.length
  match metric with
  | 0 => (binary32.write (sum32 d (List.zipWith Num.mul qs xs))).1
  | 1 =>
    let a := norm32 (d + n) qs
    let b := norm32 (d + 2 * n) xs
    if a.eqv (.fin false 0 0) || b.eqv (.fin false 0 0) then binary32.nanCode
    else
      let ab := binary32.read (binary32.write (a.mul b)).1
      (binary32.write ((sum32 d (List.zipWith Num.mul qs xs)).div ab)).1
  | _ => (binary32.write (sum32 d (List.zipWith (fun q x => let e := q.add x.negate; e.mul e) qs xs))).1

/-- Reads the full vector of an id and scores it; none if a line of it is poisoned. -/
def score (j : Job) (id : Nat) : Eng (Option Nat) := do
  let k := elemBytes j.x.format
  let (bs, p) ← readVaP j.who j.x.asid (j.x.vectorVa + j.x.stride * id) (j.x.dim * k)
  if p then pure none
  else do
    let xs := (List.range j.x.dim).map fun i => elemRead j.x.format (leNat ((bs.drop (k * i)).take k))
    let (d, s) := (← get).drawRun (3 * j.x.dim)
    set s
    pure (some (scoreOf d j.q.metric (j.q.vec.map binary32.read) xs))

/-! #### Candidates -/

/-- The code of an id is read and compared, or, in MODE 2, its vector is scored; the entry is offered to the best. -/
def compareId (j : Job) (p : Probe) (id attr : Nat) : Eng Probe := do
  if j.q.mode = 2 then do
    match ← attempt (score j id) with
    | .error st => pure (p.fail st)
    | .ok none => pure (p.drop id)
    | .ok (some v) =>
      pure { p with scored := p.scored + 1,
                    best := offer (byScore j.q.metric) j.q.keeps { id, ham := 0, score := v, attr } p.best }
  else do
    match ← attempt (readVaP j.who j.x.asid (j.x.f 192 57 + id * (j.x.bits / 8)) (j.x.bits / 8)) with
    | .error st => pure (p.fail st)
    | .ok (bs, bad) =>
      if bad then pure (p.drop id)
      else
        let h := popcount j.x.bits (leNat bs ^^^ j.q.code)
        pure { p with compared := p.compared + j.x.bits / 64,
                      best := offer byHam j.q.keeps { id, ham := h, score := 0, attr } p.best }

/-- Considers an id (10 R272). -/
def consider (j : Job) (p : Probe) (id : Nat) : Eng Probe := do
  if p.ended || p.seen.contains id then pure p
  else do
    let p := { p with seen := id :: p.seen, counts := { p.counts with considered := p.counts.considered + 1 } }
    match ← attempt (deleted j id) with
    | .error st => pure (p.fail st)
    | .ok true => pure { p with counts := { p.counts with tombstoned := p.counts.tombstoned + 1 } }
    | .ok false => do
      match ← attempt (attrOf j id) with
      | .error st => pure (p.fail st)
      | .ok none => pure (p.drop id)
      | .ok (some a) => do
        match ← attempt (admits j id a) with
        | .error st => pure (p.fail st)
        | .ok false => pure { p with counts := { p.counts with filtered := p.counts.filtered + 1 } }
        | .ok true => compareId j p id a

/-- Considers ids in order. -/
def considerAll (j : Job) (l : List Nat) (p : Probe) : Eng Probe := do
  match l with
  | [] => pure p
  | id :: rest => do
    let p ← consider j p id
    considerAll j rest p

/-- Considers `fuel` ids from one on, in ascending order (10 R278). -/
def considerRange (j : Job) (fuel id : Nat) (p : Probe) : Eng Probe := do
  match fuel with
  | 0 => pure p
  | k + 1 =>
    if p.ended then pure p
    else do
      let p ← consider j p id
      considerRange j k (id + 1) p

/-- Scans side-list positions from one on (10 R272). -/
def scanSide (j : Job) (fuel pos : Nat) (p : Probe) : Eng Probe := do
  match fuel with
  | 0 => pure p
  | k + 1 =>
    if p.ended then pure p
    else do
      match ← attempt (readNat j.who j.x.asid (j.x.f 512 57 + 8 * (pos % j.x.sideSize)) 8) with
      | .error st => pure (p.fail st)
      | .ok e => do
        let p ← consider j { p with counts := { p.counts with sideScanned := p.counts.sideScanned + 1 } } (e % 2 ^ 40)
        scanSide j k (pos + 1) p

/-! #### Buckets -/

/-- Whether the CRC of a bucket holds (10 Table 10-5). -/
def bucketCrcOk (bs : List Byte) : Bool := crc32c (bs.take 60 ++ bs.drop 64) = bitsOf (leNat (bs.take 64)) 480 32

/-- Whether a bucket's MARKER, TABLE, BUCKET and GENERATION match its place (10 R279). -/
def bucketPlaced (bs : List Byte) (generation t b : Nat) : Bool :=
  let h := leNat (bs.take 64)
  bitsOf h 0 16 = 0xB0C7 && bitsOf h 16 3 = t && bitsOf h 128 32 = b && bitsOf h 192 64 = generation

/-- The ids of a bucket, and its NEXT. -/
def bucketIds (bs : List Byte) : List Nat :=
  (List.range (min (bitsOf (leNat (bs.take 64)) 32 10) 806)).map fun i => leNat ((bs.drop (64 + 5 * i)).take 5)
def bucketNext (bs : List Byte) : Nat := bitsOf (leNat (bs.take 64)) 64 57

/-- Reads a bucket in its place, with its checks. -/
def readBucket (w : Who) (x : Index) (generation t b va : Nat) : Eng (List Byte) := do
  let bs ← readVa w x.asid va 4096
  needE (bucketCrcOk bs) .crcMismatch
  needE (bucketPlaced bs generation t b) .badDescriptor
  pure bs

/-- The probe budget of a query (10 Tables 10-3 and 10-7). -/
def State.budget (s : State) (j : Job) : Nat :=
  if j.q.f 64 32 ≠ 0 then j.q.f 64 32 else if j.x.f 160 32 ≠ 0 then j.x.f 160 32 else s.val (dkey 0x7005 0)

/-- Buckets that an area holds at most. -/
def Index.areaBuckets (x : Index) : Nat := x.f 768 32 * 16

/-- Probes a chain from the bucket at `va` on. -/
def probeChain (j : Job) (t b : Nat) (fuel va : Nat) (p : Probe) : Eng Probe := do
  match fuel with
  | 0 => pure p
  | k + 1 =>
    if p.leaves || p.read.contains va then pure p
    else if p.spent ≥ (← get).budget j then pure { p with counts := { p.counts with hit := true } }
    else do
      let p := { p with spent := p.spent + 1, read := va :: p.read, counts := { p.counts with buckets := p.counts.buckets + 1 } }
      match ← attempt (readBucket j.who j.x j.generation t b va) with
      | .error st => pure { p.fail st with badBuckets := p.badBuckets + bit (st = .crcMismatch) }
      | .ok bs => do
        let p ← considerAll j (bucketIds bs) p
        if bucketNext bs = 0 then pure p else probeChain j t b k (bucketNext bs) p

/-- Probes the bucket of one mask in table t. -/
def probeMask (j : Job) (t mask : Nat) (p : Probe) : Eng Probe :=
  let b := j.x.bucket t (j.x.substring j.q.code t ^^^ mask)
  probeChain j t b (j.x.areaBuckets + 1) (j.x.bucketVa j.generation t b) p

/-- The next number with as many ones. -/
def nextMask (x : Nat) : Nat :=
  let c := x &&& (2 ^ bitLen x - x)
  let r := x + c
  if c = 0 then 0 else ((r ^^^ x) / 4 / c) ||| r

/-- Probes table t with the masks from one on, in ascending order. -/
def probeMasks (j : Job) (t : Nat) (fuel mask : Nat) (p : Probe) : Eng Probe := do
  match fuel with
  | 0 => pure p
  | k + 1 =>
    if p.leaves || mask ≥ 2 ^ j.x.sub then pure p
    else do
      let p ← probeMask j t mask p
      if mask = 0 then pure p else probeMasks j t k (nextMask mask) p

/-- Masks of n bits with r ones. -/
def binomial (n r : Nat) : Nat :=
  match r with
  | 0 => 1
  | k + 1 => binomial n k * (n - k) / (k + 1)

/-- Probes the tables of a list at one radius. -/
def probeTables (j : Job) (rho : Nat) (l : List Nat) (p : Probe) : Eng Probe := do
  match l with
  | [] => pure p
  | t :: rest => do
    let p ← probeMasks j t (binomial j.x.sub rho) (2 ^ rho - 1) p
    probeTables j rho rest p

/-- Probes radii from `p.rho` on. -/
def probeRadii (j : Job) (fuel : Nat) (p : Probe) : Eng Probe := do
  match fuel with
  | 0 => pure p
  | k + 1 =>
    if p.leaves then pure p
    else do
      let p ← probeTables j p.rho (List.range j.x.tables) p
      if p.leaves then pure p else probeRadii j k { p with rho := p.rho + 1 }

/-- Probing with its widening passes (10 R272, R274). -/
def widen (j : Job) (fuel : Nat) (p : Probe) : Eng Probe := do
  let p ← probeRadii j (j.q.f 48 3 + p.counts.widened + 1 - p.rho) p
  match fuel with
  | 0 => pure p
  | k + 1 =>
    if p.leaves || p.best.length ≥ j.q.k then pure p
    else widen j k { p with counts := { p.counts with widened := p.counts.widened + 1 } }

/-! #### Neighbour expansion (10 R275) -/

/-- Follows one edge. -/
def followEdge (j : Job) (e : Nat) (p : Probe) : Eng Probe := do
  if p.ended || p.out || e ≥ j.x.idLimit then pure p
  else do
    match ← attempt (deleted j e) with
    | .error st => pure (p.fail st)
    | .ok true => pure { p with counts := { p.counts with deadEdges := p.counts.deadEdges + 1 } }
    | .ok false =>
      if p.seen.contains e then pure p
      else if p.spent ≥ (← get).budget j then pure { p with counts := { p.counts with hit := true }, out := true }
      else consider j { p with spent := p.spent + 1 } e

/-- Follows the edge slots of an entry from one on; a poisoned edge line drops the entry. -/
def followSlots (j : Job) (id fuel i : Nat) (p : Probe) : Eng Probe := do
  match fuel with
  | 0 => pure p
  | k + 1 =>
    if p.ended || p.out then pure p
    else do
      match ← attempt (readVaP j.who j.x.asid (j.x.f 320 57 + 8 * j.x.edges * id + 8 * i) 8) with
      | .error st => pure (p.fail st)
      | .ok (bs, bad) =>
        if bad then pure (p.drop id)
        else do
          let p ← followEdge j (leNat bs) p
          followSlots j id k (i + 1) p

/-- Follows the edges of some entries. -/
def expand (j : Job) (l : List Hit) (p : Probe) : Eng Probe := do
  match l with
  | [] => pure p
  | h :: rest =>
    if p.ended || p.out then pure p
    else do
      let p ← followSlots j h.id j.x.edges 0 p
      expand j rest p

/-! #### Re-rank (10 R277) -/

/-- Scores entries and ranks them, at most K. -/
def rerankAll (j : Job) (l : List Hit) (out : List Hit) (p : Probe) : Eng Probe := do
  match l with
  | [] => pure { p with best := out }
  | h :: rest =>
    match ← attempt (score j h.id) with
    | .error st => pure { p.fail st with best := out }
    | .ok none => rerankAll j rest out { p with st := p.st.join .poisoned }
    | .ok (some v) =>
      rerankAll j rest (offer (byScore j.q.metric) j.q.k { h with score := v } out) { p with scored := p.scored + 1 }

/-- A core of a re-rank's rectangle is prepared as for a LAUNCH, and its kernel of the device ends: it leaves free values in
the scratchpad (08 R222, 10 R277). -/
def State.rerankCore (s : State) (j : Job) (n : Nat) : State :=
  let tenant := j.who.tenant
  let s := s.tenantChange n fun c => c.tenant ≠ tenant
  let s :=
    if (s.core n).holder = some tenant then s
    else (List.range 4).foldl (fun s q => s.emptyQueue (n * 4 + q)) (s.zeroRange (scratchBase n) 0x2_0000)
  let (d, s) := s.drawRun 0x2_0000
  let bs := (List.range 0x2_0000).map fun i => BitVec.ofNat 8 (Config.freeValue (d + i))
  let s := { s with mem := memWrite s.mem (scratchBase n) bs }
  s.updCore n fun c =>
    { Core.initial with asid := j.x.asid, tenant, holder := some tenant, trackOrder := c.trackOrder, armed := c.armed,
                        available := c.available, testing := c.testing, lastRun := s.time }

/-- Claims the rectangle of a RERANK 2 as a LAUNCH does, and waits for it (08 R221). -/
def claimRect (j : Job) : Eng Unit := do
  let s ← get
  match SMap.look s.grid.launches j.rectKey with
  | none => do
    needE ((rectCores (j.q.f 256 8) (j.q.f 264 8) (j.q.f 272 8) (j.q.f 280 8)).all fun n => (s.core n).available) .resource
    let l := { j.q.rect with order := s.grid.launchOrder }
    set { s with grid := { s.grid with launches := SMap.put s.grid.launches j.rectKey l, launchOrder := s.grid.launchOrder + 1 } }
    if s.mayClaim l then pure () else waitE
  | some l => holdE (s.mayClaim l)
  modify fun s =>
    let s := (rectCores (j.q.f 256 8) (j.q.f 264 8) (j.q.f 272 8) (j.q.f 280 8)).foldl (fun s n => s.rerankCore j n) s
    { s with grid := { s.grid with launches := SMap.del s.grid.launches j.rectKey } }

/-- The re-rank of the candidates. -/
def rerank (j : Job) (p : Probe) : Eng Probe := do
  if p.ended || j.q.rerank = 0 then pure { p with best := p.best.take j.q.k }
  else do
    let p ← rerankAll j p.best [] p
    if j.q.rerank = 2 then
      match ← attempt (claimRect j) with
      | .error st => pure (p.fail st)
      | .ok _ => pure p
    else pure p

/-- The whole search of one index over its snapshot. -/
def searchIndex (j : Job) : Eng Probe := do
  let p := Probe.fresh j.generation
  if j.q.mode = 0 then do
    let p ← scanSide j (j.tail - j.head) j.head p
    let p ← widen j (j.q.f 51 2) p
    let rEnd := j.q.f 48 3 + p.counts.widened
    let (d, s) := (← get).draw
    set s
    let radius := if !p.leaves then rEnd else if p.rho = 0 then d % 8 else p.rho - 1
    let p := { p with counts := { p.counts with radius } }
    let p ← expand j (p.best.take (j.q.f 112 7)) p
    rerank j p
  else do
    let p ← considerRange j (j.q.f 352 40) (j.q.f 288 40) p
    rerank j { p with counts := { p.counts with radius := 0 } }

/-! ### Results (10 R270) -/

/-- What one search gives: its status, its entries with global ids, and its counts. -/
structure Found where
  st : Status
  hits : List Hit
  counts : SearchCounts
  deriving DecidableEq, Repr

/-- A 32-bit count that saturates. -/
def sat32 (n : Nat) : Nat := min n (2 ^ 32 - 1)

/-- A result entry (10 Table 10-9). -/
def Hit.bytes (h : Hit) : List Byte := leBytes 16 (pack [(h.id, 48), (h.ham, 16), (h.score, 32), (h.attr, 32)])

/-- The entry that 16 bytes hold. -/
def hitOf (bs : List Byte) : Hit :=
  let v := leNat (bs.take 16)
  { id := bitsOf v 0 48, ham := bitsOf v 48 16, score := bitsOf v 64 32, attr := bitsOf v 96 32 }

/-- The result header (10 Table 10-8). -/
def resultHeader (n failed : Nat) (c : SearchCounts) : List Byte :=
  leBytes 64 (pack [(n, 11), (bit c.hit, 1), (c.widened, 2), (0, 2), (c.radius, 3), (0, 13), (sat32 c.buckets, 32),
    (sat32 c.considered, 32), (sat32 c.deadEdges, 32), (sat32 c.filtered, 32), (sat32 c.tombstoned, 32), (c.generation, 64),
    (failed, 64), (sat32 c.sideScanned, 32)])

/-- The counts that a result header holds. -/
def countsOf (bs : List Byte) : SearchCounts :=
  let v := leNat (bs.take 64)
  { hit := bitOf v 11, widened := bitsOf v 12 2, radius := bitsOf v 16 3, buckets := bitsOf v 32 32,
    considered := bitsOf v 64 32, deadEdges := bitsOf v 96 32, filtered := bitsOf v 128 32, tombstoned := bitsOf v 160 32,
    sideScanned := bitsOf v 320 32, generation := bitsOf v 192 64 }

/-- The result area: header, entries in rank order, and padding entries. -/
def resultArea (k failed : Nat) (hits : List Hit) (c : SearchCounts) : List Byte :=
  resultHeader hits.length failed c ++ hits.flatMap Hit.bytes ++ List.replicate (16 * (k - hits.length)) 0xFF

/-! ### Search units and snapshots (10 R271, R280) -/

/-- A search takes a place of a unit: 64 units run 16 searches each. -/
def takeUnit (key : Nat) : Eng Unit := do
  let s ← get
  if s.idx.searchUnits.contains key then pure ()
  else do
    holdE (s.idx.searchUnits.length < 1024)
    set { s with idx := { s.idx with searchUnits := s.idx.searchUnits ++ [key] } }

/-- The index whose snapshot a running search holds, with the snapshot. -/
def State.snapshot? (s : State) (key : Nat) : Option (Index × Nat × Nat × Nat) :=
  firstSome (s.idx.indexes.map (·.2) ++ s.idx.ending) fun x =>
    (x.searches.find? fun (k, _) => k = key).map fun (_, v) => (x, v)

/-- A search ends: its snapshot, its place and its waiting rectangle are given back. -/
def State.endSearch (s : State) (key rectKey : Nat) : State :=
  let s := s.releaseUnits key
  { s with grid := { s.grid with launches := SMap.del s.grid.launches rectKey } }

/-- The snapshot of a search, taken at its first run. -/
def takeSnapshot (id key : Nat) : Eng (Index × Nat × Nat × Nat) := do
  let s ← get
  match s.snapshot? key with
  | some v => pure v
  | none =>
    match SMap.look s.idx.indexes id with
    | none => do
      set (s.releaseUnits key)
      failE .badDescriptor
    | some x => do
      let y := { x with searches := x.searches ++ [(key, x.generation, x.head, x.tail)] }
      set { s with idx := { s.idx with indexes := SMap.put s.idx.indexes id y } }
      pure (x, x.generation, x.head, x.tail)

/-- Counts of a search that has ended (10 Table 10-13), and its work (15 Table 15-1). -/
def State.countSearch (s : State) (j : Job) (p : Probe) (fewer : Bool) : State :=
  let s := ((s.bump (dkey 0x7002 0) 1).bump (dkey 0x7002 1) (bit fewer)).bump (dkey 0x7002 2) (bit p.counts.hit)
  let s := ((s.bump (dkey 0x7002 3) p.counts.widened).bump (dkey 0x7003 0) p.counts.deadEdges).bump (dkey 0x7003 1) p.counts.tombstoned
  let s := s.bump (dkey 0x7003 2) (p.badBuckets * (1 + s.val (dkey 0x3031 0)))
  let s := s.countWork j.who.tenant j.seq 1 8 p.compared
  s.countWork j.who.tenant j.seq 0 j.x.format (p.scored * j.x.dim)

/-- Runs a search of index `id` for a query block, from its snapshot to its end. It waits, or gives what it found. -/
def runSearch (w : Who) (seq : Option Nat) (id key rectKey : Nat) (block : List Byte) (package : Nat) : Eng Found := do
  takeUnit key
  let (x, generation, head, tail) ← takeSnapshot id key
  let q := queryOf x block
  let j : Job := { who := w, seq, key, rectKey, x, q, generation, head, tail }
  let p ← searchIndex j
  let st := p.st.join (if p.best.length < q.k then .fewer else .ok)
  modify fun s => (s.countSearch j p (st = .fewer)).endSearch key rectKey
  pure { st, hits := p.best.map fun h => { h with id := h.id + package * 2 ^ 42 }, counts := p.counts }

/-! ### SEARCH (10 R268 to R270) -/

/-- The descriptor's fields are kept, and its index exists and belongs to the tenant. -/
def searchIndexOf (sl : Slot) : Eng Index := do
  match SMap.look (← get).idx.indexes (sl.id 128 10) with
  | some x => do
    needE (x.tenant = sl.tenant) .notPermitted
    pure x
  | none => failE .badDescriptor

/-- Keeps the result, to be written: marks hold 2, the status, n, the failed shards, the area's length, and its lines. -/
def keepResult (n : Nat) (k failed : Nat) (f : Found) : Eng Unit := do
  let area := resultArea k failed f.hits f.counts
  let lines := (chunksOf 64 area.length area).map leNat
  modify fun s => s.updSlot n fun x =>
    { x with marks := 2 :: f.st.code :: f.hits.length :: failed :: area.length :: lines, cursor := 0, resp := [] }

/-- Writes the kept result line by line, and completes (10 R270). -/
def writeResult (w : Who) (n : Nat) : Eng (Status × Nat × Nat) := do
  let sl ← getSlot n
  let m := fun i => sl.marks.getD i 0
  units w n (ceilDiv (m 4) 64) fun i =>
    writeVa w sl.asid (sl.f 256 57 + 64 * i) (leBytes (min 64 (m 4 - 64 * i)) (m (5 + i)))
  pure ((statusOf (m 1)).getD .ok, m 2, m 3)

/-! ### Sharded searches (10 R288, R289) -/

/-- The empty merge of a set of shards. -/
def Merging.fresh (mask : Nat) : Merging :=
  { awaited := (List.range 64).filter (bitOf mask), failed := [], twin := false, hits := [], counts := .zero }

/-- Merges the counts of a shard into the sum. -/
def SearchCounts.merge (a b : SearchCounts) : SearchCounts :=
  { hit := a.hit || b.hit, widened := max a.widened b.widened, radius := min a.radius b.radius,
    buckets := sat32 (a.buckets + b.buckets), considered := sat32 (a.considered + b.considered),
    deadEdges := sat32 (a.deadEdges + b.deadEdges), filtered := sat32 (a.filtered + b.filtered),
    tombstoned := sat32 (a.tombstoned + b.tombstoned), sideScanned := sat32 (a.sideScanned + b.sideScanned),
    generation := a.generation }

/-- A shard's result is merged (10 R289). -/
def Merging.take (m : Merging) (q : Query) (p : Nat) (own twin : Bool) (f : Found) : Merging :=
  let rank := if q.scores then byScore q.metric else byHam
  let counts := m.counts.merge f.counts
  { awaited := m.awaited.filter (· ≠ p)
    failed := if f.st.isOk then m.failed else m.failed ++ [(p, f.st)]
    twin := m.twin || twin
    hits := f.hits.foldl (fun l h => offer rank q.k h l) m.hits
    counts := if own then { counts with generation := f.counts.generation } else counts }

/-- A shard that gave nothing has failed. -/
def Merging.lose (m : Merging) (p : Nat) (st : Status) : Merging :=
  if m.awaited.contains p then { m with awaited := m.awaited.filter (· ≠ p), failed := m.failed ++ [(p, st)] } else m

/-- What a sharded search gives once no shard is awaited. -/
def Merging.found (m : Merging) (k : Nat) : Found × Nat :=
  let good : Status := if m.twin then .resumedByTwin else if m.hits.length < k then .fewer else .ok
  ({ st := (m.failed.headD (0, good)).2, hits := m.hits, counts := m.counts }, (m.failed.map fun (p, _) => 2 ^ p).sum)

def State.setMerging (s : State) (n : Nat) (m : Merging) : State :=
  { s with idx := { s.idx with merging := SMap.put s.idx.merging n m } }

/-- Sends the query to the shards of other packages that have not been asked (10 R288). -/
def sendLegs (w : Who) (n : Nat) (sl : Slot) (block : List Byte) (l : List Nat) : Eng Unit := do
  match l with
  | [] => pure ()
  | p :: rest => do
    let s ← get
    if p = s.ringOwn sl.ring || s.inFlight (.slotPart n) p 0 then pure ()
    else if !s.answersTo p && (SMap.look s.fab.routes p).isNone then
      set (s.setMerging n ((SMap.get s.idx.merging n (.fresh 0)).lose p .targetDead))
    else do
      let h : Head := { type := 0x04, dst := p, tenant := w.tenant }
      match ← attempt (sendRequest h (partPayload 0x60 1 sl.seq sl.desc block) (.slotPart n)) with
      | .ok _ => pure ()
      | .error st => modify fun s => s.setMerging n ((SMap.get s.idx.merging n (.fresh 0)).lose p st)
    sendLegs w n sl block rest

/-- The shard of this package, if it is awaited: R288 decides its status as any shard's. -/
def ownLeg (w : Who) (n : Nat) (sl : Slot) (q : Query) (block : List Byte) : Eng Unit := do
  let s ← get
  let m := SMap.get s.idx.merging n (.fresh 0)
  let own := s.ringOwn sl.ring
  if m.awaited.contains own then do
    let r ← attempt (runSearch w (some sl.seq) (sl.id 128 10) sl.seq n block own)
    modify fun s =>
      let m := SMap.get s.idx.merging n (.fresh 0)
      s.setMerging n (match r with
        | .ok f => m.take q own true false f
        | .error st => m.lose own st)
  else pure ()

/-- A sharded SEARCH, once its query block is read. -/
def searchShards (w : Who) (n : Nat) (sl : Slot) (x : Index) (block : List Byte) : Eng Unit := do
  let q := queryOf x block
  let s ← get
  if SMap.has s.idx.merging n then pure () else set (s.setMerging n (.fresh (sl.f 320 64)))
  if sl.cursor ≠ 0 then modify fun s =>
    let m := SMap.get s.idx.merging n (.fresh 0)
    let m := if sl.cursor = Status.timeout.code then m.awaited.foldl (fun m p => m.lose p .timeout) m
      else m.lose (s.ringOwn sl.ring) .faultUnresolved
    ((s.setMerging n m).endSearch sl.seq n).updSlot n fun x => { x with cursor := 0 }
  else do
    sendLegs w n sl block (SMap.get (← get).idx.merging n (.fresh 0)).awaited
    ownLeg w n sl q block
  let s ← get
  let m := SMap.get s.idx.merging n (.fresh 0)
  holdE m.awaited.isEmpty
  let (f, failed) := m.found q.k
  let (d, t) := s.draw
  if f.counts.radius > 7 then set t else pure ()
  let f := if f.counts.radius > 7 then { f with counts := { f.counts with radius := d % 8 } } else f
  modify fun s => { s with idx := { s.idx with merging := SMap.del s.idx.merging n } }
  keepResult n q.k failed f

/-- What a search writes whose time limit has passed, or whose fault was failed: no entries (06 R162, 04 R101, 10 R279). -/
def cutShort (x : Index) (n : Nat) (sl : Slot) (block : List Byte) : Eng Unit := do
  let q := queryOf x block
  let (d, s) := (← get).draw
  set (s.endSearch sl.seq n)
  keepResult n q.k 0 { st := (statusOf sl.cursor).getD .timeout, hits := [], counts := { SearchCounts.zero with radius := d % 8 } }

/-- The query block of a SEARCH, read once: marks hold 1 and the block. -/
def queryBlock (w : Who) (n : Nat) (sl : Slot) (x : Index) : Eng (List Byte) := do
  if sl.marks.headD 0 = 1 then
    pure (leBytes (192 + 4 * x.dim) (sl.marks.getD 1 0))
  else do
    needE (sl.f 192 57 % 64 = 0 && sl.f 256 57 % 64 = 0) .badDescriptor
    let block ← readQuery w sl.asid (sl.f 192 57) x
    needE ((queryOf x block).ok x) .badDescriptor
    modify fun s => s.updSlot n fun y => { y with marks := [1, leNat block], cursor := 0, resp := [] }
    pure block

/-- The body of a SEARCH: the query, the search or the shards, and the result. -/
def searchBody (n : Nat) (sl : Slot) : Eng (Status × Nat × Nat) := do
  let w := sl.who n 1
  if sl.marks.headD 0 ≠ 2 then do
    let s ← get
    let x ← match s.snapshot? sl.seq with
      | some (x, _) => pure x
      | none => searchIndexOf sl
    let block ← queryBlock w n sl x
    if sl.f 138 1 = 1 then searchShards w n (← getSlot n) x block
    else if sl.marks.headD 0 = 1 && sl.cursor ≠ 0 then cutShort x n sl block
    else do
      let f ← runSearch w (some sl.seq) (sl.id 128 10) sl.seq n block (s.ringOwn sl.ring)
      keepResult n (queryOf x block).k 0 f
  else pure ()
  writeResult w n

/-- Whether a SEARCH has or finds a place of a unit. -/
def State.placeFree (s : State) (sl : Slot) : Bool :=
  s.idx.searchUnits.contains sl.seq || s.idx.searchUnits.length < 1024

/-- SEARCH (10 R268 to R280): it runs, or, where every unit holds 16 searches, waits for one. -/
def execSearch (slot : Nat) (s : State) : Out :=
  .next (runSlotIf 0x60 slot (fun sl => sl.stage ≠ .waiting) (fun sl => do
    let s ← get
    if sl.marks.isEmpty && !s.placeFree sl then do
      modify fun s => s.updSlot slot fun x => { x with stage := .waiting, waitSince := s.time }
      waitE
    else searchBody slot sl) s)

/-- SEARCH_START: a waiting SEARCH obtains a search unit and begins, the one that has waited longest first (10 R280). -/
def execSearchStart (slot : Nat) (s : State) : Out :=
  .next <| match s.slot? slot with
  | none => s
  | some sl =>
    if sl.opcode = 0x60 && sl.stage = .waiting && s.placeFree sl then
      let s := s.setSlot slot { sl with stage := .running }
      runSlot 0x60 slot (searchBody slot) s
    else s

/-! ### Search legs (10 R288 to R290) -/

/-- The key of another package's search leg. -/
def legKey (q : Head) : Nat := 2 ^ 64 + requestKey q

/-- SEARCH_LEG: a shard package runs a leg on its own index, or, for the id of its lost twin, on the twin's (10 R290). -/
def legBody (packet : Packet) (q : Head) : Eng (Head × List Byte × List Nat) := do
  let s ← get
  let id := fld (partDesc packet) 128 10 + s.partSpace q 10
  let x ← match s.snapshot? (legKey q), SMap.look s.idx.indexes id with
    | some (x, _), _ => pure x
    | none, some x => pure x
    | none, none => failE .badDescriptor
  needE (x.tenant = q.tenant) .notPermitted
  let block := partInputs packet
  needE ((queryOf x block).ok x) .badDescriptor
  let f ← runSearch (partWho q 1) none id (legKey q) (2 ^ 20 + requestKey q) block q.dst
  pure (plainHead q f.st, partAnswer packet (resultHeader f.hits.length 0 f.counts ++ f.hits.flatMap Hit.bytes), [])

/-- SEARCH_LEG: a leg runs over this package's shard (10 R288, R289). -/
def execSearchLeg (packet : Packet) (s : State) : Out :=
  .next (if partKind packet ≠ 1 then s else serve 0x04 packet (legBody packet) s)

/-- What a leg's answer holds. -/
def foundOf (k : Packet) (st : Status) : Found :=
  let bs := partInputs k
  if bs.length < 64 then { st, hits := [], counts := { SearchCounts.zero with radius := 8 } }
  else
    { st, hits := (List.range (bitsOf (leNat (bs.take 64)) 0 11)).map fun i => hitOf (bs.drop (64 + 16 * i)), counts := countsOf bs }

/-- SHARD_RESULT: a shard's list reaches the merge unit (10 R289); one that comes after the search has ended is dropped. -/
def State.shardResult (s : State) (packet : Packet) (q : Request) : State :=
  let r := packetHead packet
  match q.purpose with
  | .slotPart n =>
    let s := s.freeTag r.tag
    match SMap.look s.idx.merging n, s.slot? n with
    | some m, some sl =>
      if !m.awaited.contains q.dst || partSeq q.packet ≠ sl.seq then s
      else
        let st := (statusOf r.status).getD .targetDead
        let twin := s.answerStatus q r = 2 || s.fab.rerouted.contains q.dst
        let query : Query := { head := leNat ((partInputs q.packet).take 64), code := 0, vec := [] }
        s.setMerging n (m.take query q.dst false twin (foundOf packet st))
    | _, _ => s
  | _ => s

/-- SHARD_RESULT: a shard's list reaches the merge unit (10 R289). -/
def execShardResult (packet : Packet) (s : State) : Out :=
  .next <| match s.answered? packet with
    | some q => if q.type = 0x04 && partKind q.packet = 1 && s.isMine (packetHead packet) then s.shardResult packet q else s
    | none => s

end Sys2Proof.Machine
end

