-- ==== Sys2Proof/Machine/Tables.lean ====
section
/-!
DEFINITION. Embedding tables (11 R293 to R317): tables and their members, GATHER, SCATTER, replacement, versions and pins,
and the parts of them that run for another member.
-/

namespace Sys2Proof.Machine

open Sys2Proof

/-! ### Tables and placement (11 R294 to R296) -/

def Table.f (x : Table) (lo w : Nat) : Nat := fld x.desc lo w
def Table.format (x : Table) : Nat := x.f 24 4
def Table.rowLen (x : Table) : Nat := x.f 32 13
def Table.rows (x : Table) : Nat := x.f 64 40
def Table.shadowVa (x : Table) : Nat := x.f 192 57

/-- Bytes of a row of `n` elements (11 R295). -/
def rowBytes (format n : Nat) : Nat := if format = 6 then n / 2 + n / 32 else n * elemBytes format

def Table.rowSize (x : Table) : Nat := rowBytes x.format x.rowLen
def Table.stride (x : Table) : Nat := roundUp x.rowSize 64

/-- Members in ascending package id. -/
def Table.members (x : Table) : List Nat := (List.range 64).filter (bitOf (x.f 320 64))

/-- The primary member: the table order is kept there (11 R296, R298). -/
def Table.primary (x : Table) : Nat := x.members.headD 0

/-- The member that holds a row, where the table is sharded. -/
def Table.owner (x : Table) (r : Nat) : Nat := x.members.getD (r % max x.members.length 1) 0

/-- The slot of a row on a member that holds it. -/
def Table.slotOf (x : Table) (r : Nat) : Nat := if x.replicated then r else r / max x.members.length 1

def Table.rowVa (x : Table) (r : Nat) : Nat := x.f 128 57 + x.slotOf r * x.stride
def Table.shadowRow (x : Table) (r : Nat) : Nat := x.shadowVa + x.slotOf r * x.stride
def Table.tagVa (x : Table) (r : Nat) : Nat := x.f 256 57 + 8 * x.slotOf r

/-- Pin retention in TCLK ticks (11 R294, R313). -/
def State.retain (s : State) (x : Table) : Nat :=
  usToTicks (1000 * (if x.f 384 32 = 0 then s.val (dkey 0x8001 1) else x.f 384 32))

def State.table? (s : State) (id : Nat) : Option Table := SMap.look s.emb.tables id
def State.setTable (s : State) (id : Nat) (x : Table) : State :=
  { s with emb := { s.emb with tables := SMap.put s.emb.tables id x } }
def State.updTable (s : State) (id : Nat) (f : Table → Table) : State :=
  { s with emb := { s.emb with tables := SMap.upd s.emb.tables id f } }

/-- The package whose table this is: this one, or the lost twin that it answers for. -/
def State.tableOwn (s : State) (id : Nat) : Nat := if id < 4096 then s.ownId else s.twin.answersFor.getD s.ownId

/-- The table that a number names. -/
def tableAt (id : Nat) : Eng Table := do
  match (← get).table? id with
  | some x => pure x
  | none => failE .badDescriptor

/-- The fields of Table 11-2. -/
def tableFields : List (Nat × Nat) :=
  [(0, 16), (16, 8), (24, 4), (32, 13), (64, 40), (128, 57), (192, 57), (256, 57), (320, 64), (384, 32), (480, 32)]

/-- Whether a descriptor keeps Table 11-2 and R295. -/
def Table.ok (x : Table) : Bool :=
  x.desc.toNat &&& fieldMask tableFields = x.desc.toNat && x.f 0 16 = 0xE3B7 && x.f 16 8 = 1 &&
    [0, 1, 3, 4, 6, 7].contains x.format && 1 ≤ x.rowLen && x.rowLen ≤ 4096 && (x.format ≠ 6 || x.rowLen % 32 = 0) &&
    1 ≤ x.rows && x.f 128 57 % 64 = 0

/-- A table as it is created: version 1, no replacement, no pins (11 R297). -/
def Table.fresh (tenant asid : Nat) (desc : Desc) (limit : Nat) : Table :=
  let x : Table := { tenant, asid, desc, replicated := false, version := 1, replacing := none, passed := none, doneTime := 0,
                     running := [], scatters := [], holds := [], resp := [] }
  { x with replicated := x.rows * x.stride ≤ limit }

/-! ### Rows -/

/-- The numbers that a row's bytes hold (11 R295, R302). -/
def rowNums (format n : Nat) (bs : List Byte) : List Num :=
  if format = 6 then
    (List.range n).map fun i =>
      let b := (bs.getD (i / 2) 0).toNat
      mxRead fmtE2m1 (bs.getD (n / 2 + i / 32) 0).toNat (if i % 2 = 0 then b % 16 else b / 16)
  else
    let k := elemBytes format
    (List.range n).map fun i => elemRead format (leNat ((bs.drop (k * i)).take k))

/-- Nibbles paired into bytes, the even one low. -/
def pairNibbles (fuel : Nat) (l : List Nat) : List Byte :=
  match fuel with
  | 0 => []
  | k + 1 => match l with
    | a :: b :: rest => BitVec.ofNat 8 (a + 16 * b) :: pairNibbles k rest
    | [a] => [BitVec.ofNat 8 a]
    | [] => []

/-- Numbers cut into blocks of 32. -/
def blocks32 (fuel : Nat) (l : List Num) : List (List Num) :=
  match fuel with
  | 0 => []
  | k + 1 => if l.isEmpty then [] else l.take 32 :: blocks32 k (l.drop 32)

/-- The bytes of a row of numbers (03 R70, R82). -/
def rowOf (format : Nat) (l : List Num) : List Byte :=
  if format = 6 then
    let blocks := (blocks32 l.length l).map fun b => mxWrite fmtE2m1 6 b
    (blocks.flatMap fun (_, es, _) => pairNibbles 16 es) ++ blocks.map fun (sc, _, _) => BitVec.ofNat 8 sc
  else l.flatMap fun x => leBytes (elemBytes format) (elemWrite format x)

/-- Element i of every row of a list. -/
def column (rows : List (List Num)) (i : Nat) : List Num := rows.map fun r => r.getD i .nan

/-- The integer value of an INT8 or INT32 number. -/
def numInt (x : Num) : Int := (x.toInt (-(2 ^ 31)) (2 ^ 31 - 1)).1

/-- The sum of one column: 32-bit two's complement for integers, binary32 or wider otherwise (03 R74, R76). -/
def sumColumn (ints : Bool) (d : Nat) (l : List Num) : Num :=
  if ints then .ofInt (signed 32 (wrap 32 ((l.map numInt).sum))) else (sumTerms d l).1

/-- The sums of the columns of rows of `n` elements, from draw `d`. -/
def sumRows (ints : Bool) (d n : Nat) (rows : List (List Num)) : List Num :=
  (List.range n).map fun i => sumColumn ints (d + i * rows.length) (column rows i)

/-- Reads a row of a slot array on this package; the Boolean says that it is poisoned. -/
def readRow (w : Who) (x : Table) (va : Nat) : Eng (List Byte × Bool) := readVaP w x.asid va x.rowSize

/-- Counts a row read (15 Table 15-1). -/
def countRow (tenant : Nat) (seq : Option Nat) (x : Table) : Eng Unit := modify fun s => s.countWork tenant seq 2 x.format 1

/-- Gains every local line of a range, so that its writes are one event (11 R306). -/
def claimRange (w : Who) (asid : Nat) (l : List (Nat × Nat)) : Eng Unit := do
  match l with
  | [] => pure ()
  | (va, _) :: rest => do
    let ga ← translate w asid va true
    match (← get).placeOf ga with
    | .here la => homeClaim w.tenant la
    | _ => pure ()
    claimRange w asid rest

/-- Writes a row whole, in one event (11 R306). -/
def writeRow (w : Who) (asid va : Nat) (bs : List Byte) (poison : Bool) : Eng Unit := do
  claimRange w asid (piecesOf va bs.length)
  writePieces w asid (piecesOf va bs.length) bs poison

/-- Whether the replacement from version w to w + 1 has passed a row here (11 R313). -/
def Table.passedRow (x : Table) (w r : Nat) : Bool :=
  match x.replacing, x.passed with
  | some p, q =>
    if w = x.version then p.first ≤ r && r < p.cursor
    else q.any fun (v, a, n) => v = w && a ≤ r && r < a + n
  | none, q => q.any fun (v, a, n) => v = w && a ≤ r && r < a + n

/-- Where a GATHER under a pin of a version, or under none, reads a row. -/
def Table.readVa (x : Table) (pin : Option Nat) (r : Nat) : Nat :=
  match pin with
  | some w => if x.passedRow w r then x.shadowRow r else x.rowVa r
  | none => x.rowVa r

/-- Adds a command to those that run on a table. -/
def joinTable (id key : Nat) : Eng Unit :=
  modify fun s => s.updTable id fun x => if x.running.contains key then x else { x with running := x.running ++ [key] }

/-! ### GATHER (11 R299 to R305) -/

/-- A padding entry. -/
def padEntry : Nat := 2 ^ 64 - 1

/-- Offsets of a bag block. -/
def bagOffsets (bags : Nat) (bs : List Byte) : List Nat := (List.range (bags + 1)).map fun i => leNat ((bs.drop (4 * i)).take 4)

/-- Whether offsets keep R300. -/
def offsetsOk (l : List Nat) : Bool :=
  l.headD 1 = 0 && (l.zip (l.drop 1)).all (fun (a, b) => a ≤ b && b ≤ a + 4096) && l.getLastD 0 ≤ 16777216

/-- Whether an index entry keeps R300. -/
def entryOk (e : Nat) : Bool := e = padEntry || e < 2 ^ 40

/-- Whether a GATHER's fields keep Table 11-3. -/
def gatherOk (sl : Slot) (x : Table) : Bool :=
  let o := sl.f 142 4
  (o ≤ 4 || o = 7 || (sl.f 140 2 = 0 && o = x.format)) && 1 ≤ sl.f 176 16 && sl.f 192 57 % 64 = 0 && sl.f 256 57 % 64 = 0

/-- Distance between output rows. -/
def outStride (sl : Slot) (x : Table) : Nat :=
  if sl.f 320 16 = 0 then roundUp (rowBytes (sl.f 142 4) x.rowLen) 64 else sl.f 320 16 * 64

/-- The pin that a GATHER reads under, checked once: its version, and whether it is stale (11 R313 to R315). -/
def gatherPin (sl : Slot) : Eng (Option Nat × Bool) := do
  if sl.f 160 16 = 0xFFFF then pure (none, false)
  else match SMap.look (← get).emb.pins (sl.id 160 16) with
    | none => failE .badDescriptor
    | some p => do
      needE (p.table = sl.id 128 12) .badDescriptor
      needE (p.tenant = sl.tenant) .notPermitted
      pure (if p.stale then none else some p.version, p.stale)

/-- Reads rows here: their numbers and whether one was poisoned. -/
def readRows (w : Who) (seq : Option Nat) (x : Table) (pin : Option Nat) (l : List Nat) : Eng (List (List Byte) × Bool) := do
  match l with
  | [] => pure ([], false)
  | r :: rest => do
    let (bs, p) ← readRow w x (x.readVa pin r)
    let (more, q) ← readRows w seq x pin rest
    pure (bs :: more, p || q)

/-- Counts rows read by GATHER. -/
def gatherCount (tenant : Nat) (seq : Option Nat) (x : Table) (n : Nat) : Eng Unit :=
  modify fun s => (s.bump (dkey 0x8003 0) n).countWork tenant seq 2 x.format n

/-- A partial: 32-bit sums of the rows of a bag that one member holds (11 R304). -/
def partialOf (x : Table) (d : Nat) (rows : List (List Byte)) : List Byte :=
  let nums := rows.map (rowNums x.format x.rowLen)
  (sumRows (x.format = 7) d x.rowLen nums).flatMap fun v =>
    leBytes 4 (if x.format = 7 then wrap 32 (numInt v) else (binary32.write v).1)

/-- The numbers of a partial. -/
def partialNums (x : Table) (bs : List Byte) : List Num :=
  (List.range x.rowLen).map fun i =>
    let v := leNat ((bs.drop (4 * i)).take 4)
    if x.format = 7 then .ofInt (signed 32 v) else binary32.read v

/-- The inputs of a gather shard part: the table, the pin's version, POOL and the row ids. -/
def gatherInputs (id : Nat) (pin : Option Nat) (pool : Nat) (l : List Nat) : List Byte :=
  leBytes 8 (id % 4096) ++ leBytes 8 (pin.getD padEntry) ++ leBytes 8 pool ++ l.flatMap (leBytes 8)

/-- 64-bit numbers of a list of bytes. -/
def words8 (bs : List Byte) : List Nat := (List.range (bs.length / 8)).map fun i => leNat ((bs.drop (8 * i)).take 8)

/-- The partials of a bag, one for each member that holds rows of it, with poison (11 R304). -/
def gatherPartials (w : Who) (sl : Slot) (x : Table) (pin : Option Nat) (b : Nat) (rows : List Nat) (l : List Nat) :
    Eng (List (List Byte) × Bool) := do
  match l with
  | [] => pure ([], false)
  | p :: rest => do
    let mine := rows.filter fun r => x.owner r = p
    if mine.isEmpty then gatherPartials w sl x pin b rows rest
    else do
      let s ← get
      let (part, bad) ←
        if p = s.tableOwn (sl.id 128 12) then do
          let (bs, bad) ← readRows w (some sl.seq) x pin mine
          let (d, s) := (← get).drawRun (mine.length * x.rowLen)
          set s
          gatherCount w.tenant (some sl.seq) x mine.length
          pure (if sl.f 140 2 = 0 then bs.flatten else partialOf x d bs, bad)
        else do
          let r ← askPart w sl 2 p b (gatherInputs (sl.id 128 12) pin (sl.f 140 2) mine)
          r.check
          pure (r.data.drop 8, leNat (r.data.take 8) = 1)
      let (more, q) ← gatherPartials w sl x pin b rows rest
      pure (part :: more, bad || q)

/-- The pooled row of a bag (11 R302): from rows that this package holds, or from partials. -/
def pooledRow (sl : Slot) (x : Table) (d n : Nat) (nums : List (List Num)) : List Byte :=
  let sums := sumRows (x.format = 7) d x.rowLen nums
  if sl.f 140 2 = 1 then rowOf (sl.f 142 4) sums
  else rowOf (sl.f 142 4) (sums.map fun v =>
    binary32.read (binary32.write ((binary32.read (binary32.write v).1).div (.ofInt n))).1)

/-- A stored row converted once into OUT_FMT (11 R302). -/
def convertRow (x : Table) (out : Nat) (bs : List Byte) : List Byte :=
  if out = x.format then bs else rowOf out (rowNums x.format x.rowLen bs)

/-- Writes the output rows of a bag under POOL 0, from entry i on; `have_` gives the stored row of each valid entry in turn. -/
def writeEntries (w : Who) (sl : Slot) (x : Table) (l : List Nat) (i : Nat) (rows : List (Nat × List Byte)) (bad : Bool) : Eng Unit := do
  match l with
  | [] => pure ()
  | e :: rest => do
    let out := match rows.find? fun (r, _) => r = e with
      | some (_, bs) => convertRow x (sl.f 142 4) bs
      | none => List.replicate (rowBytes (sl.f 142 4) x.rowLen) 0
    writePieces w sl.asid (piecesOf (sl.f 256 57 + i * outStride sl x) out.length) out bad
    writeEntries w sl x rest (i + 1) rows bad

/-- The rows of a bag under POOL 0, with their row ids: read here, or at each row's member. -/
def bagRows (w : Who) (sl : Slot) (x : Table) (pin : Option Nat) (b : Nat) (valid : List Nat) : Eng (List (Nat × List Byte) × Bool) := do
  if x.replicated then do
    let (bs, bad) ← readRows w (some sl.seq) x pin valid
    gatherCount w.tenant (some sl.seq) x valid.length
    pure (valid.zip bs, bad)
  else do
    let (parts, bad) ← gatherPartials w sl x pin b valid x.members
    let ids := (x.members.map fun p => valid.filter fun r => x.owner r = p).flatten
    pure (ids.zip (chunksOf x.rowSize ids.length parts.flatten), bad)

/-- The output of a bag with POOL 1 or 2. -/
def bagPooled (w : Who) (sl : Slot) (x : Table) (pin : Option Nat) (b : Nat) (valid : List Nat) : Eng (List Byte × Bool) := do
  if valid.isEmpty then pure (List.replicate (rowBytes (sl.f 142 4) x.rowLen) 0, false)
  else if x.replicated then do
    let (bs, bad) ← readRows w (some sl.seq) x pin valid
    gatherCount w.tenant (some sl.seq) x valid.length
    let (d, s) := (← get).drawRun (valid.length * x.rowLen)
    set s
    pure (pooledRow sl x d valid.length (bs.map (rowNums x.format x.rowLen)), bad)
  else do
    let (parts, bad) ← gatherPartials w sl x pin b valid x.members
    let (d, s) := (← get).drawRun (parts.length * x.rowLen)
    set s
    pure (pooledRow sl x d valid.length (parts.map (partialNums x)), bad)

/-- The body of one bag: its rows, output, flags, counter and counts (11 R301 to R303). A bag whose member fails is left
unwritten (R304). -/
def gatherBag (w : Who) (n : Nat) (sl : Slot) (b : Nat) : Eng Unit := do
  let x ← tableAt (sl.id 128 12)
  let m := fun i => sl.marks.getD i 0
  let bags := sl.f 176 16
  let lo := m (3 + b)
  let entries := (sl.marks.drop (4 + bags + lo)).take (m (4 + b) - lo)
  let valid := entries.filter (· < x.rows)
  let oor := (entries.filter fun e => e ≠ padEntry && x.rows ≤ e).length
  let pin := if m 1 = 0 then none else some (m 1 - 1)
  let wt := { w with tenant := x.tenant }
  let r ← attempt (do
    if sl.f 140 2 = 0 then do
      let (rows, bad) ← bagRows wt sl x pin b valid
      writeEntries w sl x entries lo rows bad
      pure bad
    else do
      let (out, bad) ← bagPooled wt sl x pin b valid
      writePieces w sl.asid (piecesOf (sl.f 256 57 + b * outStride sl x) out.length) out bad
      pure bad)
  match r with
  | .error .targetDead => noteStatus n .targetDead
  | .error st => failE st
  | .ok bad => do
    let flags := bit valid.isEmpty + 2 * bit (oor ≠ 0) + 4 * bit bad + 8 * m 2
    if sl.f 384 57 = 0 then pure () else writeVa w sl.asid (sl.f 384 57 + b) [BitVec.ofNat 8 flags]
    if sl.f 146 1 = 1 then counterAdd w sl.asid (sl.f 448 57) else pure ()
    if bad then noteStatus n .poisoned else pure ()
    modify fun s =>
      let s := (s.bump (dkey 0x8003 1) (bit valid.isEmpty)).bump (dkey 0x8003 2) oor
      s.updSlot n fun y =>
        { y with count := y.count + (if sl.f 140 2 = 0 then entries.length else 1),
                 result := y.result + valid.length }

/-- The first run of a GATHER: its pin and its bag block. Its marks hold 1, the pin's version plus 1, whether the pin is
stale, the offsets and the entries. -/
def gatherBegin (w : Who) (n : Nat) (sl : Slot) : Eng Unit := do
  let x ← tableAt (sl.id 128 12)
  needE (gatherOk sl x) .badDescriptor
  let (pin, stale) ← gatherPin sl
  let bags := sl.f 176 16
  let offsets := bagOffsets bags (← readVa w sl.asid (sl.f 192 57) (4 * (bags + 1)))
  needE (offsetsOk offsets) .badDescriptor
  let entries := words8 (← readVa w sl.asid (sl.f 192 57 + roundUp (4 * (bags + 1)) 64) (8 * offsets.getLastD 0))
  needE (entries.all entryOk) .badDescriptor
  joinTable (sl.id 128 12) sl.seq
  modify fun s => s.updSlot n fun y =>
    { y with marks := [1, (pin.map (· + 1)).getD 0, bit stale] ++ offsets ++ entries, result := 0, count := 0 }
  clearMail w

/-- The body of a GATHER that has its gather units. -/
def gatherBody (n : Nat) (sl : Slot) : Eng (Status × Nat × Nat) := do
  let w := sl.who n 2
  let s ← get
  if s.idx.gatherUnits.contains sl.seq then pure ()
  else set { s with idx := { s.idx with gatherUnits := s.idx.gatherUnits ++ [sl.seq] } }
  if sl.marks.isEmpty then gatherBegin w n sl else pure ()
  let sl ← getSlot n
  units w n (sl.f 176 16) (gatherBag w n sl)
  let y ← getSlot n
  pure (if sl.marks.getD 2 0 = 1 then .okStalePin else .ok, y.count, y.result)

/-- Whether a GATHER has or finds room: every gather unit works on every GATHER, and runs up to 16 (11 R305). -/
def State.gatherRoom (s : State) (sl : Slot) : Bool :=
  s.idx.gatherUnits.contains sl.seq || s.idx.gatherUnits.length < 16

/-- GATHER (11 R299 to R305). -/
def execGather (slot : Nat) (s : State) : Out :=
  .next (runSlotIf 0x70 slot (fun sl => sl.stage ≠ .waiting) (fun sl => do
    let s ← get
    if s.gatherRoom sl then gatherBody slot sl
    else do
      modify fun s => s.updSlot slot fun x => { x with stage := .waiting, waitSince := s.time }
      waitE) s)

/-- GATHER_START: a waiting GATHER obtains its gather units and begins (11 R305). -/
def execGatherStart (slot : Nat) (s : State) : Out :=
  .next <| match s.slot? slot with
  | none => s
  | some sl =>
    if sl.opcode = 0x70 && sl.stage = .waiting && s.gatherRoom sl then
      runSlot 0x70 slot (gatherBody slot) (s.setSlot slot { sl with stage := .running })
    else s

/-! ### The table order (11 R298, R311, R313) -/

/-- Whether a pin holds a version older than the current one: a pin of this package, or of another member. -/
def State.oldPin (s : State) (id : Nat) (x : Table) : Bool :=
  s.emb.pins.any (fun (_, p) => p.table = id && !p.stale && p.version < x.version) || x.holds.any fun (_, v) => v < x.version

/-- A command takes its place in the table order at the primary: a SCATTER waits while a replacement runs; a replacement
waits for other replacements, SCATTERs and old pins; a pin is held. Answers the version. -/
def orderBegin (id opcode key arg : Nat) : Eng Nat := do
  let s ← get
  let x ← tableAt id
  match opcode with
  | 0x71 => do
    if x.scatters.contains key then pure ()
    else do
      holdE x.replacing.isNone
      set (s.setTable id { x with scatters := x.scatters ++ [key] })
    pure x.version
  | 0x72 => do
    holdE (x.replacing.isNone && x.scatters.isEmpty && !s.oldPin id x)
    pure x.version
  | 0x73 => do
    set (s.setTable id { x with holds := x.holds ++ [(arg, x.version)] })
    pure x.version
  | _ => do
    set (s.setTable id { x with holds := x.holds.filter fun (k, _) => k ≠ arg })
    pure x.version

/-- A SCATTER leaves the table order. -/
def State.orderEnd (s : State) (id key : Nat) : State :=
  s.updTable id fun x => { x with scatters := x.scatters.filter (· ≠ key) }

/-- The inputs of a part that takes or leaves a place in the table order: the table, the step, and two numbers. -/
def orderInputs (id step a b : Nat) : List Byte := leBytes 8 (id % 4096) ++ leBytes 8 step ++ leBytes 8 a ++ leBytes 8 b

/-- A command of this package takes its place in the table order, here or at the primary. -/
def takeOrder (w : Who) (sl : Slot) (id : Nat) (x : Table) (key arg : Nat) : Eng Nat := do
  let s ← get
  if x.primary = s.tableOwn id then orderBegin id sl.opcode key arg
  else do
    let r ← askPart { w with tenant := x.tenant } sl 5 x.primary key (orderInputs id 0 arg 0)
    r.check
    pure (leNat (r.data.take 8))

/-! ### SCATTER (11 R307 to R310) -/

/-- An update row of a SCATTER as numbers. -/
def updateNums (sl : Desc) (x : Table) (v : Nat) : List Num :=
  rowNums (fld sl 141 4) x.rowLen (leBytes (rowBytes (fld sl 141 4) x.rowLen) v)

/-- The row after additions (11 R308). -/
def addedRow (d : Nat) (desc : Desc) (x : Table) (old : List Byte) (ups : List Nat) : List Byte :=
  let prior := rowNums x.format x.rowLen old
  let ints := x.format = 7 && fld desc 141 4 = 7
  rowOf x.format (sumRows ints d x.rowLen (prior :: ups.map (updateNums desc x)))

/-- Applies the updates of one SCATTER to one row, at the member that holds it (11 R308, R309). Answers the new row, or none
where the update is discarded. -/
def applyRow (w : Who) (seq : Option Nat) (package : Nat) (desc : Desc) (x : Table) (r : Nat) (ups : List Nat) :
    Eng (Option (List Byte)) := do
  if fld desc 140 1 = 0 then do
    let (old, bad) ← readRow w x (x.rowVa r)
    needE (!bad) .poisoned
    let (d, s) := (← get).drawRun ((ups.length + 1) * x.rowLen)
    let new := addedRow d desc x old ups
    writeRow w x.asid (x.rowVa r) new false
    set { (← get) with free := s.free }
    countRow w.tenant seq x
    modify fun s => s.bump (dkey 0x8004 0) 1
    pure (some new)
  else do
    let tag ← readNat w x.asid (x.tagVa r) 8
    let n := fld desc 320 48
    let newer := !bitOf tag 63 || bitsOf tag 0 48 < n || (bitsOf tag 0 48 = n && bitsOf tag 48 6 ≤ package)
    if newer then do
      let new := rowOf x.format (updateNums desc x (ups.getLastD 0))
      claimRange w x.asid [(x.tagVa r, 8)]
      claimRange w x.asid (piecesOf (x.rowVa r) new.length)
      writePieces w x.asid (piecesOf (x.rowVa r) new.length) new false
      writeVa w x.asid (x.tagVa r) (leBytes 8 (pack [(n, 48), (package, 6), (0, 9), (1, 1)]))
      modify fun s => s.bump (dkey 0x8004 0) 1
      pure (some new)
    else do
      modify fun s => s.bump (dkey 0x8004 1) 1
      pure none

/-- The inputs of a row copy: the table, the row id and its bytes. -/
def copyInputs (id r : Nat) (bs : List Byte) : List Byte := leBytes 8 (id % 4096) ++ leBytes 8 r ++ bs

/-- Copies a row to other members (11 R310). -/
def copyRow (w : Who) (opcode seq : Nat) (d : Desc) (id key r : Nat) (bs : List Byte) (l : List Nat) : Eng Unit := do
  match l with
  | [] => pure ()
  | p :: rest => do
    let a ← askPartOf w opcode 4 seq d p key (copyInputs id r bs)
    a.check
    copyRow w opcode seq d id key r bs rest

/-- The inputs of a scatter shard part: the table, the row id and the updates to it in batch order. -/
def scatterInputs (id r size : Nat) (ups : List Nat) : List Byte :=
  leBytes 8 (id % 4096) ++ leBytes 8 r ++ ups.flatMap (leBytes size)

/-- Rows that a SCATTER names, each once, in the order of their first update. -/
def distinctRows (l : List Nat) : List Nat := l.foldl (fun acc r => if acc.contains r then acc else acc ++ [r]) []

/-- One row of a SCATTER: even steps apply it at its member, odd steps copy it to the other members of a replicated table. A
row applied here leaves its new bytes, plus 1 bit, in the last mark. -/
def scatterStep (w : Who) (n : Nat) (sl : Slot) (rows : List Nat) (i : Nat) : Eng Unit := do
  let id := sl.id 128 12
  let x ← tableAt id
  let s ← get
  let count := sl.f 160 32
  let r := rows.getD (i / 2) 0
  let size := rowBytes (sl.f 141 4) x.rowLen
  let ids := (sl.marks.drop 2).take count
  let ups := (ids.zip (sl.marks.drop (2 + count))).filterMap fun (e, v) => if e = r then some v else none
  let home := if x.replicated then x.primary else x.owner r
  let wt := { w with tenant := x.tenant }
  if i % 2 = 0 then
    if home = s.tableOwn id then do
      let new ← applyRow wt (some sl.seq) (s.tableOwn id) sl.desc x r ups
      modify fun s => s.updSlot n fun y => { y with marks := y.marks.set 1 (match new with
        | some bs => leNat bs + 2 ^ (8 * x.rowSize)
        | none => 0) }
    else do
      let a ← askPart wt sl 3 home (i / 2) (scatterInputs id r size ups)
      a.check
  else
    let kept := (← getSlot n).marks.getD 1 0
    if home = s.tableOwn id && x.replicated && kept ≠ 0 then
      copyRow wt 0x71 sl.seq sl.desc id (i / 2) r (leBytes x.rowSize kept) (x.members.filter (· ≠ s.tableOwn id))
    else pure ()

/-- The first run of a SCATTER: its row ids and update rows are read and checked. Its marks hold 1, the last row applied, the
row ids and the updates. -/
def scatterBegin (w : Who) (n : Nat) (sl : Slot) : Eng Unit := do
  let x ← tableAt (sl.id 128 12)
  let count := sl.f 160 32
  let u := sl.f 141 4
  needE (1 ≤ count && count ≤ 16777216 && (u ≤ 4 || u = 7) && (sl.f 140 1 = 0 || x.f 256 57 ≠ 0)) .badDescriptor
  let ids := words8 (← readVa w sl.asid (sl.f 192 57) (8 * count))
  needE (ids.all fun e => e = padEntry || e < x.rows) .badDescriptor
  let size := rowBytes u x.rowLen
  let ups ← (List.range count).mapM fun i => readNat w sl.asid (sl.f 256 57 + i * roundUp size 64) size
  joinTable (sl.id 128 12) sl.seq
  modify fun s => s.updSlot n fun y => { y with marks := [1, 0] ++ ids ++ ups }
  clearMail w

/-- SCATTER leaves the table order: at the primary of another package by a part. -/
def leaveOrder (w : Who) (sl : Slot) (id : Nat) : Eng Unit := do
  match (← get).table? id with
  | none => pure ()
  | some x => do
    let s ← get
    if x.primary = s.tableOwn id then set (s.orderEnd id sl.seq)
    else do
      let _ ← attempt (askPart { w with tenant := x.tenant } sl 5 x.primary (2 ^ 49) (orderInputs id 1 (sl.seq % 2 ^ 49) 0))
      pure ()

/-- SCATTER (11 R307 to R310). Once it has its place in the table order, it leaves it whatever its end. -/
def execScatter (slot : Nat) (s : State) : Out :=
  .next (runSlot 0x71 slot (fun sl => do
    let w := sl.who slot 2
    let id := sl.id 128 12
    if sl.marks.isEmpty then scatterBegin w slot sl else pure ()
    let sl ← getSlot slot
    if sl.status.isOk then do
      let r ← attempt (do
        let _ ← takeOrder w sl id (← tableAt id) (sl.seq % 2 ^ 49) 0
        let rows := distinctRows (((sl.marks.drop 2).take (sl.f 160 32)).filter (· ≠ padEntry))
        units w slot (2 * rows.length) (scatterStep w slot sl rows))
      match r with
      | .ok _ => pure ()
      | .error st => noteStatus slot st
    else pure ()
    leaveOrder w sl id
    pure (.ok, 0, 0)) s)

/-! ### Replacement (11 R311, R312, R316) -/

/-- TABLE_REPLACE: it is checked, and waits for its place in the table order (11 R311). Its cursor is 1 once the primary of
another package has given the place. -/
def execTableReplace (slot : Nat) (s : State) : Out :=
  .next (runSlot 0x72 slot (fun sl => do
    let id := sl.id 128 12
    let x ← tableAt id
    let first := sl.f 160 40
    let count := sl.f 208 40
    needE (1 ≤ count && first + count ≤ x.rows) .badDescriptor
    joinTable id sl.seq
    let s ← get
    if x.primary = s.tableOwn id || sl.cursor = 1 then waitE
    else do
      let _ ← takeOrder (sl.who slot 2) sl id x (sl.seq % 2 ^ 49) 0
      setCursor slot 1
      waitE) s)

/-- The TABLE_REPLACE that starts next on a table: of those that wait, the one that has waited longest. -/
def State.nextReplace (s : State) (id : Nat) (x : Table) : Option Slot :=
  ((s.fe.slots.map (·.2)).filter fun sl =>
    sl.opcode = 0x72 && sl.stage = .running && sl.id 128 12 = id && x.running.contains sl.seq &&
      (x.primary = s.tableOwn id || sl.cursor = 1)).foldl
    (fun best sl => match best with
      | some b => if sl.dispatchTime < b.dispatchTime then some sl else some b
      | none => some sl) none

/-- The engine that replaces rows. -/
def Replace.who (r : Replace) (x : Table) (id : Nat) : Who :=
  let key := r.slot.getD (2 ^ 64 + id)
  { unit := Config.engineDie key % 4, cls := 2, index := Config.engineUnit key, cmdSeq := (r.slot.getD 0) % 2 ^ 32,
    tenant := x.tenant, waiter := .table id }

/-- A member writes one row of a replacement: the shadow copy, the new row, and the cursor (11 R312). -/
def replaceRow (w : Who) (id : Nat) (x : Table) (r : Nat) (bs : List Byte) (poison : Bool) : Eng Unit := do
  if x.shadowVa = 0 then writeRow w x.asid (x.rowVa r) bs poison
  else do
    let (old, bad) ← readRow w x (x.rowVa r)
    claimRange w x.asid (piecesOf (x.shadowRow r) old.length)
    claimRange w x.asid (piecesOf (x.rowVa r) bs.length)
    writePieces w x.asid (piecesOf (x.shadowRow r) old.length) old bad
    writePieces w x.asid (piecesOf (x.rowVa r) bs.length) bs poison
  countRow w.tenant none x
  modify fun s => (s.updTable id fun y =>
    { y with replacing := y.replacing.map fun p => { p with cursor := r + 1 } }).mirrorMeta none

/-- Sends a row of a replacement to other members. -/
def replaceAway (w : Who) (seq id r : Nat) (bs : List Byte) (poison : Bool) (l : List Nat) : Eng Unit := do
  match l with
  | [] => pure ()
  | p :: rest => do
    let a ← askPartOf w 0x72 4 seq 0 p r (copyInputs id r (leBytes 8 (bit poison) ++ bs))
    a.check
    replaceAway w seq id r bs poison rest

/-- Tells the other members of a step of a replacement: 2 it starts, 3 it is done. -/
def tellMembers (w : Who) (seq id step first count : Nat) (l : List Nat) : Eng Unit := do
  match l with
  | [] => pure ()
  | p :: rest => do
    let a ← askPartOf w 0x72 5 seq 0 p (2 ^ 48 + step) (orderInputs id step first count)
    a.check
    tellMembers w seq id step first count rest

/-- The rows of a replacement that are left, in ascending row id, at every member that holds them. -/
def replaceRows (id fuel : Nat) : Eng Unit := do
  match fuel with
  | 0 => pure ()
  | k + 1 => do
    let x ← tableAt id
    match x.replacing with
    | none => pure ()
    | some p =>
      if p.cursor ≥ p.first + p.count then pure ()
      else do
        let s ← get
        let w := p.who x id
        let r := p.cursor
        let (bs, bad) ← readVaP w p.asid (p.srcVa + (r - p.first) * x.stride) x.rowSize
        let holders := if x.replicated then x.members else [x.owner r]
        replaceAway w (p.slot.getD 0) id r bs bad (holders.filter (· ≠ s.tableOwn id))
        if holders.contains (s.tableOwn id) then replaceRow w id x r bs bad
        else modify fun s => s.updTable id fun y => { y with replacing := y.replacing.map fun q => { q with cursor := r + 1 } }
        modify fun s => s.updTable id fun y =>
          { y with replacing := y.replacing.map fun q => { q with status := if bad then q.status.join .poisoned else q.status } }
        clearMail w
        replaceRows id k

/-- The replacement of a table stops for a failure: rows already written stay, and the version does not advance. -/
def State.failReplace (s : State) (id : Nat) (st : Status) : State :=
  match s.table? id with
  | none => s
  | some x =>
    let s := (s.setTable id { x with replacing := none, resp := [] }).mirrorMeta none
    match x.replacing.bind (·.slot) with
    | some q => if s.isLive (some q) then s.failSeq q st else s.logFree 0x000E 2 x.tenant id
    | none => s.logFree 0x000E 2 x.tenant id

/-- Runs a part of a table's replacement: a failure stops the replacement. -/
def State.runReplace (s : State) (id : Nat) (e : Eng Unit) : State :=
  match e.go s with
  | (.ok _, s) => s
  | (.error .wait, s) => s
  | (.error (.fail st), s) => s.failReplace id st

/-- REPLACE_START: a waiting replacement starts, in table order, and writes its rows; one that has started goes on from its
cursor (11 R311, R312, R316). -/
def execReplaceStart (table : Nat) (s : State) : Out :=
  .next <| match s.table? table with
  | none => s
  | some x =>
    let go := fun (s : State) (count : Nat) => s.runReplace table (do
      let x ← tableAt table
      let own := (← get).tableOwn table
      match x.replacing with
      | none => pure ()
      | some p => do
        needE (p.status.isOk || p.status = .poisoned) p.status
        if p.cursor = p.first then do
          tellMembers (p.who x table) (p.slot.getD 0) table 2 p.first p.count (x.members.filter (· ≠ own))
        else pure ()
        replaceRows table count)
    match x.replacing with
    | some p => if p.slot.isNone then s else go s p.count
    | none => match s.nextReplace table x with
      | none => s
      | some sl =>
        if x.primary = s.tableOwn table && (!x.scatters.isEmpty || s.oldPin table x) then s
        else
          let p : Replace := { slot := some sl.seq, first := sl.f 160 40, count := sl.f 208 40, srcVa := sl.f 256 57,
                               asid := sl.asid, cursor := sl.f 160 40, status := .ok }
          go ((s.setTable table { x with replacing := some p }).mirrorMeta none) p.count

/-- A replacement is complete: the next version is current (11 R312). -/
def Table.advance (x : Table) (p : Replace) (time : Nat) : Table :=
  { x with version := x.version + 1, replacing := none, passed := some (x.version, p.first, p.count), doneTime := time, resp := [] }

/-- REPLACE_DONE: every member has finished; version V + 1 becomes current, and the command completes (11 R312, R316). -/
def execReplaceDone (table : Nat) (s : State) : Out :=
  .next <| match s.table? table with
  | none => s
  | some x => match x.replacing with
    | none => s
    | some p =>
      if p.cursor < p.first + p.count || p.slot.isNone then s
      else
        let seq := p.slot.getD 0
        match (tellMembers (p.who x table) seq table 3 p.first p.count (x.members.filter (· ≠ s.tableOwn table))).go s with
        | (.error .wait, s) => s
        | (.error (.fail st), s) => s.failReplace table st
        | (.ok _, s) =>
          let slot := (p.slot.bind s.live?).map (·.1)
          let s := (s.setTable table (x.advance p s.time)).mirrorMeta slot
          match slot with
          | some _ => s.finishSeq seq p.status 0 (x.version + 1)
          | none => s.logFree 0x000E 2 x.tenant table

/-! ### Pins (11 R313 to R315) -/

/-- The key of a pin of this package, or of the lost twin's, at the primary. -/
def State.pinKey (s : State) (id pin : Nat) : Nat := s.tableOwn id * 4096 + pin % 65536

/-- Where the pins of a table's package stand. -/
def pinSpace (id : Nat) : Nat := if id < 4096 then 0 else twinSpace 16

/-- TABLE_PIN (11 R313). -/
def execTablePin (slot : Nat) (s : State) : Out :=
  .next (runSlot 0x73 slot (fun sl => do
    let id := sl.id 128 12
    let x ← tableAt id
    needE (x.shadowVa ≠ 0) .badDescriptor
    let s ← get
    let pin := leastFree (SMap.keys s.emb.pins) 4096 (pinSpace id)
    needE (pin < pinSpace id + 4096) .resource
    let version ← if x.primary = s.tableOwn id then pure x.version
      else takeOrder (sl.who slot 2) sl id x (sl.seq % 2 ^ 49) (s.pinKey id pin)
    let p : Pin := { table := id, tenant := x.tenant, version, stale := false }
    modify fun s => ({ s with emb := { s.emb with pins := SMap.put s.emb.pins pin p } } : State).mirrorMeta (some slot)
    pure (.ok, version, pin % 65536)) s)

/-- TABLE_UNPIN (11 R314). -/
def execTableUnpin (slot : Nat) (s : State) : Out :=
  .next (runSlot 0x74 slot (fun sl => do
    let s ← get
    let pin := sl.id 160 16
    match SMap.look s.emb.pins pin with
    | none => failE .badDescriptor
    | some p => do
      needE (p.tenant = sl.tenant) .notPermitted
      match s.table? p.table with
      | some x => if x.primary = s.tableOwn p.table || p.stale then pure () else do
          let _ ← takeOrder (sl.who slot 2) sl p.table x (sl.seq % 2 ^ 49) (s.pinKey p.table pin)
      | none => pure ()
      modify fun s => ({ s with emb := { s.emb with pins := SMap.del s.emb.pins pin } } : State).mirrorMeta (some slot)
      pure (if p.stale then .okStalePin else .ok, 0, 0)) s)

/-- Whether a GATHER runs under a pin. -/
def State.pinInUse (s : State) (pin : Nat) : Bool :=
  s.fe.slots.any fun (_, sl) => sl.opcode = 0x70 && sl.stage = .running && sl.id 160 16 = pin && !sl.marks.isEmpty

/-- Tells the primary of another package that a pin holds back no replacement. -/
def State.dropHold (s : State) (pin : Nat) (id : Nat) (x : Table) : State :=
  if x.primary = s.tableOwn id then s
  else
    let h : Head := { type := 0x04, dst := x.primary, tenant := x.tenant, addr := s.pinKey id pin }
    (sendRequest h (partPayload 0x74 5 0 0 (orderInputs id 0 (s.pinKey id pin) 0)) .other).state s

/-- PIN_STALE: RETAIN_MS has passed since the replacement that made the pin's version non-current completed, and no GATHER
runs under the pin (11 R313, R315). -/
def execPinStale (pin : Nat) (s : State) : Out :=
  .next <| match SMap.look s.emb.pins pin with
  | none => s
  | some p => match s.table? p.table with
    | none => s
    | some x =>
      if p.stale || x.version ≤ p.version || s.time < x.doneTime + s.retain x || s.pinInUse pin then s
      else
        let s := { s with emb := { s.emb with pins := SMap.put s.emb.pins pin { p with stale := true } } }
        (s.bump (dkey 0x8005 1) 1).dropHold pin p.table x

/-! ### TABLE_CONFIG (11 R297) -/

/-- Creates a table here. -/
def createHere (tenant id asid : Nat) (desc : Desc) : Eng Unit := do
  let s ← get
  let x := Table.fresh tenant asid desc (s.val (dkey 0x8001 0))
  needE ((s.table? id).isNone && bitOf (x.f 320 64) (s.tableOwn id)) .badDescriptor
  needE ((s.asid? asid).any (·.tenant = tenant)) .notPermitted
  set ((s.setTable id x).mirrorMeta none)

/-- Frees a table here, with its pins. -/
def State.dropTable (s : State) (id : Nat) : State :=
  let emb := { s.emb with tables := SMap.del s.emb.tables id, pins := s.emb.pins.filter fun (_, p) => p.table ≠ id }
  ({ s with emb } : State).mirrorMeta none

/-- The inputs of a create part: the table, the step (0 create, 1 destroy, 2 undo), the ASID and the table's descriptor. -/
def tableInputs (id step asid : Nat) (desc : Desc) : List Byte := orderInputs id step (asid % 65536) 0 ++ leBytes 64 desc.toNat

/-- Asks members of a list for one step of a TABLE_CONFIG. -/
def askMembers (w : Who) (n : Nat) (sl : Slot) (step : Nat) (desc : Desc) (l : List Nat) (done : Nat) : Eng Unit := do
  match l with
  | [] => pure ()
  | p :: rest => do
    let a ← askPart w sl 5 p (2 ^ 48 + step) (tableInputs (sl.id 128 12) step (sl.id 160 16) desc)
    if step = 2 then pure () else a.check
    modify fun s => s.updSlot n fun y => if step = 0 then { y with parts := max y.parts (done + 1) } else y
    askMembers w n sl step desc rest (done + 1)

/-- TABLE_CREATE: TABLE_CONFIG OP 0 (11 R294 to R297). Its marks hold the copied descriptor; `parts` counts the members that
have created the table; a failure undoes them. -/
def execTableCreate (slot : Nat) (s : State) : Out :=
  .next (runSlotIf 0x75 slot (fun sl => sl.f 140 2 = 0) (fun sl => do
    let w := sl.who slot 2
    let id := sl.id 128 12
    if sl.marks.isEmpty then do
      let s ← get
      needE (sl.f 192 57 % 64 = 0 && (s.table? id).isNone) .badDescriptor
      let bs ← readVa w sl.asid (sl.f 192 57) 64
      needE (crc32c (bs.take 60) = leNat (bs.drop 60)) .crcMismatch
      let tenant := ((s.asid? (sl.id 160 16)).map (·.tenant)).getD sl.tenant
      let x := Table.fresh tenant (sl.id 160 16) (BitVec.ofNat 512 (leNat bs)) (s.val (dkey 0x8001 0))
      needE (x.ok && bitOf (x.f 320 64) (s.tableOwn id) && (x.replicated || sl.f 142 1 = 0)) .badDescriptor
      modify fun s => s.updSlot slot fun y => { y with marks := [leNat bs, tenant] }
      clearMail w
    else pure ()
    let sl ← getSlot slot
    let s ← get
    let x := Table.fresh (sl.marks.getD 1 0) (sl.id 160 16) (BitVec.ofNat 512 (sl.marks.getD 0 0)) (s.val (dkey 0x8001 0))
    let wt := { w with tenant := x.tenant }
    let others := x.members.filter (· ≠ s.tableOwn id)
    if sl.status.isOk then do
      let r ← attempt (do
        askMembers wt slot sl 0 x.desc others 0
        if sl.f 142 1 = 1 then units w slot x.rows fun r => do
            let (bs, _) ← readRow wt x (x.rowVa r)
            copyRow wt 0x75 sl.seq sl.desc id r r bs others
          else pure ()
        createHere x.tenant id (sl.id 160 16) x.desc)
      match r with
      | .ok _ => pure (.ok, 0, 0)
      | .error st => do
        noteStatus slot st
        waitE
    else do
      let _ ← attempt (askMembers wt slot sl 2 x.desc (others.take sl.parts) 0)
      pure (.ok, 0, 0)) s)

/-- TABLE_DESTROY: TABLE_CONFIG OP 1 (11 R297). -/
def execTableDestroy (slot : Nat) (s : State) : Out :=
  .next (runSlotIf 0x75 slot (fun sl => sl.f 140 2 = 1) (fun sl => do
    let id := sl.id 128 12
    let x ← tableAt id
    let s ← get
    holdE x.running.isEmpty
    askMembers { sl.who slot 2 with tenant := x.tenant } slot sl 1 0 (x.members.filter (· ≠ s.tableOwn id)) 0
    modify fun s => s.dropTable id
    pure (.ok, 0, 0)) s)

/-! ### Parts for another member (12 R332) -/

/-- A row that another package sends is written here: of a SCATTER, of a creation with INIT, or of a replacement. -/
def rowCopyPart (w : Who) (opcode id : Nat) (x : Table) (inputs : List Byte) : Eng Unit := do
  let r := leNat ((inputs.drop 8).take 8)
  if opcode = 0x72 then
    replaceRow w id x r (inputs.drop 24) (leNat ((inputs.drop 16).take 8) = 1)
  else writeRow w x.asid (x.rowVa r) (inputs.drop 16) false

/-- A step of a replacement or of the table order at this package, for another member. -/
def orderPart (q : Head) (opcode id step a b : Nat) (x : Table) : Eng (List Byte) := do
  match opcode, step with
  | 0x72, 2 => do
    let p : Replace := { slot := none, first := a, count := b, srcVa := 0, asid := 0, cursor := a, status := .ok }
    modify fun s => s.setTable id { x with replacing := some p }
    pure []
  | 0x72, 3 => do
    match x.replacing with
    | some p => modify fun s => (s.setTable id (x.advance p s.time)).mirrorMeta none
    | none => pure ()
    pure []
  | 0x71, 1 => do
    modify fun s => s.orderEnd id (2 ^ 64 + q.src * 2 ^ 49 + a)
    pure []
  | _, _ => do
    let v ← orderBegin id opcode (2 ^ 64 + q.src * 2 ^ 49 + q.addr) a
    pure (leBytes 8 v)

/-- A part of a table command at this member. Answers its outputs. -/
def tablePart (k : Packet) (q : Head) : Eng (List Byte) := do
  let inputs := partInputs k
  let opcode := partOpcode k
  let n := fun i => leNat ((inputs.drop (8 * i)).take 8)
  let s ← get
  let id := n 0 + s.partSpace q 12
  let w := partWho q 2
  if opcode = 0x75 && partKind k = 5 && n 1 = 0 then do
    createHere q.tenant id (n 2 + s.partSpace q 16) (BitVec.ofNat 512 (leNat ((inputs.drop 32).take 64)))
    pure []
  else do
    let x ← tableAt id
    needE (x.tenant = q.tenant) .notPermitted
    match partKind k with
    | 2 => do
      let rows := words8 (inputs.drop 24)
      let (bs, bad) ← readRows w none x (if n 1 = padEntry then none else some (n 1)) rows
      let (d, s) := (← get).drawRun (rows.length * x.rowLen)
      set s
      gatherCount q.tenant none x rows.length
      pure (leBytes 8 (bit bad) ++ if n 2 = 0 then bs.flatten else partialOf x d bs)
    | 3 => do
      let size := rowBytes (fld (partDesc k) 141 4) x.rowLen
      let ups := (chunksOf size (inputs.length) (inputs.drop 16)).map leNat
      let r := n 1
      if (← stageOf q) = 0 then do
        let new ← applyRow w none q.src (partDesc k) x r ups
        setStage k (match new with
          | some bs => 2 + leNat bs
          | none => 1)
      else pure ()
      let st ← stageOf q
      let own := (← get).tableOwn id
      if 2 ≤ st && x.replicated then
        copyRow w 0x71 (partSeq k) (partDesc k) id (partSeq k % 2 ^ 20 * 2 ^ 20 + r % 2 ^ 20) r (leBytes x.rowSize (st - 2))
          (x.members.filter (· ≠ own))
      else pure ()
      pure []
    | 4 => do
      rowCopyPart w opcode id x inputs
      pure []
    | _ =>
      if opcode = 0x75 then do
        holdE (n 1 = 2 || x.running.isEmpty)
        modify fun s => s.dropTable id
        pure []
      else orderPart q opcode id (n 1) (n 2) (n 3) x

end Sys2Proof.Machine
end

