-- ==== Sys2Proof/Machine/Profile.lean ====
section
/-!
DEFINITION. The stored profiles (17 R445, 18 R459): what an accepted write of a profile entry stores, and what a profile
holds.
-/

namespace Sys2Proof.Machine

open Sys2Proof

/-- A profile that holds every default: profile 3, and a profile that nothing has been stored in (17 R445; DESIGN CHOICE, log 40). -/
def Profile.defaults : Profile := { vals := [], tenants := [], limits := [], agents := [] }

/-- The values stored in a profile. -/
def State.profile (s : State) (p : Nat) : Profile := if p = 3 then .defaults else SMap.get s.prof.stored p .defaults

/-- Sets what profile 0, 1 or 2 holds. -/
def State.setProfile (s : State) (p : Nat) (x : Profile) : State :=
  { s with prof := { s.prof with stored := SMap.put s.prof.stored p x } }

/-- Stores something in the active profile; profile 3 stores nothing (17 R445, 18 R459). -/
def State.inProfile (s : State) (f : Profile → Profile) : State :=
  if s.prof.active = 3 then s else s.setProfile s.prof.active (f (s.profile s.prof.active))

/-- Stores a value in the active profile. -/
def State.storeVal (s : State) (key v : Nat) : State :=
  s.inProfile fun p => { p with vals := SMap.putD p.vals key v (dictDefault key) }

/-- The value of an entry that a profile stores. -/
def Profile.val (p : Profile) (key : Nat) : Nat := SMap.get p.vals key (dictDefault key)

end Sys2Proof.Machine
end

