-- ==== Sys2Proof/Machine/MgmtOps.lean ====
section
/-!
DEFINITION. The management controller's shared operations: firmware slots and measurement (16 R429 to R431), responses and
frames (18 R462 to R467), the status page (18 R471), and the firmware restart (13 R390).
-/

namespace Sys2Proof.Machine

open Sys2Proof

/-- The code of a pair state (13 R357). -/
def PairState.number (p : PairState) : Nat :=
  match p with
  | .unpaired => 0 | .refused => 1 | .joining => 2 | .shadow => 3 | .paired => 4 | .degraded => 5 | .resilvering => 6
  | .split => 7 | .fenced => 8

/-! ### Firmware slots (16 Table 16-1) -/

/-- The first 128 bytes of an image, as a number. -/
def FwSlot.head (x : FwSlot) : Nat := leNat x.header
def FwSlot.keyIndex (x : FwSlot) : Nat := bitsOf x.head 24 2
def FwSlot.svn (x : FwSlot) : Nat := bitsOf x.head 32 32
def FwSlot.release (x : FwSlot) : Nat := bitsOf x.head 64 32

/-- The active slot, whose image runs. -/
def State.running (s : State) : FwSlot := if s.sec.activeB then s.sec.slotB else s.sec.slotA

/-- Whether the boot code accepts an image whose bytes pass their checks: its key is not revoked and its SVN is high enough
(16 R430). -/
def State.bootable (s : State) (x : FwSlot) : Bool :=
  x.accepted && !s.sec.revoked.getLsbD x.keyIndex && s.sec.rollback ≤ x.svn

/-! ### Measurement (16 R431) -/

/-- A measurement register. -/
def State.mr (s : State) (i : Nat) : List Byte := SMap.get s.sec.mr i (List.replicate 64 0)

/-- Extends a measurement register, and logs it. -/
def State.extendMr (s : State) (i : Nat) (digest : List Byte) : State :=
  let entries := s.sec.measureLog ++ [(i, digest, s.time)]
  { s with sec := { s.sec with mr := SMap.put s.sec.mr i (shake256 64 (s.mr i ++ digest)), measureLog := entries.drop (entries.length - 256) } }

/-- Extends MR2 with the digest of the active profile. -/
def State.extendProfile (s : State) : State :=
  s.extendMr 2 (Config.profileDigest s.prof.active (s.profile s.prof.active).vals)

/-! ### The status page (18 Table 18-8) -/

/-- The status page: the first device page (18 R469). -/
def statusPage : Nat := 0x4002_0000_0000

/-- STATE of the management ring's status block. -/
def State.mgmtState (s : State) : Nat :=
  if s.mgmt.restarting then 2 else match s.mgmt.ring with
    | .error => 1
    | _ => 0

/-- The management ring status block. -/
def State.mgmtBlock (s : State) : List Byte :=
  leBytes 64 (pack [(s.mgmt.fetched, 64), (s.mgmt.tailSeen, 63), (0, 1), (s.mgmt.written, 64), (s.mgmt.headSeen, 64), (s.mgmtState, 2)])

/-- Writes the status block, while the ring exists. -/
def State.writeMgmtBlock (s : State) : State := if s.mgmt.ring = .absent then s else s.poke statusPage s.mgmtBlock

/-! ### Responses (18 R462, R463, R466) -/

/-- Codes of the management status (18 Table 18-4). -/
def MStatus.code (st : MStatus) : Nat :=
  match st with
  | .ok => 0 | .noEntry => 1 | .access => 2 | .range => 3 | .state => 4 | .length => 5 | .format => 6

/-- The message that answers a request with an operation header (18 Table 18-2). -/
def responseTo (op : BitVec 128) (r : Reply) : List Byte :=
  leBytes 16 (pack [(fld op 0 8, 8), (r.status.code, 8), (fld op 16 16, 16), (fld op 32 8, 8), (0, 24), (fld op 64 32, 32), (r.rows, 32)]) ++
    r.value

/-- A management header (18 Table 18-6). -/
def mgmtHeader (kind : Nat) (last : Bool) (frag reqId len crc : Nat) : List Byte :=
  leBytes 16 (pack [(0x6D47, 16), (1, 8), (kind, 3), (bit last, 1), (frag, 3), (0, 1), (reqId, 16), (len, 16), (crc, 32), (0, 32)])

/-- The frame payloads of a message: fragments of 1,472 bytes, padded to 46 bytes. -/
def framesOf (kind reqId : Nat) (msg : List Byte) : List (List Byte) :=
  let l := chunksOf 1472 6 msg
  (l.zipIdx).map fun (c, i) =>
    let p := mgmtHeader kind (i + 1 = l.length) i reqId msg.length (crc32c msg) ++ c
    padTo (max 46 p.length) p

/-- Whether the management port is enabled; profile 3 enables it (18 R465). -/
def State.portOn (s : State) : Bool := s.prof.active = 3 || s.val (dkey 0x1100 2) = 1

/-- Sends frames to a source address. -/
def State.sendFrames (s : State) (dst : Nat) (l : List (List Byte)) : State :=
  if s.portOn then { s with mgmt := { s.mgmt with framesSent := s.mgmt.framesSent ++ l.map fun f => (dst, f) } } else s

/-- The 16 most recent responses to a source are kept (18 R467). -/
def State.keepResponse (s : State) (source reqId : Nat) (msg : List Byte) : State :=
  { s with mgmt := { s.mgmt with sources := SMap.upd s.mgmt.sources source fun x =>
      let kept := x.kept ++ [(reqId, msg)]
      { x with kept := kept.drop (kept.length - 16) } } }

/-- Answers a request of a source with an operation header: the response is sent and kept. -/
def State.mgmtRespond (s : State) (source : Nat) (head op : BitVec 128) (r : Reply) : State :=
  let msg := responseTo op r
  (s.sendFrames source (framesOf 1 (fld head 32 16) msg)).keepResponse source (fld head 32 16) msg

/-! ### The firmware restart (13 R390, 18 R472) -/

/-- The firmware restarts: frames and ring requests are not answered, and the kept responses are lost. -/
def State.restartFirmware (s : State) : State :=
  let s := (s.bump (dkey 0xA040 1) 1).logFree 0x0019 12 0 0
  ({ s with mgmt := { s.mgmt with restarting := true, sources := [] } } : State).writeMgmtBlock

/-- A FW_COMMIT with value 1 is reported done once the twin has acknowledged the rollback counter, or the pair is degraded; the
firmware then restarts (16 R434, R432). -/
def State.commitDone (s : State) : State :=
  match s.sec.commit with
  | none => s
  | some m =>
    if s.twin.unacked.any fun (x, _, _) => x = m then s
    else
      let s := State.answer (.ok, { s with sec := { s.sec with commit := none } })
      let s := match s.mgmt.owed with
        | some (some a, head, op) =>
          ({ s with mgmt := { s.mgmt with owed := none } } : State).mgmtRespond a head op { status := .ok, value := [], rows := 0 }
        | _ => s
      s.restartFirmware

end Sys2Proof.Machine
end

