-- ==== Sys2Proof/Machine/Regions.lean ====
section
/-!
DEFINITION. Software coherence across packages (05 R131 to R137): FLUSH, versioned regions, and PUBLISH with the home's side
of it.
-/

namespace Sys2Proof.Machine

open Sys2Proof

/-! ### Ranges of the remote line cache -/

/-- The global physical ranges that the mapped parts of a range of VAs have. -/
def State.mappedRanges (s : State) (asid va n : Nat) : List (Nat × Nat) :=
  s.tr.maps.filterMap fun m =>
    if m.asid = asid && m.va < va + n && va < m.va + pageBytes m.page then
      let lo := max va m.va
      let hi := min (va + n) (m.va + pageBytes m.page)
      some (globalOf (m.package.getD s.ownId) (m.address + (lo - m.va)), hi - lo)
    else none

/-- Whether a line overlaps one of some ranges. -/
def inRanges (l : List (Nat × Nat)) (line : Nat) : Bool := l.any fun (a, n) => a / 64 ≤ line && line * 64 < a + n

/-- Lines of some ranges that stand in the remote line cache. -/
def State.cachedIn (s : State) (l : List (Nat × Nat)) : List Nat :=
  (SMap.keys s.rlc.lines).filter (inRanges l)

/-- Whether a write of a remote line is on its way to the home. -/
def State.writing (s : State) (g : Nat) : Bool :=
  s.fab.tags.any fun (_, q) => q.type = 0x06 && q.dst = g * 64 / 2 ^ 50 % 64 && (headOf q.packet.header).addr = g * 64 % 2 ^ 50

/-- Recalls the agents' copies of a cached remote line into the cache. -/
def recallLine (g : Nat) : Eng Unit := do
  let s ← get
  if (s.holders (remoteKey g)).isEmpty then pure ()
  else do
    set (s.snoopAll (remoteKey g))
    waitE

/-- FLUSH of one line: a Dirty line is written back, and leaves the cache once the write has been performed (05 R132). -/
def flushLine (w : Who) (discard : Bool) (g : Nat) : Eng Unit := do
  recallLine g
  let s ← get
  match SMap.look s.rlc.lines g with
  | none => pure ()
  | some x =>
    match x.state with
    | .held => if discard then set (s.dropRemote g) else pure ()
    | .clean => do
      holdE (!s.writing g)
      set (s.dropRemote g)
    | .dirty => do
      let h : Head := { type := 0x06, dst := g * 64 / 2 ^ 50 % 64, tenant := w.tenant, addr := g * 64 % 2 ^ 50, len := 64,
                        aop := 1, poison := x.poisoned }
      let _ ← sendRequest h (maskedPayload x.data x.mask) (writePurpose w)
      modify fun s => s.setRemote g { x with state := .clean, mask := 0 }
      waitE

/-- FLUSH of a list of lines. -/
def flushLines (w : Who) (discard : Bool) (l : List Nat) : Eng Unit := do
  match l with
  | [] => pure ()
  | g :: rest => do
    flushLine w discard g
    flushLines w discard rest

/-- Meets the failure of the first write that failed. -/
def checkAll (l : List Resp) : Eng Unit := do
  match l with
  | [] => pure ()
  | r :: rest => do
    r.check
    checkAll rest

/-- FLUSH (05 R132). -/
def execFlush (slot : Nat) (s : State) : Out :=
  .next (runSlot 0x40 slot (fun sl => do
    let n := sl.f 192 64
    needE (1 ≤ n && n ≤ 2 ^ 50) .badDescriptor
    let w := sl.who slot 5
    let s ← get
    let l := s.mappedRanges sl.asid (sl.f 128 57) n
    flushLines w (sl.f 320 1 = 1) (s.cachedIn l)
    let s ← get
    holdE (!s.fab.tags.any fun (_, q) => q.type = 0x06 && inRanges l (lineOf (globalOf q.dst (headOf q.packet.header).addr)))
    checkAll (s.mailbox w.waiter)
    pure (.ok, 0, 0)) s)

/-! ### Regions at their home -/

/-- The region with a local base. -/
def State.regionAt (s : State) (la : Nat) : Option (Nat × Region) :=
  s.rlc.regions.find? fun (_, r) => (r.pieces.headD (0, 0)).1 = la

/-- Whether a local line lies in a versioned region. -/
def State.versioned (s : State) (line : Nat) : Bool := s.rlc.regions.any fun (_, r) => inRanges r.pieces line

def State.setRegion (s : State) (id : Nat) (r : Region) : State :=
  { s with rlc := { s.rlc with regions := SMap.put s.rlc.regions id r } }

/-- Lines of publish staging, and those that granted publishes hold (05 R128, R134). -/
def State.stagingLines (s : State) : Nat := s.rlc.stagingMib * 16384
def State.stagingUsed (s : State) : Nat :=
  (s.rlc.regions.map fun (_, r) => match r.current with
    | some p => if p.granted then p.announced else 0
    | none => 0).sum

/-- Version and count, as the payload of a PUB_RSP. -/
def versionPayload (version count : Nat) : List Byte := leBytes 8 version ++ leBytes 8 count

/-- Answers an open request, of another package or of this one. -/
def State.answerOpen (s : State) (p : Publish) (st : Status) (version : Nat) : State :=
  match p.package with
  | some src => match s.held? src p.tag with
    | some x => s.reply x.packet (plainHead (packetHead x.packet) st) (versionPayload version 0) []
    | none => s
  | none => match s.live? p.tag with
    | some (n, _) => s.updSlot n fun x => { x with resp := x.resp ++ [{ address := partMark, status := st.code,
                                                                          data := versionPayload version 0 }] }
    | none => s

/-- The accepted publish that takes staging next: publishes take it in their order of acceptance (05 R134). -/
def State.nextStaging (s : State) : Option Nat :=
  s.rlc.stagingOrder.find? fun id => ((SMap.look s.rlc.regions id).bind (·.current)).any fun p => !p.granted

/-- An accepted publish takes staging, if it is next and the staging has room; its open request is then answered. -/
def State.grantStaging (s : State) (id : Nat) : State :=
  match SMap.look s.rlc.regions id with
  | none => s
  | some r => match r.current with
    | none => s
    | some p =>
      if p.granted || s.nextStaging ≠ some id || s.stagingUsed + p.announced > s.stagingLines then s
      else (s.setRegion id { r with current := some { p with granted := true } }).answerOpen p .ok r.version

/-- An open request is taken: it conflicts, exceeds the staging, or is accepted (05 R134). -/
def State.takeOpen (s : State) (id : Nat) (p : Publish) : State :=
  match SMap.look s.rlc.regions id with
  | none => s.answerOpen p .badDescriptor 0
  | some r =>
    if r.current.isSome then s.setRegion id { r with waiting := r.waiting ++ [p] }
    else if p.base ≠ r.version then s.answerOpen p .publishConflict r.version
    else if p.announced > s.stagingLines then s.answerOpen p .resource r.version
    else
      let s := s.setRegion id { r with current := some p }
      ({ s with rlc := { s.rlc with stagingOrder := s.rlc.stagingOrder ++ [id] } } : State).grantStaging id

/-- The accepted publish of a region ends, and the open requests behind it are taken in order (05 R134, R137). -/
def State.endPublish (s : State) (id : Nat) : State :=
  match SMap.look s.rlc.regions id with
  | none => s
  | some r =>
    let s := s.setRegion id { r with current := none, waiting := [] }
    let s := { s with rlc := { s.rlc with stagingOrder := s.rlc.stagingOrder.filter (· ≠ id) } }
    r.waiting.foldl (fun s p => s.takeOpen id p) s

/-- The version of a region advances by 1, in mirrored metadata (05 R133, R134). -/
def State.advanceVersion (s : State) (id : Nat) (r : Region) (slot : Option Nat) : State :=
  ((s.setRegion id { r with version := r.version + 1 }).mirrorMeta slot).endPublish id

/-- A failed publisher's lines are discarded and its regions released (05 R137). -/
def State.dropPublisher (s : State) (package : Nat) : State :=
  (SMap.keys s.rlc.regions).foldl (fun s id => match SMap.look s.rlc.regions id with
    | none => s
    | some r =>
      let s := s.setRegion id { r with waiting := r.waiting.filter (·.package ≠ some package) }
      if r.current.any (·.package = some package) then s.endPublish id else s) s

/-- PUBLISH_STAGING_GRANT (05 R134). -/
def execPublishStagingGrant (region : Nat) (s : State) : Out := .next (s.grantStaging region)

/-- PUB_OPEN: an open request reaches the region's home (05 R134, R135). Its payload is BASE_VERSION and the number of lines. -/
def execPubOpen (packet : Packet) (s : State) : Out :=
  .next (serve 0x05 packet (fun q => do
    let la ← homeAddress q q.addr
    permitE q.tenant la
    match (← get).regionAt la with
    | none => failE .badDescriptor
    | some (id, r) =>
      let mine := fun (p : Publish) => p.package = some q.src && p.tag = q.tag
      if r.current.any mine || r.waiting.any mine then waitE
      else do
        let p : Publish := { package := some q.src, tag := q.tag, announced := leNat (packet.payload.drop 8 |>.take 8),
                             base := leNat (packet.payload.take 8), granted := false, received := 0, staged := [] }
        modify fun s => s.takeOpen id p
        waitE) s)

/-- The accepted publish of the region at a base by a package; a home that has none (the twin, after a failure) asks the
publisher to begin again with ABORTED (05 R137). -/
def publishOf (q : Head) (la : Nat) : Eng (Nat × Region × Publish) := do
  match (← get).regionAt la with
  | none => failE .badDescriptor
  | some (id, r) => match r.current with
    | some p => if p.package = some q.src && p.granted then pure (id, r, p) else failE .aborted
    | none => failE .aborted

/-- PUB_LINE: a Held line is staged (05 R134). CTR_ADDR carries the region's base, and the payload the line's bytes and mask. -/
def execPubLine (packet : Packet) (s : State) : Out :=
  .next (serve 0x09 packet (fun q => do
    let base ← homeAddress q q.ctr
    let la ← homeAddress q q.addr
    let (id, r, p) ← publishOf q base
    needE (inRanges r.pieces (lineOf la)) .badDescriptor
    let mask := BitVec.ofNat 64 (leNat (packet.payload.drop 64))
    let known := p.staged.any fun (l, _, _) => l = lineOf la
    let p := { p with received := if known then p.received else p.received + 1,
                      staged := p.staged.filter (fun (l, _, _) => l ≠ lineOf la) ++ [(lineOf la, packet.payload.take 64, mask)] }
    modify fun s => s.setRegion id { r with current := some p }
    pure (plainHead q .ok, [], [])) s)

/-- Applies the staged lines of a publish, each as one event at its home (05 R134, 09 R245). -/
def applyStaged (tenant id : Nat) (r : Region) (p : Publish) (l : List (Nat × List Byte × BitVec 64)) : Eng Unit := do
  match l with
  | [] => pure ()
  | (line, data, mask) :: rest => do
    homeClaim tenant (line * 64)
    modify fun s => (s.placeMasked line data mask none).setRegion id { r with current := some { p with staged := rest } }
    applyStaged tenant id r { p with staged := rest } rest

/-- PUB_END: every line is staged: the home applies each and advances the version (05 R134). -/
def execPubEnd (packet : Packet) (s : State) : Out :=
  .next (serve 0x0A packet (fun q => do
    let base ← homeAddress q q.addr
    let (id, r, p) ← publishOf q base
    holdE (p.received ≥ p.announced)
    let lines := p.staged.map (·.1)
    applyStaged q.tenant id r p p.staged
    modify fun s => s.advanceVersion id { r with current := none } none
    pure (plainHead q .ok, versionPayload (r.version + 1) p.announced, lines)) s)

/-! ### PUBLISH at the publisher -/

/-- Puts back the masks of lines that were sent to a home that failed, and begins again (05 R137). -/
def restartPublish (n : Nat) (sl : Slot) : Eng (Status × Nat × Nat) := do
  modify fun s =>
    let s := (sl.marks.drop 1).foldl (fun s m =>
      { s with rlc := { s.rlc with lines := SMap.upd s.rlc.lines (m / 2 ^ 64) fun x =>
        { x with mask := x.mask ||| BitVec.ofNat 64 m } } }) s
    s.updSlot n fun x => { x with marks := [], cursor := 0, resp := [] }
  waitE

/-- Drops the Held lines and invalidates the Clean lines of a region after a conflict (05 R135). -/
def dropLines (l : List Nat) : Eng Unit := do
  match l with
  | [] => pure ()
  | g :: rest => do
    recallLine g
    modify fun s => match SMap.look s.rlc.lines g with
      | some x => if x.state = .dirty then s else s.dropRemote g
      | none => s
    dropLines rest

/-- A PUBLISH that lost: its result holds the winning version (05 R135). -/
def loseConflict (n : Nat) (l : List Nat) (version : Nat) : Eng (Status × Nat × Nat) := do
  dropLines l
  modify fun s => (s.bump (dkey 0x5021 1) 1).updSlot n fun x => { x with result := version, count := 0 }
  failE .publishConflict

/-- Sends the Held lines of an accepted PUBLISH, each with its dirty bytes; answers false if the home asks to begin again. -/
def sendLines (w : Who) (n base : Nat) (l : List Nat) (k : Nat) : Eng Bool := do
  match l with
  | [] => pure true
  | m :: rest => do
    let g := m / 2 ^ 64
    let x := SMap.get (← get).rlc.lines g { state := .clean, data := [], mask := 0, versioned := true, poisoned := false }
    let h : Head := { type := 0x09, dst := g * 64 / 2 ^ 50 % 64, tenant := w.tenant, addr := g * 64 % 2 ^ 50, len := 64,
                      ctr := base % 2 ^ 50, poison := x.poisoned }
    let key := g * 64 + writeMark
    let s ← get
    match (s.mailbox w.waiter).find? (·.address = key) with
    | some r =>
      if r.status = 0x4B then pure false
      else do
        r.check
        sendLines w n base rest (k + 1)
    | none =>
      if s.inFlight (.publish n) h.dst h.addr then waitE
      else do
        let _ ← sendRequest h (maskedPayload x.data x.mask) (.publish n)
        modify fun s =>
          let s := if SMap.has s.rlc.lines g then s.setRemote g { x with mask := 0 } else s
          s.updSlot n fun sl => { sl with marks := sl.marks.set k (g * 2 ^ 64 + x.mask.toNat) }
        waitE

/-- Every published line turns Clean, unless it was stored to since it was sent (05 R134). -/
def State.cleanSent (s : State) (l : List Nat) : State :=
  l.foldl (fun s m => { s with rlc := { s.rlc with lines := SMap.upd s.rlc.lines (m / 2 ^ 64) fun x =>
    if x.mask = 0 && x.state = .held then { x with state := .clean } else x } }) s

/-- A PUBLISH to a region of another package. Its cursor says how far it is: 0 not opened, 1 open sent, 2 accepted; its
marks hold the region's length and the lines announced, each with the mask that was sent. -/
def publishAway (w : Who) (n : Nat) (sl : Slot) (p la : Nat) : Eng (Status × Nat × Nat) := do
  let va := sl.f 128 57
  let ga := globalOf p la
  let s ← get
  if sl.cursor = 0 then do
    let r ← askPart w sl 0 p la []
    r.check
    let length := leNat (r.data.drop 8)
    let l := s.cachedIn (s.mappedRanges sl.asid va length)
    l.forM recallLine
    let held := l.filter fun g => (SMap.look s.rlc.lines g).any (·.state = .held)
    let h : Head := { type := 0x05, dst := p, tenant := w.tenant, addr := la }
    let _ ← sendRequest h (leBytes 8 (sl.f 256 64) ++ leBytes 8 held.length) (.publish n)
    modify fun s => s.updSlot n fun x => { x with cursor := 1, marks := length :: held.map (· * 2 ^ 64), resp := [] }
    waitE
  else if sl.cursor = 1 then
    match (s.mailbox w.waiter).find? (·.address = ga + partMark) with
    | none => waitE
    | some r => do
      noteTwin w r
      if r.status = 0x43 then
        loseConflict n (s.cachedIn (s.mappedRanges sl.asid va (sl.marks.headD 0))) (leNat (r.data.take 8))
      else if r.status = 0x4B then restartPublish n sl
      else do
        r.check
        modify fun s => s.updSlot n fun x => { x with cursor := 2, resp := [] }
        waitE
  else do
    if ← sendLines w n ga (sl.marks.drop 1) 1 then do
      let r ← askRaw w (ga + partMark) { type := 0x0A, dst := p, tenant := w.tenant, addr := la } [] (.publish n)
      noteTwin w r
      if r.status = 0x4B then restartPublish n (← getSlot n)
      else do
        r.check
        modify fun s => s.cleanSent (sl.marks.drop 1)
        pure (.ok, leNat (r.data.drop 8), leNat (r.data.take 8))
    else restartPublish n (← getSlot n)

/-- PUBLISH (05 R134, R135). -/
def execPublish (slot : Nat) (s : State) : Out :=
  .next (runSlot 0x41 slot (fun sl => do
    needE (sl.f 192 64 = 0) .badDescriptor
    let w := sl.who slot 5
    let ga ← translate w sl.asid (sl.f 128 57) true
    let s ← get
    match s.placeOf ga with
    | .dead => failE .targetDead
    | .away p la => publishAway w slot sl p la
    | .here la => match s.regionAt la with
      | none => failE .badDescriptor
      | some (id, r) =>
        if sl.cursor = 0 then do
          setCursor slot 1
          modify fun s => s.takeOpen id { package := none, tag := sl.seq, announced := 0, base := sl.f 256 64,
                                          granted := false, received := 0, staged := [] }
          waitE
        else match sl.resp.find? (·.address = partMark) with
          | none => waitE
          | some x =>
            if x.status = 0x43 then loseConflict slot [] (leNat (x.data.take 8))
            else do
              x.check
              set (s.advanceVersion id r (some slot))
              pure (.ok, 0, r.version + 1)) s)

/-! ### VERSION_QUERY and REGION_CONFIG -/

/-- Version and length of the region at a local base: what a VERSION_QUERY or PUBLISH part returns. -/
def queryHere (la : Nat) : Eng (Nat × Nat) := do
  match (← get).regionAt la with
  | some (_, r) => pure (r.version, r.length)
  | none => failE .badDescriptor

/-- VERSION_QUERY (05 R136). -/
def execVersionQuery (slot : Nat) (s : State) : Out :=
  .next (runSlot 0x42 slot (fun sl => do
    needE (sl.f 192 64 = 0) .badDescriptor
    let w := sl.who slot 5
    let ga ← translate w sl.asid (sl.f 128 57) false
    match (← get).placeOf ga with
    | .dead => failE .targetDead
    | .here la => do
      let (v, _) ← queryHere la
      pure (.ok, 0, v)
    | .away p la => do
      let r ← askPart w sl 0 p la []
      r.check
      pure (.ok, 0, leNat (r.data.take 8))) s)

/-- Whether two lists of ranges share a byte. -/
def rangesShare (a b : List (Nat × Nat)) : Bool := a.any fun (x, n) => b.any fun (y, m) => x < y + m && y < x + n

/-- Joins ranges that lie back to back. -/
def joinRanges (l : List (Nat × Nat)) : List (Nat × Nat) :=
  l.foldr (fun (a, n) rest => match rest with
    | (b, m) :: more => if a + n = b then (a, n + m) :: more else (a, n) :: rest
    | [] => [(a, n)]) []

/-- Creates a region over local ranges (05 R133). -/
def createRegion (tenant : Nat) (pieces : List (Nat × Nat)) (length : Nat) (slot : Option Nat) : Eng Unit := do
  let s ← get
  let whole := pieces.all fun (a, n) => (List.range (n / 2 ^ 30 + 2)).all fun i =>
    a / 2 ^ 30 + i > (a + n - 1) / 2 ^ 30 || (s.extent? (a / 2 ^ 30 + i)).any fun x => x.state = .owned && x.hold = .none
  needE (whole && s.rlc.regions.length < s.val (dkey 0x5021 2) &&
    !s.rlc.regions.any fun (_, r) => rangesShare r.pieces pieces) .badDescriptor
  let id := leastFree (SMap.keys s.rlc.regions) 4096 0
  set ((s.setRegion id { pieces, length, tenant, version := 0, current := none, waiting := [] }).mirrorMeta slot)

/-- Destroys the region at a local base, once no publish of it is accepted. -/
def destroyRegion (la : Nat) (slot : Option Nat) : Eng Unit := do
  let s ← get
  match s.regionAt la with
  | none => failE .badDescriptor
  | some (id, r) => do
    holdE r.current.isNone
    let s := { s with rlc := { s.rlc with regions := SMap.del s.rlc.regions id } }
    set (s.mirrorMeta slot)

/-- The inputs of a REGION_CONFIG part: operation, count and local ranges. -/
def regionInputs (op : Nat) (l : List (Nat × Nat)) : List Byte :=
  leBytes 8 op ++ leBytes 8 l.length ++ l.flatMap fun (a, n) => leBytes 8 (a % 2 ^ 50) ++ leBytes 8 n

/-- A REGION_CONFIG of operation `op`. -/
def regionConfig (op n : Nat) (body : Slot → Who → Eng Unit) (s : State) : State :=
  runSlotIf 0x43 n (fun sl => sl.f 321 1 = op) (fun sl => do
    body sl (sl.who n 5)
    pure (.ok, 0, 0)) s

/-- REGION_CREATE: REGION_CONFIG OP 0 (05 R133); the region's extents lie on one package. -/
def execRegionCreate (slot : Nat) (s : State) : Out :=
  .next (regionConfig 0 slot (fun sl w => do
    let n := sl.f 192 64
    needE (n % 2 ^ 16 = 0 && 2 ^ 16 ≤ n && n ≤ 2 ^ 36) .badDescriptor
    let l := joinRanges (← rangePieces w sl.asid (sl.f 128 57) n false (n / 2 ^ 16 + 1))
    let s ← get
    match s.placeOf (l.headD (0, 0)).1 with
    | .dead => failE .targetDead
    | .here _ => do
      let here := l.filterMap fun (a, k) => match s.placeOf a with
        | .here la => some (la, k)
        | _ => none
      needE (here.length = l.length) .badDescriptor
      createRegion sl.tenant here n (some slot)
    | .away p la => do
      needE (l.all fun (a, _) => a / 2 ^ 50 % 64 = p) .badDescriptor
      let r ← askPart w sl 5 p la (regionInputs 0 l)
      r.check) s)

/-- REGION_DESTROY: REGION_CONFIG OP 1 (05 R133). -/
def execRegionDestroy (slot : Nat) (s : State) : Out :=
  .next (regionConfig 1 slot (fun sl w => do
    let ga ← translate w sl.asid (sl.f 128 57) false
    match (← get).placeOf ga with
    | .dead => failE .targetDead
    | .here la => destroyRegion la (some slot)
    | .away p la => do
      let r ← askPart w sl 5 p la (regionInputs 1 [])
      r.check) s)

/-- Decodes the ranges of a REGION_CONFIG part. -/
def rangesOf (fuel : Nat) (bs : List Byte) : List (Nat × Nat) :=
  match fuel with
  | 0 => []
  | k + 1 => (leNat (bs.take 8), leNat (bs.drop 8 |>.take 8)) :: rangesOf k (bs.drop 16)

/-- A part of a coherence command of another package: the query of PUBLISH and VERSION_QUERY, or REGION_CONFIG. -/
def regionPart (q : Head) (opcode la : Nat) (inputs : List Byte) : Eng (List Byte) := do
  if opcode = 0x43 then do
    if leNat (inputs.take 8) = 0 then do
      let l := rangesOf (leNat (inputs.drop 8 |>.take 8)) (inputs.drop 16)
      createRegion q.tenant l (l.map (·.2)).sum none
    else destroyRegion la none
    pure []
  else do
    let (v, n) ← queryHere la
    pure (leBytes 8 v ++ leBytes 8 n)

end Sys2Proof.Machine
end

