-- ==== Sys2Proof/Machine/TwinOps.lean ====
section
/-!
DEFINITION. What chapters 12 and 13 share: fencing, the pair recorded as degraded, notices, and requests that end without a
response.
-/

namespace Sys2Proof.Machine

open Sys2Proof

/-! ### Commands cut off -/

/-- The cores of a LAUNCH stop where they stand, and the LAUNCH is gone. -/
def State.killLaunch (s : State) (slot : Nat) : State :=
  let hit := SMap.keys (s.grid.cores.filter fun (_, c) => c.run ≠ .idle && c.slot = slot)
  let s := hit.foldl (fun s n => s.updCore n fun c =>
    { c with run := .idle, wait := none, blocked := 0, tracker := [], dcache := [], resp := [], failure := none, exc := none,
             failedGroups := [], sentPrior := [], dbg := .running, atBrk := false, lastRun := s.time }) s
  { s with grid := { s.grid with launches := SMap.del s.grid.launches slot } }

/-- Every command in flight that a list names completes ABORTED. -/
def State.abortSlots (s : State) (p : Slot → Bool) : State :=
  let hit := SMap.keys (s.fe.slots.filter fun (_, x) => x.stage ≠ .finished && p x)
  hit.foldl (fun s n => (s.killLaunch n).failSlot n .aborted) s

/-! ### The pair (13 R362, R364) -/

/-- No write waits on the twin any more: what it held up goes on (13 R362). -/
def State.dropUnacked (s : State) : State :=
  ({ s with twin := { s.twin with unacked := [], sent := [] } }).flushAnswers.commitDone

/-- The pair is recorded as degraded; TWIN_DEGRADED is raised and TWIN_LOST logged (13 R362). -/
def State.recordDegraded (s : State) : State :=
  let s := { s with twin := { s.twin with recordedDegraded := true } }.dropUnacked
  (s.fmEvent 0x08 (s.twin.twinId % 64) 0 0).logFree 0x0010 13 0 s.twin.twinId

/-- The package enters FENCED (13 R364). -/
def State.fence (s : State) : State :=
  if s.twin.pair = .fenced then s
  else
    let s := { s with twin := { s.twin with pair := .fenced, probing := false, answersFor := none }
                      pwr := { s.pwr with device := .fenced } }
    let s := s.dropUnacked
    let rings := s.fe.rings.filter fun (_, r) => r.state = .active || r.state = .step
    let s := rings.foldl (fun s (n, r) => s.quiesce n r) s
    (s.abortSlots fun _ => true).logFree 0x0012 13 0 0

/-- The probe is answered: the twin is alive, and only the twin paths are cut (13 R363). -/
def State.split (s : State) : State :=
  if s.twin.probing then
    { s with twin := { s.twin with pair := .split, probing := false, record := none } }.logFree 0x0011 13 0 s.twin.twinId
  else s

/-! ### Notices (12 R337) -/

/-- The payload of a CTL packet: 0 TAKEOVER or 1 RELEASE_ID, whether it acknowledges, and the id named (DESIGN CHOICE, log 36). -/
def noticePayload (release ack : Bool) (id : Nat) : List Byte := leBytes 3 (pack [(bit release, 8), (bit ack, 8), (id, 8)])

/-- Sends a CTL packet by the route table; without a live port it is lost, and repeated later. -/
def State.sendCtl (s : State) (dst : Nat) (release ack : Bool) (id : Nat) : State :=
  (s.route { type := 0x15, dst, src := s.fab.id } (noticePayload release ack id)).getD s

/-- Packages that a notice for an id goes to: every id but that one whose row has a live port. -/
def State.noticeTargets (s : State) (id : Nat) : List Nat :=
  (List.range 64).filter fun p => p ≠ id && p ≠ s.fab.id && !(s.livePorts p).isEmpty

/-- Sends a notice to every package, in place of an earlier one for the id. -/
def State.sendNotices (s : State) (id : Nat) (release : Bool) : State :=
  let kept := s.fab.notices.filter (·.id ≠ id)
  let l := s.noticeTargets id
  let s := { s with fab := { s.fab with notices := kept ++ l.map fun p => { id, release, destination := p } } }
  l.foldl (fun s p => s.sendCtl p release false id) s

/-! ### Requests (12 R339, R347) -/

/-- Sends a request again, with REISSUE set and its timer restarted; one that finds no route is held. -/
def State.resend (s : State) (tag : Nat) (q : Request) : State :=
  let h := { packetHead q.packet with reissue := true }
  let s := s.bump (dkey 0x5036 2) 1
  let (s, held) := match s.route h q.packet.payload with
    | some s => (s, false)
    | none => (s, true)
  let q := { q with reissues := q.reissues + 1, held, since := s.time }
  { s with fab := { s.fab with tags := SMap.put s.fab.tags tag q } }

/-- Whether a request may be reissued once more. -/
def State.mayReissue (s : State) (q : Request) : Bool := q.reissues < s.val (dkey 0x5035 1)

/-! ### Responses taken up (12 R333, R338) -/

/-- Which access takes up a response. -/
def Purpose.waiter (p : Purpose) : Option Waiter :=
  match p with
  | .coreRead n | .coreAtomic n => some (.core n)
  | .trackRead n o | .trackWrite n o => some (.track n o)
  | .agentFill n => some (.agent n)
  | .ringRead n => some (.ring n)
  | .modelRead n | .modelWrite n => some (.model n)
  | .indexRead n | .indexWrite n => some (.index n)
  | .tableRead n | .tableWrite n => some (.table n)
  | .slotRead n | .slotPart n | .slotAtomic n | .publish n | .take n => some (.slot n 0)
  | .partRead p t | .partWrite p t => some (.part p t)
  | .ringWrite _ | .cqWrite _ | .writeBack _ | .probe | .other => none

/-- The key under which an access looks for the response to its request. -/
def Request.key (q : Request) : Nat :=
  let ga := globalOf q.dst (packetHead q.packet).addr
  match q.type with
  | 0x01 => ga
  | 0x02 => ga + fillMark
  | 0x03 => ga + atomicMark
  | 0x04 | 0x05 | 0x0A => ga + partMark
  | _ => ga + writeMark

/-- Hands a response to the access that waits for it. A write of a status block or a completion record that failed puts its
rings in ERROR (06 R496). -/
def State.hand (s : State) (q : Request) (status : Nat) (data : List Byte) : State :=
  let bad := 0x40 ≤ status % 256 && status % 256 ≠ 0x46
  match q.purpose with
  | .ringWrite n => if bad then s.ringError n 4 else s
  | .cqWrite n => if bad then s.cqError n else s
  | .probe => s.split
  | p => match p.waiter with
    | some w => s.setMail w (s.mailbox w ++ [{ address := q.key, status, data }])
    | none => s

/-- A request ends: its tag is free, and the group credit that a WR_FINAL or GROUP_END gives back returns (12 R341). -/
def State.endRequest (s : State) (tag : Nat) (q : Request) : State :=
  let s := s.freeTag tag
  if (q.type = 0x07 || q.type = 0x08) && 0 < (packetHead q.packet).prior then
    { s with fab := { s.fab with groupCredits := SMap.upd s.fab.groupCredits q.dst (· - 1) } }
  else s

/-- A part of a sharded SEARCH reports to its merge unit, and not to its command (10 R289). -/
def Request.isLeg (q : Request) : Bool := q.type = 0x04 && partKind q.packet = 1

/-- A shard of a sharded SEARCH is dead: it has failed (10 R289). -/
def State.legDead (s : State) (q : Request) : State :=
  match q.purpose with
  | .slotPart n => match SMap.look s.idx.merging n with
    | some m => s.setMerging n (m.lose q.dst .targetDead)
    | none => s
  | _ => s

/-- A request completes TARGET_DEAD (12 R347): a probe is not answered by it. -/
def State.requestDead (s : State) (tag : Nat) (q : Request) : State :=
  let s := (s.endRequest tag q).countDead
  if q.purpose = .probe then s
  else if q.isLeg then s.legDead q
  else s.hand q Status.targetDead.code []

end Sys2Proof.Machine
end

