-- ==== Sys2Proof/Machine/Fabric.lean ====
section
/-!
DEFINITION. Transaction packets at their home and back at the requester (12 R332 to R348): reads, fills, atomics, command
parts, writes and copy groups; responses; timers; notices.
-/

namespace Sys2Proof.Machine

open Sys2Proof

/-! ### Requests at their home -/

/-- The local pieces of the bytes that a request names, each with the tenant check of R92. -/
def homePieces (q : Head) (l : List (Nat × Nat)) : Eng (List (Nat × Nat)) := do
  match l with
  | [] => pure []
  | (a, n) :: rest => do
    let la ← homeAddress q a
    permitE q.tenant la
    pure ((la, n) :: (← homePieces q rest))

/-- Reads local pieces; the Boolean says that some line is poisoned. -/
def readHome (tenant : Nat) (l : List (Nat × Nat)) : Eng (List Byte × Bool) := do
  match l with
  | [] => pure ([], false)
  | (la, n) :: rest => do
    let (bs, p) ← homeReadP tenant la n
    let (more, q) ← readHome tenant rest
    pure (bs ++ more, p || q)

/-- The head of a response with data: a poisoned line carries POISON and STATUS POISONED (12 R333). -/
def dataHead (q : Head) (poison : Bool) : Head :=
  { plainHead q (if poison then .poisoned else .ok) with poison }

/-- A twin that reads a line of a device page here while this package is PAIRED has recorded the pair as degraded: both enter
SPLIT (13 R363). -/
def State.probed (s : State) (q : Head) : State :=
  if q.type = 0x01 && q.src = s.twin.twinId && s.twin.pair = .paired && s.areaOf q.addr = .devicePage then
    let s := if s.twin.recordedDegraded then s else s.recordDegraded
    { s with twin := { s.twin with probing := true } }.split
  else s

/-- RD: bytes are read at their home (12 R332, R333). -/
def execRd (packet : Packet) (s : State) : Out :=
  .next ((fun (t : State) => if s.isMine (packetHead packet) then t.probed (packetHead packet) else t) <| serve 0x01 packet (fun q => do
    let l ← homePieces q (piecesOf q.addr q.len)
    let (bs, p) ← readHome q.tenant l
    pure (dataHead q p, bs, [])) s)

/-- REMOTE_FILL: a line for another package's remote line cache. A watched line, and a line of a scratchpad, is answered
uncached; a line of a versioned region is marked (05 R127, R129, 07 R178, 12 Table 12-7). -/
def execRemoteFill (packet : Packet) (s : State) : Out :=
  .next (serve 0x02 packet (fun q => do
    let la ← homeAddress q (q.addr / 64 * 64)
    permitE q.tenant la
    let (bs, p) ← homeReadP q.tenant la 64
    let s ← get
    let scratch := match s.areaOf la with
      | .scratch _ => true
      | _ => false
    pure ({ dataHead q p with versioned := s.versioned (lineOf la), uncached := scratch || SMap.has s.coh.watches (lineOf la) },
      bs, [])) s)

/-- ATOMIC: performed once at the home atomic line buffer (05 R121 to R123, 12 R340); an ownership word has its home at the
ledger (13 R375). -/
def execAtomic (packet : Packet) (s : State) : Out :=
  .next (serve 0x03 packet (fun q => do
    let n := atomicBytes q.asize
    if q.addr = ledgerWordAddress then do
      let old ← ledgerCas q.ctr (leNat (packet.payload.take 8)) (leNat (packet.payload.drop 8))
      pure (plainHead q .ok, leBytes 8 old, [metaLine])
    else do
    needE (q.addr % n = 0 && atomicAllowed q.aop q.asize) .badDescriptor
    let la ← homeAddress q q.addr
    permitE q.tenant la
    let old ← atomicAtHome q.tenant la q.aop q.asize (leNat (packet.payload.take n)) (leNat (packet.payload.drop n)) none
    modify fun s => s.checkRetire la
    pure (plainHead q .ok, leBytes n old, [lineOf la])) s)

/-- Writes the pieces of a WR that have not been written, each as one event (12 R339; DESIGN CHOICE, log 31). -/
def writeHome (k : Packet) (q : Head) (l : List (Nat × Nat)) (bs : List Byte) (i done : Nat) : Eng Unit := do
  match l with
  | [] => pure ()
  | (la, n) :: rest => do
    if i < done then pure ()
    else do
      if q.poison then homePoison q.tenant la (bs.take n) none else homeWrite q.tenant la (bs.take n) none
      setStage k (i + 1)
    writeHome k q rest (bs.drop n) (i + 1) done

/-- The write of a WR or WR_FINAL; AOP 1 announces a byte mask after the line's bytes (09 R245, DESIGN CHOICE, log 36). -/
def performWrite (k : Packet) (q : Head) : Eng (List Nat) := do
  if q.aop = 1 then do
    let la ← homeAddress q (q.addr / 64 * 64)
    permitE q.tenant la
    homeClaim q.tenant la
    let mask := BitVec.ofNat 64 (leNat (k.payload.drop 64))
    modify fun s => s.placeMasked (lineOf la) (k.payload.take 64) mask none q.poison
    pure [lineOf la]
  else do
    let l ← homePieces q (piecesOf q.addr q.len)
    writeHome k q l k.payload 0 (← stageOf q)
    pure (l.map fun (la, _) => lineOf la)

/-- The key of a copy group at its home: source package, source unit and group (12 R341). -/
def trackerKey (q : Head) : Nat := q.src * 2 ^ 20 + q.unit * 16 + q.group

def State.group (s : State) (key : Nat) : Group := SMap.get s.fab.groups key { count := 0, failed := none, held := [] }
def State.setGroup (s : State) (key : Nat) (g : Group) : State :=
  { s with fab := { s.fab with groups := SMap.put s.fab.groups key g } }

/-- Counts a GROUPED WR that has been dealt with; the first failure of REVOKED, NOT_PERMITTED or TARGET_DEAD marks the
entry failed (12 R341, R342). -/
def State.countGroup (s : State) (key : Nat) (st : Status) : State :=
  let g := s.group key
  let bad := st = .revoked || st = .notPermitted || st = .targetDead
  s.setGroup key { g with count := g.count + 1, failed := g.failed.orElse fun _ => if bad then some st.code else none }

/-- WR (12 R333, R341). A write of a group for the id of a twin makes no entry here (R342). -/
def execWr (packet : Packet) (s : State) : Out :=
  .next (serve 0x06 packet (fun q => do
    let r ← attempt (performWrite packet q)
    let st := match r with
      | .ok _ => Status.ok
      | .error st => st
    if q.grouped && q.dst = (← get).fab.id then modify fun s => s.countGroup (trackerKey q) st else pure ()
    match r with
    | .ok lines => pure (plainHead q .ok, [], lines)
    | .error st => failE st) s)

/-- Holds a WR_FINAL or GROUP_END until its entry counts PRIOR, and then frees the entry: the failure it met, if any
(12 R341, R342). A twin that answers for the destination has no entry. -/
def closeGroup (k : Packet) (q : Head) : Eng Unit := do
  let s ← get
  needE (q.dst = s.fab.id) .targetDead
  let key := trackerKey q
  let g := s.group key
  if g.count < q.prior then do
    set (s.setGroup key { g with held := if g.held.contains k then g.held else g.held ++ [k] })
    waitE
  else
    match g.failed with
    | some code => do
      set { s with fab := { s.fab with groups := SMap.del s.fab.groups key } }
      failE ((statusOf code).getD .targetDead)
    | none => pure ()

/-- Frees a group's entry. -/
def freeGroup (q : Head) : Eng Unit :=
  modify fun s => { s with fab := { s.fab with groups := SMap.del s.fab.groups (trackerKey q) } }

/-- Marks the stage of a WR_FINAL whose write is done and whose counter is still to be increased. -/
def writtenStage : Nat := 2 ^ 20

/-- WR_FINAL: once every earlier write of its group is performed, its write and then its counter's ADD (09 R252, 12 R341). -/
def execWrFinal (packet : Packet) (s : State) : Out :=
  .next (serve 0x07 packet (fun q => do
    if (← stageOf q) < writtenStage then do
      closeGroup packet q
      let _ ← performWrite packet q
      setStage packet writtenStage
    else pure ()
    let la ← homeAddress q q.ctr
    permitE q.tenant la
    let _ ← atomicAtHome q.tenant la 0x0 1 1 0 none
    modify fun s => s.checkRetire la
    freeGroup q
    let lines ← homePieces q (piecesOf q.addr q.len)
    pure (plainHead q .ok, [], lineOf la :: lines.map fun (a, _) => lineOf a)) s)

/-- GROUP_END: releases a group entry (12 R341). -/
def execGroupEnd (packet : Packet) (s : State) : Out :=
  .next (serve 0x08 packet (fun q => do
    closeGroup packet q
    freeGroup q
    pure (plainHead q .ok, [], [])) s)

/-! ### Command parts (12 R332) -/

/-- Inputs of an ACOPY push: the destination, the number of bytes, and the source ranges here (DESIGN CHOICE, log 36). -/
def pushInputs (dst n : Nat) (src : List (Nat × Nat)) : List Byte :=
  leBytes 8 dst ++ leBytes 8 n ++ leBytes 8 src.length ++ src.flatMap fun (a, k) => leBytes 8 a ++ leBytes 8 k

/-- An ACOPY push: the source lines are read here and sent to their destination (12 R344). -/
def pushPart (q : Head) (inputs : List Byte) : Eng Head := do
  let dst := leNat (inputs.take 8)
  let src := rangesOf (leNat ((inputs.drop 16).take 8)) (inputs.drop 24)
  let l ← homePieces q (src.flatMap fun (a, k) => piecesOf (a % 2 ^ 50) k)
  let (bs, p) ← readHome q.tenant l
  writePhys (partWho q 3) dst bs p
  pure (dataHead q p)

/-- A remote BIND check (04 R95): the shares it asks for are added here. -/
def bindPart (tenant : Nat) (inputs : List Byte) : Eng Unit := do
  let s ← get
  let x := leNat ((inputs.drop 16).take 8)
  match s.bindHere false tenant (bitsOf x 24 16) (bitOf x 40) (bitOf x 41) (bitsOf x 0 8) (leNat (inputs.take 8))
      (leNat ((inputs.drop 8).take 8)) with
  | .ok t => set (t.mirrorMeta none)
  | .error st => failE st

/-- A command part by its PART_KIND; a reserved kind is refused. -/
def partBody (k : Packet) (q : Head) : Eng (Head × List Byte × List Nat) := do
  let op := partOpcode k
  let plain := fun (out : List Byte) => (plainHead q .ok, partAnswer k out, ([] : List Nat))
  match partKind k with
  | 0 => do
    let la ← homeAddress q q.addr
    permitE q.tenant la
    if 0x10 ≤ op && op ≤ 0x13 then do
      let (out, lines) ← poolPart q op la (partDesc k) (partInputs k)
      pure (plainHead q .ok, partAnswer k out, lines)
    else do
      let out ← regionPart q op la (partInputs k)
      pure (plain out)
  | 1 => legBody k q
  | 6 => do
    let h ← pushPart q (partInputs k)
    pure (h, partAnswer k [], [])
  | 7 => do
    needE (q.dst = (← get).ownId) .targetDead
    bindPart q.tenant (partInputs k)
    pure (plain [])
  | 5 =>
    if op = 0x43 then do
      let la ← homeAddress q q.addr
      permitE q.tenant la
      let out ← regionPart q op la (partInputs k)
      pure (plain out)
    else if 0x90 ≤ op && op ≤ 0x97 then do
      let (st, out) ← contextPart k q
      pure (plainHead q st, partAnswer k out, [metaLine])
    else do
      let out ← tablePart k q
      pure (plain out)
  | 2 | 3 | 4 => do
    let out ← tablePart k q
    pure (plain out)
  | _ => failE .badDescriptor

/-- CMD: a command part runs at this package (12 R332). -/
def execCmd (packet : Packet) (s : State) : Out :=
  .next (serve 0x04 packet (partBody packet) s)

/-! ### Responses at the requester -/

/-- Takes up a response of a type: one whose request is gone, and one from a torn-down package, is dropped (12 R338, R348). -/
def takeResponse (type : Nat) (p : Packet) (f : State → Request → Head → State) (s : State) : State :=
  let s := s.takeIn p
  let r := packetHead p
  if r.type ≠ type || !s.isMine r then s
  else match s.answered? p with
    | some q => f s q r
    | none => s

/-- A response ends its request and is handed to the access that waits for it. -/
def State.accept (s : State) (q : Request) (r : Head) (data : List Byte) : State :=
  (s.endRequest r.tag q).hand q (s.answerStatus q r) data

/-- RD_RSP (12 R333). -/
def execRdRsp (packet : Packet) (s : State) : Out :=
  .next (takeResponse 0x0B packet (fun s q r =>
    (s.accept q r packet.payload).countWork r.tenant none 6 0xF packet.payload.length) s)

/-- FILL_RSP: the line enters the remote line cache, unless it must not be cached (05 R128, R129, 12 Table 12-7). -/
def execFillRsp (packet : Packet) (s : State) : Out :=
  .next (takeResponse 0x0C packet (fun s q r =>
    let s := s.countWork r.tenant none 6 0xF packet.payload.length
    let line := lineOf (globalOf q.dst (packetHead q.packet).addr)
    let good := r.status < 0x40 || r.status = 0x46
    if good && !r.uncached then
      ((s.endRequest r.tag q).rlcInstall line packet.payload r.versioned r.poison).bump (dkey 0x5020 0) 1
    else
      let st := s.answerStatus q r
      (s.endRequest r.tag q).hand q (if good then st + uncachedMark else st) packet.payload) s)

/-- ATOMIC_RSP: the old value returns. -/
def execAtomicRsp (packet : Packet) (s : State) : Out :=
  .next (takeResponse 0x0D packet (fun s q r => s.accept q r packet.payload) s)

/-- CMD_RSP: a part's outputs return; a search leg's go to the merge unit (10 R289). -/
def execCmdRsp (packet : Packet) (s : State) : Out :=
  .next (takeResponse 0x0E packet (fun s q r =>
    if q.isLeg then s.shardResult packet q else s.accept q r (partInputs packet)) s)

/-- PUB_RSP: acceptance, conflict or the new version (05 R134). -/
def execPubRsp (packet : Packet) (s : State) : Out :=
  .next (takeResponse 0x0F packet (fun s q r => s.accept q r packet.payload) s)

/-- WR_ACK: the write has been performed; a group credit returns with it (12 R341). -/
def execWrAck (packet : Packet) (s : State) : Out :=
  .next (takeResponse 0x10 packet (fun s q r => s.accept q r []) s)

/-- A response of a type that ends no request, for a request that is in flight. -/
def takeNote (type : Nat) (p : Packet) (f : Request → Request) (s : State) : State :=
  let s := s.takeIn p
  let r := packetHead p
  if r.type ≠ type || !s.isMine r then s
  else { s with fab := { s.fab with tags := SMap.upd s.fab.tags r.tag f } }

/-- PENDING restarts the request's timer (12 R339). -/
def execPending (packet : Packet) (s : State) : Out :=
  .next (takeNote 0x11 packet (fun q => { q with since := s.time, held := false }) s)

/-- NO_ROUTE: the request keeps its tag and its timer, and waits for one of them or for a notice (12 R336, R339). -/
def execNoRoute (packet : Packet) (s : State) : Out :=
  .next (takeNote 0x12 packet (fun q => { q with held := true }) s)

/-! ### Timers -/

/-- PENDING_TIMER: a home has held a request for half the timeout, and says so (12 R339). -/
def execPendingTimer (source tag : Nat) (s : State) : Out :=
  .next <| match s.held? source tag with
  | none => s
  | some x =>
    let q := packetHead x.packet
    (s.route { type := 0x11, dst := q.src, src := q.src, tenant := q.tenant, tag := q.tag, addr := q.addr } []).getD s

/-- REQUEST_TIMER: the timer of a request has run out: it is reissued, or, at the limit, completes TARGET_DEAD
(12 R339, R347). -/
def execRequestTimer (tag : Nat) (s : State) : Out :=
  .next <| match SMap.look s.fab.tags tag with
  | none => s
  | some q =>
    if s.time < q.since + usToTicks (s.val (dkey 0x5035 0)) then s
    else if s.mayReissue q then s.resend tag q
    else (s.requestDead tag q).fmEvent 0x05 q.dst 0 0

/-- STORED_RESPONSE_EXPIRY (12 R340). -/
def execStoredResponseExpiry (source tag : Nat) (s : State) : Out :=
  let key := source * 2 ^ 18 + tag
  .next { s with fab := { s.fab with stored := SMap.del s.fab.stored key }
                 twin := { s.twin with mirrored := SMap.del s.twin.mirrored key } }

/-! ### Notices (12 R337) -/

/-- Requests to an id that are held for reissue are sent again at once. -/
def State.resendHeld (s : State) (id : Nat) : State :=
  (s.fab.tags.filter fun (_, q) => q.dst = id && q.held).foldl (fun s (tag, q) => if s.mayReissue q then s.resend tag q else s) s

/-- TAKEOVER_NOTICE: the twin of a failed package answers for its id (12 R337); one that names this package fences it
(13 R364). Publishes of the failed package that are not staged whole are dropped (05 R137). -/
def execTakeoverNotice (id source : Nat) (s : State) : Out :=
  .next <|
    if !s.fab.composed then s
    else
      let s := s.sendCtl source false true id
      if id = s.fab.id then s.fence
      else
        let s := { s with fab := { s.fab with rerouted := insertNat s.fab.rerouted id } }
        (s.dropPublisher id).resendHeld id

/-- RELEASE_ID_NOTICE restores the row of an id (12 R337). -/
def execReleaseIdNotice (id source : Nat) (s : State) : Out :=
  .next <|
    if !s.fab.composed then s
    else
      let s := s.sendCtl source true true id
      { s with fab := { s.fab with rerouted := s.fab.rerouted.filter (· ≠ id) } }

/-- NOTICE_ACK: a package has acknowledged a notice (12 R337). -/
def execNoticeAck (id source : Nat) (release : Bool) (s : State) : Out :=
  .next { s with fab := { s.fab with notices := s.fab.notices.filter fun n =>
    !(n.id = id && n.destination = source && n.release = release) } }

/-- NOTICE_REPEAT: a notice that is not acknowledged is sent again (12 R337). -/
def execNoticeRepeat (id destination : Nat) (s : State) : Out :=
  .next <| match s.fab.notices.find? fun n => n.id = id && n.destination = destination with
  | some n => s.sendCtl destination n.release false id
  | none => s

end Sys2Proof.Machine
end

