-- ==== Sys2Proof/Machine/Tiles.lean ====
section
/-!
DEFINITION. TILE_MOVE, KV_SPILL and KV_FETCH (02 R46, R47, R59 to R61).
-/

namespace Sys2Proof.Machine

open Sys2Proof

/-- The tile engine that serves a command. -/
def Slot.tileWho (sl : Slot) (n : Nat) : Who := sl.who n 4

/-- The counter of a landed unit: its failure stops the command, and the unit stays landed and counted (02 R47). -/
def landCounter (w : Who) (n asid : Nat) (on : Bool) (ctrVa : Nat) : Eng Unit := do
  if on then counterAdd w asid ctrVa else pure ()
  modify fun s => s.updSlot n fun sl => { sl with parts := 0 }

/-- One unit that lands once: `land` makes it, then its counter is increased; a counter that waits does not land it again. -/
def landOnce (w : Who) (n i asid : Nat) (on : Bool) (ctrVa : Nat) (land : Eng Unit) : Eng Unit := do
  let sl ← getSlot n
  if sl.parts = 0 then do
    land
    setCount n (i + 1)
    modify fun s => s.updSlot n fun sl => { sl with parts := 1 }
  else pure ()
  landCounter w n asid on ctrVa

/-- The destination of tile `i` of a TILE_MOVE: its core's window with RECT, else the running offset (02 R46). -/
def Slot.tileDest (sl : Slot) (i off : Nat) : Nat :=
  if sl.f 360 1 = 1 then
    sl.f 192 57 + i % sl.f 368 8 * 0x2_0000 + i / sl.f 368 8 * 0x200_0000
  else sl.f 192 57 + off

/-- Moves tile `i`; the running offsets of source and destination stand in the slot (02 R46). -/
def moveTile (n i : Nat) : Eng Unit := do
  let sl ← getSlot n
  let w := sl.tileWho n
  let src := sl.marks.getD 0 0
  let dst := sl.marks.getD 1 0
  let va := sl.f 128 57 + src
  let dest := sl.tileDest i dst
  let h ← readHeader w sl.asid va
  let stored ← readPayload w sl.asid va h
  match reencode (sl.f 352 8) (inAlias dest) h stored with
  | .error st => failE st
  | .ok (comp, bytes) => do
    let size := roundUp (64 + bytes.length) 64
    landOnce w n i sl.asid (sl.f 361 1 = 1) (sl.f 384 57) (do
      needE (fitsWindow dest size) .badDescriptor
      landInline w sl.asid dest h comp bytes
      countE sl (← landType w sl.asid dest) (tileFormat h) 1)
    modify fun s => s.updSlot n fun x => { x with marks :=
      [src + (if sl.f 288 32 = 0 then sourceSize h else sl.f 288 32),
       dst + (if sl.f 320 32 = 0 then size else sl.f 320 32)] }

/-- TILE_MOVE (02 R46, R47). -/
def execTileMove (slot : Nat) (s : State) : Out :=
  .next (runSlot 0x20 slot (fun sl => do
    let n := sl.f 256 32
    let rect := sl.f 360 1 = 1
    needE (1 ≤ n && n ≤ 1048576 && sl.f 288 32 % 64 = 0 && sl.f 320 32 % 64 = 0) .badDescriptor
    needE (!rect || (sl.f 320 32 = 0 && inAlias (sl.f 192 57) && 1 ≤ sl.f 368 8 && sl.f 368 8 ≤ 160 && 1 ≤ sl.f 376 8 &&
      sl.f 376 8 ≤ 160 && n ≤ sl.f 368 8 * sl.f 376 8)) .badDescriptor
    needE (sl.f 361 1 = 0 || sl.f 384 57 % 8 = 0) .badDescriptor
    units (sl.tileWho slot) slot n (moveTile slot)
    pure (.ok, (← getSlot slot).count, 0)) s)

/-! ### KV blocks (02 R59 to R61) -/

/-- Copies the tiles of a block: payloads back to back from one run to another, each checked by R43. -/
def copyRun (w : Who) (asid hdr src dst : Nat) (point : Bool) (n j : Nat) : Eng Unit := do
  match n with
  | 0 => pure ()
  | k + 1 => do
    let h ← readHeader w asid (hdr + 64 * j)
    let bs ← readVa w asid src (tileStored h)
    needE (crc32c bs = bitsOf h 96 32) .crcMismatch
    if point then landSplit w asid (hdr + 64 * j) dst h (tileComp h) bs else writeVa w asid dst bs
    copyRun w asid hdr (src + bs.length) (dst + bs.length) point k (j + 1)

/-- Writes the STATE of a block table entry. -/
def kvState (w : Who) (asid entry e st : Nat) : Eng Unit :=
  writeVa w asid (entry + 24) (leBytes 8 (bitsOf (setFld e 192 2 st) 192 64))

/-- The tiles of the block whose header run stands at a VA (DESIGN CHOICE, log 17). -/
def kvCount (w : Who) (asid hdr : Nat) : Eng Nat := do
  let h ← readHeader w asid hdr
  pure (Config.kvTiles (bitsOf h 224 32))

/-- What a command does to one block of a given STATE (02 Table 2-18): copy it and leave a STATE, or nothing. -/
def kvPlan (spill freeHbm : Bool) (st : Nat) : Option Nat :=
  if spill then (if st = 2 then none else some (if freeHbm then 2 else 1))
  else if st = 2 then some 1 else none

/-- Restores the STATE of a block whose copy failed (DESIGN CHOICE, log 17). -/
def restoring (back : Eng Unit) (e : Eng Unit) : Eng Unit := fun s =>
  match e.go s with
  | (.error (.fail st), s) => (.error (.fail st), (back.go s).2)
  | r => r

/-- Moves one block. While the command moves it, its STATE reads 3 and the slot holds the STATE it had, plus 1. -/
def kvBlock (spill : Bool) (n i : Nat) : Eng Unit := do
  let sl ← getSlot n
  let w := sl.tileWho n
  let entry := sl.f 128 57 + 32 * (sl.f 192 32 + i)
  let e ← readNat w sl.asid entry 32
  let mine := sl.marks.headD 0
  let st := if mine > 0 then mine - 1 else bitsOf e 192 2
  holdE (mine > 0 || st ≠ 3)
  if !spill && st = 2 && bitsOf e 0 57 = 0 then noteStatus n .badDescriptor
  else
    landOnce w n i sl.asid (sl.f 257 1 = 1) (sl.f 320 57) (do
      match kvPlan spill (sl.f 256 1 = 1) st with
      | none => pure ()
      | some st' => do
        kvState w sl.asid entry e 3
        modify fun s => s.updSlot n fun x => { x with marks := [st + 1] }
        restoring (kvState w sl.asid entry e st) (do
          let hdr := bitsOf e 128 57
          let tiles ← kvCount w sl.asid hdr
          if spill then copyRun w sl.asid hdr (bitsOf e 0 57) (bitsOf e 64 57) (st' = 2) tiles 0
          else copyRun w sl.asid hdr (bitsOf e 64 57) (bitsOf e 0 57) true tiles 0
          countE sl (if spill then 5 else 4) (tileFormat (← readHeader w sl.asid hdr)) tiles)
        kvState w sl.asid entry e st'
        modify fun s => s.updSlot n fun x => { x with marks := [] })

/-- A KV command: its blocks in turn. -/
def kvRun (op : Nat) (spill : Bool) (slot : Nat) (s : State) : State :=
  runSlot op slot (fun sl => do
    let n := sl.f 224 32
    needE (1 ≤ n && n ≤ 1048576 && (sl.f 257 1 = 0 || sl.f 320 57 % 8 = 0)) .badDescriptor
    units (sl.tileWho slot) slot n (kvBlock spill slot)
    pure (.ok, (← getSlot slot).count, 0)) s

/-- KV_SPILL (02 R60, R61). -/
def execKvSpill (slot : Nat) (s : State) : Out := .next (kvRun 0x23 true slot s)

/-- KV_FETCH (02 R60, R61). -/
def execKvFetch (slot : Nat) (s : State) : Out := .next (kvRun 0x24 false slot s)

end Sys2Proof.Machine
end

