-- ==== Sys2Proof/Machine/Acopy.lean ====
section
/-!
DEFINITION. Fabric commands (12 R343 to R346): ACOPY, ACOPY_FINAL and REMOTE_ATOMIC.
-/

namespace Sys2Proof.Machine

open Sys2Proof

/-! ### ACOPY (12 R344) -/

/-- The source of a part of a copy: its global physical ranges. -/
def copySource (w : Who) (asid : Nat) (l : List (Nat × Nat)) : Eng (List (Nat × Nat)) := do
  match l with
  | [] => pure []
  | (va, n) :: rest => do
    let ga ← translate w asid va false
    pure ((ga, n) :: (← copySource w asid rest))

/-- The package that holds all of the ranges, if it is another one (12 R344). -/
def State.awaySource (s : State) (l : List (Nat × Nat)) : Option Nat :=
  match l with
  | [] => none
  | (ga, _) :: rest => match s.placeOf ga with
    | .away p _ => if rest.all fun (g, _) => g / 2 ^ 50 = ga / 2 ^ 50 then some p else none
    | _ => none

/-- Copies the bytes of line `i` of the destination. A remote source is read and sent by its own package (12 R344). -/
def copyLine (w : Who) (n : Nat) (sl : Slot) (i : Nat) : Eng Unit := do
  let dst := sl.f 192 57
  let (a, k) := lineAt dst (sl.f 256 40) i
  let src ← copySource w sl.asid (piecesOf (sl.f 128 57 + (a - dst)) k)
  let ga ← translate w sl.asid a true
  match (← get).awaySource src with
  | some p => do
    let r ← askPart w sl 6 p (ga % 2 ^ 50) (pushInputs ga k src)
    r.check
    if r.status = 0x46 then noteStatus n .poisoned else pure ()
  | none => do
    let (bs, poison) ← readSources w src
    writePhys w ga bs poison
    if poison then noteStatus n .poisoned else pure ()
  countE sl 7 0xF k

/-- Whether a range of the destination lies within one package. -/
def onePackage (l : List (Nat × Nat)) : Bool :=
  l.all fun (ga, _) => ga / 2 ^ 50 = (l.headD (0, 0)).1 / 2 ^ 50

/-- The package of an address under an ASID. -/
def packageOf (w : Who) (asid va : Nat) : Eng Nat := do
  let ga ← translate w asid va true
  pure (ga / 2 ^ 50)

/-- Moves tile `i` of a copy with TILES as a TILE_MOVE moves one between packed inline tiles (02 R43, R44, R46, 12 R344). The
marks hold the running offsets. -/
def copyTile (final : Bool) (n i : Nat) : Eng Unit := do
  let sl ← getSlot n
  let w := sl.tileWho n
  let src := sl.marks.getD 0 0
  let dst := sl.marks.getD 1 0
  let va := sl.f 128 57 + src
  let dest := sl.f 192 57 + dst
  let h ← readHeader w sl.asid va
  let stored ← readPayload w sl.asid va h
  match reencode (sl.f 304 8) (inAlias dest) h stored with
  | .error st => failE st
  | .ok (comp, bytes) => do
    let size := roundUp (64 + bytes.length) 64
    landOnce w n i sl.asid (!final && sl.f 301 1 = 1) (sl.f 384 57) (do
      let l ← rangePieces w sl.asid dest size true (size / 65536 + 2)
      needE (onePackage l && (l.headD (0, 0)).1 / 2 ^ 50 = (← packageOf w sl.asid (sl.f 192 57))) .badDescriptor
      needE (fitsWindow dest size) .badDescriptor
      landInline w sl.asid dest h comp bytes
      countE sl (← landType w sl.asid dest) (tileFormat h) 1)
    modify fun s => s.updSlot n fun x => { x with marks := [src + sourceSize h, dst + size] }

/-- The writes of a copy, and the counter that it increases once they are performed. ACOPY_FINAL increases CTR_VA once, unless
it is 0; ACOPY does where CTR_EN says so, per landed tile with TILES (12 Table 12-11, R345). -/
def copyBody (final : Bool) (n : Nat) (sl : Slot) : Eng (Status × Nat × Nat) := do
  let w := if sl.f 300 1 = 1 then sl.tileWho n else sl.who n 3
  let tiles := sl.f 300 1 = 1
  let len := sl.f 256 40
  let ctr := sl.f 384 57
  let counts := if final then ctr ≠ 0 else sl.f 301 1 = 1
  needE (1 ≤ len && (!tiles || len ≤ 1048576) && (!counts || ctr % 8 = 0)) .badDescriptor
  if sl.cursor = 0 && sl.marks.isEmpty then do
    let home ← packageOf w sl.asid (sl.f 192 57)
    if !tiles then do
      let l ← rangePieces w sl.asid (sl.f 192 57) len true (len / 65536 + 2)
      needE (onePackage l) .badDescriptor
    else pure ()
    if final && counts then needE ((← packageOf w sl.asid ctr) = home) .badDescriptor else pure ()
    modify fun s => s.updSlot n fun x => { x with marks := [0, 0] }
  else pure ()
  let total := if tiles then len else lineCount (sl.f 192 57) len
  units w n total (if tiles then copyTile final n else copyLine w n sl)
  if counts && (final || !tiles) then counterAdd w sl.asid ctr else pure ()
  let count := (← getSlot n).count
  pure (.ok, if tiles then count else 0, 0)

/-- ACOPY (12 R344). -/
def execAcopy (slot : Nat) (s : State) : Out :=
  .next (runSlot 0x80 slot (copyBody false slot) s)

/-! ### ACOPY_FINAL (12 R345) -/

/-- The key of a copy group of a ring. -/
def Slot.copyGroup (sl : Slot) : Nat := sl.ring * 16 + sl.f 296 4

/-- Whether every earlier ACOPY and ACOPY_FINAL of the command's group and ring has completed. -/
def State.groupClear (s : State) (sl : Slot) : Bool :=
  !s.fe.slots.any fun (_, o) => (o.opcode = 0x80 || o.opcode = 0x81) && o.copyGroup = sl.copyGroup && o.pos < sl.pos

/-- An ACOPY_FINAL that may send: after a failure in its group it writes nothing and completes with that status. -/
def finalBody (n : Nat) (sl : Slot) : Eng (Status × Nat × Nat) := do
  let s ← get
  match SMap.look s.fe.groupFails sl.copyGroup with
  | some st => do
    set { s with fe := { s.fe with groupFails := SMap.del s.fe.groupFails sl.copyGroup } }
    failE st
  | none => copyBody true n sl

/-- ACOPY_FINAL: it sends its writes, or waits for the earlier commands of its group. -/
def execAcopyFinal (slot : Nat) (s : State) : Out :=
  .next (runSlotIf 0x81 slot (fun sl => sl.stage ≠ .waiting) (fun sl => do
    if (← get).groupClear sl then finalBody slot sl
    else do
      modify fun s => s.updSlot slot fun x => { x with stage := .waiting, waitSince := s.time }
      waitE) s)

/-- ACOPY_FINAL_SEND: the earlier commands of its group have completed, and a waiting ACOPY_FINAL sends its writes. -/
def execAcopyFinalSend (slot : Nat) (s : State) : Out :=
  .next <| match s.slot? slot with
  | none => s
  | some sl =>
    if sl.opcode = 0x81 && sl.stage = .waiting && s.groupClear sl then
      runSlot 0x81 slot (finalBody slot) (s.setSlot slot { sl with stage := .running })
    else s

/-! ### REMOTE_ATOMIC (12 R346) -/

/-- REMOTE_ATOMIC: performed once at the home atomic line buffer; then the old value is written at RES_VA, if one is named.
The cursor says that it is performed, and the marks hold the old value. -/
def execRemoteAtomic (slot : Nat) (s : State) : Out :=
  .next (runSlot 0x82 slot (fun sl => do
    let va := sl.f 128 57
    let size := sl.f 189 2
    let res := sl.f 448 57
    let bytes := if size = 2 then 16 else 8
    needE (va % atomicBytes size = 0 && atomicAllowed (sl.f 185 4) size && res % bytes = 0 && (size ≠ 2 || res ≠ 0))
      .badDescriptor
    let w := sl.who slot 5
    if sl.cursor = 0 then do
      if res = 0 then pure () else translateAll w sl.asid true [(res, bytes)]
      let ga ← translate w sl.asid va true
      let old ← atomicPhys w ga (sl.f 185 4) size (sl.f 192 128) (sl.f 320 128)
      modify fun s => match s.placeOf ga with
        | .here la => s.checkRetire la
        | _ => s
      modify fun s => s.updSlot slot fun x => { x with cursor := 1, marks := [old], resp := [] }
    else pure ()
    let old := (← getSlot slot).marks.headD 0
    if res = 0 then pure () else writeVa w sl.asid res (leBytes bytes old)
    pure (.ok, 0, old % 2 ^ 64)) s)

end Sys2Proof.Machine
end

