-- ==== Sys2Proof/Machine/Coherence.lean ====
section
/-!
DEFINITION. Coherence at the home (chapter 5): requests and answers of caching agents, the home directory, the atomic line
buffer and the recall of watched lines.
-/

namespace Sys2Proof.Machine

open Sys2Proof

/-! ### Caching agents (05 R110 to R114) -/

/-- The grid die of an agent's port (01 Table 1-1): UCIe sites on GD0 and GD3, four CX ports on each die. -/
def agentDie (r : AgentRow) : Nat :=
  if r.port = 0 then 0 else if r.port = 1 then 3 else (r.port - 2) / 4 % 4

/-- A caching agent as the maker of an access (04 Table 4-6). -/
def agentWho (n : Nat) (r : AgentRow) : Who :=
  { unit := agentDie r, cls := if r.port < 2 then 6 else 7, index := if r.port < 2 then r.port else r.port - 2, cmdSeq := 0,
    tenant := r.tenant, waiter := .agent n }

/-- The device VA of a request address within the agent's window (05 R113). -/
def agentVa (r : AgentRow) (a : Nat) : Option Nat :=
  if r.winBase * 2 ^ 16 ≤ a && a < (r.winBase + r.winSize) * 2 ^ 16 then some (a - r.winBase * 2 ^ 16 + r.devBase) else none

/-- The answer to an agent: a line's data, or poison. -/
def State.answerAgent (s : State) (address : Nat) (data : List Byte) (poison : Bool) : State :=
  { s with coh := { s.coh with agentAnswer := some { address, status := if poison then 0x46 else 0, data } } }

/-! ### The directory (05 R115 to R118) -/

/-- The slice that holds a line's entry. -/
def sliceOf (line : Nat) : Nat := Config.homeDie line % 4

/-- Entries in use in a slice. -/
def State.sliceUse (s : State) (die : Nat) : Nat := (s.coh.dir.filter fun (l, _) => sliceOf l = die).length

/-- A new entry needs room in its slice: a full slice replaces the entry `victim`, which is not watched, and the request
waits until the holders of that line have answered (05 R118). -/
def dirRoom (line victim : Nat) : Eng Unit := do
  let s ← get
  if (s.dir? line).isSome || s.sliceUse (sliceOf line) < 8388608 then pure ()
  else if sliceOf victim ≠ sliceOf line || (s.dir? victim).isNone || SMap.has s.coh.watches victim then waitE
  else if s.coh.snoops.any (·.line = victim) then waitE
  else do
    let s := s.bump (dkey 0x5003 1) 1
    if (s.holders victim).isEmpty then set (s.setDir victim none)
    else do
      set (s.snoopAll victim)
      waitE

/-- An agent joins the sharers of a line (05 Table 5-4). -/
def State.addSharer (s : State) (line agent : Nat) : State :=
  match s.dir? line with
  | none => s.setDir line (some (.shared [agent]))
  | some (.shared l) =>
    if l.contains agent then s
    else if l.length < 4 then s.setDir line (some (.shared (insertNat l agent)))
    else (s.setDir line (some .broadcast)).bump (dkey 0x5003 0) 1
  | some _ => s

/-- An agent becomes the owner; on a watched line the recall timer starts (05 Table 5-4, R126). -/
def State.makeOwner (s : State) (line agent : Nat) : State :=
  let s := s.setDir line (some (.exclusive agent))
  { s with coh := { s.coh with watches := SMap.upd s.coh.watches line fun w => { w with timer := true } } }

/-- The directory's side of a read by an agent, shared or for ownership: it waits until every copy that must go or be
supplied has been answered for. -/
def dirRead (own : Bool) (agent line victim : Nat) : Eng Unit := do
  let s ← get
  holdE (!s.coh.snoops.any (·.line = line))
  match s.dir? line with
  | some (.exclusive a) =>
    if a = agent then pure ()
    else do
      set (s.snoop a line (if own then .invalidate else .data))
      waitE
  | some _ =>
    if own && !(s.holders line).isEmpty then do
      set (s.snoopAll line)
      waitE
    else pure ()
  | none => dirRoom line victim
  modify fun s =>
    if own then s.makeOwner line agent else s.addSharer line agent

/-- Ownership of a protected line is granted once the twin has acknowledged a DIR record that names it (13 R361). -/
def nameLine (line : Nat) : Eng Unit := do
  let s ← get
  if s.mirrors (line * 64) && !s.twin.named.contains line then do
    set (s.mirrorDir line (insertNat s.twin.named line))
    waitE
  else pure ()

/-- A line leaves its owner: the directory summary at the twin is cleared of it (13 R361). -/
def State.unnameLine (s : State) (line : Nat) : State :=
  if s.twin.named.contains line then s.mirrorDir line (s.twin.named.filter (· ≠ line)) else s

/-- A read by an agent at a local address: its data, and whether the line is poisoned. A line that no directory tracks (a
scratchpad, a device page) is answered and not entered. -/
def agentHome (own : Bool) (agent tenant la victim : Nat) : Eng (List Byte × Bool) := do
  let s ← get
  let line := lineOf la
  let tracked := match s.areaOf la with
    | .scratch _ | .devicePage => false
    | _ => true
  if s.areaOf la = .devicePage then pure (s.peek (line * 64) 64, false)
  else do
    match s.homeRefusal tenant la with
    | some st => failE st
    | none => pure ()
    holdE (!s.awaitsTwin line)
    if tracked then do
      match s.areaOf la with
      | .flash k => needE (!own || !((SMap.look s.flash.flashStacks k).map (·.readOnly)).getD false) .resource
      | _ => pure ()
      modify fun s => if s.coh.alb.any (·.line = line) then (s.albFree line).albGive (sliceOf line) else s
      if own then nameLine line else pure ()
      dirRead own agent line victim
    else pure ()
    let s ← get
    pure (s.peek (line * 64) 64, s.readsBad line)

/-- A read by an agent at an address of another package: the remote line cache serves it, and the home directory tracks
the agent's copy (05 R128, R130). -/
def agentRemote (own : Bool) (agent : Nat) (w : Who) (p la victim : Nat) : Eng (List Byte × Bool) := do
  let g := lineOf (globalOf p la)
  match ← remoteView w p la with
  | .uncached d q => pure (d, q)
  | .cached x => do
    let s ← get
    holdE (!own || !x.versioned || x.state = .held || s.heldLines < s.val (dkey 0x5020 1) * 16384)
    dirRead own agent (remoteKey g) victim
    pure (x.data, x.poisoned)

/-- A read by an agent under its bound ASID. -/
def agentAccess (own : Bool) (agent : Nat) (r : AgentRow) (va victim : Nat) : Eng (List Byte × Bool) := do
  let w := agentWho agent r
  let ga ← translate w r.asid va own
  let s ← get
  let out ← match s.placeOf ga with
    | .here la => agentHome own agent r.tenant la victim
    | .dead => failE .targetDead
    | .away p la => agentRemote own agent w p la victim
  clearMail w
  pure out

/-- A request of an agent: one outside its window, or one that fails, completes with poison; asleep, it wakes the package
(05 R113, 17 R455). -/
def State.agentRead (s : State) (own : Bool) (agent address victim : Nat) : State :=
  match SMap.look s.coh.agents agent with
  | none => s
  | some r =>
    if !r.enable || !s.dataPath then s
    else if !s.awake then s.wake
    else match agentVa r address with
      | none => (s.answerAgent address [] true).logError 0x0004 (agentWho agent r).cls r.tenant agent address
      | some va =>
        match (agentAccess own agent r va victim).go s with
        | (.ok (data, p), s) => s.answerAgent address data p
        | (.error .wait, s) => s
        | (.error (.fail _), s) => s.answerAgent address [] true

/-- AGENT_READ_SHARED (05 R113, R116). -/
def execAgentReadShared (agent address victim : Nat) (s : State) : Out :=
  .next (s.agentRead false agent address victim)

/-- AGENT_READ_OWNERSHIP (05 R113, R116, R126, 13 R361). -/
def execAgentReadOwnership (agent address victim : Nat) (s : State) : Out :=
  .next (s.agentRead true agent address victim)

/-- Data that leaves an agent's cache takes its place: at the local home, or in the remote line cache (05 R116, R128, R129). -/
def State.applyLine (s : State) (line : Nat) (data : List Byte) : State :=
  if line < remoteKey 0 then s.placeWrite (line * 64) (padTo 64 data) none
  else
    let g := line - remoteKey 0
    match SMap.look s.rlc.lines g with
    | some x => s.setRemote g { x with state := if x.versioned then .held else .dirty, data := padTo 64 data,
                                       mask := BitVec.allOnes 64, poisoned := false }
    | none => s

/-- A line is no longer exclusive: the recall timer stops and the twin's summary is cleared (05 R126, 13 R361). -/
def State.endOwner (s : State) (line : Nat) : State :=
  let s := { s with coh := { s.coh with watches := SMap.upd s.coh.watches line fun w => { w with timer := false } } }
  s.unnameLine line

/-- AGENT_WRITE_BACK: the owner's data is applied and the entry freed; one from any other agent is discarded
(05 Table 5-4, 04 R106). -/
def execAgentWriteBack (agent line : Nat) (data : List Byte) (s : State) : Out :=
  .next (if s.dir? line = some (.exclusive agent) then ((s.applyLine line data).setDir line none).endOwner line else s)

/-- The entry of a line after an agent has answered a snoop (05 Table 5-4). -/
def DirEntry.after (e : DirEntry) (agent : Nat) (kind : SnoopKind) : Option DirEntry :=
  match e, kind with
  | .exclusive a, .data => if a = agent then some (.shared [a]) else some e
  | .exclusive a, .invalidate => if a = agent then none else some e
  | .shared l, .invalidate => if (l.filter (· ≠ agent)).isEmpty then none else some (.shared (l.filter (· ≠ agent)))
  | e, _ => some e

/-- An agent's answer to the snoop that waits for it. -/
def State.answerSnoop (s : State) (x : Snoop) (data : Option (List Byte)) : State :=
  let s := { s with coh := { s.coh with snoops := s.coh.snoops.filter (· ≠ x) } }
  let owned : Bool := s.dir? x.line = some (.exclusive x.agent)
  let s := match data with
    | some d => if owned then s.applyLine x.line d else s
    | none => s
  let s := s.setDir x.line ((s.dir? x.line).bind fun e => e.after x.agent x.kind)
  if owned then s.endOwner x.line else s

/-- SNOOP_ANSWER: the agent answers with modified data, with none, or "not held" (05 Table 5-4, R117). -/
def execSnoopAnswer (agent line : Nat) (data : Option (List Byte)) (held : Bool) (s : State) : Out :=
  .next <| match s.coh.snoops.find? fun x => x.agent = agent && x.line = line with
  | none => s
  | some x =>
    let s := s.answerSnoop x data
    if data.isNone && !held then s.bump (dkey 0x5003 2) 1 else s

/-- Poisons a line that an agent held exclusive (05 R119). -/
def State.poisonHeld (s : State) (line : Nat) : State :=
  if line < remoteKey 0 then s.poisonLine line
  else { s with rlc := { s.rlc with lines := SMap.upd s.rlc.lines (line - remoteKey 0) fun x => { x with poisoned := true } } }

/-- Drops an agent from every entry; the lines it owned become poisoned (05 R119). -/
def State.dropAgent (s : State) (agent : Nat) : State :=
  let own := SMap.keys (s.coh.dir.filter fun (_, e) => e = .exclusive agent)
  let s := own.foldl (fun s l => ((s.poisonHeld l).setDir l none).endOwner l) s
  let keep := s.coh.dir.filterMap fun (l, e) => (e.after agent .invalidate).map fun e => (l, e)
  { s with coh := { s.coh with dir := keep, snoops := s.coh.snoops.filter (·.agent ≠ agent) } }

/-- SNOOP_TIMEOUT: an agent has not answered within SNOOP_TIMEOUT_US (05 R119). -/
def execSnoopTimeout (agent : Nat) (s : State) : Out :=
  .next <| match SMap.look s.coh.agents agent with
  | none => s
  | some r =>
    if s.coh.snoops.any (·.agent = agent) then
      let s := (s.dropAgent agent).logFree 0x0005 (agentWho agent r).cls r.tenant agent
      { s with coh := { s.coh with agents := SMap.put s.coh.agents agent { r with enable := false } } }
    else s

/-- Lines that an agent may hold. -/
def State.heldBy (s : State) (agent : Nat) : List Nat :=
  SMap.keys (s.coh.dir.filter fun (l, _) => (s.holders l).contains agent)

/-- A row of AGENT_TABLE that no write has changed: ENABLE FALSE (05 Table 5-12). -/
def noAgent : AgentRow :=
  { port := 0, index := 0, enable := false, tenant := 0, asid := 0, winBase := 0, winSize := 0, devBase := 0 }

/-- The outcome of a write of an AGENT_TABLE row (05 R113, R114): tenant, ASID and window keep their values while ENABLE is
TRUE; clearing ENABLE recalls every line the agent holds. -/
def State.writeAgent (s : State) (agent : Nat) (row : AgentRow) : MStatus × State :=
  let old := SMap.get s.coh.agents agent noAgent
  let agents := if row.port < 2 then 1 else 4
  if agent ≥ 64 then (.noEntry, s)
  else if old.enable && (row.tenant ≠ old.tenant || row.asid ≠ old.asid || row.winBase ≠ old.winBase ||
      row.winSize ≠ old.winSize) then (.state, s)
  else if row.port ≥ 18 || row.index ≥ agents ||
      (row.enable && (s.asid? row.asid).map (·.tenant) ≠ some row.tenant) then (.range, s)
  else
    let s := if old.enable && !row.enable then (s.heldBy agent).foldl (fun s l => s.snoop agent l .invalidate) s else s
    let s := { s with coh := { s.coh with agents := SMap.putD s.coh.agents agent row noAgent } }
    (.ok, s.inProfile fun p => { p with agents := SMap.putD p.agents agent row noAgent })

/-- AGENT_TABLE: the operator writes a row (05 R113, R114). -/
def execAgentTable (agent : Nat) (row : AgentRow) (s : State) : Out :=
  .next (s.manageData fun s => s.writeAgent agent row)

/-! ### Atomics at the home (05 R120 to R123) -/

/-- HOME_ATOMIC: an atomic reaches its home; the old value returns (05 R120 to R123). One that is misaligned or wrongly
sized is refused before it reaches the home. -/
def execHomeAtomic (request : AtomicRequest) (s : State) : Out :=
  let size := request.size.toNat
  .next <|
    if !atomicAllowed request.op.toNat size || request.address % atomicBytes size ≠ 0 then s
    else
      match (atomicAtHome request.tenant request.address request.op.toNat size request.operand.toNat request.compare.toNat
          none).go s with
      | (.ok old, s) => { s with coh := { s.coh with albReturn := old } }.checkRetire request.address
      | (.error _, s) => s

/-- ALB_HOLD_EXPIRY: no atomic has reached a line for ALB_HOLD_NCLK: its entry is freed (05 R121). -/
def execAlbHoldExpiry (die line : Nat) (s : State) : Out :=
  .next <|
    if s.coh.alb.any (fun e => e.die = die && e.line = line) && !s.awaitsTwin line then (s.albFree line).albGive die else s

/-- The entry of a die whose most recent atomic is the oldest. -/
def State.albOldest (s : State) (die : Nat) : Option AlbEntry :=
  let l := s.coh.alb.filter (·.die = die)
  l.find? fun e => l.all fun o => e.stamp ≤ o.stamp

/-- ALB_ENTRY_CHOICE: an atomic waits for an entry: the entry whose most recent atomic is the oldest is freed, once no
acknowledgement is awaited for it, and given to the waiting atomic (05 R122). -/
def execAlbEntryChoice (die : Nat) (s : State) : Out :=
  .next <|
    match s.coh.albWaiting.find? fun r => sliceOf (lineOf r.address) = die with
    | none => s
    | some r =>
      if !s.albFull (lineOf r.address) then s.albGive die
      else match s.albOldest die with
        | some e => if s.awaitsTwin e.line then s else (s.albFree e.line).albGive die
        | none => s

/-! ### Watched lines (05 R124 to R126) -/

/-- WATCH_RECALL_EXPIRY: the recall timer of a watched line expires: the owner is snooped for data and keeps a shared copy
(05 R126). -/
def execWatchRecallExpiry (line : Nat) (s : State) : Out :=
  .next <| match SMap.look s.coh.watches line with
  | none => s
  | some w =>
    if !w.timer then s
    else
      let coh := { s.coh with watches := SMap.put s.coh.watches line { w with timer := false } }
      let s : State := ({ s with coh := coh } : State).bump (dkey 0x5010 1) 1
      match s.dir? line with
      | some (.exclusive a) =>
        if s.coh.snoops.any fun x => x.agent = a && x.line = line then s
        else { s with coh := { s.coh with snoops := s.coh.snoops ++ [{ agent := a, line, kind := .data, recalled := true }] } }
      | _ => s

end Sys2Proof.Machine
end

