-- ==== Sys2Proof/Machine/Contexts.lean ====
section
/-!
DEFINITION. Commands on request contexts (13 R372 to R384): CONTEXT_OPEN, OFFER and its deadline, TAKE, RELEASE, LEDGER_QUERY,
CHECKPOINT, CONTEXT_RUN and the end of its phases.
-/

namespace Sys2Proof.Machine

open Sys2Proof

/-! ### CONTEXT_OPEN -/

/-- Whether the twin's pool has room for a mirror slot; without a twin that mirrors none is needed (13 R374). -/
def State.twinRoom (s : State) (len : Nat) : Bool :=
  !s.mirrorsMeta || (s.twin.held.any fun m => len ≤ m.poolFree)

/-- CONTEXT_OPEN (13 R374). -/
def execContextOpen (slot : Nat) (s : State) : Out :=
  .next (runSlot 0x96 slot (fun sl => do
    let s ← get
    let len := sl.f 192 32
    let va := sl.f 256 57
    needE (1 ≤ len && len ≤ 2048 && s.rangeOk sl.asid va 1 (len * 2 ^ 21)) .badDescriptor
    let pages := s.poolPages.take len
    needE (pages.length = len && s.twinRoom len && s.ctx.ledger.length < 65536) .resource
    let k := s.ownId * 2 ^ 34 + s.ctx.serial
    let e : Ledger := { tenant := sl.tenant, epoch := 1, state := .owned, owner := s.ownId, peer := 0, phaseDone := 0, ckptSeq := 0,
                        deadline := 0, asid := sl.asid, length := len, va, pool := pages, offerSlot := none }
    let s := { s with ctx := { s.ctx with serial := (s.ctx.serial + 1) % 2 ^ 34 } }
    set ((((s.zeroPages pages).setEntry k e).mapContext e).mirrorMeta (some slot))
    pure (.ok, 0, k)) s)

/-! ### Commands carried out at the owner (13 R380) -/

/-- Both members of the owner's pair are lost, or no answer comes from them (13 R384). -/
def contextGone (op : Nat) : Eng Unit := do
  if op = 0x97 then do
    modify fun s => s.bump (dkey 0xA010 4) 1
    failE .contextLost
  else failE .targetDead

/-- The owner that a command has found, with the packages passed on the way; it is kept in the command's marks. -/
def ownerOf (w : Who) (n : Nat) (sl : Slot) (k : Nat) : Eng (Nat × List Nat) := do
  match sl.marks with
  | p :: passed => pure (p, passed)
  | [] => do
    let s ← get
    let start := if (s.entry? k).isSome then s.ringOwn sl.ring else k / 2 ^ 34 % 64
    match ← findOwner w sl k 64 start [] with
    | (none, _) => do
      contextGone sl.opcode
      pure (0, [])
    | (some p, passed) => do
      modify fun s => s.updSlot n fun x => { x with marks := p :: passed }
      pure (p, passed)

/-- Sends a command to the owner, and takes its answer. -/
def forwardContext (w : Who) (sl : Slot) (k p : Nat) (driver : Bool) : Eng (Status × Nat × Nat) := do
  match ← attempt (askPart w sl 5 p (2 ^ 46) (contextInputs k 1 driver)) with
  | .error _ => do
    contextGone sl.opcode
    pure (.targetDead, 0, 0)
  | .ok r => do
    if r.status = Status.targetDead.code then contextGone sl.opcode else pure ()
    pure ((statusOf r.status).getD .targetDead, leNat (r.data.take 8), leNat ((r.data.drop 8).take 8))

/-- Frees the entries of a released context at the packages passed (13 R380). -/
def freeChain (w : Who) (sl : Slot) (k : Nat) (l : List Nat) : Eng Unit := do
  match l with
  | [] => pure ()
  | p :: rest => do
    let s ← get
    if s.answersTo p then set ((s.delEntry k).mirrorMeta none)
    else do
      let h : Head := { type := 0x04, dst := p, tenant := w.tenant }
      let _ ← attempt (sendRequest h (partPayload 0x92 5 sl.seq sl.desc (contextInputs k 2 false)) .other)
    freeChain w sl k rest

/-- A command of opcode `op` on a context: here if this package owns it, else at its owner. -/
def contextCommand (op slot : Nat) (s : State) : Out :=
  .next (runSlot op slot (fun sl => do
    let w := sl.who slot 5
    let k := sl.f 128 40
    let driver := (((← get).ring? sl.ring).map (·.driver)).getD false
    let (p, passed) ← ownerOf w slot sl k
    let (st, c, r) ← if (← get).answersTo p then
        contextAct { who := w, slot := some slot, key := sl.seq, driver, stage := sl.cursor, mark := setCursor slot } op k sl.desc
      else forwardContext w sl k p driver
    if c = movedMark then do
      clearMail w
      modify fun s => s.updSlot slot fun x => { x with marks := [] }
      waitE
    else do
      if op = 0x92 && st.isOk then freeChain w sl k passed else pure ()
      pure (st, c, r)) s)

/-- OFFER (13 R378). -/
def execOffer (slot : Nat) (s : State) : Out := contextCommand 0x90 slot s

/-- RELEASE (13 R380). -/
def execRelease (slot : Nat) (s : State) : Out := contextCommand 0x92 slot s

/-- CHECKPOINT (13 R377). -/
def execCheckpoint (slot : Nat) (s : State) : Out := contextCommand 0x94 slot s

/-- CONTEXT_RUN (13 R383, R384). -/
def execContextRun (slot : Nat) (s : State) : Out := contextCommand 0x97 slot s

/-- OFFER_DEADLINE: the deadline of an offer passes and the owner reclaims it (13 R378). -/
def execOfferDeadline (context : Nat) (s : State) : Out :=
  .next <| match s.entry? context with
  | some e => if e.state = .offered && e.deadline ≤ s.time then s.reclaim context e else s
  | none => s

/-! ### TAKE (13 R379) -/

/-- The taker owns the context: the staged copy is mapped and checkpointed. -/
def State.winContext (s : State) (k : Nat) (e : Ledger) (slot : Option Nat) : State :=
  let n := { e with state := .owned, owner := s.ownId, peer := 0, deadline := 0 }
  (((s.setEntry k n).mapContext n).mirrorMeta slot).sendCheckpoint k n slot

/-- The taker has lost: the staged copy is discarded. -/
def State.loseContext (s : State) (k : Nat) (e : Ledger) (owner : Nat) (slot : Option Nat) : State :=
  (s.setEntry k { e with state := .lost, owner, pool := [], deadline := 0 }).mirrorMeta slot

/-- The entry of the highest epoch among those read. -/
def newestEntry (l : List (Option Nat)) : Option Nat :=
  l.foldl (fun b v => match b, v with
    | none, v => v
    | some x, some y => if entryEpoch x < entryEpoch y then some y else some x
    | b, none => b) none

/-- Settles a TAKING entry by what was read of the ledgers of the offering pair (13 R381): OWNED, LOST, or LOST with both
members lost. Answers whether it is settled, and the failure. -/
def settleTaking (k : Nat) (e : Ledger) (slot : Nat) (l : List (Option Nat)) : Eng (Option (Option Status)) := do
  let s ← get
  match newestEntry l with
  | none => do
    set ((s.loseContext k e e.owner (some slot)).bump (dkey 0xA010 4) 1)
    pure (some (some .contextLost))
  | some v =>
    if v ≠ 0 && entryOwner v = s.ownId && e.epoch ≤ entryEpoch v then do
      set (s.winContext k e (some slot))
      pure (some none)
    else if e.epoch < entryEpoch v then do
      set (s.loseContext k e (entryOwner v) (some slot))
      pure (some (some .offerExpired))
    else pure none

/-- The CAS of a TAKE: its expected word is OFFERED at e with PEER this package. -/
def takeCas (w : Who) (slot : Nat) (k : Nat) (e : Ledger) : Eng (Status × Nat × Nat) := do
  let s ← get
  let expected := ownershipWord (e.epoch - 1) 2 e.owner s.ownId
  let new := ownershipWord e.epoch 5 s.ownId s.ownId
  let h : Head := { type := 0x03, dst := e.peer, tenant := e.tenant, addr := ledgerWordAddress, len := 8, aop := 9, asize := 1, ctr := k }
  let r ← attempt (askRaw w (globalOf e.peer ledgerWordAddress + atomicMark) h (leBytes 8 new ++ leBytes 8 expected) (.slotAtomic slot))
  match r with
  | .ok r =>
    if r.status < 0x40 then do
      noteTwin w r
      let old := leNat (r.data.take 8)
      if old = expected then do
        modify fun s => s.winContext k e (some slot)
        pure (.ok, 0, e.epoch)
      else do
        modify fun s => s.loseContext k e (bitsOf old 52 6) (some slot)
        pure (.offerExpired, 0, bitsOf old 0 48)
    else ask
  | .error _ => ask
where
  /-- The CAS has exhausted its reissues: the device asks both members of the offering pair, and sends it again if the offer still
  stands (13 R381). -/
  ask : Eng (Status × Nat × Nat) := do
    let sl ← getSlot slot
    let a ← readEntry w sl k e.peer
    let b ← readEntry w sl k (e.peer ^^^ 1)
    match ← settleTaking k e slot [a, b] with
    | none => do
      clearMail w
      waitE
    | some none => pure (.ok, 0, e.epoch)
    | some (some st) => pure (st, 0, ((newestEntry [a, b]).map entryEpoch).getD 0)

/-- TAKE (13 R379). -/
def execTake (slot : Nat) (s : State) : Out :=
  .next (runSlot 0x91 slot (fun sl => do
    let k := sl.f 128 40
    match (← get).entry? k with
    | none => waitE
    | some e =>
      match e.state with
      | .inbound => do
        holdE (e.peer = sl.f 168 6)
        needE (e.tenant = sl.tenant) .notPermitted
        let s ← get
        let asid := e.asid % 2 ^ 16 + (if sl.ring < resumedRing then 0 else twinSpace 16)
        needE ((s.asid? asid).any fun a => a.tenant = e.tenant) .badDescriptor
        needE (!s.mapped asid e.va (e.length * 2 ^ 21)) .badDescriptor
        set ((s.setEntry k { e with state := .taking, epoch := e.epoch + 1, asid }).mirrorMeta (some slot))
        waitE
      | .taking => do
        needE (e.tenant = sl.tenant) .notPermitted
        holdE ((← get).acked (some slot))
        takeCas (sl.who slot 5) slot k e
      | _ => waitE) s)

/-- TAKE_WAIT_EXPIRY: the offer record has not landed within OFFER_DEADLINE_US (13 R379). -/
def execTakeWaitExpiry (slot : Nat) (s : State) : Out :=
  .next <| match s.slot? slot with
  | none => s
  | some sl =>
    let landed := match s.entry? (sl.f 128 40) with
      | some e => (e.state = .inbound && e.peer = sl.f 168 6) || e.state = .taking
      | none => false
    if sl.opcode ≠ 0x91 || sl.stage ≠ .running || landed ||
        s.time < sl.dispatchTime + usToTicks (s.val (dkey 0xA010 2)) then s
    else s.finish slot .offerExpired 0 0

/-! ### LEDGER_QUERY (13 R381) -/

/-- The packages whose ledgers a LEDGER_QUERY reads: the owner and the PEER that the local entry names, or the creating package,
and their twins. -/
def State.queryPackages (s : State) (k : Nat) : List (Option Nat) :=
  match s.entry? k with
  | some e =>
    let named := e.state = .offered || e.state = .inbound || e.state = .taking || e.state = .gone
    let p := if named then some e.peer else none
    [some e.owner, p, some (e.owner ^^^ 1), p.map (· ^^^ 1)]
  | none => [some (k / 2 ^ 34 % 64), none, some (k / 2 ^ 34 % 64 ^^^ 1), none]

/-- Reads the ledgers of a list. -/
def readLedgers (w : Who) (sl : Slot) (k : Nat) (l : List (Option Nat)) : Eng (List (Option Nat)) := do
  match l with
  | [] => pure []
  | p :: rest => do
    let v ← match p with
      | some p => readEntry w sl k p
      | none => pure none
    pure (v :: (← readLedgers w sl k rest))

/-- LEDGER_QUERY: up to four entries are written at RES_VA; COUNT holds the number read and RESULT the OWNER at the highest EPOCH.
A local TAKING entry is settled (13 R381). -/
def execLedgerQuery (slot : Nat) (s : State) : Out :=
  .next (runSlot 0x93 slot (fun sl => do
    let w := sl.who slot 5
    let k := sl.f 128 40
    let s ← get
    let l ← readLedgers w sl k (s.queryPackages k)
    let newest := newestEntry l
    let root := sl.tenant = 0 && ((s.ring? sl.ring).map (·.driver)).getD false
    needE (root || newest.all fun v => v = 0 || bitsOf v 48 12 = sl.tenant) .notPermitted
    writeVa w sl.asid (sl.f 256 57) (l.flatMap fun v => leBytes 64 (v.getD 0))
    let read := (l.filter (·.isSome)).length
    match s.entry? k with
    | some e =>
      if e.state = .taking then do
        match ← settleTaking k e slot l with
        | some (some .contextLost) => pure (.contextLost, read, 0)
        | _ => pure (.ok, read, (newest.map entryOwner).getD 0)
      else pure (.ok, read, (newest.map entryOwner).getD 0)
    | none => pure (.ok, read, (newest.map entryOwner).getD 0)) s)

/-! ### Phases (13 R383) -/

/-- The run whose phase holds a slot. -/
def State.runOf (s : State) (n : Nat) : Option (Nat × Running) := s.ctx.runs.find? fun (_, r) => r.child = some n

/-- A phase has ended: a failure ends the run; a success is checkpointed, and the next phase starts once the twin has it. -/
def phaseEnd (n : Nat) (sl : Slot) (key : Nat) (r : Running) : Eng Unit := do
  let s ← get
  if !sl.status.isOk then set ((s.freeSlot n sl).endRun key r sl.status)
  else do
    if r.saved then pure ()
    else match s.entry? r.context with
      | some e => do
        settlePages e.pool
        modify fun s =>
          let s := s.setRun key { r with saved := true }
          s.sendCheckpoint r.context { e with phaseDone := (r.phase + 1) % 2 ^ 32 } (some n)
      | none => pure ()
    holdE ((← get).acked (some n))
    modify fun s => (s.freeSlot n sl).nextPhase key r

/-- PHASE_COMPLETE: the phase of a CONTEXT_RUN in a slot has finished (13 R383). -/
def execPhaseComplete (slot : Nat) (s : State) : Out :=
  .next <| match s.slot? slot, s.runOf slot with
  | some sl, some (key, r) =>
    if sl.stage ≠ .finished || (!r.saved && !s.slotSettled slot) then s else ((phaseEnd slot sl key r).go s).2
  | _, _ => s

end Sys2Proof.Machine
end

