-- ==== Sys2Proof/Machine/Counters.lean ====
section
/-!
DEFINITION. Ring modes and counter sets (chapter 15): STEP, COUNTER_SAMPLE, counter pages and the clearing of sets.
-/

namespace Sys2Proof.Machine

open Sys2Proof

/-- A STEP command of operation `op`, on a ring that is not QUIESCED, ERROR or DRAINING (15 R418). -/
def stepOp (op n : Nat) (body : Slot → Nat → Ring → Eng (Status × Nat × Nat)) (s : State) : State :=
  runSlotIf 0x03 n (fun sl => sl.f 142 4 = op) (fun sl => do
    match (← get).ring? (sl.id 128 14) with
    | none => failE .badDescriptor
    | some r => do
      needE (r.state = .active || r.state = .step) .badDescriptor
      body sl (sl.id 128 14) r) s

/-- RUN_ONE: the ring fetches one descriptor; the command waits until that one has completed and its step record is
written (15 R418). Its cursor holds the position of the stepped command plus 1. -/
def execRunOne (slot : Nat) (s : State) : Out :=
  .next (stepOp 0 slot (fun sl id r => do
    holdE (r.runOne ≠ some sl.seq)
    needE (r.state = .step && id ≠ sl.ring) .badDescriptor
    holdE (!(← get).isLive r.runOne)
    if r.fetched = r.tailSeen then pure (.ok, 0, 0)
    else do
      setCursor slot (r.fetched + 1)
      modify (·.setRing id { r with runOne := some sl.seq, runGrant := true })
      waitE) s)

/-- ENTER_STEP: the ring stops fetching, and enters STEP when its other commands have completed (15 R418). -/
def execEnterStep (slot : Nat) (s : State) : Out :=
  .next (stepOp 1 slot (fun sl id r => do
    needE (sl.f 192 57 % 64 = 0 && 4 ≤ sl.f 256 4 && sl.f 256 4 ≤ 12) .badDescriptor
    holdE (r.stepEnter = some sl.seq || !(← get).isLive r.stepEnter)
    modify (·.setRing id { r with stepEnter := some sl.seq })
    holdE (!(← get).fe.slots.any fun (k, x) => x.ring = id && k ≠ slot)
    modify fun s => (s.setRing id { r with
      state := .step, mode := .step, stepEnter := none, recAsid := sl.asid, recVa := sl.f 192 57, recLog2 := sl.f 256 4,
      stepRecords := 0, runGrant := false }).writeStatus id
    pure (.ok, 0, 0)) s)

/-- Sets a ring that is not in STEP to a mode; a ring that was in STEP is ACTIVE again. -/
def State.setMode (s : State) (id : Nat) (r : Ring) (m : RingMode) : State :=
  let old := s.waitingTenants
  let s := s.setRing id { r with state := .active, mode := m, stepEnter := none }
  (if r.state = .step then s.writeStatus id else s).catchUp old

/-- ENTER_SERIAL (15 R418). -/
def execEnterSerial (slot : Nat) (s : State) : Out :=
  .next (stepOp 2 slot (fun _ id r => do
    modify (·.setMode id r .serial)
    pure (.ok, 0, 0)) s)

/-- EXIT: the ring returns to NORMAL, and STATE to ACTIVE; its set keeps its counts (15 R418). -/
def execExitStep (slot : Nat) (s : State) : Out :=
  .next (stepOp 3 slot (fun _ id r => do
    modify (·.setMode id r .normal)
    pure (.ok, 0, 0)) s)

/-- A COUNTER_SAMPLE command of operation `op`. -/
def sampleOp (op n : Nat) (body : Slot → Eng (Status × Nat × Nat)) (s : State) : State :=
  runSlotIf 0x04 n (fun sl => sl.f 128 4 = op) body s

/-- The header of a sample record (15 Table 15-4). -/
def sampleHeader (kind tenant ring tag time since : Nat) (running : Bool) : List Byte :=
  leBytes 64 (pack [(0x7C5E, 16), (kind, 8), (0, 8), (tenant, 12), (0, 4), (ring, 14), (0, 2), (tag, 64), (time, 64),
    (bit running, 1), (0, 63), (since, 64)])

/-- A tenant's counter set. -/
def State.tenantSet (s : State) (t : Nat) : CounterSet := SMap.get s.cnt.tenants t []

/-- Clears a tenant's set (15 R411). -/
def State.clearSet (s : State) (t : Nat) : State :=
  { s with cnt := { s.cnt with tenants := SMap.del s.cnt.tenants t, since := SMap.put s.cnt.since t s.time } }

/-- SAMPLE_TENANT_SET (15 R414, R415): with CLEAR the set is cleared after the sample. -/
def execSampleTenantSet (slot : Nat) (s : State) : Out :=
  .next (sampleOp 0 slot (fun sl => do
    needE (sl.f 192 57 % 64 = 0) .badDescriptor
    let s ← get
    let t := sl.f 132 12
    writeVa (sl.who slot 5) sl.asid (sl.f 192 57)
      (sampleHeader 0 t 0 0 s.time (SMap.get s.cnt.since t 0) false ++ (s.tenantSet t).bytes)
    if sl.f 256 1 = 1 then modify (·.clearSet t) else pure ()
    pure (.ok, 0, 0)) s)

/-- SAMPLE_RING_SET (15 R415, R417): a set that has never counted returns zeros and TAG_SEQ all ones. -/
def execSampleRingSet (slot : Nat) (s : State) : Out :=
  .next (sampleOp 1 slot (fun sl => do
    needE (sl.f 192 57 % 64 = 0) .badDescriptor
    let s ← get
    let id := sl.id 144 14
    match s.ring? id with
    | none => failE .badDescriptor
    | some r => do
      let x := SMap.get s.cnt.ringSets id { set := [], tag := none, since := 0, running := false }
      let tag := x.tag.getD (2 ^ 64 - 1)
      writeVa (sl.who slot 5) sl.asid (sl.f 192 57)
        (sampleHeader 1 r.tenant id tag s.time x.since x.running ++ x.set.bytes)
      pure (.ok, 0, tag)) s)

/-- CLEAR_TENANT_SET (15 R411, R414). -/
def execClearTenantSet (slot : Nat) (s : State) : Out :=
  .next (sampleOp 2 slot (fun sl => do
    modify (·.clearSet (sl.f 132 12))
    pure (.ok, 0, 0)) s)

/-- The device page of an ASID's counter page: the device's own choice (DESIGN CHOICE, log 12). -/
def counterPageAt (asid : Nat) : Nat := 0x4002_0000_0000 + (asid + 1) * 2 ^ 16

/-- The tenant's figures of one class over every row of the queue statistics (15 Table 15-2). -/
def State.classFigures (s : State) (tenant c : Nat) : List Byte :=
  let rows := (s.sched.stats.filter fun (k, _) => k % 32768 = tenant * 8 + c).map (·.2)
  leBytes 8 (rows.map (·.bytes)).sum ++ leBytes 8 (rows.map (·.requests)).sum ++
    leBytes 8 ((rows.map (·.maxDelay)).foldl max 0) ++ leBytes 8 0

/-- The image of a counter page (15 Table 15-2). -/
def State.counterImage (s : State) (p : CounterPage) : List Byte :=
  padTo 0x40 (leBytes 8 p.refreshes ++ leBytes 8 s.time ++ leBytes 8 p.tenant ++ leBytes 8 (s.heldSlots p.tenant) ++
    leBytes 8 (ticksToUs (SMap.get s.sched.quotaStall p.tenant 0)) ++
    leBytes 8 (SMap.get s.sched.limitStall p.tenant 0 / 940)) ++
  padTo 0x4C0 (s.tenantSet p.tenant).bytes ++
  ((List.range 8).flatMap fun c => s.classFigures p.tenant c) ++ leBytes 8 p.refreshes

/-- Rewrites one counter page (15 R413). -/
def State.refreshPage (s : State) (asid : Nat) (p : CounterPage) : State :=
  let p := { p with refreshes := p.refreshes + 1 }
  let s := s.poke p.address (s.counterImage p)
  { s with cnt := { s.cnt with pages := SMap.put s.cnt.pages asid p } }

/-- MAP_COUNTER_PAGE: the tenant's counter page is mapped read-only in the command's ASID (15 R412); a second mapping is
a limit exhausted (DESIGN CHOICE, log 13). -/
def execMapCounterPage (slot : Nat) (s : State) : Out :=
  .next (sampleOp 3 slot (fun sl => do
    let va := sl.f 192 57
    let s ← get
    needE (va % 2 ^ 16 = 0 && !inAlias va && !s.mapped sl.asid va (2 ^ 16)) .badDescriptor
    needE (!SMap.has s.cnt.pages sl.asid) .resource
    let a := counterPageAt sl.asid
    let m : Mapping := { asid := sl.asid, va, page := 0, package := none, address := a, readOnly := true, kind := .devicePage }
    let s := { s with tr := { s.tr with maps := s.tr.maps ++ [m] } }
    set (s.refreshPage sl.asid { tenant := sl.tenant, va, address := a, refreshes := 0 })
    pure (.ok, 0, 0)) s)

/-- UNMAP_COUNTER_PAGE (15 R412). -/
def execUnmapCounterPage (slot : Nat) (s : State) : Out :=
  .next (sampleOp 4 slot (fun sl => do
    let s ← get
    needE ((SMap.look s.cnt.pages sl.asid).any fun p => p.va = sl.f 192 57) .badDescriptor
    let s := s.unmapIf fun m => m.asid = sl.asid && m.kind = .devicePage && m.va = sl.f 192 57
    set { s with cnt := { s.cnt with pages := SMap.del s.cnt.pages sl.asid } }
    pure (.ok, 0, 0)) s)

/-- COUNTER_PAGE_REFRESH: every counter page is rewritten as one image (15 R413). -/
def execCounterPageRefresh (s : State) : Out :=
  .next (s.cnt.pages.foldl (fun s (asid, p) => s.refreshPage asid p) s)

/-- The outcome of a write to COUNTER_CLEAR (15 Table 15-10). -/
def State.writeCounterClear (s : State) (v : Nat) : MStatus × State :=
  if v = 0xFFFF then
    (.ok, (List.range 4096).foldl (fun s t => s.clearSet t) s)
  else if v < 4096 then (.ok, s.clearSet v)
  else (.range, s)

/-- COUNTER_CLEAR: the operator clears a tenant set, or all (15 R411). -/
def execCounterClear (value : BitVec 16) (s : State) : Out :=
  .next (s.manageData fun s => s.writeCounterClear value.toNat)

end Sys2Proof.Machine
end

