-- ==== Sys2Proof/Machine/Debug.lean ====
section
/-!
DEFINITION. Single-stepping of silt cores: the debug requests written to CORE_DEBUG_CMD (15 R421, R422).
-/

namespace Sys2Proof.Machine

open Sys2Proof

/-! ### The request (15 Table 15-8) -/

def dbgX (r : BitVec 128) : Nat := fld r 8 8
def dbgY (r : BitVec 128) : Nat := fld r 16 8
def dbgCore (r : BitVec 128) : Nat := dbgY r * 160 + dbgX r
def dbgFile (r : BitVec 128) : Nat := fld r 24 3
def dbgReg (r : BitVec 128) : Nat := fld r 32 16

/-- Whether the reserved bits are zero and the coordinates name a core. -/
def dbgShape (r : BitVec 128) : Bool :=
  fld r 27 5 = 0 && fld r 48 16 = 0 && fld r 112 16 = 0 && dbgX r < 160 && dbgY r < 160

/-- Bytes of a register of a file. -/
def dbgSize (file : Nat) : Nat :=
  match file with
  | 1 => 128
  | 2 => 256
  | 3 => 16
  | _ => 8

/-- Whether FILE and REG name a register of a core. -/
def State.dbgNames (s : State) (r : BitVec 128) : Bool :=
  match dbgFile r with
  | 0 | 1 => dbgReg r < 32
  | 2 | 3 => dbgReg r < 8
  | 4 => true
  | 5 => (s.csr (dbgCore r) (dbgReg r)).isSome
  | _ => false

/-! ### The result (15 R421) -/

/-- The debug state as a byte. -/
def DebugState.code (d : DebugState) : Nat :=
  match d with
  | .running => 0 | .halted => 1 | .stepping => 2

/-- Stores the result of the last request: a code, the core's debug state, PC_OFF and data. -/
def State.dbgResult (s : State) (n code : Nat) (data : List Byte) : State :=
  let c := s.core n
  let head := leBytes 8 (pack [(code, 8), (c.dbg.code, 8), (0, 16), ((c.pc.toNat + 2 ^ 64 - c.imageVa) % 2 ^ 32, 32)])
  { s with cnt := { s.cnt with debugResult := head ++ data } }

/-- Whether a core's scratchpad is held by a tenant whose cores may be debugged. -/
def State.dbgPermits (s : State) (n : Nat) : Bool :=
  (s.core n).holder.any fun t => s.val (rowKey (dkey 0xB041 0) t) = 1

/-- What a request finds before it acts: 4 a malformed request, 2 one that is not permitted, 3 no kernel on the core, 1 a core that
is not halted; 0 where it acts. -/
def State.dbgCheck (s : State) (r : BitVec 128) (good kernel halted : Bool) : Nat :=
  let c := s.core (dbgCore r)
  if !(dbgShape r && good) then 4
  else if !s.dbgPermits (dbgCore r) then 2
  else if kernel && c.run = .idle then 3
  else if halted && c.dbg ≠ .halted then 1
  else 0

/-- A debug request of an op: it acts on the core and answers data, and its result is stored. -/
def State.dbgRun (s : State) (r : BitVec 128) (good kernel halted : Bool) (f : Core → Core) (data : Core → List Byte) : MStatus × State :=
  let n := dbgCore r
  match s.dbgCheck r good kernel halted with
  | 0 =>
    let s := s.updCore n f
    (.ok, s.dbgResult n 0 (data (s.core n)))
  | code => (.ok, s.dbgResult n code [])

/-- A debug request as a management write; a value with another OP is another request. -/
def dbgOut (op : Nat) (r : BitVec 128) (w : State → MStatus × State) (s : State) : Out :=
  .next (if fld r 0 8 = op then s.manageData w else s)

/-! ### The ops (15 R422) -/

/-- The core goes on from a halt: after a BRK, at the instruction behind it. -/
def Core.goOn (c : Core) (d : DebugState) : Core :=
  { c with dbg := d, pc := if c.atBrk then c.nextPc else c.pc, atBrk := false }

def State.dbgArm (s : State) (r : BitVec 128) : MStatus × State :=
  s.dbgRun r true false false (fun c => { c with armed := true }) fun _ => []
def State.dbgDisarm (s : State) (r : BitVec 128) : MStatus × State :=
  s.dbgRun r true false false (fun c => { c with armed := false }) fun _ => []

/-- HALT: a WAIT or MRECV in progress is abandoned, and runs again on RESUME. -/
def State.dbgHalt (s : State) (r : BitVec 128) : MStatus × State :=
  s.dbgRun r true true false (fun c => { c with dbg := .halted, wait := none, blocked := 0 }) fun _ => []
def State.dbgStep (s : State) (r : BitVec 128) : MStatus × State :=
  s.dbgRun r true true true (fun c => c.goOn .stepping) fun _ => []
def State.dbgResume (s : State) (r : BitVec 128) : MStatus × State :=
  s.dbgRun r true true true (fun c => c.goOn .running) fun _ => []

/-- The bytes of a register. -/
def State.dbgBytes (s : State) (r : BitVec 128) (c : Core) : List Byte :=
  let v := match dbgFile r with
    | 0 => (c.getS (dbgReg r)).toNat
    | 1 => (c.getV (dbgReg r)).toNat
    | 2 => (c.getA (dbgReg r)).toNat
    | 3 => (c.getP (dbgReg r)).toNat
    | 4 => c.pc.toNat
    | _ => (s.csr (dbgCore r) (dbgReg r)).getD 0
  leBytes (dbgSize (dbgFile r)) v

def State.dbgRead (s : State) (r : BitVec 128) : MStatus × State :=
  s.dbgRun r (s.dbgNames r) true true id (s.dbgBytes r)

/-- The core after a write of a register; a write to s0 or p0 is ignored (07 R176), and so is one to a read-only CSR. -/
def Core.dbgSet (c : Core) (r : BitVec 128) (v : Nat) : Core :=
  match dbgFile r with
  | 0 => c.putS (dbgReg r) (BitVec.ofNat 64 v)
  | 1 => c.putV (dbgReg r) (BitVec.ofNat 1024 v)
  | 2 => c.putA (dbgReg r) (BitVec.ofNat 2048 v)
  | 3 => c.putP (dbgReg r) (BitVec.ofNat 128 v)
  | 4 => { c with pc := BitVec.ofNat 64 v, atBrk := false }
  | _ => c.csrWrite (dbgReg r) (BitVec.ofNat 64 v)

/-- WRITE_REG: the value follows the request, in the size of its file; a PC is a multiple of 4 (DESIGN CHOICE, log 43). -/
def State.dbgWrite (s : State) (r : BitVec 128) (value : List Byte) : MStatus × State :=
  let good := s.dbgNames r && value.length = dbgSize (dbgFile r) && (dbgFile r ≠ 4 || leNat value % 4 = 0)
  s.dbgRun r good true true (fun c => c.dbgSet r (leNat value)) fun _ => []

/-- Whether OFFSET and LENGTH lie in a scratchpad window. -/
def spadRangeOk (r : BitVec 128) : Bool :=
  let off := fld r 64 32
  let len := fld r 96 16
  off % 64 = 0 && len % 64 = 0 && 64 ≤ len && len ≤ 4096 && off + len ≤ 0x2_0000

def State.dbgSpad (s : State) (r : BitVec 128) : MStatus × State :=
  s.dbgRun r (spadRangeOk r) true true id fun _ => s.peek (scratchBase (dbgCore r) + fld r 64 32) (fld r 96 16)

def State.dbgStatus (s : State) (r : BitVec 128) : MStatus × State := s.dbgRun r true true false id fun _ => []

/-- The outcome of a write to CORE_DEBUG_CMD: the request, and for WRITE_REG the value behind it; a value of another length is
LENGTH, and a reserved OP is malformed (15 R421). -/
def State.writeDebug (s : State) (bs : List Byte) : MStatus × State :=
  let r := BitVec.ofNat 128 (leNat (bs.take 16))
  let op := fld r 0 8
  if bs.length < 16 || (op ≠ 7 && bs.length ≠ 16) || bs.length > 272 then (.length, s)
  else match op with
    | 1 => s.dbgArm r
    | 2 => s.dbgDisarm r
    | 3 => s.dbgHalt r
    | 4 => s.dbgStep r
    | 5 => s.dbgResume r
    | 6 => s.dbgRead r
    | 7 => s.dbgWrite r (bs.drop 16)
    | 8 => s.dbgSpad r
    | 9 => s.dbgStatus r
    | _ => s.dbgRun r false false false id fun _ => []

/-- ARM: BRK halts the core until DISARM or a reset. -/
def execArm (request : BitVec 128) (s : State) : Out := dbgOut 0x01 request (·.dbgArm request) s

def execDisarm (request : BitVec 128) (s : State) : Out := dbgOut 0x02 request (·.dbgDisarm request) s

/-- HALT: issue stops at the next instruction boundary. -/
def execCoreDebugHalt (request : BitVec 128) (s : State) : Out := dbgOut 0x03 request (·.dbgHalt request) s

/-- STEP: the core issues exactly one instruction, and halts after it. -/
def execCoreDebugStep (request : BitVec 128) (s : State) : Out := dbgOut 0x04 request (·.dbgStep request) s

/-- RESUME: the core returns to RUNNING. -/
def execResume (request : BitVec 128) (s : State) : Out := dbgOut 0x05 request (·.dbgResume request) s

def execReadReg (request : BitVec 128) (s : State) : Out := dbgOut 0x06 request (·.dbgRead request) s

def execWriteReg (request : BitVec 128) (value : List Byte) (s : State) : Out := dbgOut 0x07 request (·.dbgWrite request value) s

def execReadSpad (request : BitVec 128) (s : State) : Out := dbgOut 0x08 request (·.dbgSpad request) s

/-- STATUS: the core's debug state and PC_OFF. -/
def execStatus (request : BitVec 128) (s : State) : Out := dbgOut 0x09 request (·.dbgStatus request) s

end Sys2Proof.Machine
end

