-- ==== Sys2Proof/Machine/FabricManager.lean ====
section
/-!
DEFINITION. Commands of the fabric manager (12 R348 to R351), written to FM_COMMAND, and FM_EVENT_ACK.
-/

namespace Sys2Proof.Machine

open Sys2Proof

/-! ### The command header (12 Table 12-12) -/

def fmId (h : BitVec 128) : Nat := fld h 16 6
def fmPort (h : BitVec 128) : Nat := fld h 24 5
def fmRows (h : BitVec 128) : Nat := fld h 40 8

/-- Whether the fields that a command does not use, and the reserved ones, are 0. -/
def fmShape (h : BitVec 128) (id link rows : Bool) : Bool :=
  fld h 8 8 = 0 && fld h 22 2 = 0 && fld h 29 3 = 0 && fld h 48 16 = 0 && (id || fmId h = 0) &&
    (link || (fmPort h = 0 && fld h 32 8 = 0 && fld h 64 32 = 0)) && (rows || fmRows h = 0)

/-- COMMAND_DONE with the command's FM_SEQ (12 Table 12-15). -/
def State.fmDone (s : State) (h : BitVec 128) : State := s.fmEvent 0x0B (fmId h) (fmPort h) (fld h 96 32)

/-- Carries out a command of a code: FORMAT, LENGTH, and the command's own checks, in the order of R349; a rejected command
has no effect. -/
def fmCommand (h : BitVec 128) (shape length : Bool) (f : State → MStatus × State) (s : State) : MStatus × State :=
  if !length then (.length, s)
  else if !shape then (.format, s)
  else match f s with
    | (.ok, t) => (.ok, t.fmDone h)
    | (st, _) => (st, s)

/-- A command of the fabric manager as a management write: a value with another CODE is another command. -/
def fmOut (code : Nat) (h : BitVec 128) (r : State → MStatus × State) (s : State) : Out :=
  .next (if fld h 0 8 = code then s.manage false r else s)

/-! ### The commands (12 Table 12-13) -/

/-- ASSIGN_ID (12 R349, R354, R355): the mappings of the package's own memory follow the new id (01 R14), and a refusal
ends. -/
def State.assignId (s : State) (h : BitVec 128) : MStatus × State :=
  fmCommand h (fmShape h true false false) true (fun s =>
    if s.fab.composed then (.state, s)
    else
      let pair := if s.twin.pair = .refused then .unpaired else s.twin.pair
      (.ok, { s with fab := { s.fab with id := fmId h }, twin := { s.twin with pair } })) s

def execAssignId (head : BitVec 128) (s : State) : Out := fmOut 0x01 head (·.assignId head) s

/-- The destination, ports and hops of a route row (12 Table 12-9). -/
def routeOf (r : BitVec 64) : Nat × Route := (fld r 0 6, { ports := BitVec.ofNat 32 (fld r 16 32), hops := fld r 48 2 })

/-- Whether the ports of a row are domain ports that are fitted (12 R349). -/
def State.rowPortsOk (s : State) (r : BitVec 64) : Bool :=
  (List.range 32).all fun i => !(routeOf r).2.ports.getLsbD i || (i < s.fabricPorts && !s.isTwinPort i)

/-- ROUTE_SET: the named rows are replaced; a torn-down id has a fresh row (12 R348). -/
def State.routeSet (s : State) (h : BitVec 128) (rows : List (BitVec 64)) : MStatus × State :=
  let reserved := rows.all fun r => fld r 6 10 = 0 && fld r 50 14 = 0
  fmCommand h (fmShape h false false true && reserved && 1 ≤ fmRows h && fmRows h ≤ 64) (rows.length = fmRows h) (fun s =>
    if !rows.all s.rowPortsOk then (.range, s)
    else (.ok, rows.foldl (fun s r =>
      let (d, x) := routeOf r
      { s with fab := { s.fab with routes := SMap.put s.fab.routes d x
                                   fresh := if s.fab.torn.contains d then insertNat s.fab.fresh d else s.fab.fresh } }) s)) s

def execRouteSet (head : BitVec 128) (rows : List (BitVec 64)) (s : State) : Out := fmOut 0x02 head (·.routeSet head rows) s

/-- LINK_KEY: a port gets a key, which is a key event; a port held DOWN by an authentication failure may train again
(12 R325 to R327). -/
def State.linkKey (s : State) (h : BitVec 128) (key : List Byte) : MStatus × State :=
  fmCommand h (fmShape h false true false) (key.length = 32) (fun s =>
    if fmPort h ≥ s.fabricPorts then (.range, s)
    else
      let p := (s.port (fmPort h)).keyEvent
      let p := { p with key := some key, keyId := fld h 32 8, salt := fld h 64 32, authFailed := false }
      (.ok, s.setPort (fmPort h) (if p.state = .keyWait then p.control 0x01 else p))) s

def execLinkKey (head : BitVec 128) (key : List Byte) (s : State) : Out := fmOut 0x03 head (·.linkKey head key) s

/-- JOIN: the package is COMPOSED. -/
def State.join (s : State) (h : BitVec 128) : MStatus × State :=
  fmCommand h (fmShape h false false false) true (fun s => (.ok, { s with fab := { s.fab with composed := true } })) s

def execJoin (head : BitVec 128) (s : State) : Out := fmOut 0x04 head (·.join head) s

/-- Ends every request that a list picks, TARGET_DEAD. -/
def State.endRequests (s : State) (p : Request → Bool) : State :=
  (s.fab.tags.filter fun (_, q) => p q).foldl (fun s (tag, q) => s.requestDead tag q) s

/-- Drops the remote line cache's lines of a package, Dirty and Held included, and counts them (12 R348). -/
def State.dropLinesOf (s : State) (id : Nat) : State :=
  let gone := s.rlc.lines.filter fun (g, _) => g * 64 / 2 ^ 50 = id
  let s := { s with rlc := { s.rlc with lines := s.rlc.lines.filter fun (g, _) => g * 64 / 2 ^ 50 ≠ id } }
  let s := { s with coh := { s.coh with
    dir := SMap.only s.coh.dir fun k _ => !(gone.any fun (g, _) => k = remoteKey g)
    snoops := s.coh.snoops.filter fun x => !(gone.any fun (g, _) => x.line = remoteKey g) } }
  s.bump (dkey 0x5036 5) gone.length

/-- TEARDOWN of an id (12 R348). -/
def State.teardown (s : State) (h : BitVec 128) : MStatus × State :=
  let id := fmId h
  fmCommand h (fmShape h true false false) true (fun s =>
    if id = s.fab.id then (.range, s)
    else
      let s := { s with
        fab := { s.fab with routes := SMap.del s.fab.routes id, torn := insertNat s.fab.torn id,
                            fresh := s.fab.fresh.filter (· ≠ id), rerouted := s.fab.rerouted.filter (· ≠ id),
                            notices := s.fab.notices.filter (·.destination ≠ id) }
        twin := { s.twin with answersFor := if s.twin.answersFor = some id then none else s.twin.answersFor } }
      let s := s.endRequests (·.dst = id)
      let s := (s.dropLinesOf id).dropPublisher id
      (.ok, s.fmEvent 0x0A id 0 0)) s

def execTeardown (head : BitVec 128) (s : State) : Out := fmOut 0x05 head (·.teardown head) s

/-- RESTORE of an id: a torn-down id needs a fresh row; one that is not torn down stays as it is (12 R348). -/
def State.restoreId (s : State) (h : BitVec 128) : MStatus × State :=
  let id := fmId h
  fmCommand h (fmShape h true false false) true (fun s =>
    if id = s.fab.id then (.range, s)
    else if !s.fab.torn.contains id then (.ok, s)
    else if !s.fab.fresh.contains id then (.state, s)
    else (.ok, { s with fab := { s.fab with torn := s.fab.torn.filter (· ≠ id), fresh := s.fab.fresh.filter (· ≠ id) } })) s

def execRestore (head : BitVec 128) (s : State) : Out := fmOut 0x06 head (·.restoreId head) s

/-- LEAVE: every request in flight completes TARGET_DEAD, and the package is UNCOMPOSED. -/
def State.leave (s : State) (h : BitVec 128) : MStatus × State :=
  fmCommand h (fmShape h false false false) true (fun s =>
    (.ok, { s.endRequests (fun _ => true) with fab := { (s.endRequests (fun _ => true)).fab with composed := false } })) s

def execLeave (head : BitVec 128) (s : State) : Out := fmOut 0x07 head (·.leave head) s

/-! ### FM_EVENT_ACK (12 R351) -/

/-- A write of FM_EVENT_ACK lies from its value up to the newest NUMBER + 1. -/
def State.writeEventAck (s : State) (v : Nat) : MStatus × State :=
  if v < s.val (dkey 0x5033 2) || v > s.fab.nextEvent then (.range, s) else (.ok, s.setVal (dkey 0x5033 2) v)

def execFmEventAck (value : BitVec 64) (s : State) : Out := .next (s.manage false fun s => s.writeEventAck value.toNat)

end Sys2Proof.Machine
end

