-- ==== Sys2Proof/Machine/Flash.lean ====
section
/-!
DEFINITION. The flash translation layer and the far tier (chapter 2): writes, garbage collection, wear levelling, scans, read
recovery, bad blocks, and the loss of an expander.
-/

namespace Sys2Proof.Machine

open Sys2Proof

/-- Blocks of one stack and how they are divided (02 Table 2-2). -/
def rawBlocks : Nat := 151552
def badReserve : Nat := 3584
def dataBlocks : Nat := 131072 + 7168 + 9216

/-- A stack as shipped: every data block erased (DESIGN CHOICE, log 16). -/
def Stack.fresh : Stack :=
  { free := dataBlocks, blocks := [], grownBad := 0, reserve := badReserve, readOnly := false, buffer := [], map := [],
    eraseSum := 0, hostBytes := 0, programmed := 0, lifeWarned := false }

/-- A block that nothing has been written to since shipment. -/
def Block.fresh : Block :=
  { erases := 0, reads := 0, used := 0, valid := [], stream := 3, relocate := false, retired := false }

def State.stack? (s : State) (k : Nat) : Option Stack := SMap.look s.flash.flashStacks k
def State.setStack (s : State) (k : Nat) (x : Stack) : State :=
  { s with flash := { s.flash with flashStacks := SMap.put s.flash.flashStacks k x } }
def Stack.block (x : Stack) (b : Nat) : Block := SMap.get x.blocks b .fresh
def Stack.setBlock (x : Stack) (b : Nat) (y : Block) : Stack := { x with blocks := SMap.put x.blocks b y }

/-- The local address of a logical page of a stack (02 R495). -/
def flashPageAt (stack page : Nat) : Nat := 0x2000_0000_0000 + stack * 2 ^ 42 + page * 16384

/-- Whether a block is erased and in use as a data block. -/
def Block.erased (y : Block) : Bool := y.stream = 3 && !y.retired

/-- The least erase count among the erased blocks: 0 while a block that was never written remains (02 R31). -/
def Stack.leastErase (x : Stack) : Nat :=
  let l := (x.blocks.filter fun (_, y) => y.erased).map fun (_, y) => y.erases
  if x.free > l.length then 0 else (l.min?).getD 0

/-- Whether `n` pages of a stream can be programmed into a block: an open block of the stream with room, or an erased
block of the least erase count (02 R28, R31). -/
def Stack.accepts (x : Stack) (b stream n : Nat) : Bool :=
  let y := x.block b
  b < rawBlocks && !y.retired && y.used + n ≤ 2048 &&
    (y.stream = stream || (y.erased && y.erases = x.leastErase && x.free > 0))

/-- Takes a page out of the block that holds it. -/
def Stack.drop (x : Stack) (page : Nat) : Stack :=
  match SMap.look x.map page with
  | some b =>
    let y := x.block b
    { x.setBlock b { y with valid := y.valid.filter (· ≠ page) } with map := SMap.del x.map page }
  | none => x

/-- Programs pages into a block; an erased block leaves the free blocks. -/
def Stack.program (x : Stack) (b stream : Nat) (pages : List Nat) : Stack :=
  let x := pages.foldl Stack.drop x
  let y := x.block b
  let x := { x with free := x.free - bit y.erased, programmed := x.programmed + 16384 * pages.length }
  let x := x.setBlock b { y with stream, used := y.used + pages.length, valid := y.valid ++ pages }
  { x with map := pages.foldl (fun m p => SMap.put m p b) x.map }

/-- Erases a block: it joins the free blocks. -/
def Stack.erase (x : Stack) (b : Nat) : Stack :=
  let y := x.block b
  { x.setBlock b { Block.fresh with erases := y.erases + 1 } with free := x.free + 1, eraseSum := x.eraseSum + 1 }

/-- Logs the warning of R36 once the life used of a stack passes 90% of 3,000 cycles. -/
def State.warnLife (s : State) (k : Nat) : State :=
  match s.stack? k with
  | some x =>
    if x.eraseSum * 10 > 9 * 3000 * rawBlocks && !x.lifeWarned then
      (s.setStack k { x with lifeWarned := true }).logFree 0x0006 9 0 k
    else s
  | none => s

/-- FTL_WRITE_ACCEPT: the FTL accepts a write into its buffer, where it merges with the others of its page; a read-only
stack and one below the write floor accept none (02 R26, R28, R29, R35). -/
def execFtlWriteAccept (write : FtlWrite) (s : State) : Out :=
  .next <| match s.stack? write.stack with
  | some x =>
    if x.readOnly || x.free < s.val (dkey 0x3010 1) then s
    else
      let held := ((SMap.look x.buffer write.page).map (·.1)).getD 0
      let x := { x with buffer := SMap.put x.buffer write.page (min 16384 (held + write.bytes), write.stream)
                        hostBytes := x.hostBytes + write.bytes }
      (s.setStack write.stack x).bump (dkey 0x3013 0) write.stalledUs
  | none => s

/-- FTL_BUFFER_FLUSH: a buffered page is programmed, completed by read-modify-write if it was not fully written; it leaves
the buffer once its program is verified (02 R28, R34). -/
def execFtlBufferFlush (stack page block : Nat) (s : State) : Out :=
  .next <| match s.stack? stack with
  | some x => match SMap.look x.buffer page with
    | some (_, stream) =>
      if x.accepts block stream 1 then
        s.setStack stack { x.program block stream [page] with buffer := SMap.del x.buffer page }
      else s
    | none => s
  | none => s

/-- The pages of a block are copied to another block, the map changes, and the source is erased (02 R30). -/
def Stack.relocate (x : Stack) (source target stream : Nat) : Stack :=
  (x.program target stream (x.block source).valid).erase source

/-- Whether a block holds pages that can be relocated. -/
def Stack.movable (x : Stack) (source target : Nat) : Bool :=
  source ≠ target && (x.block source).used > 0 && !(x.block source).retired

/-- GC_RELOCATION: while the free blocks number fewer than FTL_GC_START, or for a block queued for relocation, one block's
valid pages are copied and the block is erased (02 R29, R30, R32). -/
def execGcRelocation (stack source target : Nat) (s : State) : Out :=
  .next <| match s.stack? stack with
  | some x =>
    if x.movable source target && (x.free < s.val (dkey 0x3010 0) || (x.block source).relocate) &&
        x.accepts target 2 (x.block source).valid.length then
      (s.setStack stack (x.relocate source target 2)).warnLife stack
    else s
  | none => s

/-- The spread of the erase counts of a stack (02 R31). -/
def Stack.spread (x : Stack) : Nat :=
  let l := (x.blocks.filter fun (_, y) => !y.retired).map fun (_, y) => y.erases
  let least := if x.blocks.length < dataBlocks then 0 else (l.min?).getD 0
  l.foldl max 0 - least

/-- WEAR_LEVEL_MOVE: with the erase counts spread by more than WL_SPREAD, the data of the least-erased block move into a
more-worn free block (02 R31). -/
def execWearLevelMove (stack source target : Nat) (s : State) : Out :=
  .next <| match s.stack? stack with
  | some x =>
    let y := x.block source
    let z := x.block target
    let least := x.blocks.all fun (_, o) => o.used = 0 || o.retired || y.erases ≤ o.erases
    if x.spread > s.val (dkey 0x3012 0) && x.movable source target && least && target < rawBlocks && z.erased &&
        y.erases < z.erases then
      (s.setStack stack (x.relocate source target y.stream)).warnLife stack
    else s
  | none => s

/-- READ_DISTURB_SCAN: a block whose page reads have reached RD_SCAN_READS is relocated if a codeword needs
RD_RELOCATE_BITS corrected bits; otherwise its count restarts (02 R32). -/
def execReadDisturbScan (stack block worstBits : Nat) (s : State) : Out :=
  .next <| match s.stack? stack with
  | some x =>
    let y := x.block block
    if y.reads < s.val (dkey 0x3011 0) || y.retired then s
    else if worstBits ≥ s.val (dkey 0x3011 1) then s.setStack stack (x.setBlock block { y with relocate := true })
    else s.setStack stack (x.setBlock block { y with reads := 0 })
  | none => s

/-- PATROL_SCAN: the relocation test on a programmed block (02 R32). -/
def execPatrolScan (stack block worstBits : Nat) (s : State) : Out :=
  .next <| match s.stack? stack with
  | some x =>
    let y := x.block block
    if y.used > 0 && !y.retired && worstBits ≥ s.val (dkey 0x3011 1) then
      s.setStack stack (x.setBlock block { y with relocate := true })
    else s
  | none => s

/-- A page goes to the write buffer, to be written elsewhere. -/
def Stack.rewrite (x : Stack) (page : Nat) : Stack :=
  { x with buffer := SMap.put x.buffer page (16384, 1) }

/-- FTL_READ_DONE: a page of a block has been read; what the recovery of Table 2-3 does with it (02 R32, R33). The twin is
asked only for a protected extent. -/
def execFtlReadDone (stack page block : Nat) (outcome : FlashReadOutcome) (s : State) : Out :=
  .next <| match s.stack? stack with
  | some x =>
    let y := x.block block
    if SMap.look x.map page ≠ some block then s
    else
      let la := flashPageAt stack page
      let x := x.setBlock block { y with reads := y.reads + 1 }
      let guarded := (s.extent? (extentOf la)).any fun e => e.protect && e.mirror.isSome
      match outcome with
      | .corrected => s.setStack stack x
      | .retried => s.setStack stack (x.setBlock block { y with reads := y.reads + 1, relocate := true })
      | .rebuilt => s.setStack stack (x.rewrite page)
      | .fromTwin data => if guarded && data.length = 16384 then
          (List.range 256).foldl (fun s i => s.poke (la + 64 * i) ((data.drop (64 * i)).take 64)) (s.setStack stack (x.rewrite page))
        else s
      | .lost =>
        let s := (s.setStack stack x).poisonLines ((List.range 256).map (lineOf la + ·))
        s.logFree 0x0018 9 0 stack
  | none => s

/-- BLOCK_RETIRE: a block that fails a program or an erase is retired and replaced from the reserve, and its data are
written elsewhere; more grown bad blocks than the reserve make the stack read-only (02 R34, R35). -/
def execBlockRetire (stack block : Nat) (s : State) : Out :=
  .next <| match s.stack? stack with
  | some x =>
    let y := x.block block
    if y.retired || block ≥ rawBlocks then s
    else
      let x := y.valid.foldl (fun x p => (x.drop p).rewrite p) x
      let x := { x with free := x.free - bit y.erased + bit (x.reserve > 0), grownBad := x.grownBad + 1, reserve := x.reserve - 1 }
      let x := x.setBlock block { y with valid := [], retired := true, relocate := false }
      if x.grownBad > badReserve && !x.readOnly then
        (s.setStack stack { x with readOnly := true }).logFree 0x0007 9 0 stack
      else s.setStack stack x
  | none => s

/-- EXPANDER_FAILURE: an expander fails or its link goes down: accesses to its interleave set complete TARGET_DEAD (02 R39). -/
def execExpanderFailure (decoder : Nat) (s : State) : Out :=
  .next <| match SMap.look s.flash.decoders decoder with
  | some d =>
    if d.up then
      let s := { s with flash := { s.flash with decoders := SMap.put s.flash.decoders decoder { d with up := false } } }
      s.logFree 0x0008 14 0 decoder
    else s
  | none => s

end Sys2Proof.Machine
end

