-- ==== Sys2Proof/Machine/Index.lean ====
section
/-!
DEFINITION. The life of an index (10 R261 to R267, R281 to R287): INDEX_CONFIG, INSERT and DELETE with the side list, MERGE
with its build, and the commit.
-/

namespace Sys2Proof.Machine

open Sys2Proof

def State.setIndex (s : State) (id : Nat) (x : Index) : State :=
  { s with idx := { s.idx with indexes := SMap.put s.idx.indexes id x } }

/-- The index that a command names. -/
def indexNamed (sl : Slot) : Eng Index := do
  match SMap.look (← get).idx.indexes (sl.id 128 10) with
  | some x => pure x
  | none => failE .badDescriptor

/-! ### Buckets as the device writes them (10 R265) -/

/-- The 4 KiB of a bucket. -/
def bucketBytes (generation t b : Nat) (ids : List Nat) (next : Nat) : List Byte :=
  let head := leBytes 60 (pack [(0xB0C7, 16), (t, 3), (0, 13), (ids.length, 10), (0, 22), (next, 57), (0, 7), (b, 32), (0, 32),
    (generation, 64)])
  let body := padTo 4032 (ids.flatMap (leBytes 5))
  head ++ leBytes 4 (crc32c (head ++ body)) ++ body

/-- Ids cut into buckets of 806. -/
def idChunks (fuel : Nat) (l : List Nat) : List (List Nat) :=
  match fuel with
  | 0 => []
  | k + 1 => if l.isEmpty then [] else l.take 806 :: idChunks k (l.drop 806)

/-- The buckets of a chain as (VA, bytes): the head at its place, overflow buckets from number `ovf` of the area on. -/
def chainBuckets (x : Index) (generation t b va : Nat) (l : List (List Nat)) (ovf : Nat) : List (Nat × List Byte) :=
  match l with
  | [] => []
  | [ids] => [(va, bucketBytes generation t b ids 0)]
  | ids :: rest =>
    let next := x.area generation + ovf * 4096
    (va, bucketBytes generation t b ids next) :: chainBuckets x generation t b next rest (ovf + 1)

/-- Head buckets of all tables. -/
def Index.heads (x : Index) : Nat := x.tables * 2 ^ x.f 48 5

/-! ### INDEX_CONFIG (10 R262 to R264, R267) -/

/-- The fields of Table 10-3. -/
def indexFields : List (Nat × Nat) :=
  [(0, 16), (16, 8), (24, 5), (32, 2), (40, 6), (48, 5), (56, 4), (60, 1), (64, 13), (77, 7), (96, 40), (160, 32), (192, 57),
    (256, 57), (320, 57), (384, 57), (448, 57), (512, 57), (576, 5), (640, 57), (704, 57), (768, 32), (832, 64), (992, 32)]

/-- Whether a descriptor keeps Tables 10-3 and 10-4. -/
def Index.ok (x : Index) : Bool :=
  let f := x.f
  let len := f 768 32 * 2 ^ 16
  x.desc.toNat &&& fieldMask indexFields = x.desc.toNat && f 0 16 = 0x1D5A && f 16 8 = 1 && 1 ≤ f 24 5 && f 24 5 ≤ 16 &&
    f 32 2 ≠ 0 && x.edges ≤ 32 && 8 ≤ f 48 5 && f 48 5 ≤ 30 && f 77 7 ≤ 100 && 1 ≤ x.idLimit && x.idLimit < 2 ^ 40 &&
    (if x.vectorVa = 0 then f 56 4 = 0 && x.dim = 0
     else (f 56 4 = 0 || f 56 4 = 1 || f 56 4 = 3 || f 56 4 = 4) && 1 ≤ x.dim && x.dim ≤ 4096) &&
    ((f 320 57 = 0) = (x.edges = 0)) && 10 ≤ f 576 5 && f 576 5 ≤ 26 &&
    f 192 57 % 64 = 0 && f 256 57 % 64 = 0 && f 320 57 % 64 = 0 && f 384 57 % 64 = 0 && f 448 57 % 64 = 0 && f 512 57 % 64 = 0 &&
    f 640 57 % 4096 = 0 && f 704 57 % 4096 = 0 && x.heads * 4096 ≤ len &&
    (f 640 57 + len ≤ f 704 57 || f 704 57 + len ≤ f 640 57)

/-- An index as it is created: generation 1 in area A, an empty side list. -/
def Index.fresh (tenant asid : Nat) (desc : BitVec 1024) : Index :=
  { tenant, asid, desc, generation := 1, areaB := false, head := 0, tail := 0, merge := .idle, s0 := 0, commit := false,
    mergeSlot := none, buildStarted := false, failure := none, searches := [], mergeSince := 0, resp := [] }

/-- Writes the empty head buckets of a table set, by their number from 0. -/
def writeEmptyHead (w : Who) (x : Index) (generation i : Nat) : Eng Unit :=
  let n := 2 ^ x.f 48 5
  writeVa w x.asid (x.area generation + i * 4096) (bucketBytes generation (i / n) (i % n) [] 0)

/-- INDEX_CREATE: INDEX_CONFIG OP 0 (10 R262 to R267). Its marks hold the copied descriptor. -/
def execIndexCreate (slot : Nat) (s : State) : Out :=
  .next (runSlotIf 0x65 slot (fun sl => sl.f 138 2 = 0) (fun sl => do
    let w := sl.who slot 5
    let id := sl.id 128 10
    let s ← get
    needE (sl.f 192 57 % 64 = 0 && !SMap.has s.idx.indexes id) .badDescriptor
    match s.asid? (sl.id 160 16) with
    | none => failE .badDescriptor
    | some a => do
      if sl.marks.isEmpty then do
        let bs ← readVa w sl.asid (sl.f 192 57) 128
        needE (crc32c (bs.take 124) = leNat (bs.drop 124)) .crcMismatch
        needE (Index.fresh a.tenant (sl.id 160 16) (BitVec.ofNat 1024 (leNat bs))).ok .badDescriptor
        keepMarks slot [leNat bs]
        clearMail w
      else pure ()
      let desc := BitVec.ofNat 1024 ((← getSlot slot).marks.headD 0)
      let x := Index.fresh a.tenant (sl.id 160 16) desc
      if x.f 60 1 = 0 then units w slot x.heads (writeEmptyHead w x 1) else pure ()
      modify fun s => (s.setIndex id x).mirrorMeta (some slot)
      pure (.ok, 0, 0)) s)
where
  /-- Keeps numbers in the marks of a slot. -/
  keepMarks (n : Nat) (l : List Nat) : Eng Unit := modify fun s => s.updSlot n fun x => { x with marks := l }

/-- A shadow is discarded: the index is IDLE, and MERGES_DISCARDED counts it (10 R284, R287). -/
def Index.discard (x : Index) : Index :=
  { x with merge := .idle, mergeSlot := none, buildStarted := false, failure := none, resp := [] }

/-- Discards the merge of an index: the MERGE in progress completes with a status (10 Table 10-10). -/
def State.discardMerge (s : State) (id : Nat) (x : Index) (st : Status) : State :=
  let s := (s.setIndex id x.discard).bump (dkey 0x7004 2) 1
  match x.mergeSlot with
  | some q => s.failSeq q st
  | none => s

/-- INDEX_DESTROY: INDEX_CONFIG OP 1 (10 R262); searches that run end normally. -/
def execIndexDestroy (slot : Nat) (s : State) : Out :=
  .next (runSlotIf 0x65 slot (fun sl => sl.f 138 2 = 1) (fun sl => do
    let id := sl.id 128 10
    let x ← indexNamed sl
    if x.merge = .idle then pure () else modify fun s => s.discardMerge id x .aborted
    modify fun s =>
      let keep := if x.searches.isEmpty then [] else [x.discard]
      let idx := { s.idx with indexes := SMap.del s.idx.indexes id, ending := s.idx.ending ++ keep }
      ({ s with idx := idx } : State).mirrorMeta (some slot)
    pure (.ok, 0, 0)) s)

/-! ### Auto-merge (10 R287) -/

/-- A merge begins: it builds into the area that is not current (10 Table 10-10). -/
def Index.startMerge (x : Index) (commit : Bool) (seq : Option Nat) (time : Nat) : Index :=
  { x with merge := .building, s0 := x.tail, commit, mergeSlot := seq, buildStarted := false, failure := none,
           mergeSince := time }

/-- Whether the side list of an idle index has reached AUTO_MERGE_PCT. -/
def Index.autoDue (x : Index) : Bool :=
  x.merge = .idle && x.f 77 7 ≠ 0 && x.f 77 7 * x.sideSize ≤ (x.tail - x.head) * 100

/-- Starts a committing merge if the auto-merge condition holds. -/
def State.autoMerge (s : State) (id : Nat) : State :=
  match SMap.look s.idx.indexes id with
  | some x => if x.autoDue then (s.setIndex id (x.startMerge true none s.time)).mirrorMeta none else s
  | none => s

/-- Tests the condition on every index: after a reset and after a takeover. -/
def State.autoMergeAll (s : State) : State := (SMap.keys s.idx.indexes).foldl State.autoMerge s

/-! ### INSERT and the side list (10 R281 to R283) -/

/-- Whether an append to the side list waits. -/
def Index.sideFull (x : Index) : Bool :=
  x.tail - x.head ≥ x.sideSize ||
    x.searches.any fun (_, _, h, t) => x.sideSize ≤ x.tail && h ≤ x.tail - x.sideSize && x.tail - x.sideSize < t

/-- Bytes of an INSERT record. -/
def Index.recordBytes (x : Index) : Nat := 16 + roundUp (x.bits / 8) 16

/-- Whether a tombstone bit is set. -/
def tombstoned (w : Who) (x : Index) (id : Nat) : Eng Bool := do
  pure (bitOf (← readNat w x.asid (x.f 448 57 + id / 8) 1) (id % 8))

/-- Takes one record of an INSERT: its checks, the code and attribute, the append, and the advance of TAIL. -/
def insertRecord (w : Who) (n : Nat) (sl : Slot) (i : Nat) : Eng Unit := do
  let x ← indexNamed sl
  let bs ← readVa w sl.asid (sl.f 192 57 + i * x.recordBytes) x.recordBytes
  let head := leNat (bs.take 16)
  let id := bitsOf head 0 40
  needE (id < x.idLimit && head &&& fieldMask [(0, 40), (64, 32)] = head) .badDescriptor
  needE (!(← tombstoned w x id)) .badDescriptor
  writeVa w x.asid (x.f 192 57 + id * (x.bits / 8)) ((bs.drop 16).take (x.bits / 8))
  if x.attrVa = 0 then pure () else writeVa w x.asid (x.attrVa + 4 * id) (leBytes 4 (bitsOf head 64 32))
  if x.sideFull then do
    modify fun s => s.updSlot n fun y => { y with stage := .waiting, waitSince := s.time }
    waitE
  else pure ()
  writeVa w x.asid (x.f 512 57 + 8 * (x.tail % x.sideSize)) (leBytes 8 id)
  modify fun s =>
    let s := (s.setIndex (sl.id 128 10) { x with tail := x.tail + 1 }).mirrorMeta (some n)
    (s.updSlot n fun y => { y with count := i + 1 }).autoMerge (sl.id 128 10)

/-- The body of an INSERT. -/
def insertBody (n : Nat) (sl : Slot) : Eng (Status × Nat × Nat) := do
  let count := sl.f 256 32
  needE (sl.f 192 57 % 16 = 0 && 1 ≤ count && count ≤ 16777216) .badDescriptor
  let _ ← indexNamed sl
  let w := sl.who n 5
  units w n count (insertRecord w n sl)
  pure (.ok, (← getSlot n).count, 0)

/-- INSERT (10 R281, R282). -/
def execInsert (slot : Nat) (s : State) : Out :=
  .next (runSlotIf 0x61 slot (fun sl => sl.stage ≠ .waiting) (insertBody slot) s)

/-- SIDE_LIST_APPEND: a waiting append proceeds (10 R283). -/
def execSideListAppend (slot : Nat) (s : State) : Out :=
  .next <| match s.slot? slot with
  | none => s
  | some sl =>
    let room := match SMap.look s.idx.indexes (sl.id 128 10) with
      | some x => !x.sideFull
      | none => true
    if sl.opcode = 0x61 && sl.stage = .waiting && room then
      runSlot 0x61 slot (insertBody slot) (s.setSlot slot { sl with stage := .running })
    else s

/-- DELETE (10 R281, R282): its count is the number of bits newly set. -/
def execDelete (slot : Nat) (s : State) : Out :=
  .next (runSlot 0x62 slot (fun sl => do
    let count := sl.f 256 32
    needE (sl.f 192 57 % 8 = 0 && 1 ≤ count && count ≤ 16777216) .badDescriptor
    let _ ← indexNamed sl
    let w := sl.who slot 5
    units w slot count (fun i => do
      let x ← indexNamed sl
      let id ← readNat w sl.asid (sl.f 192 57 + 8 * i) 8
      needE (id < x.idLimit) .badDescriptor
      let ga ← translate w x.asid (x.f 448 57 + id / 64 * 8) true
      let old ← atomicPhys w ga 0x2 1 (2 ^ (id % 64)) 0
      if bitOf old (id % 64) then pure ()
      else modify fun s => s.updSlot slot fun y => { y with count := y.count + 1 })
    pure (.ok, (← getSlot slot).count, 0)) s)

/-! ### MERGE (10 R284) -/

/-- Fails with BAD_DESCRIPTOR and the shadow generation as the result. -/
def shadowTaken (n generation : Nat) : Eng (Status × Nat × Nat) := do
  modify fun s => s.updSlot n fun y => { y with result := generation + 1 }
  failE .badDescriptor

/-- MERGE without DISCARD: an idle index begins to build, and the command completes with the build. -/
def execMerge (slot : Nat) (s : State) : Out :=
  .next (runSlotIf 0x63 slot (fun sl => sl.f 257 1 = 0) (fun sl => do
    let id := sl.id 128 10
    let x ← indexNamed sl
    if x.mergeSlot = some sl.seq then waitE
    else if x.merge = .idle then do
      modify fun s => (s.setIndex id (x.startMerge (sl.f 256 1 = 1) (some sl.seq) s.time)).mirrorMeta (some slot)
      waitE
    else shadowTaken slot x.generation) s)

/-- MERGE_DISCARD: MERGE with DISCARD. -/
def execMergeDiscard (slot : Nat) (s : State) : Out :=
  .next (runSlotIf 0x63 slot (fun sl => sl.f 257 1 = 1) (fun sl => do
    let x ← indexNamed sl
    needE (x.merge ≠ .idle) .badDescriptor
    modify fun s => (s.discardMerge (sl.id 128 10) x .aborted).mirrorMeta (some slot)
    pure (.ok, 0, 0)) s)

/-! ### The build (10 R285) -/

/-- The ids of a chain from the bucket at `va` on. -/
def chainIds (w : Who) (x : Index) (t b fuel va : Nat) : Eng (List Nat) := do
  match fuel with
  | 0 => pure []
  | k + 1 => do
    let bs ← readBucket w x x.generation t b va
    let rest ← if bucketNext bs = 0 then pure [] else chainIds w x t b k (bucketNext bs)
    pure (bucketIds bs ++ rest)

/-- The ids of table 0 from chain b on. -/
def tableIds (w : Who) (x : Index) (fuel b : Nat) : Eng (List Nat) := do
  match fuel with
  | 0 => pure []
  | k + 1 => do
    let ids ← chainIds w x 0 b (x.areaBuckets + 1) (x.bucketVa x.generation 0 b)
    let rest ← tableIds w x k (b + 1)
    pure (ids ++ rest)

/-- The ids at side-list positions from one on. -/
def sideIds (w : Who) (x : Index) (fuel pos : Nat) : Eng (List Nat) := do
  match fuel with
  | 0 => pure []
  | k + 1 => do
    let e ← readNat w x.asid (x.f 512 57 + 8 * (pos % x.sideSize)) 8
    let rest ← sideIds w x k (pos + 1)
    pure (e % 2 ^ 40 :: rest)

/-- Members that live, each with its code. -/
def liveMembers (w : Who) (x : Index) (l : List Nat) : Eng (List (Nat × Nat)) := do
  match l with
  | [] => pure []
  | id :: rest => do
    if ← tombstoned w x id then liveMembers w x rest
    else do
      let code ← readNat w x.asid (x.f 192 57 + id * (x.bits / 8)) (x.bits / 8)
      let more ← liveMembers w x rest
      pure ((id, code) :: more)

/-- Writes a list of buckets. -/
def writeBuckets (w : Who) (x : Index) (l : List (Nat × List Byte)) : Eng Unit := do
  match l with
  | [] => pure ()
  | (va, bs) :: rest => do
    writeVa w x.asid va bs
    writeBuckets w x rest

/-- Writes the chains from number i on, overflow buckets from number `ovf` of the area on: none left fails RESOURCE. -/
def writeChains (w : Who) (x : Index) (members : List (Nat × Nat)) (fuel i ovf : Nat) : Eng Unit := do
  match fuel with
  | 0 => pure ()
  | k + 1 => do
    let n := 2 ^ x.f 48 5
    let t := i / n
    let b := i % n
    let ids := (members.filter fun (_, c) => x.bucket t (x.substring c t) = b).foldl (fun l (id, _) => insertNat l id) []
    let cut := if ids.isEmpty then [[]] else idChunks (ids.length + 1) ids
    needE (ovf + (cut.length - 1) ≤ x.areaBuckets) .resource
    writeBuckets w x (chainBuckets x (x.generation + 1) t b (x.bucketVa (x.generation + 1) t b) cut ovf)
    writeChains w x members k (i + 1) (ovf + (cut.length - 1))

/-- Rewrites the edge slots of an id from one on whose target is deleted, each as one aligned write of 8 bytes. -/
def cleanEdges (w : Who) (x : Index) (id fuel i : Nat) : Eng Unit := do
  match fuel with
  | 0 => pure ()
  | k + 1 => do
    let va := x.f 320 57 + 8 * x.edges * id + 8 * i
    let e ← readNat w x.asid va 8
    if e < x.idLimit then do
      if ← tombstoned w x e then writeVa w x.asid va (List.replicate 8 0xFF) else pure ()
    else pure ()
    cleanEdges w x id k (i + 1)

/-- Rewrites the dead edges of every placed id. -/
def cleanAll (w : Who) (x : Index) (l : List (Nat × Nat)) : Eng Unit := do
  match l with
  | [] => pure ()
  | (id, _) :: rest => do
    cleanEdges w x id x.edges 0
    cleanAll w x rest

/-- The engine that builds. -/
def Index.who (x : Index) (n : Nat) : Who :=
  let key := x.mergeSlot.getD (2 ^ 64 + n)
  { unit := Config.engineDie key % 4, cls := 1, index := Config.engineUnit key, cmdSeq := (x.mergeSlot.getD 0) % 2 ^ 32,
    tenant := x.tenant, waiter := .index n }

/-- The build of the next generation. -/
def buildIndex (n : Nat) (x : Index) : Eng Unit := do
  let w := x.who n
  let a ← tableIds w x (2 ^ x.f 48 5) 0
  let b ← sideIds w x (x.s0 - x.head) x.head
  let members ← liveMembers w x (a ++ b).eraseDups
  writeChains w x members x.heads 0 x.heads
  cleanAll w x members

/-- MERGE_BUILD_START: once no search of the generation before runs, the build writes the other area (10 R285). -/
def execMergeBuildStart (index : Nat) (s : State) : Out :=
  .next <| match SMap.look s.idx.indexes index with
  | none => s
  | some x =>
    if x.merge ≠ .building || x.buildStarted || x.searches.any (fun (_, g, _) => g + 1 = x.generation) then s
    else
      let done := fun (s : State) (failure : Option Status) =>
        { s with idx := { s.idx with indexes := SMap.upd s.idx.indexes index fun y =>
          { y with buildStarted := true, failure, resp := [] } } }
      match (buildIndex index x).go s with
      | (.ok _, s) => done s none
      | (.error .wait, s) => s
      | (.error (.fail st), s) =>
        let bad := if st = .crcMismatch then 1 + s.val (dkey 0x3031 0) else 0
        done (s.bump (dkey 0x7003 2) bad) (some st)

/-! ### The commit (10 R286) -/

/-- Generation, area and HEAD change in one step. -/
def Index.committed (x : Index) : Index :=
  { x.discard with generation := x.generation + 1, areaB := !x.areaB, head := x.s0 }

/-- Commits a shadow, in mirrored metadata: the command of slot `n` waits for the acknowledgement. -/
def State.commitIndex (s : State) (id : Nat) (x : Index) (slot : Option Nat) : State :=
  ((s.setIndex id x.committed).mirrorMeta slot).bump (dkey 0x7004 1) 1

/-- BUILD_DONE: a build ends (10 Table 10-10). A failure of an auto-merge goes to the error log. -/
def execBuildDone (index : Nat) (s : State) : Out :=
  .next <| match SMap.look s.idx.indexes index with
  | none => s
  | some x =>
    if x.merge ≠ .building || !x.buildStarted then s
    else
      let slot := (x.mergeSlot.bind s.live?).map (·.1)
      let finish := fun (s : State) => match x.mergeSlot with
        | some q => s.finishSeq q .ok 0 (x.generation + 1)
        | none => s
      match x.failure with
      | some st =>
        let s := s.discardMerge index x st
        if x.mergeSlot.isNone then s.logFree 0x000D 1 x.tenant index else s
      | none =>
        if x.commit then finish (s.commitIndex index x slot)
        else finish ((s.setIndex index { x with merge := .built }).mirrorMeta slot)

/-- INDEX_COMMIT (10 R284, R286). -/
def execIndexCommit (slot : Nat) (s : State) : Out :=
  .next (runSlot 0x64 slot (fun sl => do
    let x ← indexNamed sl
    needE (x.merge = .built) .badDescriptor
    modify fun s => s.commitIndex (sl.id 128 10) x (some slot)
    pure (.ok, 0, x.generation + 1)) s)

end Sys2Proof.Machine
end

