-- ==== Sys2Proof/Machine/Scheduler.lean ====
section
/-!
DEFINITION. Tenants and traffic scheduling (chapter 14): the ports with their weighted service and rate limiters, queue
sampling, and the operator's writes of weights, quotas and limits.
-/

namespace Sys2Proof.Machine

open Sys2Proof

/-! ### Ports and queues (14 R399, R400) -/

/-- Whether a port id names a port (14 Table 14-3). -/
def portExists (port : Nat) : Bool :=
  match port / 4096 with
  | 0 => port % 4096 < 64
  | 1 => port % 4096 < 8
  | 2 => port % 4096 < 32
  | 3 => port % 4096 < 2
  | 4 => port % 4096 < 16
  | _ => false

/-- A port that has held no request. -/
def SchedPort.initial : SchedPort := { cclk := 0, queues := [], vt := [], vc := [], credits := [] }

def State.schedPort (s : State) (port : Nat) : SchedPort := SMap.get s.sched.ports port .initial
def State.setSchedPort (s : State) (port : Nat) (p : SchedPort) : State :=
  { s with sched := { s.sched with ports := SMap.put s.sched.ports port p } }

/-- Size of a request at a port of a kind (14 R400). -/
def requestSize (kind size : Nat) : Nat := if kind = 2 then size else max size 64

/-- Whether a request may be one of a port of a kind (14 R398 to R400). -/
def arrivalOk (kind : Nat) (a : PortArrival) : Bool :=
  a.tenant < 4096 && a.cls < 8 && requestSize kind a.size ≤ 4144 && (kind ≠ 2 || 48 ≤ a.size)

/-- The greater of a virtual time and the least of some others: the catch-up on arrival (14 R401). -/
def catchUpTo (v : Nat) (others : List Nat) : Nat :=
  match others.min? with
  | some m => max v m
  | none => v

/-- The virtual times of a tenant and class whose empty queue receives a request (14 R401). -/
def SchedPort.resume (p : SchedPort) (tenant cls : Nat) : SchedPort :=
  let waiting := SMap.keys p.queues
  let mine := waiting.filter fun q => q / 8 = tenant
  let t := if mine.isEmpty then catchUpTo (SMap.get p.vt tenant 0) (waiting.map fun q => SMap.get p.vt (q / 8) 0)
    else SMap.get p.vt tenant 0
  let c := catchUpTo (SMap.get p.vc (tenant * 8 + cls) 0) (mine.map fun q => SMap.get p.vc q 0)
  { p with vt := SMap.put p.vt tenant t, vc := SMap.put p.vc (tenant * 8 + cls) c }

/-- A request enters its queue in the port's present CCLK. -/
def SchedPort.enter (p : SchedPort) (kind : Nat) (a : PortArrival) : SchedPort :=
  let q := a.tenant * 8 + a.cls
  let w : Waiting := { size := requestSize kind a.size, arrival := p.cclk }
  match SMap.look p.queues q with
  | some l => { p with queues := SMap.put p.queues q (l ++ [w]) }
  | none => let p := p.resume a.tenant a.cls
    { p with queues := SMap.put p.queues q [w] }

/-! ### Statistics rows (14 R404, R405) -/

/-- The key of a queue's statistics row. -/
def statKey (port q : Nat) : Nat := port * 32768 + q

/-- A row as it appears: the samples since the clear are counted in it, in bin 0 (14 R405). -/
def State.newStats (s : State) (q : Nat) : QStats :=
  let n := s.sched.totalSamples - SMap.get s.sched.samples (q / 8) 0
  let bin : SMap Nat := SMap.putD [] 0 (min n (2 ^ 32 - 1)) 0
  { samples := n, maxDepth := 0, maxDelay := 0, maxDelayTime := 0, bytes := 0, requests := 0, depthBin := bin, delayBin := bin }

/-- The row of a queue that holds, or held, a request. -/
def State.stats (s : State) (port q : Nat) : QStats := SMap.get s.sched.stats (statKey port q) (s.newStats q)

def State.setStats (s : State) (port q : Nat) (x : QStats) : State :=
  { s with sched := { s.sched with stats := SMap.put s.sched.stats (statKey port q) x } }

/-- The requests of a CCLK enter their queues; each queue has a row from then on (14 R400, R405). -/
def State.enterAll (s : State) (port : Nat) (l : List PortArrival) : State :=
  (l.filter (arrivalOk (port / 4096))).foldl (fun s a =>
    let q := a.tenant * 8 + a.cls
    (s.setSchedPort port ((s.schedPort port).enter (port / 4096) a)).setStats port q (s.stats port q)) s

/-! ### Rate limiters (14 R402, R403) -/

/-- The key of a limiter row; class 15 stands for the tenant as a whole. -/
def limitKey (tenant cls kind : Nat) : Nat := tenant * 128 + cls * 8 + kind

/-- The limiter rows that govern a queue at a port: (key, row). -/
def State.governing (s : State) (port q : Nat) : List (Nat × Limit) :=
  [limitKey (q / 8) (q % 8) (port / 4096), limitKey (q / 8) 15 (port / 4096)].filterMap fun k =>
    (SMap.look s.sched.limits k).map fun x => (k, x)

/-- One byte of a credit (14 R403: at least 16 fraction bits). -/
def creditUnit : Nat := 2 ^ (16 + Config.creditBits)

/-- The credit of a row after a CCLK at whose start a queue that it governs was waiting (14 R403 step 1). -/
def Limit.rise (x : Limit) (credit : Nat) : Nat := min (credit + x.rate * creditUnit / 940) (x.burst * creditUnit)

/-- The credits of the rows that govern a waiting queue rise (14 R403 step 1). -/
def State.riseCredits (s : State) (port : Nat) (p : SchedPort) : SchedPort :=
  let rows := (SMap.keys p.queues).foldl (fun m q => (s.governing port q).foldl (fun m (k, x) => SMap.put m k x) m) ([] : SMap Limit)
  { p with credits := rows.foldl (fun c (k, x) => SMap.put c k (x.rise (SMap.get c k 0))) p.credits }

/-- Whether the limiters let a queue's oldest request of a size go (14 R403 step 2). -/
def State.allowed (s : State) (port : Nat) (p : SchedPort) (q size : Nat) : Bool :=
  (s.governing port q).all fun (k, _) => size * creditUnit ≤ SMap.get p.credits k 0

/-! ### Weighted service (14 R401) -/

/-- The keys of a list whose weight is not 0, or all of them where none is. -/
def weighty (weight : Nat → Nat) (l : List Nat) : List Nat :=
  let heavy := l.filter fun t => weight t > 0
  if heavy.isEmpty then l else heavy

/-- The key with the least virtual time; ties go to the lower key. -/
def leastTime (time : Nat → Nat) (l : List Nat) : Option Nat :=
  l.find? fun t => l.all fun u => time t < time u || (time t = time u && t ≤ u)

/-- The queue that the arbiter chooses among eligible ones (14 R401). -/
def State.chooseQueue (s : State) (p : SchedPort) (eligible : List Nat) : Option Nat :=
  match leastTime (fun t => SMap.get p.vt t 0) (weighty s.weight (eligible.map (· / 8))) with
  | none => none
  | some t =>
    leastTime (fun q => SMap.get p.vc q 0)
      (weighty (fun q => s.classWeight t (q % 8)) (eligible.filter fun q => q / 8 = t))

/-- The port after the oldest request of a queue, of size `n`, is sent (14 R401, R403 step 3). -/
def State.afterSend (s : State) (port : Nat) (p : SchedPort) (q n : Nat) (rest : List Waiting) : SchedPort :=
  let t := q / 8
  { p with
    queues := if rest.isEmpty then SMap.del p.queues q else SMap.put p.queues q rest
    vt := SMap.put p.vt t ((SMap.get p.vt t 0 + n * 65536 / max (s.weight t) 1) % 2 ^ 64)
    vc := SMap.put p.vc q ((SMap.get p.vc q 0 + n * 256 / max (s.classWeight t (q % 8)) 1) % 2 ^ 64)
    credits := (s.governing port q).foldl (fun c (k, _) => SMap.put c k (SMap.get c k 0 - n * creditUnit)) p.credits }

/-- The arbiter's choice in one CCLK: the chosen queue's oldest request is sent and counted (14 R401, R405). -/
def State.arbitrate (s : State) (port : Nat) (p : SchedPort) (eligible : List Nat) : State :=
  match s.chooseQueue p eligible with
  | none => s.setSchedPort port p
  | some q =>
    match SMap.look p.queues q with
    | some (w :: rest) =>
      let x := s.stats port q
      (s.setSchedPort port (s.afterSend port p q w.size rest)).setStats port q
        { x with bytes := x.bytes + w.size, requests := x.requests + 1 }
    | _ => s.setSchedPort port p

/-- Each tenant with a waiting queue that a limiter holds back counts the CCLK (14 R403). -/
def State.countLimited (s : State) (held : List Nat) : State :=
  let tenants := held.foldl (fun l q => insertNat l (q / 8)) []
  { s with sched := { s.sched with
      limitStall := tenants.foldl (fun m t => SMap.put m t (SMap.get m t 0 + 1)) s.sched.limitStall } }

/-- PORT_ARBITRATION: one CCLK of a port that can accept a request (DESIGN CHOICE, log 39): the requests of the previous CCLK stand in their
queues, credits rise, and the arbiter sends one request (14 R401, R403). -/
def execPortArbitration (port : BitVec 16) (arrivals : List PortArrival) (s : State) : Out :=
  let n := port.toNat
  .next <|
    if !portExists n then s
    else
      let s := s.enterAll n arrivals
      let p := s.schedPort n
      let p := s.riseCredits n { p with cclk := p.cclk + 1 }
      let allowed := fun (e : Nat × List Waiting) => match e.2 with
        | w :: _ => s.allowed n p e.1 w.size
        | [] => false
      let held := p.queues.filter fun e => !allowed e
      (s.countLimited (held.map (·.1))).arbitrate n p ((p.queues.filter allowed).map (·.1))

/-! ### Queue sampling (14 R404) -/

/-- The bin of a depth. -/
def depthBinOf (depth : Nat) : Nat := if depth = 0 then 0 else min 15 (Nat.log2 depth + 1)

/-- The bin of a delay in CCLK. -/
def delayBinOf (delay : Nat) : Nat := if delay < 64 then 0 else min 15 (Nat.log2 (delay / 64) + 1)

/-- One more in a bin, which saturates. -/
def addBin (m : SMap Nat) (k : Nat) : SMap Nat := SMap.put m k (min (SMap.get m k 0 + 1) (2 ^ 32 - 1))

/-- A row with one sample of a depth and a delay added, taken at a time. -/
def QStats.sample (x : QStats) (depth delay time : Nat) : QStats :=
  { x with
    samples := x.samples + 1
    maxDepth := max x.maxDepth depth
    maxDelay := max x.maxDelay delay
    maxDelayTime := if delay > x.maxDelay then time else x.maxDelayTime
    depthBin := addBin x.depthBin (depthBinOf depth)
    delayBin := addBin x.delayBin (delayBinOf delay) }

/-- Depth and delay of a queue at this moment. -/
def SchedPort.measure (p : SchedPort) (q : Nat) : Nat × Nat :=
  match SMap.look p.queues q with
  | some (w :: rest) => (rest.length + 1, p.cclk - w.arrival)
  | _ => (0, 0)

/-- Every queue that waits has a row: one whose row was cleared has it again from the next sample (14 R405, R406). -/
def State.rowsForWaiting (s : State) : State :=
  s.sched.ports.foldl (fun s (port, p) => (SMap.keys p.queues).foldl (fun s q => s.setStats port q (s.stats port q)) s) s

/-- QUEUE_SAMPLE: every queue's depth and delay are added to its row (14 R404, R405). -/
def execQueueSample (s : State) : Out :=
  .next <|
    let s := s.rowsForWaiting
    let rows := SMap.each s.sched.stats fun k x =>
      let (depth, delay) := (s.schedPort (k / 32768)).measure (k % 32768)
      x.sample depth delay s.time
    { s with sched := { s.sched with stats := rows, totalSamples := s.sched.totalSamples + 1 } }

/-- A queue statistics row (14 Table 14-5). -/
def QStats.bytes192 (x : QStats) (k : Nat) : List Byte :=
  leBytes 64 (pack [(x.samples, 64), (k / 32768, 16), (k % 32768 / 8, 12), (k % 8, 3), (0, 1), (x.maxDepth, 32), (x.maxDelay, 32),
    (x.maxDelayTime, 64), (x.bytes, 64), (x.requests, 64)]) ++
  ((List.range 16).flatMap fun i => leBytes 4 (SMap.get x.depthBin i 0)) ++
  (List.range 16).flatMap fun i => leBytes 4 (SMap.get x.delayBin i 0)

/-! ### The operator's writes -/

/-- Whether the reserved bits of a tenant row are zero (14 Table 14-1). -/
def tenantRowClean (r : BitVec 256) : Bool := fld r 97 15 = 0 && fld r 129 31 = 0

/-- Whether SLOT_QUOTA and SLOT_RESERVE of a row are in their ranges (14 R394). -/
def tenantRowInRange (r : BitVec 256) : Bool := 1 ≤ fld r 80 17 && fld r 80 17 ≤ 65536 && fld r 112 17 ≤ fld r 80 17

/-- SLOT_RESERVE_TOTAL (14 Table 14-8). -/
def State.reserveTotal (s : State) : Nat := ((SMap.keys s.sched.tenants).map s.slotReserve).sum

/-- Rows of TENANT_TABLE with some replaced. -/
def putRows (first : Nat) (rows : List (BitVec 256)) (m : SMap (BitVec 256)) : SMap (BitVec 256) :=
  (rows.zipIdx first).foldl (fun m (r, t) => SMap.putD m t r defaultTenantRow) m

/-- TENANT_TABLE with some rows replaced. -/
def State.putTenants (s : State) (first : Nat) (rows : List (BitVec 256)) : State :=
  { s with sched := { s.sched with tenants := putRows first rows s.sched.tenants } }

/-- The outcome of a write of rows to TENANT_TABLE (14 R394): reserved bits are judged before ranges (18 R463). -/
def State.writeTenants (s : State) (first : Nat) (rows : List (BitVec 256)) : MStatus × State :=
  let t := s.putTenants first rows
  if !rows.all tenantRowClean then (.format, s)
  else if first + rows.length > 4096 || !rows.all tenantRowInRange || t.reserveTotal > 65536 then (.range, s)
  else (.ok, t.inProfile fun p => { p with tenants := putRows first rows p.tenants })

/-- TENANT_TABLE: the operator writes a row (14 R394). -/
def execTenantTable (tenant : Nat) (row : BitVec 256) (s : State) : Out :=
  .next (s.manageData fun s => s.writeTenants tenant [row])

/-- Whether the key of a limiter row, and the values of one that is installed, are in their ranges (14 R402, Table 14-4). -/
def limitInRange (r : BitVec 128) : Bool :=
  (fld r 12 4 < 8 || fld r 12 4 = 15) && fld r 16 3 < 5 &&
    (fld r 19 1 = 0 || (1 ≤ fld r 32 32 && fld r 32 32 ≤ 2000000 && 4144 ≤ fld r 64 32 && fld r 64 32 ≤ 16777216))

/-- The key of a limiter row as written. -/
def limitRowKey (r : BitVec 128) : Nat := limitKey (fld r 0 12) (fld r 12 4) (fld r 16 3)

/-- Changes the credits of a limiter row at every port. -/
def State.onCredits (s : State) (f : SMap Nat → SMap Nat) : State :=
  { s with sched := { s.sched with ports := SMap.each s.sched.ports fun _ p => { p with credits := f p.credits } } }

/-- Limiter rows with one installed, replaced or removed. -/
def putLimitRow (m : SMap Limit) (r : BitVec 128) : SMap Limit :=
  if fld r 19 1 = 0 then SMap.del m (limitRowKey r)
  else SMap.put m (limitRowKey r) { rate := fld r 32 32, burst := fld r 64 32 }

/-- Installs, replaces or removes a limiter row; none where the table is full (14 R402, R403). -/
def State.putLimit (s : State) (r : BitVec 128) : Option State :=
  let k := limitRowKey r
  let cap := fld r 64 32 * creditUnit
  let t : State := { s with sched := { s.sched with limits := putLimitRow s.sched.limits r } }
  if fld r 19 1 = 0 then some (t.onCredits fun c => SMap.del c k)
  else if SMap.has s.sched.limits k then some (t.onCredits fun c => SMap.upd c k fun v => min v cap)
  else if s.sched.limits.length ≥ 8192 then none
  else some t

/-- The outcome of a write of rows to LIMIT_TABLE (14 R402, 18 R463). -/
def State.writeLimits (s : State) (rows : List (BitVec 128)) : MStatus × State :=
  if !rows.all (fun r => fld r 20 12 = 0 && fld r 96 32 = 0) then (.format, s)
  else if !rows.all limitInRange then (.range, s)
  else match rows.foldlM State.putLimit s with
    | some t => (.ok, t.inProfile fun p => { p with limits := rows.foldl putLimitRow p.limits })
    | none => (.state, s)

/-- LIMIT_TABLE: the operator writes a row (14 R402). -/
def execLimitTable (row : BitVec 128) (s : State) : Out :=
  .next (s.manageData fun s => s.writeLimits [row])

/-- Removes the rows of the tenants that satisfy `p`; their samples count from here (14 R405, R406). -/
def State.clearStats (s : State) (tenants : List Nat) : State :=
  { s with sched := { s.sched with
      stats := s.sched.stats.filter fun (k, _) => !tenants.contains (k % 32768 / 8)
      samples := tenants.foldl (fun m t => SMap.put m t s.sched.totalSamples) s.sched.samples } }

/-- The outcome of a write to SCHED_STATS_CLEAR (14 R406). -/
def State.writeStatsClear (s : State) (v : Nat) : MStatus × State :=
  if v = 0xFFFF then (.ok, s.clearStats (List.range 4096))
  else if v < 4096 then (.ok, s.clearStats [v])
  else (.range, s)

/-- SCHED_STATS_CLEAR: a tenant's queue statistics rows, or all, are removed (14 R406). -/
def execSchedStatsClear (value : BitVec 16) (s : State) : Out :=
  .next (s.manageData fun s => s.writeStatsClear value.toNat)

end Sys2Proof.Machine
end

