-- ==== Sys2Proof/Machine/Entries.lean ====
section
/-!
DEFINITION. Values of dictionary entries: sizes and ranges (18 R458), rules that link entries, live writes, and a profile put
into effect (17 R447).
-/

namespace Sys2Proof.Machine

open Sys2Proof

/-! ### Types and ranges -/

/-- Bytes of a value of a type of fixed length (18 Table 18-1). -/
def DType.size (t : DType) : Option Nat :=
  match t with
  | .u8 | .bool | .enum => some 1
  | .u16 => some 2
  | .u32 | .i32 => some 4
  | .u64 => some 8
  | .str | .blob | .table => none

/-- Whether a value lies in the range of its line of the dictionary. -/
def DictRow.admits (r : DictRow) (v : Nat) : Bool := r.range.isEmpty || r.range.any fun (a, b) => a ≤ v && v ≤ b

/-- The rules on a value that name another entry or an alignment: FTL_GC_START above FTL_WRITE_FLOOR, RLC_HELD_LIMIT_MIB at most
PUBLISH_STAGING_MIB, TRACE_VA a multiple of 64 KiB; `val` gives the other entries' values. -/
def linkedOk (val : Nat → Nat) (key v : Nat) : Bool :=
  if key = dkey 0x3010 0 then val (dkey 0x3010 1) < v
  else if key = dkey 0x3010 1 then v < val (dkey 0x3010 0)
  else if key = dkey 0x5020 1 then v ≤ val (dkey 0x5021 0)
  else if key = dkey 0xB020 1 then v % 65536 = 0
  else true

/-- The access of an entry. -/
def accessOf (key : Nat) : Option Access := (dictFind (key / 256) (key % 256)).map (·.access)

/-- The value that a read of an entry returns: of an RWP entry, the one stored in the active profile (00 R8). -/
def State.shown (s : State) (key : Nat) : Nat :=
  if accessOf key = some .rwp then (s.profile s.prof.active).val key else s.val key

/-- A value takes effect: POWER_REQUEST also arms a state, or disarms it and wakes (17 R454, R455). -/
def State.setLive (s : State) (key v : Nat) : State :=
  let s := s.setVal key v
  if key = dkey 0x2010 1 then
    let s : State := { s with pwr := { s.pwr with armed := v } }
    if v = 0 then s.wake else s
  else s

/-! ### Profiles in effect (17 R445 to R447) -/

/-- Every line of the dictionary, in ascending order. -/
def dictRows : List DictRow := (List.range 13).flatMap fun i => dictRange (i * 0x1000)

/-- Names of a line of the dictionary, as keys. -/
def DictRow.keys (r : DictRow) : List Nat := (List.range (r.last - r.first + 1)).map fun i => dkey r.entry (r.first + i)

/-- Whether some RWP value stored in the active profile differs from the one in effect (17 R447). -/
def State.profilePending (s : State) : Bool :=
  (dictRows.filter fun (r : DictRow) => r.access = Access.rwp).any fun r => r.keys.any fun k => (s.profile s.prof.active).val k ≠ s.val k

/-- Logs PROFILE_VALUE_REJECTED: DETAIL names the entry, the sub-entry and the row, in a layout that is not given. -/
def State.logRejected (s : State) : State := s.logFree 0x001B 12 0 0

/-- A part of a profile put into effect as a write of it would be: what a write rejects is logged. -/
def State.applied (s : State) (r : MStatus × State) : State := if r.1 = .ok then r.2 else s.logRejected

/-- A row of LIMIT_TABLE as written (14 Table 14-4); without a limit, the row that removes it. -/
def limitRow (key : Nat) (x : Option Limit) : BitVec 128 :=
  BitVec.ofNat 128 (pack [(key / 128, 12), (key / 8 % 16, 4), (key % 8, 3), (bit x.isSome, 1), (0, 12), (x.elim 0 (·.rate), 32),
    (x.elim 0 (·.burst), 32)])

/-- The agent rows of a profile put into effect; before READY they wait (18 R459). -/
def State.applyAgents (s : State) (p : Profile) : State :=
  if s.pwr.served then (List.range 64).foldl (fun s a => s.applied (s.writeAgent a (SMap.get p.agents a noAgent))) s else s

/-- The values of one line of the dictionary put into effect. -/
def State.applyRow (s : State) (p : Profile) (r : DictRow) : State :=
  if r.entry = 0x5001 then s.applyAgents p
  else if r.entry = 0x9000 then
    (List.range 4096).foldl (fun s t => s.applied (s.writeTenants t [SMap.get p.tenants t defaultTenantRow])) s
  else if r.entry = 0x9001 then
    let gone := (SMap.keys s.sched.limits).filter fun k => !SMap.has p.limits k
    let rows := gone.map (limitRow · none) ++ p.limits.map fun (k, x) => limitRow k (some x)
    rows.foldl (fun s row => s.applied (s.writeLimits [row])) s
  else if r.type = .table then
    (List.range r.rows).foldl (fun s t => s.setVal (rowKey (dkey r.entry r.first) t) (p.val (rowKey (dkey r.entry r.first) t))) s
  else r.keys.foldl (fun s k => if linkedOk p.val k (p.val k) then s.setLive k (p.val k) else s.logRejected) s

/-- The lines whose values a profile switch puts into effect: RWL entries, less the two that no profile stores (18 R459). -/
def profileRows : List DictRow := dictRows.filter fun (r : DictRow) => r.access = Access.rwl && r.entry ≠ 0x9100 && r.entry ≠ 0x5033

/-- The RWL values of the active profile take effect, and MR2 is extended (17 R447 step 2). -/
def State.applyProfile (s : State) : State :=
  (profileRows.foldl (fun s r => s.applyRow (s.profile s.prof.active) r) s).extendProfile

/-- Switches to a profile (17 R447). -/
def State.selectProfile (s : State) (p : Nat) : State :=
  ({ s with prof := { s.prof with active := p, fallback := s.prof.fallback && p = 3 } } : State).applyProfile

/-- Whether a reset takes an entry's value from the profile, or its reset value (00 Table 0-5); the fabric manager's events and
their acknowledgement go on together (12 R351). -/
def resetKey (key : Nat) : Bool :=
  key ≥ 0x1000000 || key = dkey 0x4012 0 || (key ≠ dkey 0x5033 2 && match accessOf key with
    | some .rw | some .rwp | some .rwl => true
    | _ => false)

/-- A reset puts every value of the active profile into effect; agents wait for READY (17 R445, 18 R459). -/
def State.loadProfile (s : State) : State :=
  let p := s.profile s.prof.active
  let vals := p.vals.foldl (fun m (k, v) => SMap.put m k v) (s.vals.filter fun (k, _) => !resetKey k)
  { s with vals, sched := { s.sched with tenants := p.tenants, limits := p.limits }
           pwr := { s.pwr with armed := p.val (dkey 0x2010 1) } }

end Sys2Proof.Machine
end

