-- ==== Sys2Proof/Machine/Security.lean ====
section
/-!
DEFINITION. Identity, firmware images, attestation and tenant keys (chapter 16).
-/

namespace Sys2Proof.Machine

open Sys2Proof

/-! ### Identity (16 R426 to R428) -/

/-- The bytes of an ASCII string. -/
def ascii (x : String) : List Byte := x.toList.map fun c => BitVec.ofNat 8 c.toNat

/-- The public key, derived from the seed; zeros where the identity has failed. -/
def State.publicKey (s : State) : List Byte :=
  if s.sec.identityOk then padTo 1793 (Config.falconPublicKey (Config.deviceSeed ++ ascii "HJL-2900 identity"))
  else List.replicate 1793 0

/-- DEVICE_ID: the first 32 bytes of SHAKE256 of the public key; zeros where the identity has failed. -/
def State.deviceId (s : State) : List Byte := if s.sec.identityOk then shake256 32 s.publicKey else List.replicate 32 0

/-! ### ATTEST (16 R436) -/

/-- The header of a report (16 Table 16-6). -/
def State.reportHead (s : State) (seq : Nat) : List Byte :=
  leBytes 64 (pack [(0xA77E, 16), (1, 8), (s.twin.pair.number, 8), (if s.fab.id = 0xFF then 0 else s.fab.id, 6),
    (bit (s.fab.id ≠ 0xFF), 1), (0, 1), (s.prof.active, 8), (0, 16), (s.running.release, 32), (s.running.svn, 32),
    (s.sec.rollback, 32), (s.sec.ownWitness, 32), (s.sec.revoked.toNat, 4), (0, 4), (1, 8), (0, 48), (s.time, 64), (seq, 64)])

/-- The key of a tenant. -/
def State.tenantKey (s : State) (t : Nat) : TenantKey :=
  SMap.get s.sec.keys t { installed := false, key := [], generation := 0, changed := 0 }

/-- Extents on this package that satisfy `p`, those that the device holds for itself apart. -/
def State.countExtents (s : State) (p : Extent → Bool) : Nat :=
  (s.ext.filter fun (_, x) => x.hold = .none && !x.free && p x).length

/-- The tenant section of a report (16 Table 16-7). -/
def State.reportTenant (s : State) (t : Nat) : List Byte :=
  let traced := s.val (dkey 0xB020 0) = 1 && (s.val (dkey 0xB020 4) = 0xFFFF || s.val (dkey 0xB020 4) = t)
  leBytes 64 (pack [(t, 12), (0, 4), (bit (s.tenantKey t).installed, 1), (s.val (rowKey (dkey 0xB041 0) t), 1),
    (s.val (rowKey (dkey 0xA020 0) t), 1), (bit traced, 1), (0, 12), ((s.tenantKey t).generation, 32),
    ((s.tr.asids.filter fun (n, a) => n < twinSpace 16 && a.tenant = t).length, 32), (s.countExtents fun x => x.owner = t, 32),
    (s.countExtents fun x => x.owner = t && x.protect, 32), (s.countExtents fun x => x.owner ≠ t && x.shares.contains t, 32)])

/-- A report before its signature (16 Table 16-5). -/
def State.report (s : State) (t : Nat) (nonce : List Byte) (seq : Nat) : List Byte :=
  s.reportHead seq ++ padTo 64 nonce ++ ((List.range 8).flatMap fun i => padTo 64 (s.mr i)) ++ s.reportTenant t ++
    padTo 1856 s.publicKey

/-- ATTEST (16 R436): every field is taken at the moment of the write that completes the report. -/
def execAttest (slot : Nat) (s : State) : Out :=
  .next (runSlot 0xA0 slot (fun sl => do
    needE (sl.f 192 57 % 64 = 0 && sl.f 256 57 % 64 = 0) .badDescriptor
    needE (← get).sec.identityOk .notPermitted
    if sl.f 320 32 < 3840 then do
      setCount slot 3840
      failE .resource
    else do
      let nonce ← readVa (sl.who slot 5) sl.asid (sl.f 192 57) 64
      let s ← get
      let body := s.report (sl.f 128 12) nonce (s.sec.attests + 1)
      let sig := padTo 1280 (Config.falconSign Config.deviceSeed (shake256 64 body) s.sec.signs)
      writeVa (sl.who slot 5) sl.asid (sl.f 256 57) (body ++ sig)
      modify fun s => { s with sec := { s.sec with attests := s.sec.attests + 1, signs := s.sec.signs + 1 } }
      pure (.ok, 3840, 0)) s)

/-! ### Tenant keys (16 R437 to R439) -/

/-- Whether a tenant owns a flash or far-tier extent, here or, while its metadata is held, on the twin (16 R438). -/
def State.ownsStored (s : State) (t : Nat) : Bool :=
  let hit := fun (l : SMap Extent) => l.any fun (e, x) => tierOf e ≠ 0 && x.owner = t && !x.free && x.hold = .none
  hit s.ext || s.twin.held.any fun m => hit m.ext

/-- Sets a tenant's key: the change is sent to the twin, and the command waits for its acknowledgement (16 R439). -/
def State.setKey (s : State) (slot t : Nat) (k : TenantKey) : State :=
  let s := { s with sec := { s.sec with keys := SMap.put s.sec.keys t k } }
  if s.mirrorsMeta then s.sendNote 2 (some slot) (.key t k.installed k.key k.generation) else s

/-- KEY_INSTALL with OP 0 (16 R438). The key is read once, and kept with the command while its bytes are zeroed. -/
def execKeyInstall (slot : Nat) (s : State) : Out :=
  .next (runSlotIf 0xA1 slot (fun sl => sl.f 128 2 = 0) (fun sl => do
    let t := sl.f 132 12
    let s ← get
    needE (sl.f 192 57 % 64 = 0) .badDescriptor
    needE (s.sec.identityOk && !s.ownsStored t) .notPermitted
    needE (!(s.tenantKey t).installed) .badDescriptor
    if sl.cursor = 0 then do
      let bs ← readVa (sl.who slot 5) sl.asid (sl.f 192 57) 64
      needE (bs.take 32 ≠ bs.drop 32) .badDescriptor
      modify (·.updSlot slot fun x => { x with cursor := 1, marks := bs.map (·.toNat) })
    else pure ()
    if sl.f 256 1 = 1 then writeVa (sl.who slot 5) sl.asid (sl.f 192 57) (List.replicate 64 0) else pure ()
    let key := (← getSlot slot).marks.map (BitVec.ofNat 8)
    modify fun s => s.setKey slot t { installed := true, key, generation := (s.tenantKey t).generation + 1, changed := s.time }
    pure (.ok, 0, 0)) s)

/-- KEY_INSTALL with OP 1: the tenant's key is destroyed, and its derived key applies again (16 R438). -/
def execKeyDestroy (slot : Nat) (s : State) : Out :=
  .next (runSlotIf 0xA1 slot (fun sl => sl.f 128 2 = 1) (fun sl => do
    let t := sl.f 132 12
    let s ← get
    needE (sl.f 192 57 % 64 = 0) .badDescriptor
    needE (s.sec.identityOk && !s.ownsStored t) .notPermitted
    if (s.tenantKey t).installed then
      modify fun s => s.setKey slot t { installed := false, key := [], generation := (s.tenantKey t).generation, changed := s.time }
    else pure ()
    pure (.ok, 0, 0)) s)

/-! ### Firmware (16 R429 to R434) -/

/-- The slot that is not active. -/
def State.staged (s : State) : FwSlot := if s.sec.activeB then s.sec.slotA else s.sec.slotB

def State.setStaged (s : State) (x : FwSlot) : State :=
  { s with sec := if s.sec.activeB then { s.sec with slotA := x } else { s.sec with slotB := x } }

/-- Bytes of the largest image: header, code and signature (16 R429, Table 16-1). -/
def imageLimit : Nat := 128 + 16777216 + 1280

/-- The outcome of a write to FW_STAGE (16 R432): rejected while a commit waits. A chunk past the largest image is out of range. -/
def State.writeStage (s : State) (offset : Nat) (chunk : List Byte) : MStatus × State :=
  if s.sec.commit.isSome then (.state, s)
  else if chunk.length > 4096 then (.length, s)
  else if offset + chunk.length > imageLimit then (.range, s)
  else
    let x := s.staged
    (.ok, s.setStaged { x with image := memWrite x.image offset chunk, length := max x.length (offset + chunk.length)
                               accepted := false })

/-- FW_STAGE: an image chunk goes into the slot that is not active (16 R432). -/
def execFwStage (offset : BitVec 32) (chunk : List Byte) (s : State) : Out :=
  .next (s.manage true fun s => s.writeStage offset.toNat chunk)

/-- A staged image as the checks of its bytes find it (16 R430): MARKER, VERSION, reserved bits, CODE_LEN, CODE_DIGEST and the
signature. -/
def FwSlot.check (x : FwSlot) : FwSlot :=
  let header := memRead x.image 0 128
  let h := leNat header
  let len := bitsOf h 96 32
  let code := memRead x.image 128 len
  let digest := shake256 64 (header ++ code)
  let good := bitsOf h 0 16 = 0xF3A1 && bitsOf h 16 8 = 1 && bitsOf h 26 6 = 0 && bitsOf h 640 384 = 0 && 4 ≤ len && len ≤ 16777216 &&
    128 + len + 1280 ≤ x.length && bitsOf h 128 512 = leNat (shake256 64 code) &&
    Config.falconVerify (bitsOf h 24 2) digest (memRead x.image (128 + len) 1280)
  { x with accepted := good, header, digest }

/-- The outcome of a write to FW_COMMIT (16 R432, R434): a staged image that fails R430 is refused in the present state. With
`advance`, a PAIRED package reports the commit done after the twin's acknowledgement; the Boolean says that it waits. -/
def State.writeCommit (s : State) (advance : Bool) : MStatus × State × Bool :=
  let x := s.staged.check
  if s.sec.commit.isSome || !s.bootable x then (.state, s, false)
  else
    let s := s.setStaged x
    let s := { s with sec := { s.sec with activeB := !s.sec.activeB
                                          rollback := if advance then max s.sec.rollback x.svn else s.sec.rollback } }
    if advance && s.twin.pair = .paired && s.mirrorsMeta then
      let m := s.twin.nextMseq
      (.ok, { s.sendNote 2 none (.witness s.sec.rollback) with sec := { s.sec with commit := some m } }, true)
    else (.ok, s, false)

/-- A FW_COMMIT as a management write: an accepted one that does not wait is answered, and restarts the firmware (16 R432). -/
def State.commitWrite (s : State) (advance : Bool) : State :=
  if !s.mgmtAnswers then s else
  match s.writeCommit advance with
  | (.ok, s, true) => s
  | (.ok, s, false) => (State.answer (.ok, s)).restartFirmware
  | (st, s, _) => State.answer (st, s)

/-- FW_COMMIT with value 0 (16 R432). -/
def execFwCommit (s : State) : Out := .next (s.commitWrite false)

/-- FW_COMMIT with value 1: ROLLBACK_SVN rises to the staged image's SVN (16 R434). -/
def execFwCommitAdvance (s : State) : Out := .next (s.commitWrite true)

/-- The outcome of a write to KEY_REVOKE (16 R433): its range is bits 0 to 3; the key of the active image cannot be revoked. -/
def State.writeRevoke (s : State) (mask : Nat) : MStatus × State :=
  if mask ≥ 16 then (.range, s)
  else if bitOf mask s.running.keyIndex then (.state, s)
  else (.ok, { s with sec := { s.sec with revoked := s.sec.revoked ||| BitVec.ofNat 4 mask } })

/-- KEY_REVOKE: revocation bits are set, and never cleared (16 R433). -/
def execKeyRevoke (mask : BitVec 8) (s : State) : Out := .next (s.manage false fun s => s.writeRevoke mask.toNat)

/-- The outcome of a write to MR_EXTEND (16 R431, Table 16-8). -/
def State.writeExtend (s : State) (index : Nat) (digest : List Byte) : MStatus × State :=
  if digest.length ≠ 64 then (.length, s)
  else if index < 5 || 7 < index then (.range, s)
  else (.ok, s.extendMr index digest)

/-- MR_EXTEND: the operator extends MR5, MR6 or MR7 (16 R431). -/
def execMrExtend (index : BitVec 8) (digest : List Byte) (s : State) : Out :=
  .next (s.manage false fun s => s.writeExtend index.toNat digest)

end Sys2Proof.Machine
end

