-- ==== Sys2Proof/Machine/Takeover.lean ====
section
/-!
DEFINITION. Mirror records as the twin applies them (13 R358 to R361), promotion (13 R365 to R367), and the ends of a resilver
and of an admission (13 R369, R371).
-/

namespace Sys2Proof.Machine

open Sys2Proof

/-! ### Mirror extents (13 R359) -/

/-- Poisons every line of an extent. -/
def State.poisonExtent (s : State) (e : Nat) : State :=
  let lo := e * 2 ^ 24
  let hi := lo + 2 ^ 24
  let kept := s.poison.filter fun l => lo ≤ l && l < hi
  { s with poison := s.poison.filter (· < lo) ++ (List.range (2 ^ 24)).map (lo + ·) ++ s.poison.filter (hi ≤ ·) }.bump
    (dkey 0xA051 0) (2 ^ 24 - kept.length)

/-- An extent becomes the mirror of the twin's extent `e`, owned by its tenant; one that is not clean is zeroed. -/
def State.takeMirror (s : State) (a e : Nat) (x : Extent) : State :=
  match s.extent? a with
  | none => s
  | some y =>
    let s := if y.state = .freeDirty then s.zeroRange (a * 2 ^ 30) (2 ^ 30) else s
    s.setExtent a { state := .owned, owner := x.owner, shares := x.shares, protect := true, hold := .mirror, mirror := some e,
                    scrub := false, drainUs := 0, revokers := [], written := false }

/-- A free extent for a mirror of `e`: of its tier, or of the next slower tier that has one (02 R62); which one is this
device's own choice, and free. -/
def State.chooseMirror (s : State) (e : Nat) : Option Nat :=
  let open_ := fun (t : Nat) => (SMap.keys s.ext).filter fun a => tierOf a = t && s.isFree a
  firstSome ((List.range 3).filter (tierOf e ≤ ·)) fun t => match open_ t with
    | [] => none
    | l => l[Config.freeValue s.free % l.length]?

/-- The mirror that the twin's extent `e` has or takes here. -/
def State.mirrorFor (s : State) (e : Nat) (x : Extent) : State :=
  match x.mirror with
  | some a => match s.extent? a with
    | some y =>
      if y.hold = .mirror && y.mirror = some e then s.setExtent a { y with owner := x.owner, shares := x.shares }
      else if y.free then s.takeMirror a e x
      else s
    | none => s
  | none =>
    if s.twin.pair = .paired || (s.mirrorOf e).isSome then s
    else match s.chooseMirror e with
      | some a => { s with free := s.free + 1 }.takeMirror a e x
      | none => s

/-- Whether an extent of a package's own table wants a mirror. -/
def Extent.wantsMirror (x : Extent) : Bool := x.protect && x.hold = .none && !x.free

/-- A mirror whose extent is no longer protected at the twin is freed; it is clean if the twin's was scrubbed (04 R107). -/
def State.dropMirrors (s : State) (m : Meta) : State :=
  s.ext.foldl (fun s (a, y) => match y.hold, y.mirror with
    | .mirror, some e => match SMap.look m.ext e with
      | some x =>
        if x.wantsMirror then s
        else if x.state = .freeClean then (s.zeroRange (a * 2 ^ 30) (2 ^ 30)).setExtent a (.freed .freeClean)
        else s.setExtent a (.freed .freeDirty)
      | none => s.setExtent a (.freed .freeDirty)
    | _, _ => s) s

/-- Learns which of the twin's extents mirror the own ones that had none. -/
def State.learnMirrors (s : State) (m : Meta) : State :=
  { s with ext := SMap.each s.ext fun e x =>
      if x.wantsMirror && x.mirror.isNone then
        { x with mirror := (m.ext.find? fun (_, y) => y.hold = .mirror && y.mirror = some e).map (·.1) }
      else x }

/-- Mirror slots for the twin's contexts: taken for those that hold memory, freed for the others (13 R374, R380). -/
def State.contextMirrors (s : State) (m : Meta) : State :=
  let wants := fun (k : Nat) => match SMap.look m.ledger k with
    | some e => !e.pool.isEmpty
    | none => false
  let s := { s with ctx := { s.ctx with mirror := SMap.only s.ctx.mirror fun k _ => wants k } }
  (m.ledger.filter fun (k, _) => wants k && !SMap.has s.ctx.mirror k).foldl (fun s (k, e) =>
    let l := s.poolPages.take e.pool.length
    if l.length = e.pool.length then { s with ctx := { s.ctx with mirror := SMap.put s.ctx.mirror k l } } else s) s

/-- The twin's metadata replaces what is held of it; this package answers with its own if it took mirrors (13 R358, R359). -/
def State.holdMeta (s : State) (m : Meta) : State :=
  let before := s.ext
  let s := { s with twin := { s.twin with held := some m, summary := m.summary } }
  let s := (m.ext.filter fun (_, x) => x.wantsMirror).foldl (fun s (e, x) => s.mirrorFor e x) s
  let s := ((s.dropMirrors m).learnMirrors m).contextMirrors m
  if s.ext = before || s.twin.pair = .paired then s
  else s.sendRecord 2 0 0 (2 ^ 64 - 1) metaLine none { header := 0, data := [], content := [s.metaOf] }

/-! ### The own metadata comes back (13 R369, R371) -/

/-- The lines of an extent are lost: poisoned, with one record UNPROTECTED_LOST (13 R370). -/
def State.loseExtent (s : State) (e : Nat) : State :=
  (s.poisonExtent e).logFree 0x001A 13 ((s.extent? e).elim 0 (·.owner)) (e % 2 ^ 16)

/-- A joining package takes its own metadata from the twin that answers for it. Extents that the device holds for itself stay
as they are. -/
def State.restoreMeta (s : State) (m : Meta) : State :=
  let lost := m.ext.filter fun (e, x) => !x.free && x.hold = .none && !(x.protect && x.mirror.isSome) && tierOf e ≠ 1 && s.isFree e
  let s := lost.foldl (fun s (e, _) => s.loseExtent e) s
  let held := s.ext.filter fun (_, x) => x.hold ≠ .none && x.hold ≠ .mirror
  let ext := held.foldl (fun l (e, x) => SMap.put l e x) m.ext
  { s with
    ext := ext
    tr := { s.tr with asids := m.asids, maps := m.maps }
    rlc := { s.rlc with regions := SMap.each m.regions fun _ r => { r with current := none, waiting := [] } }
    idx := { s.idx with indexes := SMap.each m.indexes fun _ x => { x.discard with searches := [], mergeSlot := none } }
    emb := { tables := SMap.each m.tables fun _ x => { x with running := [], resp := [] }, pins := m.pins }
    ctx := { s.ctx with ledger := SMap.each m.ledger fun _ e => { e with pool := [] } } }

/-- The rings that the twin hands over are watched again, and fetch (13 R371). -/
def State.restoreRings (s : State) (m : Meta) : State :=
  let s := m.cqs.foldl (fun s (n, c) => (s.setCq n c).watch c.wordLine (.head n)) s
  let s := m.rings.foldl (fun s (n, r) => (s.setRing n { r with fetchWait := .idle, resp := [] }).watch r.wordLine (.tail n)) s
  m.leases.foldl (fun s (n, _) => s.renewLease n) s

/-- The twin has handed over: this package answers for its id, and the pair is PAIRED (13 R371). -/
def State.admitted (s : State) (m : Meta) : State :=
  let s := { s with twin := { s.twin with pair := .paired, announcedAbsence := false, copied := [] } }
  (s.restoreRings m).mirrorMeta none

/-- What a joining twin tells of itself: the mirrors that it took or freed (13 R359). -/
def State.learnJoiner (s : State) (m : Meta) : State :=
  let isMirror := fun (l : SMap Extent) (e : Nat) => (SMap.look l e).any (·.hold = .mirror)
  let s := s.learnMirrors m
  let held := s.twin.held.map fun h => { h with
    ext := SMap.each h.ext fun e x => if isMirror m.ext e || x.hold = .mirror then SMap.get m.ext e x else x }
  { s with twin := { s.twin with held } }

/-- A META record's metadata, of the twin or of this package. -/
def State.takeMeta (s : State) (m : Meta) : State :=
  if m.id = s.fab.id then
    match s.twin.pair with
    | .joining => s.restoreMeta m
    | .shadow => if m.handover then (s.restoreMeta m).admitted m else s.restoreMeta m
    | _ => s
  else if s.twin.answersFor.isNone then s.holdMeta m
  else s.learnJoiner m

/-! ### Records (13 R360, R361) -/

/-- The local extent that holds what a twin's extent does: its mirror here, or the extent that it is the mirror of. -/
def State.counterpart (s : State) (e : Nat) : Option Nat := (s.mirrorOf e).orElse fun _ => s.primaryOf e

/-- A line of a record is applied as one event (13 R361). -/
def State.applyMirrorLine (s : State) (line : Nat) (data : List Byte) (mask : BitVec 64) (bad : Bool) : State :=
  match s.counterpart (line / 2 ^ 24) with
  | none => s
  | some e =>
    let l := moveLine line e
    let s := s.pokeMasked l data mask
    if bad then s.poisonLine l else s

/-- The lines of a LINE or RESILVER record. -/
def State.applyRecordLines (s : State) (r : MirrorRecord) : State :=
  let n := fld r.header 16 6
  let mask := if n = 1 then BitVec.ofNat 64 (fld r.header 192 64) else BitVec.allOnes 64
  (List.range n).foldl (fun s i =>
    s.applyMirrorLine (fld r.header 128 50 / 64 + i) ((r.data.drop (64 * i)).take 64) mask (r.bad.contains i)) s

/-- A checkpoint of a context of the twin is applied in one step, with its ledger entry (13 R377). -/
def State.applyCheckpoint (s : State) (k : Nat) (e : Ledger) (bytes : SMap Byte) (bad : List Nat) : State :=
  let held := s.twin.held.map fun m => { m with ledger := SMap.put m.ledger k e }
  let s := { s with twin := { s.twin with held } }
  let s := match s.twin.held with
    | some m => s.contextMirrors m
    | none => s
  match SMap.look s.ctx.mirror k with
  | some pages => s.fillPages pages bytes bad
  | none => s

/-- The resilver is done: a joining package is in SHADOW; between twins that meet again the other has copied its extents. -/
def State.peerCopied (s : State) : State :=
  match s.twin.pair with
  | .joining => { s with twin := { s.twin with pair := .shadow } }
  | .split =>
    if s.twin.resilvered then { s with twin := { s.twin with pair := .paired, copied := [] } }
    else { s with twin := { s.twin with peerDone := true } }
  | _ => s

/-- What a record carries beside lines and metadata. STEP_ADMIT begins the admission of the twin (13 R371). -/
def State.applyNote (s : State) (n : TwinNote) : State :=
  match n with
  | .none => s
  | .stepAdmit =>
    if s.twin.pair = .resilvering && s.twin.resilvered then
      { s with twin := { s.twin with admission := true } }
    else s
  | .resilverDone => s.peerCopied
  | .witness v => { s with sec := { s.sec with witness := some (max v (s.sec.witness.getD 0)) } }
  | .key t installed key generation =>
    { s with sec := { s.sec with keys := SMap.put s.sec.keys t ({ installed, key, generation, changed := s.time } : TenantKey) } }
  | .response k header payload =>
    { s with twin := { s.twin with mirrored := SMap.put s.twin.mirrored k ({ port := 0, header, payload } : Packet) } }
  | .checkpoint k e bytes bad => s.applyCheckpoint k e bytes bad

/-- A mirror record is applied (13 R361). A DIR record names its line in the summary, or clears it. -/
def State.applyRecord (s : State) (r : MirrorRecord) : State :=
  let line := fld r.header 128 50 / 64
  let s := match fld r.header 0 8 with
    | 1 | 6 => s.applyRecordLines r
    | 4 =>
      let l := s.twin.summary
      { s with twin := { s.twin with summary := if l.contains line then l.filter (· ≠ line) else insertNat l line } }
    | _ => s
  (r.content.foldl State.takeMeta s).applyNote r.note

/-- MSEQ of a record. -/
def mseqOf (r : MirrorRecord) : Nat := fld r.header 64 64

/-- Applies the received records that are next in MSEQ order (13 R361). -/
def State.applyReceived (s : State) (fuel : Nat) : State :=
  match fuel with
  | 0 => s
  | k + 1 =>
    match s.twin.received.find? fun r => mseqOf r = s.twin.appliedMseq with
    | none => s
    | some r =>
      let twin := { s.twin with received := s.twin.received.filter fun x => mseqOf x ≠ s.twin.appliedMseq
                                appliedMseq := s.twin.appliedMseq + 1 }
      (({ s with twin := twin } : State).applyRecord r).applyReceived k

/-! ### Promotion (13 R365) -/

/-- Step 2: the lines that the directory summary names are poisoned, in their mirrors. -/
def State.poisonSummary (s : State) : State :=
  let l := s.twin.summary.filterMap fun line => (s.mirrorOf (line / 2 ^ 24)).map (moveLine line)
  ({ s with twin := { s.twin with summary := [] } } : State).poisonLines l

/-- Whether a range of VAs of the lost package lies in its protected extents, mirrored here. -/
def State.rangeHeld (s : State) (m : Meta) (asid va n : Nat) : Bool :=
  (piecesOf va n).all fun (a, _) => match m.maps.find? (·.covers asid a) with
    | some x => x.package.isNone && (s.mirrorOf (extentOf (x.address + (a - x.va)))).isSome
    | none => false

/-- Whether a ring is resumed: its memory, tail word, status block, and its completion ring with all of its own lie in
protected extents (13 R366). -/
def State.ringHeld (s : State) (m : Meta) (r : Ring) : Bool :=
  s.rangeHeld m r.asid r.baseVa (64 * 2 ^ r.log2) && s.rangeHeld m r.asid r.wordVa 64 && s.rangeHeld m r.asid r.statusVa 64 &&
    match SMap.look m.cqs r.cq with
    | some c => s.rangeHeld m c.asid c.baseVa (32 * 2 ^ c.log2) && s.rangeHeld m c.asid c.wordVa 64 &&
        s.rangeHeld m c.asid c.statusVa 64
    | none => false

/-- The mirror line of a line of the lost package. -/
def State.mirrorLineOf (s : State) (line : Nat) : Nat := moveLine line ((s.mirrorOf (line / 2 ^ 24)).getD (line / 2 ^ 24))

/-- The local ranges that hold a range of the lost package: those of its mirrored extents. -/
def State.mirrorPieces (s : State) (fuel : Nat) (p : Nat × Nat) : List (Nat × Nat) :=
  match fuel with
  | 0 => []
  | k + 1 =>
    let n := min p.2 (2 ^ 30 - p.1 % 2 ^ 30)
    if n = 0 then []
    else
      let rest := s.mirrorPieces k (p.1 + n, p.2 - n)
      match s.mirrorOf (extentOf p.1) with
      | some a => (a * 2 ^ 30 + p.1 % 2 ^ 30, n) :: rest
      | none => rest

/-- Step 3, translation: every ASID of the lost package with its mappings, which name its addresses, and the owners and shares
of its extents (13 R365, R366). -/
def State.takeTranslation (s : State) (x : Nat) (m : Meta) : State :=
  let a := twinSpace 16
  let maps := m.maps.map fun p => { p with asid := p.asid + a, package := some (p.package.getD x) }
  { s with
    tr := { s.tr with asids := s.tr.asids ++ SMap.up m.asids a, maps := s.tr.maps ++ maps }
    ext := SMap.each s.ext fun _ y => match y.hold, y.mirror.bind (SMap.look m.ext) with
      | .mirror, some z => { y with owner := z.owner, shares := z.shares }
      | _, _ => y }

/-- Step 3, rings: those that lie in protected extents, with their completion rings and leases. -/
def State.takeRings (s : State) (m : Meta) : State :=
  let a := twinSpace 16
  let rings := m.rings.filter fun (_, r) => s.ringHeld m r
  let cqs := m.cqs.filter fun (n, _) => rings.any fun (_, r) => r.cq = n
  let s := cqs.foldl (fun s (n, c) =>
    let l := s.mirrorLineOf c.wordLine
    (s.setCq (n + resumedRing) { c with asid := c.asid + a, wordLine := l }).watch l (.head (n + resumedRing))) s
  let s := rings.foldl (fun s (n, r) =>
    let l := s.mirrorLineOf r.wordLine
    let state := if r.state = .step then .active else r.state
    (s.setRing (n + resumedRing) { r with
      asid := r.asid + a, cq := r.cq + resumedRing, lease := r.lease + twinSpace 10, wordLine := l, recAsid := r.recAsid + a
      state, mode := .normal, runOne := none, runGrant := false, stepEnter := none, dereg := r.dereg.map resumedSeq
      fetchWait := .idle, resp := [] }).watch l (.tail (n + resumedRing))) s
  m.leases.foldl (fun s (n, _) => s.renewLease (n + twinSpace 10)) s

/-- Step 3, regions, indexes and tables. A merge is discarded (Table 13-10); a replacement goes on (11 R316). -/
def State.takeObjects (s : State) (m : Meta) : State :=
  let a := twinSpace 16
  let region := fun (r : Region) => { r with pieces := r.pieces.flatMap fun p => s.mirrorPieces (p.2 / 2 ^ 30 + 2) p
                                             current := none, waiting := [] }
  let index := fun (i : Index) => { i.discard with asid := i.asid + a, searches := [] }
  let table := fun (t : Table) =>
    { t with asid := t.asid + a, running := [], scatters := [], resp := []
             replacing := t.replacing.map fun p => { p with slot := p.slot.map resumedSeq, asid := p.asid + a } }
  { s with
    rlc := { s.rlc with regions := s.rlc.regions ++ SMap.up (SMap.each m.regions fun _ r => region r) regionSpace }
    idx := { s.idx with indexes := s.idx.indexes ++ SMap.up (SMap.each m.indexes fun _ i => index i) (twinSpace 10) }
    emb := { tables := s.emb.tables ++ SMap.up (SMap.each m.tables fun _ t => table t) (twinSpace 12)
             pins := s.emb.pins ++ SMap.up (SMap.each m.pins fun _ p => { p with table := p.table + twinSpace 12 }) a } }

/-! ### Ledger entries (13 R382) -/

/-- The entry of a context after the owner, the taker or the offerer that held it failed. -/
def Ledger.takenOver (e : Ledger) (own time : Nat) : Ledger :=
  match e.state with
  | .owned => { e with epoch := e.epoch + 1, owner := own, peer := 0 }
  | .offered => if e.deadline ≤ time then { e with state := .owned, epoch := e.epoch + 2, owner := own, peer := 0 } else e
  | _ => e

/-- Step 4: one ledger entry of the lost package. The mirror slot becomes the context; an offer whose deadline has passed is
reclaimed, and its OFFER completes (13 R378, R382). -/
def State.takeEntry (s : State) (k : Nat) (e : Ledger) : State :=
  let pages := SMap.get s.ctx.mirror k []
  if (SMap.look s.ctx.ledger k).any fun o => e.epoch < o.epoch then s
  else
  let n := e.takenOver s.ownId s.time
  let asid := e.asid + twinSpace 16
  let n := { n with pool := pages, asid, offerSlot := e.offerSlot.map resumedSeq }
  let held := n.state = .owned || n.state = .offered
  let s := { s with ctx := { s.ctx with ledger := SMap.put s.ctx.ledger k n, mirror := SMap.del s.ctx.mirror k } }
  let s := s.unmapContext { e with asid }
  let s := if held then
      { s with tr := { s.tr with maps := s.tr.maps ++ contextMaps s.ownId asid e.va pages 0 (n.state = .offered) } }
    else s
  if e.state = .offered && n.state = .owned then
    let s := s.bump (dkey 0xA010 3) 1
    match n.offerSlot with
    | some q => s.finishSeq q .offerExpired 0 n.epoch
    | none => s
  else s

/-! ### Commands in flight (13 R367) -/

/-- Whether a command is run again on the twin (13 Table 13-3). -/
def Fetched.reruns (f : Fetched) : Bool :=
  let g := fld f.desc
  match f.opcode with
  | 0x11 => !(g 128 57 < g 192 57 + g 256 64 && g 192 57 < g 128 57 + g 256 64)
  | 0x13 => g 334 1 = 0 && (List.range (g 288 16)).all fun k =>
      g 128 57 + k * (if g 336 48 = 0 then g 256 32 * elemBytes (g 324 4) else g 336 48) ≠ g 192 57
  | 0x71 => g 140 1 = 0
  | 0x03 | 0x21 | 0x22 | 0x32 | 0x40 | 0x41 | 0x50 | 0x52 | 0x61 | 0x63 | 0x81 | 0x82 => false
  | _ => true

/-- The slot of a command that was in flight on the lost package: it runs again, goes on, or is settled. The COUNT and RESULT
of one whose effect stands committed are not mirrored: they are free values (DESIGN CHOICE, log 37). -/
def State.takeFetched (s : State) (m : Meta) (f : Fetched) : State :=
  let ring := f.ring + resumedRing
  if !SMap.has s.fe.rings ring then s
  else
    let n := leastFree (SMap.keys s.fe.slots) 65536 0
    let base := Slot.fetch ring f.pos f.tenant s.time f.desc .fetched .resumedByTwin
    let ended := fun (st : Status) => { base with stage := .finished, status := st }
    let replacing := m.tables.any fun (_, t) => t.replacing.any fun p => p.slot = some (f.ring * 2 ^ 50 + f.pos)
    if f.opcode = 0x31 && f.committed || f.opcode = 0x72 && replacing then s.setSlot n { base with stage := .running }
    else if f.committed && f.opcode / 16 ≠ 9 || f.opcode = 0x32 then
      let (c, s) := s.draw
      let (v, s) := s.draw
      s.setSlot n { ended .resumedByTwin with count := c % 2 ^ 44, result := v % 2 ^ 64 }
    else if f.reruns then s.setSlot n base
    else s.setSlot n (ended .aborted)

/-- A revocation that had begun at the lost package goes on from its invalidation step (04 R108). -/
def State.resumeRevocation (s : State) (e : Nat) (x : Extent) : State :=
  if x.state ≠ .draining && x.state ≠ .scrubbing then s
  else match s.mirrorOf e with
    | some a => match s.extent? a with
      | some y =>
        let y := { y with scrub := x.scrub, revokers := x.revokers.map resumedSeq }
        (s.setExtent a y).endDrain a y
      | none => s
    | none => (x.revokers.map resumedSeq).foldl (fun s q => s.finishSeq q .ok 0 0) (s.revokeLost e)

/-- Step 6: the resumed rings' status is written, and their commands in flight are settled. -/
def State.takeCommands (s : State) (m : Meta) : State :=
  let s := m.fetched.foldl (fun s f => s.takeFetched m f) s
  let s := m.ext.foldl (fun s (e, x) => s.resumeRevocation e x) s
  (SMap.keys (s.fe.rings.filter fun (n, _) => resumedRing ≤ n)).foldl State.writeStatus s

/-- Lines of the lost package that this package holds written in its remote line cache go to their mirrors; those it holds
unwritten are dropped, and published lines stay Held (05 R129, R130; DEDUCED, log 37). -/
def State.settleRemote (s : State) (x : Nat) : State :=
  (s.rlc.lines.filter fun (g, l) => g / 2 ^ 44 = x && l.state ≠ .held).foldl (fun s (g, l) =>
    let s := match l.state, s.mirrorOf (g % 2 ^ 44 / 2 ^ 24) with
      | .dirty, some a => s.placeMasked (moveLine (g % 2 ^ 44) a) l.data l.mask none l.poisoned
      | _, _ => s
    s.dropRemote g) s

/-- Promotion (13 R365): the package answers for its lost twin. -/
def State.promote (s : State) : State :=
  let x := s.twin.twinId
  let m := s.twin.held.getD (.blank x)
  let s := s.applyReceived s.twin.received.length
  let s := { s with twin := { s.twin with pair := .degraded, probing := false, recordedDegraded := true, answersFor := some x
                                          received := [], copied := [], resilverChunk := 0, admission := false } }
  let s := s.dropUnacked.poisonSummary
  let s := ((s.takeTranslation x m).takeRings m).takeObjects m
  let s := (s.settleRemote x).dropPublisher x
  let s := s.takeCommands m
  let s := m.ledger.foldl (fun s (k, e) => s.takeEntry k e) s
  let s := m.runs.foldl (fun s (k, r) =>
    let key := if k < remoteRun then resumedSeq k else k
    { s with ctx := { s.ctx with runs := SMap.put s.ctx.runs key { r with child := none } } }) s
  let s := (s.sendNotices x false).bump (dkey 0xA004 0) 1
  let s := (s.fmEvent 0x07 x 0 0).logFree 0x0013 13 0 x
  let held := s.fab.tags.filter fun (_, q) => q.dst = x && q.held
  let s := held.foldl (fun s (tag, q) => if s.mayReissue q then s.resend tag q else s) s
  s.autoMergeAll

/-! ### The end of answering (13 R371) -/

/-- The contexts taken over stay with this package: their mappings pass to its own ASID of the same number, where that exists
(13 R371; DESIGN CHOICE, log 37). -/
def State.keepContexts (s : State) : State :=
  (s.ctx.ledger.filter fun (_, e) => twinSpace 16 ≤ e.asid).foldl (fun s (k, e) =>
    let asid := e.asid - twinSpace 16
    let ok := (s.asid? asid).any fun a => a.tenant = e.tenant
    let maps := if ok && !e.pool.isEmpty && !s.mapped asid e.va (e.length * 2 ^ 21) then
        contextMaps s.ownId asid e.va e.pool 0 (e.state = .offered)
      else []
    { s with ctx := { s.ctx with ledger := SMap.put s.ctx.ledger k ({ e with asid } : Ledger) }
             tr := { s.tr with maps := s.tr.maps ++ maps } }) s

/-- The twin's objects leave this package. -/
def State.dropTwin (s : State) : State :=
  let gone := s.coh.watches.filter fun (_, w) => match w.watcher with
    | .tail n | .head n => resumedRing ≤ n
    | _ => false
  let s := gone.foldl (fun s (l, _) => s.unwatch l) s
  let s := s.unmapIf fun m => twinSpace 16 ≤ m.asid
  { s with
    fe := { s.fe with rings := SMap.below s.fe.rings resumedRing, cqs := SMap.below s.fe.cqs resumedRing
                      leases := SMap.below s.fe.leases (twinSpace 10)
                      slots := s.fe.slots.filter fun (_, x) => x.ring < resumedRing }
    tr := { s.tr with asids := SMap.below s.tr.asids (twinSpace 16) }
    rlc := { s.rlc with regions := SMap.below s.rlc.regions regionSpace }
    idx := { s.idx with indexes := SMap.below s.idx.indexes (twinSpace 10) }
    emb := { tables := SMap.below s.emb.tables (twinSpace 12), pins := SMap.below s.emb.pins (twinSpace 16) } }

end Sys2Proof.Machine
end

