-- ==== Sys2Proof/Machine/BringUp.lean ====
section
/-!
DEFINITION. What a reset drops and keeps (17 R448, Table 17-4), and the start-up stages (17 R442 to R446, R449).
-/

namespace Sys2Proof.Machine

open Sys2Proof

/-! ### What a cold or warm reset drops (17 Table 17-4) -/

/-- Whether a local address lies in memory that keeps its contents: flash, and the expanders of the far tier. -/
def durable (la : Nat) : Bool := (0x2000_0000_0000 ≤ la && la < 0x4000_0000_0000) || 0x4004_0000_0000 ≤ la

/-- An extent after a reset: those that the device set aside are free, and commands wait for none (04 R108). -/
def Extent.afterReset (x : Extent) : Extent :=
  match x.hold with
  | .none | .mirror => { x with revokers := [] }
  | _ => .freed .freeDirty

/-- A ledger entry after a reset: the context's memory is gone; an offer's deadline goes on (13 Table 13-10). -/
def Ledger.afterReset (e : Ledger) : Ledger := { e with pool := [], offerSlot := none }

/-- An index after a reset: its shadow is discarded (13 Table 13-10). -/
def Index.afterReset (x : Index) : Index := { x.discard with searches := [] }

/-- A table after a reset: a replacement goes on from its cursor (11 R316). -/
def Table.afterReset (x : Table) : Table := { x with running := [], scatters := [], resp := [] }

/-- Objects of the front end, of translation, of coherence and of the store that a reset ends. -/
def State.clearMemory (s : State) : State :=
  { s with
    mem := s.mem.filter fun (a, _) => durable a
    poison := s.poison.filter fun l => durable (l * 64)
    fe := State.reset.fe
    tr := { State.reset.tr with asids := SMap.below s.tr.asids (twinSpace 16), misses := s.tr.misses
                                maps := s.tr.maps.filter fun (m : Mapping) => m.asid < twinSpace 16 && m.kind ≠ MapKind.context }
    ext := SMap.each s.ext fun _ x => x.afterReset
    coh := State.reset.coh
    rlc := { State.reset.rlc with
      stagingMib := s.rlc.stagingMib
      regions := SMap.each (SMap.below s.rlc.regions regionSpace) fun _ r => { r with current := none, waiting := [] } }
    flash := { s.flash with decoders := [] } }

/-- Objects of the engines, the grid, the fabric and the twin that a reset ends; MERGES_DISCARDED counts the shadows. -/
def State.clearEngines (s : State) : State :=
  let merges := (s.idx.indexes.filter fun (_, x) => x.merge ≠ .idle).length
  let s := s.bump (dkey 0x7004 2) merges
  { s with
    models := []
    grid := State.reset.grid
    idx := { State.reset.idx with indexes := SMap.each (SMap.below s.idx.indexes (twinSpace 10)) fun _ x => x.afterReset }
    emb := { tables := SMap.each (SMap.below s.emb.tables (twinSpace 12)) fun _ x => x.afterReset, pins := [] }
    fab := { State.reset.fab with id := s.fab.id, events := s.fab.events, nextEvent := s.fab.nextEvent }
    twin := { State.reset.twin with pair := if s.twin.pair = .refused then .refused else .unpaired
                                    announcedAbsence := s.twin.announcedAbsence }
    ctx := { s.ctx with ledger := SMap.each s.ctx.ledger (fun _ e => e.afterReset), runs := [], poolExtents := [], mirror := [] }
    sched := { s.sched with ports := [] }
    cnt := { s.cnt with ringSets := [], staging := [] }
    mgmt := { s.mgmt with fetched := 0, tailSeen := 0, written := 0, headSeen := 0, ring := .absent, extent := none }
    pwr := { s.pwr with served := false, startTime := s.time, pendingReset := none, tenantBusy := none, state := 0, waking := none } }

/-- What every cold or warm reset clears. -/
def State.clearVolatile (s : State) : State := s.clearMemory.clearEngines

/-- What a cold reset clears beside: values, counters, the error log, measurements and the events; a refusal ends (13 Table 13-1).
The timestamp counter restarts, and a deadline keeps what remains of it. -/
def State.clearCold (s : State) : State :=
  let t := s.clearVolatile
  { t with
    time := 0
    vals := []
    stall := []
    tr := { t.tr with misses := [] }
    fab := { t.fab with events := [], nextEvent := 0 }
    twin := { t.twin with pair := .unpaired }
    ctx := { t.ctx with ledger := SMap.each t.ctx.ledger fun _ e => { e with deadline := e.deadline - s.time } }
    log := State.reset.log
    sched := State.reset.sched
    cnt := { State.reset.cnt with pages := t.cnt.pages }
    sec := { t.sec with mr := [], measureLog := [], attests := 0, commit := none }
    mgmt := State.reset.mgmt
    pwr := { t.pwr with stages := [], startTime := 0, readyMs := 0, refLost := none, bootOnly := false, armed := 0, retired := [] } }

/-! ### Stages (17 R442, R444) -/

/-- The number of the start-up stage that runs; 0: none. -/
def DeviceState.stage (d : DeviceState) : Nat :=
  match d with
  | .boot => 1 | .calibrating => 2 | .initialising => 3 | .selfTest => 4
  | _ => 0

/-- When a stage began. -/
def State.stageStart (s : State) (k : Nat) : Nat :=
  if k = 1 || (k = 2 && !s.pwr.cold) then s.pwr.startTime
  else match SMap.look s.pwr.stages (k - 1) with
    | some r => r.finish
    | none => s.pwr.startTime

/-- Writes the row of a stage into BRINGUP_STATUS: it ended, or a unit failed. -/
def State.stageRow (s : State) (k : Nat) (failed : Option Nat) : State :=
  let r : StageRow := { start := s.stageStart k, finish := s.time, ok := failed.isNone, unit := failed.getD 0 }
  { s with pwr := { s.pwr with stages := SMap.put s.pwr.stages k r } }

/-- Sets DEVICE_STATE. -/
def State.enter (s : State) (d : DeviceState) : State := { s with pwr := { s.pwr with device := d } }

/-- Bring-up stops: FAILED, and the row names the stage and the unit. -/
def State.failStage (s : State) (k unit : Nat) : State := (s.stageRow k (some unit)).enter .failed

/-! ### Stage 1 (16 R428, R430, R431, 17 R446, 19 R493) -/

/-- A slot whose bytes the boot code has checked. -/
def FwSlot.boot (x : FwSlot) (intact : Bool) : FwSlot :=
  let y := if x.accepted then x else x.check
  { y with accepted := intact && y.accepted }

/-- The boot code tries the active slot first, and the other slot next (16 R430). -/
def State.chooseImage (s : State) : State :=
  if s.bootable s.running then s
  else
    let t : State := { s with sec := { s.sec with activeB := !s.sec.activeB } }
    if t.bootable t.running then t else { s with pwr := { s.pwr with bootOnly := true } }

/-- The rest of stage 1, once an image is accepted: MR0 to MR4 are extended and the profile is applied. -/
def State.finishBoot (s : State) : State :=
  let s := s.loadProfile
  let s := (s.extendMr 0 Config.bootDigest).extendMr 1 s.running.digest
  let s := (s.extendProfile.extendMr 3 Config.phyDigest).extendMr 4 (shake256 64 Config.identityCertificate)
  (s.stageRow 1 none).enter .calibrating

/-- Stage 1 ends: identity, profile, reference and firmware image. -/
def State.endBoot (s : State) (r : StageResult) : State :=
  let good := r.profileOk || s.prof.pins = 3
  let s : State := { s with
    sec := { s.sec with identityOk := r.identityOk, slotA := s.sec.slotA.boot r.imageA, slotB := s.sec.slotB.boot r.imageB }
    prof := { s.prof with active := if good then s.prof.pins else 3, fallback := !good }
    pwr := { s.pwr with refclk := r.refclkGood, mgmtUp := true } }
  let s := s.chooseImage
  if s.pwr.bootOnly then s else s.finishBoot

/-! ### Stage 2 (02 R38, 05 R110) -/

/-- First extent of the far tier. -/
def farExtent : Nat := 0x10010

/-- Whether a range found behind expanders gets a decoder: one of the 32, on ports in the far-tier role, of whole extents of the
far-tier region that no other decoder covers. -/
def State.farFits (s : State) (x : Expander) : Bool :=
  s.prof.active ≠ 3 && s.flash.decoders.length < 32 && !x.ports.isEmpty && x.ports.all (fun p => p < 16 && s.val (dkey 0x3040 p) = 1) &&
    x.base % 2 ^ 30 = 0 && x.size % 2 ^ 30 = 0 && 0 < x.size && farExtent * 2 ^ 30 ≤ x.base && x.base + x.size ≤ 2 ^ 50 &&
    !s.flash.decoders.any fun (_, d) => d.base < x.base + x.size && x.base < d.base + d.size

/-- Lists extents that have no row yet as FREE_DIRTY. -/
def State.listExtents (s : State) (l : List Nat) : State :=
  { s with ext := l.foldl (fun m e => if SMap.has m e then m else SMap.put m e (.freed .freeDirty)) s.ext }

/-- The device programs a decoder for a range found behind expanders. -/
def State.addExpander (s : State) (x : Expander) : State :=
  if s.farFits x then
    let d : Decoder := { base := x.base, size := x.size, ways := x.ways, granule := x.granule, ports := x.ports, up := true }
    let s := { s with flash := { s.flash with decoders := SMap.put s.flash.decoders s.flash.decoders.length d } }
    s.listExtents ((List.range (x.size / 2 ^ 30)).map (x.base / 2 ^ 30 + ·))
  else s

/-- Stage 2 ends: a UCIe module that failed is retired. -/
def State.endCalibration (s : State) (r : StageResult) : State :=
  let l := r.modules.filter fun (m : Nat) => m < 16
  (({ s with pwr := { s.pwr with retired := l.foldl insertNat s.pwr.retired } } : State).stageRow 2 none).enter .initialising

/-! ### Stage 3 (17 R449, 05 R128, 13 R374, 18 R469) -/

/-- The flash stacks and extents of the assembly, as shipped where nothing is known of them (DESIGN CHOICE, logs 6 and 16). -/
def State.populate (s : State) : State :=
  let fitted := (List.range s.asm.flash).foldl (fun m k => if SMap.has m k then m else SMap.put m k Stack.fresh) s.flash.flashStacks
  let s := { s with flash := { s.flash with flashStacks := fitted } }
  s.listExtents (List.range (s.asm.hbm * 64) ++ (List.range (s.asm.flash * 4096)).map (2 ^ 13 + ·))

/-- No metadata: every extent is FREE_DIRTY, and only ASID 0 exists. -/
def State.blankMetadata (s : State) : State :=
  { s with
    ext := SMap.each s.ext fun _ _ => .freed .freeDirty
    tr := { s.tr with asids := State.reset.tr.asids, maps := [] }
    rlc := { s.rlc with regions := [] }
    idx := State.reset.idx
    emb := State.reset.emb
    ctx := { s.ctx with ledger := [] }
    cnt := { s.cnt with pages := [] } }

/-- The metadata is replayed from the journal: the contents of the HBM and far-tier extents in use are lost (17 R449 rule 2,
13 R370); a protected one is to be copied again. -/
def State.replayed (s : State) : State :=
  let gone := SMap.keys (s.ext.filter fun (e, x) => tierOf e ≠ 1 && !x.free)
  gone.foldl (fun s e => (s.loseExtent e).updExtent e fun x => { x with written := x.written || x.protect }) s

/-- Revocations that a reset caught go on from step 4 (04 R108). -/
def State.resumeRevocations (s : State) : State :=
  (s.ext.filter fun (_, x) => x.state = .draining).foldl (fun s (e, x) => s.endDrain e x) s

/-- An extent that the device holds for itself. -/
def Extent.holding (h : Hold) : Extent := { Extent.freed .freeDirty with state := .owned, hold := h }

/-- The local address of the management extent (18 R469). -/
def State.mgmtBase (s : State) : Nat := 2 ^ 30 * (64 * s.asm.hbm - 1)

/-- The management extent is taken, and it and the status page are mapped in ASID 0 (18 R469); its tail and head lines are
watched. -/
def State.takeManagement (s : State) : State :=
  let base := s.mgmtBase
  let mine : List Mapping :=
    [{ asid := 0, va := base, page := 2, package := none, address := base, readOnly := false, kind := .devicePage },
     { asid := 0, va := statusPage, page := 0, package := none, address := statusPage, readOnly := true, kind := .devicePage }]
  let s := s.unmapIf fun m => m.asid = 0 && (m.va = base || m.va = statusPage)
  let s := s.setExtent (base / 2 ^ 30) (.holding .management)
  let s : State := { s with tr := { s.tr with maps := s.tr.maps ++ mine }, mgmt := { s.mgmt with extent := some (base / 2 ^ 30) } }
  (s.watch (lineOf base) .mgmtTail).watch (lineOf (base + 64)) .mgmtHead

/-- The device sets aside the remote line cache, the publish staging and the state pool, highest first; where the free extents do
not reach, each keeps its size (05 R128, 13 R374). -/
def State.reserve (s : State) : State :=
  let free := (List.range (s.asm.hbm * 64)).reverse.filter s.isFree
  let mib := s.val (dkey 0x5021 0)
  let pool := s.val (dkey 0xA010 0)
  let fits := 1 + (mib + 1023) / 1024 + pool ≤ free.length
  let mib := if fits then mib else s.rlc.stagingMib
  let pool := if fits then pool else s.ctx.poolGib
  let n := (mib + 1023) / 1024
  let mine := free.take (1 + n + pool)
  let s := (mine.zipIdx).foldl (fun s (e, i) =>
    s.setExtent e (.holding (if i = 0 then .remoteCache else if i ≤ n then .staging else .statePool))) s
  let s : State := { s with
    rlc := { s.rlc with rlcExtent := mine.head?, stagingExtents := (mine.drop 1).take n, stagingMib := mib }
    ctx := { s.ctx with poolExtents := mine.drop (1 + n), poolGib := pool } }
  if fits then s else ((s.setVal (dkey 0x5021 0) mib).setVal (dkey 0xA010 0) pool).logRejected

/-- Stage 3 ends: the metadata is restored by the first rule of R449 that applies, and the device takes its own extents. -/
def State.endMemory (s : State) (r : StageResult) : State :=
  let s := s.populate
  let s := if r.twinAnswers || s.asm.flash = 0 then s.blankMetadata else s.replayed
  ((s.resumeRevocations.takeManagement.reserve).stageRow 3 none).enter .selfTest

/-! ### Stage 4 (08 R216) -/

/-- The spare column of a die: 80 without a failure, else the column that holds most failures; which of several with as many is
free (DESIGN CHOICE, log 1). -/
def spareColumn (l : List Nat) (pick : Nat) : Nat :=
  let count := fun (c : Nat) => (l.filter (· = c)).length
  let most := ((List.range 81).map count).foldl max 0
  if most = 0 then 80
  else
    let best := (List.range 81).filter fun c => count c = most
    best.getD (pick % best.length) 80

/-- The core of a die at a physical column and row, under a spare column. -/
def coreAt (die spare column row : Nat) : Nat :=
  (die / 2 * 80 + row) * 160 + die % 2 * 80 + (if column < spare then column else column - 1)

/-- Chooses the spare columns, and marks every other failing core unavailable. -/
def State.chooseSpares (s : State) (failing : List (Nat × Nat × Nat)) : State :=
  let failing := failing.filter fun (d, c, r) => d < 4 && c < 81 && r < 80
  (List.range 4).foldl (fun s d =>
    let mine := failing.filter fun (x, _, _) => x = d
    let (v, s) := s.draw
    let spare := spareColumn (mine.map fun (_, c, _) => c) v
    let s := { s with grid := { s.grid with spare := SMap.put s.grid.spare d spare } }
    (mine.filter fun (_, c, _) => c ≠ spare).foldl (fun s (_, c, r) =>
      s.updCore (coreAt d spare c r) fun x => { x with available := false }) s) s

/-! ### Stage 5 -/

/-- READY, or RECOVERY under profile 3: rings, extents and commands are accepted, and the profile's agents apply (17 R442, R446,
18 R459). The auto-merge condition is tested again (10 R287). -/
def State.goReady (s : State) : State :=
  let d := if s.prof.active = 3 then DeviceState.recovery else DeviceState.ready
  let ms := min 6000 ((s.time - s.pwr.startTime) * 2 / 235 / 1000)
  let s := (s.stageRow 4 none).stageRow 5 none
  let s : State := { s with pwr := { s.pwr with device := d, served := true, readyMs := ms }, mgmt := { s.mgmt with ring := .active } }
  ((s.writeMgmtBlock).applyAgents (s.profile s.prof.active)).autoMergeAll

/-- The work of a stage that ends without a failure. -/
def State.endStage (s : State) (r : StageResult) : State :=
  match s.pwr.device with
  | .boot => s.endBoot r
  | .calibrating => s.endCalibration r
  | .initialising => s.endMemory r
  | .selfTest => (s.chooseSpares r.failingCores).goReady
  | _ => s

end Sys2Proof.Machine
end

