-- ==== Sys2Proof/Machine/Resilience.lean ====
section
/-!
DEFINITION. Known-answer tests and the firmware watchdog (13 R388, R390).
-/

namespace Sys2Proof.Machine

open Sys2Proof

/-- Whether a core has run no kernel for a whole KAT period. -/
def State.katDue (s : State) (n : Nat) : Bool :=
  let c := s.core n
  c.run = .idle && c.available && c.lastRun + usToTicks (1000000 * s.val (dkey 0xA021 0)) ≤ s.time

/-- KAT_PERIOD: every core that has run no kernel for the whole period starts a known-answer test (13 R388); tests stop in Drowsy and
Dormant (17 Table 17-5). -/
def execKatPeriod (s : State) : Out :=
  .next <|
    if s.awake && s.pwr.served then
      ((List.range 25600).filter s.katDue).foldl (fun s n => s.updCore n fun c => { c with testing := true }) s
    else s

/-- KAT_DONE: a test ends; a core that fails is marked unavailable (13 R388, 08 R216). -/
def execKatDone (core : Nat) (pass : Bool) (s : State) : Out :=
  .next <|
    if !(s.core core).testing then s
    else
      let s := s.updCore core fun c => { c with testing := false, available := c.available && pass }
      if pass then s else (s.bump (dkey 0xA021 1) 1).logFree 0x0017 0 0 core

/-- MGMT_WATCHDOG_EXPIRY: the firmware has not signalled for MGMT_WDOG_MS, and restarts (13 R390). -/
def execMgmtWatchdogExpiry (s : State) : Out :=
  .next (if s.pwr.mgmtUp && !s.pwr.bootOnly && !s.mgmt.restarting then s.restartFirmware else s)

/-- FIRMWARE_RESTART_DONE: MR1 is extended with the image that runs; frames and ring requests are answered again (13 R390, 16 R431,
18 R472). Where no image had been accepted, stage 1 goes on to its end (16 R430). -/
def execFirmwareRestartDone (s : State) : Out :=
  .next <|
    if !s.mgmt.restarting then s
    else
      let s : State := { s with mgmt := { s.mgmt with restarting := false } }
      if s.pwr.bootOnly then
        let s := ({ s with pwr := { s.pwr with bootOnly := false } } : State).chooseImage
        if s.pwr.bootOnly then s else s.finishBoot
      else (s.extendMr 1 s.running.digest).writeMgmtBlock

end Sys2Proof.Machine
end

