-- ==== Sys2Proof/Machine/Translation.lean ====
section
/-!
DEFINITION. Translation commands (chapter 4): ASIDs and their windows, pointer conversion, fault batches and their
resolution, and invalidation.
-/

namespace Sys2Proof.Machine

open Sys2Proof

/-! ### Fault batches (04 R99, R100, R102) -/

/-- The device itself as the maker of an access to the fault ring, the trace buffer or its own structures. -/
def deviceWho : Who := { unit := 0, cls := 5, index := 0, cmdSeq := 0, tenant := 0, waiter := .device }

/-- Whether a range can be written now under an ASID without a fault (04 R102). -/
def State.writable (s : State) (asid va n : Nat) : Bool :=
  (s.asid? asid).isSome && (piecesOf va n).all fun (va, _) =>
    match s.mapOf asid va with
    | none => false
    | some m => !m.readOnly && match s.place (m.package.getD s.ownId) (m.address + (va - m.va)) with
      | .here la => (s.homeRefusal 0 la).isNone
      | .away _ _ => true
      | .dead => false

def State.ringAsid (s : State) : Nat := s.val (dkey 0x4011 2)
def State.ringVa (s : State) : Nat := s.val (dkey 0x4011 0)
def State.ctrlVa (s : State) : Nat := s.val (dkey 0x4011 1)

/-- The fault control block (04 Table 4-7). -/
def State.ctrlBlock (s : State) : List Byte :=
  leBytes 64 (pack [(s.tr.ringTail, 64), (s.tr.lastBatch, 16), (s.val (dkey 0x4012 0), 1)])

/-- Slots of the fault ring that batches not yet freed hold (04 R100). -/
def State.ringUsed (s : State) : Nat := ((s.tr.batches.filter (·.written)).map (·.records.length)).sum

/-- Whether a fault ring is set and a batch of `n` records can be written to it now (04 R102). -/
def State.batchFits (s : State) (n : Nat) : Bool :=
  s.ringVa ≠ 0 && s.ringUsed + n ≤ 16384 && s.writable s.ringAsid s.ctrlVa 64 &&
    (List.range n).all fun i => s.writable s.ringAsid (s.ringVa + (s.tr.ringTail + i) % 16384 * 32) 32

/-- The records of a batch as they stand: those of its faults that are still pending. -/
def State.batchNow (s : State) (b : Batch) : List PendingFault :=
  b.records.map fun f => (s.tr.faults.find? fun g => g.asid = f.asid && g.va / 2 ^ 16 = f.va / 2 ^ 16).getD f

/-- Writes the records of a batch to consecutive slots, LAST in the final one. -/
def writeFaults (asid ring tail : Nat) (l : List PendingFault) : Eng Unit := do
  match l with
  | [] => pure ()
  | f :: rest => do
    writeVa deviceWho asid (ring + tail % 16384 * 32) (leBytes 32 (f.bits rest.isEmpty))
    writeFaults asid ring (tail + 1) rest

/-- Writes a batch, and then the control block that covers it. -/
def writeBatch (b : Batch) : Eng Unit := do
  let s ← get
  let l := s.batchNow b
  writeFaults s.ringAsid s.ringVa s.tr.ringTail l
  modify fun s => { s with tr := { s.tr with ringTail := (s.tr.ringTail + l.length) % 2 ^ 64, lastBatch := b.number } }
  let s ← get
  writeVa deviceWho s.ringAsid s.ctrlVa s.ctrlBlock
  modify fun s =>
    let s := { s with tr := { s.tr with batches := s.tr.batches.map fun (x : Batch) =>
      if x.number = b.number then { x with records := l, written := true } else x } }
    let s := s.bump (dkey 0x4012 2) l.length
    if s.val (dkey 0x4011 3) < 2048 then s.raise (s.val (dkey 0x4011 3)) else s

/-- FAULT_OVERFLOW follows whether a batch is held; a change is written to the control block (04 R102, Table 4-7). -/
def State.setOverflow (s : State) (held : Bool) : State :=
  if s.val (dkey 0x4012 0) = bit held then s
  else
    let s := s.setVal (dkey 0x4012 0) (bit held)
    if s.ringVa ≠ 0 && s.writable s.ringAsid s.ctrlVa 64 then (writeVa deviceWho s.ringAsid s.ctrlVa s.ctrlBlock).state s else s

/-- Writes the batches that wait, oldest first, while each can be written; a batch behind one that is held is held too. -/
def State.writeBatches (s : State) (fuel : Nat) : State :=
  match fuel with
  | 0 => s
  | k + 1 =>
    match s.tr.batches.find? fun b => !b.written with
    | none => s.setOverflow false
    | some b =>
      if s.batchFits b.records.length then
        match (writeBatch b).go s with
        | (.ok _, s) => s.writeBatches k
        | (.error _, t) => { s with coh := t.coh, twin := t.twin, fab := t.fab }
      else s.setOverflow true

/-- Tries every batch that waits. -/
def State.retryBatches (s : State) : State := s.writeBatches (s.tr.batches.length + 1)

/-- FAULT_BATCH_CLOSE: a batch holds FAULT_BATCH_RECORDS records, or FAULT_BATCH_US have passed since its first: it is
written to the fault ring, or held (04 R99, R102). -/
def execFaultBatchClose (s : State) : Out :=
  .next <|
    let limit := s.val (dkey 0x4010 0)
    let l := (s.tr.faults.filter (·.batch.isNone)).take limit
    match l with
    | [] => s
    | first :: _ =>
      if l.length < limit && s.usSince first.time < s.val (dkey 0x4010 1) then s
      else
        let n := s.tr.nextBatch
        let mine := fun (f : PendingFault) => l.any fun g => g.asid = f.asid && g.va / 2 ^ 16 = f.va / 2 ^ 16
        let faults := s.tr.faults.map fun f => if mine f then { f with batch := some n } else f
        let b : Batch := { number := n, records := faults.filter mine, written := false, resolved := false }
        let s := { s with tr := { s.tr with faults, batches := s.tr.batches ++ [b], nextBatch := (n + 1) % 65536 } }
        let s := s.retryBatches
        if s.val (dkey 0x4012 0) = 1 && s.tr.batches.any fun b => b.number = n && !b.written then
          s.bump (dkey 0x4012 1) l.length
        else s

/-- FAULT_BATCH_RETRY: the device tries again to write the batches that are held (04 R102). -/
def execFaultBatchRetry (s : State) : Out :=
  .next (if s.tr.batches.any fun b => !b.written then s.retryBatches else s)

/-- A write to FAULT_RING_VA, FAULT_CTRL_VA or FAULT_RING_ASID (04 Table 4-12): the values outside the range are refused, and
a held batch is tried again (R102). -/
def State.writeFaultRing (s : State) (sub v : Nat) : MStatus × State :=
  let fits := match sub with
    | 0 => v < 2 ^ 57 && v % 2 ^ 16 = 0
    | 1 => v < 2 ^ 57 && v % 64 = 0
    | _ => (s.asid? v).any (·.tenant = 0)
  if !fits then (.range, s)
  else
    let s := s.setVal (dkey 0x4011 sub) v
    let s := if sub = 0 then { s with tr := { s.tr with ringTail := 0 } } else s
    (.ok, s.retryBatches)

/-- FAULT_RING_VA: the operator writes sub-entry 0, 1 or 2 of 0x4011 (04 R102). -/
def execFaultRingVa (sub : Nat) (value : BitVec 64) (s : State) : Out :=
  .next (if sub < 3 then s.manageData fun s => s.writeFaultRing sub value.toNat else s)

/-! ### RESOLVE_FAULTS (04 R101) -/

/-- What FAIL does to one waiting requester. -/
def State.failWaiter (s : State) (f : PendingFault) (w : Waiter) : State :=
  match w with
  | .slot n seq =>
    if (s.slot? n).any fun sl => sl.seq = seq && sl.opcode = 0x60 && sl.marks.headD 0 = 1 then
      s.updSlot n fun x => { x with cursor := Status.faultUnresolved.code }
    else s.failSeq seq .faultUnresolved
  | .table n => { s with emb := { s.emb with tables := SMap.upd s.emb.tables n fun x =>
      { x with replacing := x.replacing.map fun r => { r with status := r.status.join .faultUnresolved } } } }
  | .index n => { s with idx := { s.idx with indexes := SMap.upd s.idx.indexes n fun x =>
      { x with failure := some .faultUnresolved, buildStarted := true } } }
  | .ring n => s.updRing n fun r => { r with fetchWait := .failed }
  | .core n => s.coreFaulted n f.va
  | .agent _ => { s with coh := { s.coh with agentAnswer := some { address := f.va, status := 0x46, data := [] } } }
  | .cq n => s.cqError n
  | .status n => (s.updRing n fun r => { r with statusDue := false }).ringError n 4
  | .device =>
    let n := s.cnt.staging.length - (s.cnt.staging.drop 1).length
    { s with cnt := { s.cnt with staging := s.cnt.staging.drop 1 } }.bump (dkey 0xB020 9) n
  | .track _ _ => s
  | .part p t => match s.held? p t with
    | some x => (s.releaseUnits (2 ^ 64 + p * 2 ^ 18 + t)).reply x.packet (plainHead (packetHead x.packet) .faultUnresolved) [] []
    | none => s
  | .model k => match SMap.look s.models k with
    | some m => (stopModel k { m with inFlight := [] } .faultUnresolved (m.inFlight.headD m.ready % m.layerCount)).state s
    | none => s

/-- Resolves one record: the fault is pending no more; with FAIL its requesters are told (04 R101). -/
def State.resolveRecord (s : State) (f : PendingFault) (fail : Bool) : State :=
  let same := fun (g : PendingFault) => g.asid = f.asid && g.va / 2 ^ 16 = f.va / 2 ^ 16 && g.batch = f.batch
  match s.tr.faults.find? same with
  | none => s
  | some g =>
    let s := { s with tr := { s.tr with faults := s.tr.faults.filter fun x => !same x } }
    if fail then g.waiters.foldl (fun s w => s.failWaiter g w) s else s

/-- Slots of the oldest batches that are resolved become free (04 R100). -/
def freeBatches (l : List Batch) : List Batch := l.dropWhile (·.resolved)

/-- RESOLVE_FAULTS (04 R101). -/
def execResolveFaults (slot : Nat) (s : State) : Out :=
  .next (runSlot 0x32 slot (fun sl => do
    let s ← get
    match s.tr.batches.find? fun b => b.number = sl.f 128 16 && b.written && !b.resolved with
    | none => failE .badDescriptor
    | some b => do
      let s := (b.records.zipIdx).foldl (fun s (f, i) => s.resolveRecord f (bitOf (sl.f 192 64) i)) s
      let s := { s with tr := { s.tr with batches := freeBatches (s.tr.batches.map fun (x : Batch) =>
        if x.number = b.number then { x with resolved := true } else x) } }
      set s.retryBatches
      pure (.ok, 0, 0)) s)

/-! ### INVALIDATE_ASID (04 R104) -/

/-- Whether an access translated under an ASID has not yet taken its place in home order. -/
def State.asidBusy (s : State) (asid self : Nat) : Bool :=
  s.grid.cores.any (fun (_, c) => c.asid = asid && c.run ≠ .idle && c.tracker.any fun (_, t) => t.kind ≠ .writeBack) ||
    s.fab.tags.any fun (_, q) => match q.purpose with
      | .slotRead n | .slotPart n | .slotAtomic n => n ≠ self && (s.slot? n).any (·.asid = asid)
      | .coreRead n | .coreAtomic n => (s.core n).asid = asid
      | .ringRead n | .ringWrite n => (s.ring? n).any (·.asid = asid)
      | .cqWrite n => (s.cq? n).any (·.asid = asid)
      | .modelRead k | .modelWrite k => (SMap.look s.models k).any (·.asid = asid)
      | .tableRead k | .tableWrite k => (SMap.look s.emb.tables k).any (·.asid = asid)
      | .indexRead k | .indexWrite k => (SMap.look s.idx.indexes k).any (·.asid = asid)
      | _ => false

/-- INVALIDATE_ASID: every translation of the ASID is dropped at once; the command completes when every access translated
before has taken its place (04 R104). -/
def execInvalidateAsid (slot : Nat) (s : State) : Out :=
  .next (runSlot 0x33 slot (fun sl => do
    let s ← get
    let a := sl.id 128 16
    needE (s.asid? a).isSome .badDescriptor
    if sl.cursor = 0 then do
      set { s with tr := { s.tr with tcache := s.tr.tcache.filter fun (_, x, _) => x ≠ a } }
      setCursor slot 1
    else pure ()
    holdE (!(← get).asidBusy a slot)
    pure (.ok, 0, 0)) s)

/-! ### CONVERT_POINTERS (04 R89) -/

/-- The other view of one entry, if it lies in the source view (04 R89). -/
def convertEntry (a : Asid) (back : Bool) (v : Nat) : Option Nat :=
  let lo := if back then a.devWin else a.hostWin
  let new := if back then a.hostWin else a.devWin
  if v ≠ 0 && v < 2 ^ 57 && lo ≤ v && v < lo + a.winSize * 2 ^ 16 then some (v - lo + new) else none

/-- CONVERT_POINTERS (04 R89). -/
def execConvertPointers (slot : Nat) (s : State) : Out :=
  .next (runSlot 0x34 slot (fun sl => do
    let va := sl.f 128 57
    let n := sl.f 192 32
    needE (va % 8 = 0 && 1 ≤ n && n ≤ 16777216) .badDescriptor
    match (← get).asid? sl.asid with
    | none => failE .notPermitted
    | some a => do
      needE (a.winSize ≠ 0) .badDescriptor
      let w := sl.who slot 5
      units w slot n fun i => do
        let at_ := va + i * (8 * max (sl.f 224 8) 1)
        match convertEntry a (sl.f 232 1 = 1) (← readNat w sl.asid at_ 8) with
        | none => pure ()
        | some v => do
          writeVa w sl.asid at_ (leBytes 8 v)
          setCount slot ((← getSlot slot).count + 1)
      pure (.ok, (← getSlot slot).count, 0)) s)

/-! ### ASID_CONFIG (04 R86) -/

/-- Whether the window fields are well-formed: bases aligned, zero without a window, and the two ranges disjoint. -/
def windowOk (host dev size : Nat) : Bool :=
  host % 2 ^ 16 = 0 && dev % 2 ^ 16 = 0 &&
    if size = 0 then host = 0 && dev = 0 else !rangesMeet (host, size * 2 ^ 16) (dev, size * 2 ^ 16)

/-- The state with an ASID set, mirrored as metadata. -/
def State.setAsid (s : State) (n slot : Nat) (a : Option Asid) : State :=
  ({ s with tr := { s.tr with asids := match a with
      | some a => SMap.put s.tr.asids n a
      | none => SMap.del s.tr.asids n } }).mirrorMeta (some slot)

/-- The ASID that a command's window fields describe. -/
def Slot.newAsid (sl : Slot) : Asid :=
  { tenant := sl.f 144 12, hostWin := sl.f 160 57, devWin := sl.f 224 57, winSize := sl.f 288 32 }

/-- Whether a command's window fields are accepted. -/
def Slot.windowOk (sl : Slot) : Bool := Machine.windowOk (sl.f 160 57) (sl.f 224 57) (sl.f 288 32)

/-- ASID_CREATE: ASID_CONFIG OP 0 (04 R86). -/
def execAsidCreate (slot : Nat) (s : State) : Out :=
  .next (runSlotIf 0x35 slot (fun sl => sl.f 156 2 = 0) (fun sl => do
    let s ← get
    needE ((s.asid? (sl.id 128 16)).isNone && sl.windowOk) .badDescriptor
    set (s.setAsid (sl.id 128 16) slot (some sl.newAsid))
    pure (.ok, 0, 0)) s)

/-- ASID_SET_WINDOW: ASID_CONFIG OP 1 (04 R86). -/
def execAsidSetWindow (slot : Nat) (s : State) : Out :=
  .next (runSlotIf 0x35 slot (fun sl => sl.f 156 2 = 1) (fun sl => do
    let s ← get
    match s.asid? (sl.id 128 16) with
    | none => failE .badDescriptor
    | some a => do
      needE (a.tenant = sl.f 144 12 && sl.windowOk) .badDescriptor
      set (s.setAsid (sl.id 128 16) slot (some sl.newAsid))
      pure (.ok, 0, 0)) s)

/-- Whether an ASID still holds a mapping, a pending fault or a registered ring (04 R86). -/
def State.asidHeld (s : State) (n : Nat) : Bool :=
  s.tr.maps.any (fun m => m.asid = n) || s.tr.faults.any (fun f => f.asid = n) ||
    s.fe.rings.any (fun (_, r) => r.asid = n) || s.fe.cqs.any (fun (_, c) => c.asid = n)

/-- ASID_DESTROY: ASID_CONFIG OP 2 (04 R86). -/
def execAsidDestroy (slot : Nat) (s : State) : Out :=
  .next (runSlotIf 0x35 slot (fun sl => sl.f 156 2 = 2) (fun sl => do
    let s ← get
    match s.asid? (sl.id 128 16) with
    | none => failE .badDescriptor
    | some a => do
      needE (a.tenant = sl.f 144 12 && !s.asidHeld (sl.id 128 16)) .badDescriptor
      let s := s.setAsid (sl.id 128 16) slot none
      set { s with tr := { s.tr with tcache := s.tr.tcache.filter fun (_, x, _) => x ≠ sl.id 128 16 } }
      pure (.ok, 0, 0)) s)

end Sys2Proof.Machine
end

