-- ==== Sys2Proof/Machine/Power.lean ====
section
/-!
DEFINITION. Power, resets, profiles and power states (chapter 17, 19 R484 to R494).
-/

namespace Sys2Proof.Machine

open Sys2Proof

/-! ### Pins (19 R484) -/

/-- The level of READY. -/
def State.readyPin (s : State) : Bool := s.pwr.device = .ready

/-- Whether FAULT_N is low: FAILED, in the sequences of R488 and R491, and while a rail fails. -/
def State.faultLow (s : State) : Bool :=
  s.pwr.device = .failed || s.pwr.supply = .holdup || s.pwr.supply = .railFailed || s.pwr.supply = .tripped

/-- Whether PERST_N of a CX port is low: until stage 2 has ended, and while its role disables the port (19 R481). -/
def State.perstLow (s : State) (cx : Nat) : Bool :=
  s.pwr.device = .resetting || s.val (dkey 0x3040 cx) = 2 || !((SMap.look s.pwr.stages 2).any (·.ok))

/-! ### Resets (17 R448 to R450, R455) -/

/-- A cold reset strikes: it runs every stage from power-good on; rails that are off come up again. -/
def State.coldReset (s : State) (cause : Nat) : State :=
  let t := s.clearCold
  let supply := if s.pwr.supply = .tripped || s.pwr.supply = .railFailed then Supply.rising else s.pwr.supply
  { t with
    twin := { t.twin with announcedAbsence := false }
    pwr := { t.pwr with device := .resetting, mgmtUp := false, cause, cold := true, supply } }

/-- A warm reset strikes: the management firmware and the root PLL go on, the RWP values of the active profile apply, and stage 2
begins (17 R448). Where the running image no longer meets R430, the boot code looks for one that does (16 R434). -/
def State.warmReset (s : State) (cause : Nat) : State :=
  let s := s.clearVolatile.loadProfile
  let s : State := { s with pwr := { s.pwr with
    device := .calibrating, cold := false, cause, stages := s.pwr.stages.filter fun (k, _) => k = 1 } }
  if s.bootable s.running then s
  else
    let s := s.chooseImage
    if s.pwr.bootOnly then s.enter .boot else s.extendMr 1 s.running.digest

/-- A cold or warm reset, now; with a rail off every reset is a cold one (19 R487, R491). -/
def State.resetNow (s : State) (cold : Bool) (cause : Nat) : State :=
  if cold || s.pwr.supply ≠ .good then s.coldReset cause else s.warmReset cause

/-- A reset that is triggered: a package asleep wakes first (17 R455), and a PAIRED package announces a warm reset to its twin and
stops fetching (17 R450). -/
def State.startReset (s : State) (cold : Bool) (cause : Nat) : State :=
  if !s.awake then ({ s with pwr := { s.pwr with pendingReset := some (cold, cause) } } : State).wake
  else if !cold && s.pwr.supply = .good && s.twin.pair = .paired then
    { s with pwr := { s.pwr with pendingReset := some (cold, cause) }, twin := { s.twin with awaitingTakeover := some s.time } }
  else s.resetNow cold cause

/-- Whether a reset may be requested: none runs or waits, and after a trip no sensor reads above its maximum (19 R491). -/
def State.mayReset (s : State) (hot : List Nat) : Bool :=
  s.pwr.pendingReset.isNone && s.pwr.supply ≠ .holdup && s.pwr.device ≠ .resetting && !(s.pwr.supply = .tripped && !hot.isEmpty)

/-- A reset as a management write: it is answered, and starts. -/
def State.requestReset (s : State) (cold : Bool) (cause : Nat) (hot : List Nat) : MStatus × State :=
  if s.mayReset hot then (.ok, s.startReset cold cause) else (.state, s)

/-- COLD_RESET_REQUEST: RESET_REQUEST written with 2 (17 R448). `hot` lists the sensors above their maximum. -/
def execColdResetRequest (hot : List Nat) (s : State) : Out := .next (s.manage false (·.requestReset true 2 hot))

/-- WARM_RESET_REQUEST: RESET_REQUEST written with 1 (17 R448). -/
def execWarmResetRequest (hot : List Nat) (s : State) : Out := .next (s.manage false (·.requestReset false 3 hot))

/-- ANNOUNCE_WAIT_END: the TAKEOVER notice has come, or 4 ms have passed since the announcement: FENCED, and only then the reset
(17 R450). -/
def execAnnounceWaitEnd (s : State) : Out :=
  .next <| match s.twin.awaitingTakeover, s.pwr.pendingReset with
  | some t, some (cold, cause) =>
    if s.twin.pair = .fenced || s.time ≥ t + usToTicks 4000 then
      let s := s.fence
      ({ s with twin := { s.twin with awaitingTakeover := none, announcedAbsence := true } } : State).resetNow cold cause
    else s
  | _, _ => s

/-- RESET_N changes its level (19 R484): low for 1 µs or longer starts a cold reset, and holds every die in reset; at its release
start-up begins, or, after a trip, waits for the sensors (19 R491). It is ignored in the hold-up sequence (19 R488). -/
def execResetN (level : Bool) (hot : List Nat) (s : State) : Out :=
  .next <|
    if level = s.pwr.resetPin then s
    else
      let supply := s.pwr.supply
      let s : State := { s with pwr := { s.pwr with resetPin := level } }
      if supply = .off || supply = .holdup then s
      else if !level then
        let s := s.coldReset 1
        { s with pwr := { s.pwr with supply } }
      else if supply = .tripped then
        match hot with
        | sensor :: _ => ({ s with pwr := { s.pwr with mgmtUp := true } } : State).failStage 5 sensor
        | [] => { s with pwr := { s.pwr with supply := .rising } }
      else if supply = .railFailed then { s with pwr := { s.pwr with supply := .rising } }
      else s

/-! ### The input and the rails (19 R487, R488, R491) -/

/-- INPUT_POWER_UP: the input comes into range, and the rails begin to come up (19 R487). A hold-up sequence runs to its end
first (19 R488). -/
def execInputPowerUp (s : State) : Out :=
  .next <|
    let s : State := { s with pwr := { s.pwr with input := true } }
    if s.pwr.supply = .off then { s with pwr := { s.pwr with supply := .rising, cause := 0, device := .boot } } else s

/-- RAIL_TIMEOUT: a rail fails to regulate within 50 ms: every other rail stays off, and the management port answers FAILED
(19 R487). -/
def execRailTimeout (rail : Nat) (s : State) : Out :=
  .next <|
    if s.pwr.supply = .rising then
      ({ s with pwr := { s.pwr with supply := .railFailed, mgmtUp := true, cause := s.pwr.cause } } : State).failStage 1 rail
    else s

/-- POWER_GOOD: the input has stood for 10 ms and every rail regulates, or RESET_N is released; stage 1 begins, and the profile
pins are sampled (17 R442, R446, 19 R484, R487). -/
def execPowerGood (prof : BitVec 2) (s : State) : Out :=
  .next <|
    if s.pwr.input && s.pwr.resetPin && (s.pwr.supply = .rising || (s.pwr.supply = .good && s.pwr.device = .resetting)) then
      { s with
        time := 0
        prof := { s.prof with pins := prof.toNat }
        pwr := { s.pwr with supply := .good, tripped := false, device := .boot, cold := true, startTime := 0, stages := [] } }
    else s

/-- STAGE_END: a start-up stage ends and the next begins, up to READY, or bring-up fails (17 R442, R444). Memory expanders are
enumerated from the end of stage 2 on (17 R442, 02 R38). -/
def execStageEnd (result : StageResult) (s : State) : Out :=
  .next <|
    let k := s.pwr.device.stage
    if k = 0 || s.pwr.supply ≠ .good || !s.pwr.resetPin || s.pwr.bootOnly then s
    else match result.failedUnit with
      | some u => s.failStage k u
      | none =>
        let s := s.endStage result
        if k = 1 then s else result.expanders.foldl State.addExpander s

/-- The hold-up sequence begins: the twin is told, without a wait, and nothing that a cold reset drops remains (19 R488 steps 1
to 3). -/
def State.holdUp (s : State) : State :=
  let t := s.clearCold
  { t with
    twin := { t.twin with announcedAbsence := s.twin.pair = .paired || s.twin.announcedAbsence }
    pwr := { t.pwr with device := .resetting, supply := .holdup } }

/-- LOSS_OF_INPUT: the input is below 38 V, or above 80 A (19 R488). -/
def execLossOfInput (s : State) : Out :=
  .next <|
    let s : State := { s with pwr := { s.pwr with input := false } }
    match s.pwr.supply with
    | .good => s.holdUp
    | .holdup => s
    | .off | .rising | .railFailed | .tripped =>
      { s with pwr := { s.pwr with supply := .off, mgmtUp := false, device := .boot, tripped := false } }

/-- THERMAL_TRIP: a sensor reaches its trip temperature; the steps of R488 run, and the package ends FAILED (19 R491). -/
def execThermalTrip (sensor : Nat) (s : State) : Out :=
  .next <|
    if s.pwr.supply = .good then
      let s := s.holdUp
      ({ s with pwr := { s.pwr with tripped := true } } : State).stageRow 5 (some sensor)
    else s

/-- Programs one buffered page of a stack into a block; none where the block does not take it. -/
def Stack.flushPage (x : Stack) (block : Nat) : Option Stack :=
  match x.buffer with
  | [] => none
  | (page, _, stream) :: rest => if x.accepts block stream 1 then some { x.program block stream [page] with buffer := rest } else none

/-- Programs every buffered page of the stacks, in order, into the blocks of a list. -/
def flushAll (fuel : Nat) (m : SMap Stack) (blocks : List Nat) : Option (SMap Stack) :=
  match fuel with
  | 0 => none
  | f + 1 =>
    match m.find? (fun (_, x) => !x.buffer.isEmpty), blocks with
    | none, _ => some m
    | some (k, x), b :: rest => (x.flushPage b).bind fun x => flushAll f (SMap.put m k x) rest
    | some _, [] => none

/-- HOLDUP_FLUSH_DONE: every write that the FTL has accepted is flushed, page by page into the blocks of the list; the rails go
off. After a trip the management rails stay, and the package is FAILED; if the input has returned, it starts again (19 R488, R491). -/
def execHoldupFlushDone (blocks : List Nat) (s : State) : Out :=
  .next <|
    if s.pwr.supply ≠ .holdup then s
    else match flushAll (blocks.length + 1) s.flash.flashStacks blocks with
      | none => s
      | some m =>
        let s : State := { s with flash := { s.flash with flashStacks := m } }
        if s.pwr.tripped && s.pwr.input then { s with pwr := { s.pwr with supply := .tripped, device := .failed, mgmtUp := true } }
        else
          let supply := if s.pwr.input then Supply.rising else .off
          { s with pwr := { s.pwr with supply, tripped := false, mgmtUp := false, device := .boot, cause := 0 } }

/-- REFCLK_LOSS: the selected reference is lost; the package goes over to the root oscillator until the next cold reset, and the
row of stage 1 records the time (19 R494). -/
def execRefclkLoss (s : State) : Out :=
  .next (if s.pwr.refclk && s.pwr.refLost.isNone then { s with pwr := { s.pwr with refLost := some s.time } } else s)

/-- MODULE_LOSS: a UCIe module fails its repair and is retired (05 R110). -/
def execModuleLoss (site module : Nat) (s : State) : Out :=
  .next (if site < 2 && module < 8 then { s with pwr := { s.pwr with retired := insertNat s.pwr.retired (site * 8 + module) } } else s)

/-! ### Tenant reset (17 R451) -/

/-- Requesters that wait on a fault of a tenant are released as by FAIL; the records stay (17 R451 step 4). -/
def State.releaseFaults (s : State) (t : Nat) : State :=
  let mine := s.tr.faults.filter fun f => f.tenant = t
  let s := { s with tr := { s.tr with faults := s.tr.faults.map fun f => if f.tenant = t then { f with waiters := [] } else f } }
  mine.foldl (fun s f => f.waiters.foldl (fun s w => s.failWaiter f w) s) s

/-- The long operations of a tenant end as at a warm reset (13 Table 13-10). -/
def State.endLong (s : State) (t : Nat) : State :=
  let s := s.idx.indexes.foldl (fun s (k, x) => if x.tenant = t && x.merge ≠ .idle then s.discardMerge k x .aborted else s) s
  let mine := s.models.filter fun (_, m) => m.tenant = t
  let s := mine.foldl (fun s (k, m) => if m.stopped then s else (stopModel k { m with unload := true } .aborted none).state s) s
  { s with
    models := s.models.filter fun (_, m) => m.tenant ≠ t
    ctx := { s.ctx with runs := s.ctx.runs.filter fun (_, r) => (SMap.look s.ctx.ledger r.context).map (·.tenant) ≠ some t } }

/-- The outcome of a write to TENANT_RESET (17 R451 steps 1 to 4): refused before READY, and while one runs. -/
def State.tenantReset (s : State) (t : Nat) : MStatus × State :=
  if !s.dataPath || s.pwr.tenantBusy.isSome then (.state, s)
  else if t ≥ 4096 then (.range, s)
  else
    let rings := s.fe.rings.filter fun (_, r) => r.tenant = t && (r.state = .active || r.state = .step)
    let s := rings.foldl (fun s (n, r) => s.quiesce n r) s
    let kernels := SMap.keys (s.fe.slots.filter fun (n, x) => x.tenant = t && x.stage ≠ .finished &&
      ((SMap.look s.grid.launches n).map (·.claimed)).getD false)
    let s := kernels.foldl (fun s n => s.haltLaunch n 0x0D) s
    let s := s.endLong t
    let gone := SMap.keys (s.fe.slots.filter fun (n, x) => x.tenant = t && x.stage ≠ .finished && !kernels.contains n)
    let s := gone.foldl (fun s n => (s.killLaunch n).failSlot n .aborted) s
    let s := s.releaseFaults t
    (.ok, { s with pwr := { s.pwr with tenantBusy := some t } })

/-- TENANT_RESET (17 R451). -/
def execTenantReset (tenant : BitVec 16) (s : State) : Out := .next (s.manage false (·.tenantReset tenant.toNat))

/-- Releases every pin of a tenant. -/
def State.releasePins (s : State) (t : Nat) : State :=
  let mine := s.emb.pins.filter fun (_, p) => p.tenant = t
  if mine.isEmpty then s
  else
    let s := mine.foldl (fun s (k, p) => match s.table? p.table with
      | some x => if p.stale then s else s.dropHold k p.table x
      | none => s) s
    ({ s with emb := { s.emb with pins := s.emb.pins.filter fun (_, p) => p.tenant ≠ t } } : State).mirrorMeta none

/-- TENANT_RESET_COMPLETE: every kernel and command of the tenant has ended: its pins are released, and its rings are NORMAL (17
R451 step 5). -/
def execTenantResetComplete (s : State) : Out :=
  .next <| match s.pwr.tenantBusy with
  | none => s
  | some t =>
    if s.fe.slots.any (fun (_, x) => x.tenant = t && x.stage ≠ .finished) ||
        s.grid.cores.any (fun (_, c) => c.run ≠ .idle && c.tenant = t) then s
    else
      let s := s.releasePins t
      { s with
        fe := { s.fe with rings := SMap.each s.fe.rings fun _ r => if r.tenant = t then { r with mode := .normal } else r }
        pwr := { s.pwr with tenantBusy := none } }

/-! ### Core reset (17 R452) -/

/-- A core after core reset: what a kernel's end still needs, and copies and fetches issued, which land. -/
def Core.reset (c : Core) : Core :=
  { Core.initial with
    run := c.run, slot := c.slot, asid := c.asid, tenant := c.tenant, pc := c.pc, startTime := c.startTime, launchSeq := c.launchSeq
    x0 := c.x0, y0 := c.y0, w := c.w, h := c.h, argVa := c.argVa, imageVa := c.imageVa, exc := c.exc
    tracker := c.tracker.filter fun (_, t) => t.kind ≠ TrackKind.store && t.kind ≠ TrackKind.writeBack, trackOrder := c.trackOrder, sentPrior := c.sentPrior
    available := c.available, testing := c.testing, lastRun := c.lastRun }

/-- The outcome of a write to CORE_RESET (17 R452): an unavailable core is not reset. A packet that the core was sending is
aborted (08 R238). -/
def State.coreReset (s : State) (n : Nat) : MStatus × State :=
  if !s.dataPath then (.state, s)
  else if n ≥ 25600 then (.range, s)
  else if !(s.core n).available then (.ok, s)
  else
    let (i, s) := s.instrAt n
    let s := if (s.core n).run = .running then s.noteExc n 0x0D 0 false i else s
    let cut := (s.grid.queues.filter fun (_, q) => q.assembling.any fun k => k / 64 = n).length
    let s := (s.bump (dkey 0x6002 2) cut).tenantChange n fun _ => true
    let s := (List.range 4).foldl (fun s q => s.emptyQueue (n * 4 + q)) s
    let s := s.zeroRange (scratchBase n) 0x2_0000
    (.ok, (s.updCore n Core.reset).coreProgress n)

/-- CORE_RESET (17 R452). -/
def execCoreReset (core : BitVec 16) (s : State) : Out := .next (s.manage false (·.coreReset core.toNat))

/-! ### Profiles (17 R445 to R447) -/

/-- The outcome of a switch to profile `p`. -/
def State.switchProfile (s : State) (p : Nat) : MStatus × State := if p < 4 then (.ok, s.selectProfile p) else (.range, s)

/-- PROFILE_SELECT: a value of 0x00 to 0x03 switches (17 R447); 0x80 to 0x83 are PROFILE_SELECT_RESET. -/
def execProfileSelect (profile : BitVec 8) (s : State) : Out :=
  .next (if 0x80 ≤ profile.toNat && profile.toNat < 0x84 then s else s.manage false (·.switchProfile profile.toNat))

/-- The outcome of a switch that starts a warm reset; after a trip it is refused as a reset is (19 R491). -/
def State.switchReset (s : State) (v : Nat) (hot : List Nat) : MStatus × State :=
  if s.mayReset hot then (.ok, (s.selectProfile (v - 0x80)).startReset false 4) else (.state, s)

/-- PROFILE_SELECT_RESET: a value of 0x80 to 0x83 switches and then starts a warm reset (17 R447). -/
def execProfileSelectReset (profile : BitVec 8) (hot : List Nat) (s : State) : Out :=
  .next (if 0x80 ≤ profile.toNat && profile.toNat < 0x84 then s.manage false (·.switchReset profile.toNat hot) else s)

/-- The outcome of a write to PROFILE_COPY: a copy into the active profile acts as a switch to it (17 R445). -/
def State.copyProfile (s : State) (v : Nat) : MStatus × State :=
  let from' := v % 256
  let into := v / 256
  if from' ≥ 4 || into ≥ 3 then (.range, s)
  else
    let s := s.setProfile into (s.profile from')
    (.ok, if into = s.prof.active then s.applyProfile else s)

/-- PROFILE_COPY (17 R445). -/
def execProfileCopy (value : BitVec 16) (s : State) : Out := .next (s.manage false (·.copyProfile value.toNat))

/-! ### Power states (17 R453 to R455) -/

/-- The outcome of a write to POWER_REQUEST (17 R454). -/
def State.powerRequest (s : State) (v : Nat) : MStatus × State :=
  if v < 3 then (.ok, (s.storeVal (dkey 0x2010 1) v).setLive (dkey 0x2010 1) v) else (.range, s)

/-- POWER_REQUEST_ACTIVE: the armed state is disarmed, and the package wakes (17 R454, R455). -/
def execPowerRequestActive (s : State) : Out := .next (s.manage false (·.powerRequest 0))

def execPowerRequestDrowsy (s : State) : Out := .next (s.manage false (·.powerRequest 1))

def execPowerRequestDormant (s : State) : Out := .next (s.manage false (·.powerRequest 2))

/-- DROWSY_IDLE_EXPIRY: no slot has been held for DROWSY_IDLE_MS: Drowsy is armed (17 R454). -/
def execDrowsyIdleExpiry (s : State) : Out :=
  .next (if s.val (dkey 0x2010 2) ≠ 0 && s.fe.slots.isEmpty && s.pwr.armed = 0 then { s with pwr := { s.pwr with armed := 1 } } else s)

/-- Whether the armed state may be entered (17 R454). -/
def State.maySleep (s : State) : Bool :=
  s.awake && s.pwr.armed ≠ 0 && s.pwr.served && (s.pwr.device = .ready || s.pwr.device = .recovery) && s.pwr.pendingReset.isNone &&
    s.fe.slots.isEmpty && s.grid.cores.all (fun (_, c) => c.run = .idle) && s.twin.unacked.isEmpty &&
    !(s.pwr.armed = 2 && (s.twin.pair = .joining || s.twin.pair = .shadow || s.twin.pair = .resilvering))

/-- POWER_STATE_ENTRY: the package enters the armed state; in Dormant every UP port keeps one lane (17 R453, R454, 12 R352). -/
def execPowerStateEntry (s : State) : Out :=
  .next <|
    if s.maySleep then
      let s : State := { s with pwr := { s.pwr with state := s.pwr.armed, waking := none } }
      if s.pwr.state = 2 then (List.range s.fabricPorts).foldl State.enterLow s else s
    else s

/-- WAKE_COMPLETE: the package is Active again; each lease restarts, and a reset that waited runs (17 R455). -/
def execWakeComplete (s : State) : Out :=
  .next <| match s.pwr.waking with
  | none => s
  | some t =>
    let us := min 2000 (s.usSince t)
    let s := if s.pwr.state = 2 then (List.range s.fabricPorts).foldl State.exitLow s else s
    let s := (s.bump (dkey 0x2010 3) 1).setVal (dkey 0x2010 4) us
    let reset := s.pwr.pendingReset
    let s : State := { s with
      fe := { s.fe with leases := SMap.each s.fe.leases fun _ _ => s.time }
      pwr := { s.pwr with state := 0, waking := none, pendingReset := none, armed := s.val (dkey 0x2010 1) } }
    match reset with
    | some (cold, cause) => s.startReset cold cause
    | none => s

end Sys2Proof.Machine
end

