-- ==== Sys2Proof/Machine/Values.lean ====
section
/-!
DEFINITION. What reads of the dictionary return (18 R460, R473, R474 and the entry tables): values that the device holds as
other state, and the rows of its tables.
-/

namespace Sys2Proof.Machine

open Sys2Proof

/-! ### Waits (15 R409) -/

/-- A wait counted in TCLK, in the unit of its entry: CCLK, NCLK, nanoseconds or microseconds. -/
def stallIn (key ticks : Nat) : Nat :=
  if key = dkey 0x6100 1 || key = dkey 0x6100 2 then ticks * 8
  else if key = dkey 0x6002 4 then ticks * 16
  else if key / 256 = 0x5037 || key = dkey 0xA002 1 then ticks * 2000 / 235
  else ticksToUs ticks

/-- The value of an entry that the device counts. -/
def State.counted (s : State) (key : Nat) : Nat := (s.val key + stallIn key (SMap.get s.stall key 0)) % 2 ^ 64

/-! ### Values held as other state -/

/-- The code of DEVICE_STATE (17 Table 17-6). -/
def DeviceState.code (d : DeviceState) : Nat :=
  match d with
  | .boot => 0 | .calibrating => 1 | .initialising => 2 | .selfTest => 3 | .ready => 4 | .recovery => 5 | .failed => 6
  | .resetting => 7 | .fenced => 8

/-- MGMT_RING_STATE (18 Table 18-10). -/
def State.ringStateCode (s : State) : Nat := if s.mgmt.ring = .absent then 3 else s.mgmtState

/-- Objects of this package in a map that the lost twin's share (13 R366). -/
def ownCount {α : Type} (m : SMap α) (bits : Nat) : Nat := (SMap.below m (twinSpace bits)).length

/-- Values that the device holds as other state, by key. -/
def heldValues : List (Nat × (State → Nat)) := [
  (dkey 0x1000 2, fun s => pack [(s.asm.hbm, 8), (s.asm.flash, 8), (s.asm.ports, 8), (s.asm.procs, 8)]),
  (dkey 0x1000 4, fun s => s.running.release),
  (dkey 0x1000 5, fun s => s.running.svn),
  (dkey 0x1001 0, fun s => s.pwr.device.code),
  (dkey 0x1001 2, fun s => s.pwr.readyMs),
  (dkey 0x1002 3, fun s => s.pwr.cause),
  (dkey 0x1002 4, fun s => s.pwr.tenantBusy.getD 0xFFFF),
  (dkey 0x1101 0, fun s => s.ringStateCode),
  (dkey 0x1101 1, fun s => s.mgmtBase),
  (dkey 0x2000 0, fun s => s.prof.active),
  (dkey 0x2000 1, fun s => s.prof.pins),
  (dkey 0x2000 3, fun s => bit s.profilePending),
  (dkey 0x2000 4, fun s => bit s.prof.fallback),
  (dkey 0x2010 0, fun s => s.pwr.state),
  (dkey 0x4000 0, fun s => ownCount s.tr.asids 16)] ++ [
  (dkey 0x5000 0, fun s => s.enabledAgents.length),
  (dkey 0x5010 2, fun s => s.coh.watches.length),
  (dkey 0x5021 3, fun s => (SMap.below s.rlc.regions regionSpace).length),
  (dkey 0x5030 0, fun s => s.fab.id),
  (dkey 0x5030 1, fun s => bit s.fab.composed),
  (dkey 0x5036 0, fun s => s.fab.tags.length),
  (dkey 0x6000 1, fun s => 25600 - (s.grid.cores.filter fun (_, c) => !c.available).length),
  (dkey 0x6001 1, fun s => (s.grid.launches.filter fun (_, l) => l.claimed).length),
  (dkey 0x6002 0, fun s => s.grid.channels.length),
  (dkey 0x7000 0, fun s => ownCount s.idx.indexes 10),
  (dkey 0x8000 0, fun s => ownCount s.emb.tables 12),
  (dkey 0x8005 0, fun s => ownCount s.emb.pins 16),
  (dkey 0x9001 1, fun s => s.sched.limits.length),
  (dkey 0x9004 0, fun s => s.reserveTotal)] ++ [
  (dkey 0x9101 0, fun s => (SMap.below s.fe.rings resumedRing).length),
  (dkey 0x9101 1, fun s => (SMap.below s.fe.cqs resumedRing).length),
  (dkey 0x9102 0, fun s => s.fe.slots.length),
  (dkey 0xA000 0, fun s => s.twin.pair.number),
  (dkey 0xA000 1, fun s => s.twin.twinId),
  (dkey 0xA010 1, fun s => s.ctx.ledger.length),
  (dkey 0xA050 1, fun s => s.log.newest),
  (dkey 0xA050 2, fun s => s.log.lost),
  (dkey 0xB001 1, fun s => s.cnt.pages.length),
  (dkey 0xB030 0, fun s => s.time),
  (dkey 0xB041 1, fun s => (s.grid.cores.filter fun (_, c) => c.dbg ≠ .running).length),
  (dkey 0xC000 0, fun s => bit !s.sec.identityOk),
  (dkey 0xC001 3, fun s => s.sec.rollback),
  (dkey 0xC001 4, fun s => s.sec.revoked.toNat),
  (dkey 0xC003 0, fun s => s.sec.witness.getD 0),
  (dkey 0xC004 1, fun s => s.sec.attests)]

/-- The value of a number entry as a read returns it. -/
def State.number (s : State) (entry sub : Nat) : Nat :=
  match heldValues.find? fun (k, _) => k = dkey entry sub with
  | some (_, f) => f s
  | none =>
    if entry = 0x4001 then SMap.get s.tr.misses sub 0
    else if entry = 0x4013 then (s.tr.faults.filter fun f => f.unit = sub).length
    else if entry = 0x5002 then (s.coh.dir.filter fun (l, _) => Config.homeDie l % 4 = sub).length
    else if accessOf (dkey entry sub) = some .ro then s.counted (dkey entry sub)
    else s.shown (dkey entry sub)

/-- Two decimal digits. -/
def digits2 (n : Nat) : List Byte := [BitVec.ofNat 8 (48 + n / 10 % 10), BitVec.ofNat 8 (48 + n % 10)]

/-- One decimal digit. -/
def digit (n : Nat) : List Byte := [BitVec.ofNat 8 (48 + n % 10)]

/-- ORDERING_CODE (00 R1). -/
def Assembly.code (a : Assembly) : List Byte :=
  ascii "HJL-2900-H" ++ digits2 a.hbm ++ ascii "F" ++ digit a.flash ++ ascii "P" ++ digit a.ports ++ ascii "C" ++ digit a.procs

/-- MGMT_MAC (18 R465). -/
def State.mac (s : State) : List Byte :=
  2 :: if s.sec.identityOk then s.deviceId.take 5 else shake256 5 Config.serialNumber

/-- The value of a STR or BLOB entry. -/
def State.bytesOf (s : State) (entry sub : Nat) : List Byte :=
  if entry = 0x1000 then (if sub = 0 then ascii "HJL-2900" else if sub = 1 then s.asm.code else Config.serialNumber)
  else if entry = 0x1100 then s.mac
  else if entry = 0xB040 then s.cnt.debugResult
  else if entry = 0xC000 then (if sub = 1 then s.publicKey else if sub = 2 then s.deviceId else Config.identityCertificate)
  else s.mr sub

/-! ### Rows -/

/-- Bytes of a row of a table. -/
def DictRow.size (r : DictRow) : Nat :=
  if r.entry = 0x6003 then 8
  else if r.entry = 0x9003 then 192
  else if r.rowSize = 0 then Config.rowSize (dkey r.entry r.first) + 1
  else r.rowSize

/-- A row whose layout the manual does not give, of its fields. -/
def DictRow.row (r : DictRow) (fields : List Nat) : List Byte := padTo r.size (Config.rowLayout (dkey r.entry r.first) fields)

/-- The 32 bytes of a fabric manager event (12 Table 12-14). -/
def FmEvent.bits (e : FmEvent) : Nat :=
  pack [(e.code, 8), (0, 8), (e.id, 6), (0, 2), (e.port, 5), (0, 3), (e.detail, 32), (e.time, 64), (e.number, 64)]

/-- FM_EVENT_QUEUE: record n in row n mod 256 (12 R351). -/
def State.eventRows (s : State) : List (List Byte) :=
  (List.range 256).map fun i => leBytes 32 (((s.fab.events.find? fun e => e.number % 256 = i).map FmEvent.bits).getD 0)

/-- ROUTE_TABLE (12 Table 12-9); an id that its twin answers for shows the row of the twin (12 R337). -/
def State.routeRows (s : State) : List (List Byte) :=
  (List.range 64).map fun d =>
    let r : Route := SMap.get s.fab.routes (if s.fab.rerouted.contains d then d ^^^ 1 else d) { ports := 0, hops := 0 }
    leBytes 8 (pack [(d, 6), (0, 10), (r.ports.toNat, 32), (r.hops, 2)])

/-- ERROR_LOG: record n in row (n − 1) mod 4,096 (DEDUCED from 13 R391, log 45). -/
def State.logRows (s : State) : List (List Byte) :=
  let rows := s.log.records.foldl (fun (m : SMap Nat) r => SMap.put m ((r.number - 1) % 4096) r.bits) []
  (List.range 4096).map fun i => leBytes 32 (SMap.get rows i 0)

/-- Tier, state and the other fields of a row of EXTENT_TABLE (04 Table 4-12). -/
def State.extentFields (s : State) (e : Nat) (x : Extent) : List Nat :=
  let state := match x.state with
    | .freeClean => 0 | .freeDirty => 1 | .owned => 2 | .draining => 3 | .scrubbing => 4
  let maps := (s.tr.maps.filter fun m => m.package.getD s.ownId = s.ownId && m.address / 2 ^ 30 = e).length
  [e * 2 ^ 30, tierOf e, state, x.owner, bit x.protect, maps] ++ x.shares

/-- A row of AGENT_TABLE, as fields (05 Table 5-12). -/
def agentFields (r : AgentRow) : List Nat := [r.port, r.index, bit r.enable, r.tenant, r.asid, r.winBase, r.winSize, r.devBase]

def MergeState.number (m : MergeState) : Nat :=
  match m with
  | .idle => 0 | .building => 1 | .built => 2

/-- State, lanes and counts of a port (12 Table 12-17). -/
def Port.fields (p : Port) : List Nat :=
  let state := match p.state with
    | .down => 0 | .training => 1 | .keyWait => 2 | .up => 3 | .retrain => 4 | .lowRate => 5
  [state, p.lanes, p.keyCount, p.crcErrors, p.replays, p.authFails] ++ p.credits.flatMap fun (k, v) => [k, v]

/-- A row of TENANT_USAGE (14 Table 14-8). -/
def State.usage (s : State) (t : Nat) : List Nat :=
  let mirrors := (s.ext.filter fun (_, x) => x.hold = .mirror && x.owner = t).length
  [s.heldSlots t, s.ownedIn t 0, s.ownedIn t 1, s.ownedIn t 2, mirrors, ticksToUs (SMap.get s.sched.quotaStall t 0),
    SMap.get s.sched.limitStall t 0 / 940]

/-- A row of FLASH_HEALTH: mean and maximum erase count, grown bad blocks, reserve left, life used in ‰, write amplification ×
1,000, read-only (02 R36, Table 2-19). -/
def Stack.health (x : Stack) : List Nat :=
  let most := (x.blocks.map fun (_, y) => y.erases).foldl max 0
  [x.eraseSum / rawBlocks, most, x.grownBad, x.reserve, x.eraseSum * 1000 / (3000 * rawBlocks),
    (if x.hostBytes = 0 then 0 else x.programmed * 1000 / x.hostBytes), bit x.readOnly]

/-- A row of BRINGUP_STATUS; that of stage 1 also shows the reference and its loss (17 Table 17-6, 19 R493, R494). -/
def State.stageFields (s : State) (k : Nat) : List Nat :=
  let r := SMap.get s.pwr.stages k { start := 0, finish := 0, ok := false, unit := 0 }
  [r.start, r.finish, bit r.ok, r.unit] ++ if k = 1 then [bit s.pwr.refclk, bit s.pwr.refLost.isSome, s.pwr.refLost.getD 0] else []

/-- The fields of each row of a table whose row layout the manual does not give. -/
def State.fieldRows (s : State) (entry sub : Nat) : List (List Nat) :=
  if entry = 0x1001 then (List.range 5).map fun i => s.stageFields (i + 1)
  else if entry = 0x3000 then (List.range 3).map fun t =>
    let l := s.ext.filter fun (e, _) => tierOf e = t
    [l.length * 2 ^ 30, (l.filter fun (_, x) => x.free).length * 2 ^ 30]
  else if entry = 0x3020 then [((s.stack? sub).getD Stack.fresh).health]
  else if entry = 0x3041 then (List.range 32).map fun i => match SMap.look s.flash.decoders i with
    | some d => [d.base, d.size, d.ways, d.granule] ++ d.ports
    | none => []
  else if entry = 0x4030 then s.ext.map fun (e, x) => s.extentFields e x
  else if entry = 0x5001 then [agentFields (SMap.get s.coh.agents sub noAgent)]
  else if entry = 0x5031 then [(s.port sub).fields]
  else if entry = 0x6000 then (List.range 4).map fun d =>
    SMap.get s.grid.spare d 80 :: SMap.keys (s.grid.cores.filter fun (n, c) => !c.available && dieOfCore n = d)
  else if entry = 0x7001 then (SMap.below s.idx.indexes (twinSpace 10)).map fun (k, x) =>
    [k, x.tenant, x.asid, x.desc.toNat, x.generation, bit x.areaB, x.head, x.tail, x.merge.number, x.searches.length]
  else if entry = 0x8002 then (SMap.below s.emb.tables (twinSpace 12)).map fun (k, x) =>
    [k, x.tenant, x.asid, x.desc.toNat, bit x.replicated, x.version, bit x.replacing.isSome] ++
      (x.replacing.elim [] fun r => [r.cursor]) ++ [(s.emb.pins.filter fun (_, p) => p.table = k).length]
  else if entry = 0x9002 then (List.range 4096).map s.usage
  else if entry = 0x9105 then (SMap.below s.fe.rings resumedRing).map fun (n, r) =>
    [n, bit r.driver, r.tenant, r.asid, r.cq, r.lease, r.baseVa, r.wordVa, r.statusVa, r.log2, leNat (s.ringBlock n r)]
  else if entry = 0xA002 then (s.ext.filter fun (_, x) => x.protect && x.mirror.isSome).map fun (e, x) =>
    [e, s.twin.twinId, x.mirror.getD 0]
  else if entry = 0xA003 then [[s.twin.pair.number, s.copyList.headD 0, s.twin.resilverDone, (s.copyList.length + s.twin.copied.length) * 2 ^ 30]]
  else if entry = 0xB010 then (List.range 16384).map fun n => match s.ring? n with
    | some r => [match r.mode with | .normal => 0 | .serial => 1 | .step => 2, r.recVa, r.recLog2, r.stepRecords]
    | none => []
  else if entry = 0xC001 then [(s.sec.slotA, !s.sec.activeB), (s.sec.slotB, s.sec.activeB)].map fun (x, a) =>
    [leNat x.header, bit x.accepted, bit a]
  else if entry = 0xC002 then s.sec.measureLog.map fun (i, d, t) => [i, leNat d, t]
  else if entry = 0xC004 then (List.range 4096).map fun t =>
    [bit (s.tenantKey t).installed, (s.tenantKey t).generation, (s.tenantKey t).changed]
  else []

/-- The rows of a table. -/
def State.rowsOf (s : State) (r : DictRow) (sub : Nat) : List (List Byte) :=
  let e := r.entry
  if e = 0x5032 then s.routeRows
  else if e = 0x5033 then s.eventRows
  else if e = 0x6003 then (List.range 102400).map fun k => leBytes 8 (s.queueWord k)
  else if e = 0x9000 then (List.range 4096).map fun t => leBytes 32 (s.tenantRow t).toNat
  else if e = 0x9001 then s.sched.limits.map fun (k, x) => leBytes 16 (limitRow k (some x)).toNat
  else if e = 0x9003 then s.sched.stats.map fun (k, x) => x.bytes192 k
  else if e = 0xA020 || e = 0xB041 then (List.range 4096).map fun t => leBytes 1 (s.val (rowKey (dkey e r.first) t))
  else if e = 0xA050 then s.logRows
  else if e = 0xB000 then
    (if sub = 0 then (List.range 144).map fun i => leBytes 8 (SMap.get s.cnt.package i 0)
     else (List.range 4096).map fun t => (s.tenantSet t).bytes)
  else (s.fieldRows e sub).map r.row

/-- The rows of a table before READY: its Default, where its table gives one (17 R443). -/
def DictRow.defaultRows (r : DictRow) : List (List Byte) :=
  if r.entry = 0x5001 then [r.row (agentFields noAgent)]
  else if r.entry = 0x9000 then List.replicate 4096 (leBytes 32 defaultTenantRow.toNat)
  else if r.entry = 0xA020 || r.entry = 0xB041 then List.replicate 4096 [0]
  else []

end Sys2Proof.Machine
end

