-- ==== Sys2Proof/Machine/Management.lean ====
section
/-!
DEFINITION. The object dictionary's operations (18 R457 to R463), the management port (R464 to R468) and the management ring
(R469 to R472).
-/

namespace Sys2Proof.Machine

open Sys2Proof

/-! ### Which requests an entry takes -/

/-- Whether the unit that a sub-entry names is fitted (00 R4). -/
def State.fitted (s : State) (entry sub : Nat) : Bool :=
  if entry = 0x3014 || entry = 0x3020 then sub < s.asm.flash
  else if entry = 0x3040 then sub < s.asm.ports * 4
  else if entry = 0x5031 || entry = 0x5037 then sub < s.fabricPorts
  else true

/-- The line of the dictionary of a name that exists (18 R457). -/
def State.entryOf (s : State) (entry sub : Nat) : Option DictRow := if s.fitted entry sub then dictFind entry sub else none

/-- Entries that answer before READY too (17 R443). -/
def controlEntry (entry : Nat) : Bool :=
  [0x1000, 0x1001, 0x1002, 0x1100, 0x1101, 0x2000, 0x2010, 0x5030, 0x5031, 0x5032, 0x5033, 0xA000, 0xA050, 0xA051, 0xC000, 0xC001,
    0xC002, 0xC003, 0xC004].contains entry

/-- Entries that the boot code serves (16 R430, DEDUCED, log 45). -/
def bootEntry (entry sub : Nat) : Bool := entry = 0x1000 || entry = 0xC000 || (entry = 0xC001 && sub ≤ 2)

/-- Whether an entry shows its present value. -/
def State.shows (s : State) (entry : Nat) : Bool := controlEntry entry || s.dataPath

/-- Whether the boot code serves no such request. -/
def State.bootRefuses (s : State) (entry sub : Nat) : Bool := s.pwr.bootOnly && !bootEntry entry sub

/-- Whether the present state refuses a write whatever its value (17 R443, R445, R451, 16 R432). -/
def State.refusesWrite (s : State) (r : DictRow) (sub : Nat) : Bool :=
  s.bootRefuses r.entry sub || (if r.access = .rwp then s.prof.active = 3 else !s.shows r.entry) ||
    (r.entry = 0x1002 && sub ≠ 0 && !s.dataPath) || (r.entry = 0x1002 && sub = 1 && s.pwr.tenantBusy.isSome) ||
    (r.entry = 0xC001 && (sub = 1 || sub = 2) && s.sec.commit.isSome)

/-- A reply without a value. -/
def plain (st : MStatus) : Reply := { status := st, value := [], rows := 0 }

/-! ### READ and READ_ROWS -/

/-- Encodes the value of a number entry, or the bytes of a STR or BLOB (18 Table 18-1). -/
def State.encode (s : State) (r : DictRow) (sub : Nat) : List Byte :=
  match r.type.size with
  | some n => leBytes n (if s.shows r.entry then s.number r.entry sub else dictDefault (dkey r.entry sub))
  | none => if s.shows r.entry then s.bytesOf r.entry sub else []

/-- READ of an entry (18 Table 18-3). -/
def State.readEntry (s : State) (entry sub : Nat) : Reply :=
  match s.entryOf entry sub with
  | none => plain .noEntry
  | some r =>
    if r.access = .wo || r.type = .table then plain .access
    else if s.bootRefuses entry sub then plain .state
    else { status := .ok, value := s.encode r sub, rows := 0 }

/-- Records which error-log records have been read (13 R391). -/
def State.noteRead (s : State) (entry sub first n : Nat) : State :=
  if entry = 0xA050 && sub = 0 then
    let seen := (s.log.records.filter fun r => first ≤ (r.number - 1) % 4096 && (r.number - 1) % 4096 < first + n).map (·.number)
    { s with log := { s.log with readTo := seen.foldl max s.log.readTo } }
  else s

/-- READ_ROWS of a table: whole rows, as many as were asked, as there are, and as fit in 8,192 bytes. -/
def State.readRows (s : State) (entry sub first rows : Nat) : Reply × State :=
  match s.entryOf entry sub with
  | none => (plain .noEntry, s)
  | some r =>
    if r.access = .wo || r.type ≠ .table then (plain .access, s)
    else if s.bootRefuses entry sub then (plain .state, s)
    else
      let l := if s.shows entry then s.rowsOf r sub else r.defaultRows
      if first ≠ 0 && first ≥ l.length then (plain .range, s)
      else
        let l := (l.drop first).take (min rows (8192 / r.size))
        ({ status := .ok, value := l.flatten, rows := l.length }, s.noteRead entry sub first l.length)

/-! ### WRITE -/

/-- A command of the fabric manager as bytes: its header and what its code has follow (12 R349). -/
def State.writeFm (s : State) (bs : List Byte) : MStatus × State :=
  let h := BitVec.ofNat 128 (leNat (bs.take 16))
  let body := bs.drop 16
  let bare := fun (f : MStatus × State) => if body.isEmpty then f else (.length, s)
  if bs.length < 16 then (.length, s)
  else match fld h 0 8 with
    | 1 => bare (s.assignId h)
    | 2 =>
      if body.length ≠ 8 * fmRows h then (.length, s)
      else s.routeSet h ((chunksOf 8 256 body).map fun r => BitVec.ofNat 64 (leNat r))
    | 3 => s.linkKey h body
    | 4 => bare (s.join h)
    | 5 => bare (s.teardown h)
    | 6 => bare (s.restoreId h)
    | 7 => bare (s.leave h)
    | _ => (.format, s)

/-- A write of a number whose length is right (18 R458, R459, R463): reserved bits, then ranges, then the entry's own rule. After a
trip, whether a sensor still reads above its maximum is free here (DESIGN CHOICE, log 45). -/
def State.writeNumber (s : State) (r : DictRow) (sub v : Nat) : MStatus × State :=
  let e := r.entry
  let key := dkey e sub
  let (x, t) := s.draw
  let hot := if s.pwr.supply = .tripped && x % 2 = 1 then [x / 2] else []
  if key = dkey 0xC001 5 then s.writeRevoke v
  else if key = dkey 0xB020 3 && v ≥ 512 then (.format, s)
  else if !r.admits v || !linkedOk s.shown key v then (.range, s)
  else if e = 0x1002 then
    (if sub = 0 then t.requestReset (v = 2) (if v = 2 then 2 else 3) hot else if sub = 1 then s.tenantReset v else s.coreReset v)
  else if key = dkey 0x2000 2 then (if v < 4 then s.switchProfile v else t.switchReset v hot)
  else if key = dkey 0x2000 5 then s.copyProfile v
  else if key = dkey 0x2010 1 then s.powerRequest v
  else if e = 0x4011 && sub < 3 then s.writeFaultRing sub v
  else if key = dkey 0x5033 2 then s.writeEventAck v
  else if key = dkey 0x9003 1 then s.writeStatsClear v
  else if key = dkey 0x9100 0 then s.writeBootRing v
  else if key = dkey 0xB000 2 then s.writeCounterClear v
  else if key = dkey 0xC001 2 then
    (let (st, t, _) := s.writeCommit (v = 1)
     (st, t))
  else match r.access with
    | .rwp => (.ok, s.storeVal key v)
    | .rwl => (.ok, (s.storeVal key v).setLive key v)
    | _ => (.ok, s.setVal key v)

/-- A write of a BLOB. -/
def State.writeBlob (s : State) (entry sub : Nat) (bs : List Byte) : MStatus × State :=
  if entry = 0x5033 then s.writeFm bs
  else if entry = 0xB040 then s.writeDebug bs
  else if entry = 0xC001 then (if bs.length < 4 then (.length, s) else s.writeStage (leNat (bs.take 4)) (bs.drop 4))
  else if sub = 8 then (if bs.length ≠ 65 then (.length, s) else s.writeExtend (leNat (bs.take 1)) (bs.drop 1))
  else (.access, s)

/-- A refused request has no effect (18 R463). -/
def orRefused (s : State) (r : MStatus × State) : MStatus × State := if r.1 = .ok then r else (r.1, s)

/-- WRITE of an entry: the name, the access, the present state and the length, then the content (18 R463). -/
def State.writeEntry (s : State) (entry sub : Nat) (bs : List Byte) : MStatus × State :=
  match s.entryOf entry sub with
  | none => (.noEntry, s)
  | some r =>
    if r.access = .ro || r.type = .table then (.access, s)
    else if s.refusesWrite r sub then (.state, s)
    else match r.type.size with
      | some n => if bs.length ≠ n then (.length, s) else orRefused s (s.writeNumber r sub (leNat bs))
      | none => orRefused s (s.writeBlob entry sub bs)

/-! ### WRITE_ROWS -/

/-- Rows of a table of BOOL rows. -/
def State.writeFlags (s : State) (key first : Nat) (bs : List Byte) : MStatus × State :=
  if first + bs.length > 4096 || bs.any (fun b => b.toNat > 1) then (.range, s)
  else (.ok, (bs.zipIdx first).foldl (fun s (b, t) => (s.storeVal (rowKey key t) b.toNat).setVal (rowKey key t) b.toNat) s)

/-- WRITE_ROWS of a table: every row, or none (18 Table 18-3). -/
def State.writeRows (s : State) (entry sub first rows : Nat) (bs : List Byte) : MStatus × State :=
  match s.entryOf entry sub with
  | none => (.noEntry, s)
  | some r =>
    if r.access = .ro || r.type ≠ .table then (.access, s)
    else if s.refusesWrite r sub then (.state, s)
    else if bs.length ≠ rows * r.size then (.length, s)
    else
      let words := chunksOf r.size (rows + 1) bs
      if entry = 0x5001 then (if first ≠ 0 || rows ≠ 1 then (.range, s) else orRefused s (s.writeAgent sub (Config.agentRowOf bs)))
      else if entry = 0x9000 then orRefused s (s.writeTenants first (words.map fun r => BitVec.ofNat 256 (leNat r)))
      else if entry = 0x9001 then
        match s.writeLimits (words.map fun r => BitVec.ofNat 128 (leNat r)) with
        | (.format, _) => (.format, s)
        | (st, t) => if first ≠ 0xFFFF_FFFF then (.range, s) else orRefused s (st, t)
      else s.writeFlags (dkey entry r.first) first bs

/-! ### DESCRIBE and NEXT -/

def DType.code (t : DType) : Nat :=
  match t with
  | .u8 => 0 | .u16 => 1 | .u32 => 2 | .u64 => 3 | .i32 => 4 | .bool => 5 | .enum => 6 | .str => 7 | .blob => 8 | .table => 9

def Access.code (a : Access) : Nat :=
  match a with
  | .ro => 0 | .rw => 1 | .rwp => 2 | .rwl => 3 | .wo => 4

/-- The greatest length of a BLOB (the entry's own table). -/
def blobLimit (key : Nat) : Nat :=
  if key = dkey 0x1100 0 then 6
  else if key = dkey 0x5033 0 then 16 + 64 * 8
  else if key = dkey 0xB040 0 then 16 + 256
  else if key = dkey 0xB040 1 then 8 + 4096
  else if key = dkey 0xC000 1 then 1793
  else if key = dkey 0xC000 2 then 32
  else if key = dkey 0xC000 3 then Config.identityCertificate.length
  else if key = dkey 0xC001 1 then 4 + 4096
  else if key = dkey 0xC002 8 then 65
  else 64

/-- Row size, or the greatest length of a value. -/
def DictRow.limit (r : DictRow) (sub : Nat) : Nat :=
  match r.type with
  | .table => r.size
  | .str => if dkey r.entry sub = dkey 0x1000 6 then 32 else 256
  | .blob => blobLimit (dkey r.entry sub)
  | t => t.size.getD 0

/-- Whether writes of an entry are stored in the active profile as they take effect (18 R459). -/
def DictRow.profiled (r : DictRow) : Bool := r.access = .rwl && r.entry ≠ 0x9100 && r.entry ≠ 0x5033

/-- DESCRIBE (18 Table 18-3). -/
def State.describe (s : State) (entry sub : Nat) : Reply :=
  match s.entryOf entry sub with
  | none => plain .noEntry
  | some r =>
    if s.bootRefuses entry sub then plain .state
    else
      let rows := if r.type ≠ .table then 0 else if r.rows ≠ 0 then r.rows else (s.rowsOf r sub).length
      { status := .ok, rows := 0
        value := leBytes 16 (pack [(r.type.code, 8), (r.access.code, 8), (bit r.profiled, 8), (0, 8), (r.limit sub, 32), (rows, 32)]) ++
          padTo 32 (ascii r.name) }

/-- NEXT: the next existing name (18 Table 18-3). -/
def State.nextName (s : State) (entry sub : Nat) : Reply :=
  let names := (dictRows.flatMap DictRow.keys).filter fun k => dkey entry sub < k && s.fitted (k / 256) (k % 256)
  match names.min? with
  | some k => { status := .ok, value := leBytes 4 (pack [(k / 256, 16), (k % 256, 8)]), rows := 0 }
  | none => plain .noEntry

/-! ### Requests (18 R462, R463) -/

/-- An operation header of a request. -/
def opHeader (op entry sub first rows : Nat) : BitVec 128 :=
  BitVec.ofNat 128 (pack [(op, 8), (0, 8), (entry, 16), (sub, 8), (0, 24), (first, 32), (rows, 32)])

/-- Whether an operation header keeps Table 18-2: its reserved fields, its OP, and rows only where the operation has them. -/
def opClean (h : BitVec 128) : Bool :=
  let op := fld h 0 8
  fld h 8 8 = 0 && fld h 40 24 = 0 && 1 ≤ op && op ≤ 6 && (op = 3 || op = 4 || fld h 64 64 = 0)

/-- Performs a request: its operation header and value. An operation that takes no value is LENGTH with one, once the name and the
access pass. -/
def State.perform (s : State) (h : BitVec 128) (value : List Byte) : Reply × State :=
  let entry := fld h 16 16
  let sub := fld h 32 8
  let bare := fun (r : Reply × State) =>
    if value.isEmpty || r.1.status = .noEntry || r.1.status = .access || r.1.status = .state then r else (plain .length, s)
  match fld h 0 8 with
  | 1 => bare (s.readEntry entry sub, s)
  | 2 =>
    let (st, t) := s.writeEntry entry sub value
    (plain st, t)
  | 3 => bare (s.readRows entry sub (fld h 64 32) (fld h 96 32))
  | 4 =>
    let (st, t) := s.writeRows entry sub (fld h 64 32) (fld h 96 32) value
    ({ plain st with rows := if st = .ok then fld h 96 32 else 0 }, t)
  | 5 => bare (s.describe entry sub, s)
  | _ => if value.isEmpty then (s.nextName entry sub, s) else (plain .length, s)

/-- Whether a request is a FW_COMMIT that was accepted (16 R432). -/
def isCommit (h : BitVec 128) (r : Reply) : Bool :=
  fld h 0 8 = 2 && fld h 16 16 = 0xC001 && fld h 32 8 = 2 && r.status = .ok

/-- A request whose path is left aside: it is performed and answered. A commit that waits for the twin is answered later. -/
def State.request (s : State) (h : BitVec 128) (value : List Byte) : State :=
  if !s.mgmtAnswers then s
  else if !opClean h then { s with mgmt := { s.mgmt with reply := some (plain .format) } }
  else
    let (r, t) := s.perform h value
    let done : State := { t with mgmt := { t.mgmt with reply := some r } }
    if isCommit h r then (if t.sec.commit.isSome then t else done.restartFirmware) else done

/-- READ (18 Table 18-3). -/
def execRead (entry : BitVec 16) (sub : BitVec 8) (s : State) : Out := .next (s.request (opHeader 1 entry.toNat sub.toNat 0 0) [])

/-- WRITE (18 Table 18-3). -/
def execWrite (entry : BitVec 16) (sub : BitVec 8) (value : List Byte) (s : State) : Out :=
  .next (s.request (opHeader 2 entry.toNat sub.toNat 0 0) value)

/-- READ_ROWS (18 Table 18-3). -/
def execReadRows (entry : BitVec 16) (sub : BitVec 8) (first rows : Nat) (s : State) : Out :=
  .next (s.request (opHeader 3 entry.toNat sub.toNat first rows) [])

/-- WRITE_ROWS (18 Table 18-3). -/
def execWriteRows (entry : BitVec 16) (sub : BitVec 8) (first rows : Nat) (value : List Byte) (s : State) : Out :=
  .next (s.request (opHeader 4 entry.toNat sub.toNat first rows) value)

/-- DESCRIBE (18 Table 18-3). -/
def execDescribe (entry : BitVec 16) (sub : BitVec 8) (s : State) : Out := .next (s.request (opHeader 5 entry.toNat sub.toNat 0 0) [])

/-- NEXT (18 Table 18-3). -/
def execNextEntry (entry : BitVec 16) (sub : BitVec 8) (s : State) : Out := .next (s.request (opHeader 6 entry.toNat sub.toNat 0 0) [])

/-! ### The management port (18 R465 to R468) -/

/-- Counts a frame, or a discarded message, in MGMT_FRAMES_BAD. -/
def State.frameBad (s : State) : State := s.bump (dkey 0x1100 5) 1

/-- Whether a management header keeps Table 18-6. -/
def headClean (h : BitVec 128) : Bool :=
  fld h 0 16 = 0x6D47 && fld h 16 8 = 1 && fld h 24 3 ≤ 3 && fld h 28 3 ≤ 5 && fld h 31 1 = 0 && fld h 96 32 = 0 &&
    (fld h 24 3 ≠ 0 || (16 ≤ fld h 48 16 && fld h 48 16 ≤ 8208))

/-- A source of frames that nothing is known of. -/
def MgmtSource.fresh : MgmtSource := { reqId := 0, frag := 0, message := [], header := 0, kept := [], heard := 0 }

/-- A frame has come from a source: a ninth displaces the one heard from longest ago (18 R467). -/
def State.hear (s : State) (source : Nat) : State :=
  let n := s.mgmt.heardCount + 1
  let m := s.mgmt.sources
  let oldest := (m.find? fun (_, x) => m.all fun (_, y) => x.heard ≤ y.heard).map (·.1)
  let m := if SMap.has m source then m else SMap.put (if m.length ≥ 8 then SMap.del m (oldest.getD 0) else m) source .fresh
  { s with mgmt := { s.mgmt with heardCount := n, sources := SMap.upd m source fun x => { x with heard := n } } }

/-- Changes what is known of a source. -/
def State.updSource (s : State) (source : Nat) (f : MgmtSource → MgmtSource) : State :=
  { s with mgmt := { s.mgmt with sources := SMap.upd s.mgmt.sources source f } }

/-- A whole message of a source (18 R467): a kept response is sent again; else the request is performed and answered. -/
def State.takeMessage (s : State) (source : Nat) (head : BitVec 128) (msg : List Byte) : State :=
  let x := SMap.get s.mgmt.sources source .fresh
  match x.kept.find? fun (r, _) => r = fld head 32 16 with
  | some (_, m) => (s.bump (dkey 0x1100 4) 1).sendFrames source (framesOf 1 (fld head 32 16) m)
  | none =>
    let op := BitVec.ofNat 128 (leNat (msg.take 16))
    if crc32c msg ≠ fld head 64 32 || !opClean op then s.mgmtRespond source head op (plain .format)
    else
      let (r, t) := s.perform op (msg.drop 16)
      if !isCommit op r then t.mgmtRespond source head op r
      else if t.sec.commit.isSome then { t with mgmt := { t.mgmt with owed := some (some source, head, op) } }
      else (t.mgmtRespond source head op r).restartFirmware

/-- The fields of a management header that every fragment of a message carries alike (18 R466). -/
def sameFields (a b : BitVec 128) : Bool := fld a 0 27 = fld b 0 27 && fld a 32 96 = fld b 32 96

/-- A fragment of a request (18 R466, R467). -/
def State.takeFragment (s : State) (source : Nat) (head : BitVec 128) (body : List Byte) : State :=
  let frag := fld head 28 3
  let len := fld head 48 16
  let last := fld head 27 1 = 1
  let x := SMap.get s.mgmt.sources source .fresh
  let fits := 1472 * frag < len && last = decide (len ≤ 1472 * (frag + 1)) && min 1472 (len - 1472 * frag) ≤ body.length
  let goesOn := x.frag = frag && (x.frag = 0 || sameFields x.header head)
  let s := if x.frag ≠ 0 && !goesOn || x.frag = 0 && frag ≠ 0 || !fits then s.frameBad else s
  if !fits || (frag ≠ 0 && !goesOn) then s.updSource source fun x => { x with frag := 0, message := [] }
  else
    let msg := (if frag = 0 then [] else x.message) ++ body.take (min 1472 (len - 1472 * frag))
    if last then (s.updSource source fun x => { x with frag := 0, message := [] }).takeMessage source head msg
    else s.updSource source fun x => { x with reqId := fld head 32 16, frag := frag + 1, message := msg, header := head }

/-- The 40 bytes of a DISCOVER_REPLY (18 R468). -/
def State.discoverValue (s : State) : List Byte :=
  s.deviceId ++ leBytes 8 (pack [(s.fab.id, 8), (s.pwr.device.code, 8), (s.prof.active, 8), (s.val (dkey 0x1100 1), 8),
    (bit !s.sec.identityOk, 8)])

/-- Answers a DISCOVER; from the end of stage 1. -/
def State.discovered (s : State) (source reqId : Nat) : State :=
  if s.pwr.bootOnly then s else s.sendFrames source (framesOf 3 reqId s.discoverValue)

/-- MGMT_FRAME: a frame reaches the management port (18 R465 to R467). One that breaks Table 18-6 is counted and answered FORMAT
(DEDUCED, log 45). -/
def execMgmtFrame (frame : MgmtFrame) (s : State) : Out :=
  .next <|
    if !s.mgmtAnswers || !s.portOn then s
    else if !frame.fcsOk then s.frameBad
    else if !frame.addressed then s
    else
      let s := s.bump (dkey 0x1100 3) 1
      let head := BitVec.ofNat 128 (leNat (frame.payload.take 16))
      let body := frame.payload.drop 16
      if !headClean head || frame.payload.length < 46 || frame.payload.length > 1500 then
        s.frameBad.sendFrames frame.source
          (framesOf 1 (fld head 32 16) (responseTo (BitVec.ofNat 128 (leNat (body.take 16))) (plain .format)))
      else if fld head 24 3 = 2 then s.discovered frame.source (fld head 32 16)
      else if fld head 24 3 = 0 then (s.hear frame.source).takeFragment frame.source head body
      else s

/-- REASSEMBLY_TIMEOUT: 10 ms have passed without the next fragment: the partial message is discarded (18 R467). -/
def execReassemblyTimeout (source : Nat) (s : State) : Out :=
  .next <| match SMap.look s.mgmt.sources source with
  | some x => if x.frag = 0 then s else (s.updSource source fun x => { x with frag := 0, message := [] }).frameBad
  | none => s

/-- DISCOVER: a DISCOVER frame, sent to the broadcast address, is answered (18 R468). -/
def execDiscover (source : Nat) (reqId : BitVec 16) (s : State) : Out :=
  .next (if !s.mgmtAnswers || !s.portOn then s else (s.bump (dkey 0x1100 3) 1).discovered source reqId.toNat)

/-! ### The management ring (18 R469 to R472) -/

/-- MGMT_TAIL_PRESENTED: the tail word is presented (18 R471, 17 R455): below TAIL_SEEN or above FETCHED + 16 is an ERROR; RESTART in
ERROR discards the requests that were not taken, and any other RESTART is an ERROR, as 06 R172 has it. -/
def execMgmtTailPresented (value : BitVec 64) (s : State) : Out :=
  .next <|
    if s.mgmt.ring = .absent then s
    else
      let s := s.wake
      let tail := fld value 0 63
      let room := tail ≤ s.mgmt.fetched + 16
      let set := fun (ring : MgmtRingState) (seen : Nat) =>
        ({ s with mgmt := { s.mgmt with ring, tailSeen := seen } } : State).writeMgmtBlock
      if flag value 63 then
        if s.mgmt.ring = .error && s.mgmt.fetched ≤ tail && room then set .active tail else set .error s.mgmt.tailSeen
      else if s.mgmt.ring = .error then s
      else if tail < s.mgmt.tailSeen || !room then set .error s.mgmt.tailSeen
      else set .active tail

/-- MGMT_HEAD_PRESENTED: the head word is presented; a HEAD below the one before, or above WRITTEN, is ignored (18 R471). -/
def execMgmtHeadPresented (value : BitVec 64) (s : State) : Out :=
  .next <|
    if s.mgmt.ring = .absent || value.toNat < s.mgmt.headSeen || value.toNat > s.mgmt.written then s
    else ({ s with mgmt := { s.mgmt with headSeen := value.toNat } } : State).writeMgmtBlock

/-- Reads whole lines of the management extent. -/
def readLines (la n : Nat) : Eng (List Byte) := do
  let l ← (List.range n).mapM fun i => homeReadP 0 (la + 64 * i) 64
  pure (l.flatMap (·.1))

/-- Writes bytes from a line of the management extent on. -/
def State.putLines (s : State) (la : Nat) (bs : List Byte) : State :=
  ((chunksOf 64 260 bs).zipIdx).foldl (fun s (b, i) => s.placeWrite (la + 64 * i) b none) s

/-- Writes the next response into its slot, and then the status block (18 R470, R471). -/
def State.ringRespond (s : State) (head op : BitVec 128) (r : Reply) : State :=
  if s.mgmt.ring = .absent then s
  else
    let msg := responseTo op r
    let bytes := mgmtHeader 1 true 0 (fld head 32 16) msg.length (crc32c msg) ++ msg
    let s := s.putLines (s.mgmtBase + 0x5_0000 + 0x4000 * (s.mgmt.written % 16)) bytes
    let s : State := { s with mgmt := { s.mgmt with written := s.mgmt.written + 1 } }
    (s.bump (dkey 0x1101 2) 1).writeMgmtBlock

/-- Whether the next request may be taken (18 R471, R472): none while a reset has been announced, or asleep. -/
def State.mayTakeRequest (s : State) : Bool :=
  s.mgmt.ring = .active && !s.mgmt.restarting && s.mgmt.fetched < s.mgmt.tailSeen && s.mgmt.fetched - s.mgmt.headSeen < 16 && s.awake &&
    s.twin.awaitingTakeover.isNone

/-- Reads the next request and gains the lines of its response: the slot's header and message. -/
def takeRequest : Eng (BitVec 128 × List Byte) := do
  let s ← get
  let n := s.mgmt.fetched % 16
  let line ← readLines (s.mgmtBase + 0x1_0000 + 0x4000 * n) 1
  let head := BitVec.ofNat 128 (leNat (line.take 16))
  let len := min 8208 (fld head 48 16)
  let l ← readLines (s.mgmtBase + 0x1_0000 + 0x4000 * n) ((16 + len + 63) / 64)
  (List.range 130).forM fun i => homeClaim 0 (s.mgmtBase + 0x5_0000 + 0x4000 * n + 64 * i)
  pure (head, (l.drop 16).take len)

/-- A request of the ring is performed; its response is written. -/
def State.ringRequest (s : State) (head : BitVec 128) (msg : List Byte) : State :=
  let s : State := { s with mgmt := { s.mgmt with fetched := s.mgmt.fetched + 1 } }
  let op := BitVec.ofNat 128 (leNat (msg.take 16))
  let whole := headClean head && fld head 24 3 = 0 && fld head 27 1 = 1 && fld head 28 3 = 0
  if !whole || crc32c msg ≠ fld head 64 32 || !opClean op then s.ringRespond head op (plain .format)
  else
    let (r, t) := s.perform op (msg.drop 16)
    if !isCommit op r then t.ringRespond head op r
    else if t.sec.commit.isSome then ({ t with mgmt := { t.mgmt with owed := some (none, head, op) } } : State).writeMgmtBlock
    else (t.ringRespond head op r).restartFirmware

/-- MGMT_REQUEST_TAKE: the device takes the next request of the management ring, performs it and answers it (18 R460, R470, R471); a
commit that waited for the twin is answered first. -/
def execMgmtRequestTake (s : State) : Out :=
  .next <| match s.mgmt.owed with
  | some (none, head, op) =>
    if s.sec.commit.isSome || s.mgmt.restarting then s
    else ({ s with mgmt := { s.mgmt with owed := none } } : State).ringRespond head op (plain .ok)
  | _ =>
    if s.mayTakeRequest then
      match takeRequest.go s with
      | (.ok (head, msg), t) => t.ringRequest head msg
      | (.error _, t) => t
    else s

end Sys2Proof.Machine
end

