-- ==== Sys2Proof/Machine/Twin.lean ====
section
/-!
DEFINITION. The pair (13 R354 to R371): identity records, heartbeats, mirror records and acknowledgements, the loss of the
twin, the resilver and admission.
-/

namespace Sys2Proof.Machine

open Sys2Proof

/-! ### Mirror records -/

/-- Whether mirror records of the twin are taken in this pair state. -/
def State.takesRecords (s : State) : Bool :=
  match s.twin.pair with
  | .paired | .joining | .shadow | .resilvering => true
  | .unpaired | .split => s.twin.record.isSome
  | .refused | .degraded | .fenced => false

/-- Something of the twin arrived, which counts as a heartbeat (13 R356). -/
def State.heard (s : State) : State := { s with twin := { s.twin with lastHeartbeat := s.time } }

/-- The lines of protected extents that caching agents own, which the directory summary names (13 R361). -/
def State.ownedLines (s : State) : List Nat :=
  (s.coh.dir.filter fun (l, d) => match d, s.extent? (l / 2 ^ 24) with
    | .exclusive _, some x => x.protect && x.mirror.isSome
    | _, _ => false).map (·.1)

/-- Records between the twins begin anew, in both directions; the metadata is sent first (13 R357, R369). -/
def State.beginRecords (s : State) (pair : PairState) : State :=
  let twin := { s.twin with pair, recordedDegraded := false, probing := false, nextMseq := 0, unacked := [], appliedMseq := 0
                            received := [], sent := [], named := s.ownedLines, resilverChunk := 0, resilverDone := 0
                            resilvered := false, peerDone := false, lastHeartbeat := s.time }
  ({ s with twin := twin } : State).mirrorMeta none

/-- The twin has entered JOINING: this package is the source of its resilver (13 R357, R369). What an earlier resilver copied
stands on flash, where it was not written since (Table 13-10). -/
def State.beginResilver (s : State) : State :=
  let kept := s.twin.copied.filter fun e => tierOf e = 1 && !((s.extent? e).map (·.written)).getD false
  let s := ({ s with twin := { s.twin with copied := kept } } : State).beginRecords .resilvering
  if kept.isEmpty then s else s.logFree 0x0015 13 0 s.twin.twinId

/-- The pair state that the twin reports. -/
def State.peerState (s : State) (code : Nat) : State :=
  if code = 2 && s.twin.pair = .degraded && s.twin.answersFor.isSome then s.beginResilver else s

/-- MIRROR: records are applied in MSEQ order; one that arrives early waits, and one applied already is dropped (13 R361). A
HEARTBEAT record reports the twin's pair state and takes no sequence number (13 R356; DEDUCED, log 37). -/
def execMirror (record : MirrorRecord) (s : State) : Out :=
  .next <|
    if s.twin.pair = .refused || s.twin.pair = .fenced then s
    else
      let s := s.heard
      if fld record.header 0 8 = 7 then s.peerState (fld record.header 32 8)
      else if !s.takesRecords || mseqOf record < s.twin.appliedMseq then s
      else
        let s := { s with twin := { s.twin with received := s.twin.received ++ [record] } }
        s.applyReceived s.twin.received.length

/-- MIRROR_ACK: every record up to `mseq` has been applied at the twin, and what waited on it goes on (13 R361, 01 R22, R23). -/
def execMirrorAck (mseq : BitVec 64) (s : State) : Out :=
  .next <|
    if s.takesRecords then
      let s := s.heard
      let done := fun (m : Nat) => m ≤ mseq.toNat
      ({ s with twin := { s.twin with unacked := s.twin.unacked.filter fun (m, _, _) => !done m
                                      sent := s.twin.sent.filter fun r => !done (mseqOf r) } }).flushAnswers.commitDone
    else s

/-! ### Pairing -/

/-- The rollback exchange (16 R434): the twin's value is kept as the witness for it, and its witness raises the own value. -/
def State.exchangeRollback (s : State) (r : IdentityRecord) : State :=
  { s with sec := { s.sec with witness := some (max r.rollbackSvn (s.sec.witness.getD 0))
                               ownWitness := r.witnessForUs.getD 0
                               rollback := max s.sec.rollback (r.witnessForUs.getD 0) } }

/-- The security version of the running image (16 R430). -/
def State.runningSvn (s : State) : Nat := s.running.svn

/-- The pair is refused (13 R355). -/
def State.refuse (s : State) (r : IdentityRecord) : State :=
  let s := { s with twin := { s.twin with pair := .refused, record := some r } }
  (s.fmEvent 0x08 (r.packageId % 64) 0 0).logFree 0x000F 13 0 r.packageId

/-- Whether two packages may pair (13 R354). -/
def State.matches (s : State) (r : IdentityRecord) : Bool :=
  r.packageId = s.fab.id ^^^ 1 && r.hbm = s.asm.hbm && r.flash = s.asm.flash && r.ports = s.asm.ports

/-- The unprotected flash extents of a joining package whose contents did not survive (13 R370). -/
def State.loseUnprotected (s : State) : State :=
  if s.twin.announcedAbsence then s
  else (s.ext.filter fun (e, x) => tierOf e = 1 && !x.free && x.hold = .none && !(x.protect && x.mirror.isSome)).foldl
    (fun s (e, _) => s.loseExtent e) s

/-- UNPAIRED, with a record that matches: JOINING if the twin answers for this id, else PAIRED once the protected extents that
have no mirror are copied (13 R357, R359). -/
def State.pairUp (s : State) (r : IdentityRecord) : State :=
  let s := { s with twin := { s.twin with twinId := r.packageId, record := some r, held := none, copied := [] } }
  if r.answersForUs then (s.loseUnprotected).beginRecords .joining
  else
    let s := s.beginRecords .unpaired
    if s.ext.any fun (_, x) => x.wantsMirror && (x.mirror.isNone || x.written) then s
    else { s with twin := { s.twin with pair := .paired } }

/-- IDENTITY_RECORD: the first twin port is UP (13 R354, R355, R357, 16 R434). A package whose PACKAGE_ID reads 0xFF, and one
whose twin's does, stays UNPAIRED. -/
def execIdentityRecord (record : IdentityRecord) (s : State) : Out :=
  .next <|
    if s.pwr.device ≠ .ready || (s.twin.pair ≠ .unpaired && s.twin.pair ≠ .split) || s.twin.record.isSome then s
    else
      let s := s.exchangeRollback record
      if s.runningSvn < s.sec.rollback then s.refuse record
      else if s.fab.id = 0xFF || record.packageId = 0xFF then s
      else if !s.matches record then s.refuse record
      else if s.twin.pair = .split then
        ({ s with twin := { s.twin with record := some record, copied := [] } } : State).beginRecords .split
      else s.pairUp record

/-! ### Heartbeats -/

/-- HEARTBEAT_SEND: one frame on TWHB, and one HEARTBEAT record on every UP twin port; a REFUSED package's twin ports carry none
(13 R355, R356). -/
def execHeartbeatSend (s : State) : Out :=
  let ports := if s.twin.pair = .refused then [] else s.twinPorts.filter fun p => (s.port p).live
  let r : MirrorRecord :=
    { header := BitVec.ofNat 256 (pack [(7, 8), (0, 24), (s.twin.pair.number, 8), (0, 24), (s.twin.nextMseq, 64), (0, 64),
        (2 ^ 64 - 1, 64)]), data := [] }
  .next { s with twin := { s.twin with heartbeats := (s.twin.heartbeats + 1) % 2 ^ 16, sent := s.twin.sent ++ ports.map fun _ => r } }

/-- HEARTBEAT: a frame on TWHB that passes its CRC (13 R356, 19 R485). -/
def execHeartbeat (frame : HeartbeatFrame) (s : State) : Out :=
  .next <| if frame.crcOk && frame.packageId = s.twin.twinId then s.heard.peerState frame.pairState else s

/-! ### The loss of the twin -/

/-- Whether the package watches its twin's heartbeats. -/
def State.watchesTwin (s : State) : Bool :=
  !s.twin.recordedDegraded && match s.twin.pair with
    | .paired | .joining | .shadow | .resilvering => true
    | .unpaired | .split => s.twin.record.isSome
    | .refused | .degraded | .fenced => false

/-- Whether a domain port is UP. -/
def State.domainUp (s : State) : Bool := (List.range s.fabricPorts).any fun p => !s.isTwinPort p && (s.port p).live

/-- The probe: an RD of a line of a device page of the lost id (13 R363). -/
def State.probe (s : State) : State :=
  let h : Head := { type := 0x01, dst := s.twin.twinId, addr := 0x4002_0000_0000, len := 64 }
  let s := { s with twin := { s.twin with probing := true } }
  (sendRequest h [] .probe).state s

/-- TWIN_LOST: no heartbeat has arrived for TWIN_DEAD_US (13 R356, R357, R362, R364). -/
def execTwinLost (s : State) : Out :=
  .next <|
    if !s.watchesTwin || s.time < s.twin.lastHeartbeat + usToTicks (s.val (dkey 0xA001 1)) then s
    else
    let s := s.wake
    if !s.domainUp || s.twin.pair = .joining || s.twin.pair = .shadow then s.fence
    else match s.twin.pair with
      | .paired => s.recordDegraded.probe
      | .resilvering =>
        let s := s.recordDegraded
        { s with twin := { s.twin with pair := .degraded, admission := false, resilvered := false } }
      | _ => ({ s with twin := { s.twin with record := none, copied := [], resilverChunk := 0 } } : State).dropUnacked

/-- PROBE_TIMEOUT: the probe is unanswered; the survivor is DEGRADED and promotes (13 R363, R365). -/
def execProbeTimeout (s : State) : Out :=
  .next <|
    if s.twin.probing then
      let s := { s with fab := { s.fab with tags := SMap.only s.fab.tags fun _ q => q.purpose ≠ Purpose.probe } }
      s.promote
    else s

/-- WARM_RESET_ANNOUNCE: the twin is about to reset, and this package takes over without detection or probe (13 R357, R368). -/
def execWarmResetAnnounce (s : State) : Out :=
  .next <|
    if s.twin.pair = .paired && !s.twin.probing then
      ({ s with twin := { s.twin with announced := true } } : State).heard.promote
    else s

/-! ### The resilver -/

/-- Lines of a 4 MiB chunk. -/
def chunkLines : Nat := 65536

/-- Sends one chunk of an extent as RESILVER records of at most 63 lines (13 R360, R369). -/
def State.sendChunk (s : State) (e c : Nat) : State :=
  let base := e * 2 ^ 24 + c * chunkLines
  (List.range (ceilDiv chunkLines 63)).foldl (fun s i =>
    let lo := base + 63 * i
    let n := min 63 (chunkLines - 63 * i)
    s.sendRecord 6 n (lo * 64) (2 ^ 64 - 1) metaLine none
      { header := 0, data := s.peek (lo * 64) (64 * n), bad := (List.range n).filter fun j => s.poisoned (lo + j) }) s

/-- Every extent is copied: the twin is told, and twins that join or meet again are PAIRED. -/
def State.copyDone (s : State) : State :=
  let s := s.sendNote 2 none .resilverDone
  let s := { s with twin := { s.twin with resilvered := true } }
  if s.twin.pair = .unpaired || (s.twin.pair = .split && s.twin.peerDone) then
    { s with twin := { s.twin with pair := .paired, copied := [] } }
  else s

/-- RESILVER_CHUNK: the next 4 MiB are copied; the cursor is checkpointed after each extent (13 R369). The copy ends when
nothing is left and the twin has acknowledged all of it. -/
def execResilverChunk (s : State) : Out :=
  .next <|
    if s.twin.recordedDegraded || s.twin.resilvered || s.twin.pair = .paired || !s.mirrorsMeta then s
    else match s.copyList with
      | e :: _ =>
        let c := s.twin.resilverChunk
        let s := s.sendChunk e c
        let s := { s with twin := { s.twin with resilverDone := s.twin.resilverDone + 2 ^ 22 } }
        if c + 1 < 256 then { s with twin := { s.twin with resilverChunk := c + 1 } }
        else
          let s := s.updExtent e fun x => { x with written := false }
          ({ s with twin := { s.twin with copied := s.twin.copied ++ [e], resilverChunk := 0 } } : State).mirrorMeta none
      | [] => if s.twin.unacked.any fun (_, l, _) => l = metaLine then s else s.copyDone

/-! ### Admission (13 R371) -/

/-- A step boundary: admission of a twin in SHADOW begins; on the joining package its twin is told. -/
def State.stepBoundary (s : State) : State :=
  if s.twin.pair = .shadow then s.sendNote 2 none .stepAdmit else s.applyNote .stepAdmit

/-- STEP_ADMIT: it marks a step boundary; RESULT holds STEP (13 R371, R373). -/
def execStepAdmit (slot : Nat) (s : State) : Out :=
  .next (runSlot 0x95 slot (fun sl => do
    modify State.stepBoundary
    pure (.ok, 0, sl.f 320 48)) s)

/-- ADMIT_WAIT_EXPIRY: ADMIT_WAIT_MS, where it is not 0, has passed in SHADOW (13 R371). -/
def execAdmitWaitExpiry (s : State) : Out :=
  .next (if s.val (dkey 0xA003 1) = 0 then s else s.stepBoundary)

/-- ADMISSION_HANDOVER: no command of the joining id's rings is in flight: the ring state is handed over, and the twin answers
for its id again (13 R371). -/
def execAdmissionHandover (s : State) : Out :=
  .next <| match s.twin.answersFor with
  | none => s
  | some x =>
    if !s.twin.admission || s.fe.slots.any (fun (_, sl) => resumedRing ≤ sl.ring) then s
    else
      let m := s.metaFor x true
      let s := s.keepContexts
      let s := s.sendRecord 2 0 0 (2 ^ 64 - 1) metaLine none { header := 0, data := [], content := [m, s.metaOf] }
      let s := s.dropTwin
      let twin := { s.twin with pair := .paired, answersFor := none, admission := false, resilvered := false, announced := false
                                held := some { m with handover := false }, copied := [], resilverChunk := 0 }
      let s := ({ s with twin := twin } : State).sendNotices x true
      (s.fmEvent 0x09 x 0 0).logFree 0x0014 13 0 x

end Sys2Proof.Machine
end

