-- ==== Sys2Proof/Machine/Vector.lean ====
section
/-!
DEFINITION. Vector, matrix and Hamming instructions of the silt core (07 R194 to R201).
-/

namespace Sys2Proof.Machine

open Sys2Proof

/-! ### Fields of formats V and X (07 Table 7-4) -/

def fVd (w : BitVec 32) : Nat := fld w 6 5
def fVs1 (w : BitVec 32) : Nat := fld w 11 5
def fVs2 (w : BitVec 32) : Nat := fld w 16 5
def fPg (w : BitVec 32) : Nat := fld w 21 3
def fTy (w : BitVec 32) : Nat := fld w 24 3
def fFn (w : BitVec 32) : Nat := fld w 27 5

/-! ### Element types (07 Table 7-9) -/

/-- Bytes of a lane. -/
def tyBytes (ty : Nat) : Nat :=
  match ty with
  | 0 | 6 => 4
  | 1 | 2 | 7 => 2
  | _ => 1

/-- Lanes of a vector. -/
def tyLanes (ty : Nat) : Nat := 128 / tyBytes ty

/-- The floating-point format of a type. -/
def tyFmt (ty : Nat) : Option Fmt := fmtOfCode ty

/-- Whether a type is a signed integer. -/
def tySigned (ty : Nat) : Bool := ty = 5 || ty = 6

/-- The range of an integer type. -/
def tyLow (ty : Nat) : Int := if tySigned ty then -(2 ^ (8 * tyBytes ty - 1) : Nat) else 0
def tyHigh (ty : Nat) : Int := if tySigned ty then (2 ^ (8 * tyBytes ty - 1) : Nat) - 1 else (2 ^ (8 * tyBytes ty) : Nat) - 1

/-- The integer that a lane of an integer type holds. -/
def tyInt (ty v : Nat) : Int := if tySigned ty then signed (8 * tyBytes ty) v else v

/-- The number that a lane holds. -/
def tyRead (ty v : Nat) : Num :=
  match tyFmt ty with
  | some f => f.read v
  | none => .ofInt (tyInt ty v)

/-- The lane that a number becomes, rounded once, with its flags (03 R70, 07 R196). -/
def tyWrite (ty : Nat) (x : Num) : Nat × Nat :=
  match tyFmt ty with
  | some f => f.write x
  | none =>
    let (i, fl) := x.toInt (tyLow ty) (tyHigh ty)
    (wrap (8 * tyBytes ty) i, fl)

/-- The FORMAT column under which lanes of a type are counted (15 Table 15-1). -/
def tyColumn (ty : Nat) : Nat :=
  match ty with
  | 5 => 7
  | 6 | 7 => 0xF
  | t => t

/-- Types that the arithmetic accepts: all but E4M3 and E5M2 (07 R194). -/
def tyArith (ty : Nat) : Bool := ty ≠ 3 && ty ≠ 4

/-! ### Lanes -/

/-- Lanes of `bits` bits of a register. -/
def lanesOf {n : Nat} (bits : Nat) (v : BitVec n) : List Nat := (List.range (n / bits)).map fun i => fld v (i * bits) bits

/-- A register from its lanes. -/
def ofLanes (n bits : Nat) (l : List Nat) : BitVec n := BitVec.ofNat n (pack (l.map fun v => (v, bits)))

/-- Whether lane `i` of a type is active (07 R194). -/
def laneActive (p : PReg) (ty i : Nat) : Bool := p.getLsbD (i * tyBytes ty)

/-- Lanes of a vector of a type. -/
def vLanes (ty : Nat) (v : VReg) : List Nat := lanesOf (8 * tyBytes ty) v

/-- A vector of a type from its lanes. -/
def vOf (ty : Nat) (l : List Nat) : VReg := ofLanes 1024 (8 * tyBytes ty) l

/-- A predicate with every byte of the lanes that satisfy `f` set. -/
def pOf (ty : Nat) (f : Nat → Bool) : PReg :=
  BitVec.ofNat 128 (pack ((List.range 128).map fun b => (bit (f (b / tyBytes ty)), 1)))

/-- The flags of a list of results. -/
def joinFlags (l : List (Nat × Nat)) : Nat := l.foldl (fun a r => a ||| r.2) 0

/-- Writes the active lanes of a vector register, and sets the flags of those lanes (07 R194, R201). -/
def writeLanes (n vd ty : Nat) (p : PReg) (f : Nat → Nat × Nat) : CoreE Unit := do
  let c ← coreGet n
  let old := vLanes ty (c.getV vd)
  let new := (List.range (tyLanes ty)).map fun i => if laneActive p ty i then f i else (old.getD i 0, 0)
  coreSet n fun c => (c.putV vd (vOf ty (new.map (·.1)))).raiseFlags (joinFlags new)

/-! ### VALU (07 R195) -/

/-- Whether a VALU function accepts a type (07 Table 7-10). -/
def valuTypes (fn ty : Nat) : Bool :=
  tyArith ty &&
  if fn ≤ 5 || fn = 13 then true
  else if fn ≤ 10 then 5 ≤ ty
  else if fn ≤ 12 then ty ≠ 7
  else fn ≤ 15 && ty = 0

/-- A floating-point VALU function of a lane: the result rounded once, and its flags. -/
def valuFloat (f : Fmt) (fn d a b : Nat) : Nat × Nat :=
  let x := f.read a
  let y := f.read b
  let z := f.read d
  let out := fun (inputs : List Num) (r : Num) => let (v, fl) := f.write r; (v, fl ||| nvOf inputs r)
  match fn with
  | 0 => out [x, y] (x.add y)
  | 1 => out [x, y] (x.add y.negate)
  | 2 => out [x, y] (x.mul y)
  | 3 => out [x, y, z] (z.add (x.mul y))
  | 4 => out [x, y] (x.minimum y)
  | 5 => out [x, y] (x.maximum y)
  | 11 => out [x] x.abs
  | 12 => out [x] x.negate
  | 13 => (a, 0)
  | 14 => out [x, y] (x.div y)
  | _ => out [x] x.sqrt

/-- An integer VALU function of a lane. -/
def valuInt (ty fn d a b : Nat) : Nat :=
  let w := 8 * tyBytes ty
  let x := tyInt ty a
  let y := tyInt ty b
  match fn with
  | 0 => wrap w (x + y)
  | 1 => wrap w (x - y)
  | 2 => wrap w (x * y)
  | 3 => wrap w (tyInt ty d + x * y)
  | 4 => wrap w (min x y)
  | 5 => wrap w (max x y)
  | 6 => a &&& b
  | 7 => a ||| b
  | 8 => a ^^^ b
  | 9 => wrap w (x * (2 ^ (b % w) : Nat))
  | 10 => wrap w (x / (2 ^ (b % w) : Nat))
  | 11 => wrap w x.natAbs
  | 12 => wrap w (-x)
  | _ => a

/-- A VALU function of a lane. -/
def valuLane (ty fn d a b : Nat) : Nat × Nat :=
  match tyFmt ty with
  | some f => valuFloat f fn d a b
  | none => (valuInt ty fn d a b, 0)

/-- Lanes of a type that a predicate makes active. -/
def activeLanes (p : PReg) (ty : Nat) : List Nat := (List.range (tyLanes ty)).filter (laneActive p ty)

/-- VALU (07 R195): VABS, VNEG, VMOV and VSQRT use no second source. -/
def execValu (core : Nat) (word : BitVec 32) (s : State) : Out :=
  .next (s.instruction core word (major word = 0x20) do
    let c ← coreGet core
    let fn := fFn word
    let ty := fTy word
    legalE (valuTypes fn ty && (fn < 11 || fn = 14 || fVs2 word = 0))
    let p := c.getP (fPg word)
    let d := vLanes ty (c.getV (fVd word))
    let a := vLanes ty (c.getV (fVs1 word))
    let b := vLanes ty (c.getV (fVs2 word))
    if fn = 2 || fn = 3 then countC core 0 (tyColumn ty) (activeLanes p ty).length else pure ()
    writeLanes core (fVd word) ty p fun i => valuLane ty fn (d.getD i 0) (a.getD i 0) (b.getD i 0)
    pure c.nextPc)

/-! ### VCVT (07 R196) -/

/-- The source lane of destination lane `j` of part `q`, if the part has one. -/
def cvtSource (src dst q j : Nat) : Option Nat :=
  if tyBytes src > tyBytes dst then
    (if q * tyLanes src ≤ j && j < (q + 1) * tyLanes src then some (j - q * tyLanes src) else none)
  else some (q * tyLanes dst + j)

/-- The ratio of two widths. -/
def cvtRatio (src dst : Nat) : Nat := max (tyBytes src / tyBytes dst) (tyBytes dst / tyBytes src)

/-- CVT: lanes of the source type become lanes of TY. -/
def vcvtLanes (core : Nat) (word : BitVec 32) : CoreE Unit := do
  let c ← coreGet core
  let src := fVs2 word % 8
  let ty := fTy word
  legalE (fVs2 word < 8 && fFn word < cvtRatio src ty)
  let a := vLanes src (c.getV (fVs1 word))
  let d := vLanes ty (c.getV (fVd word))
  writeLanes core (fVd word) ty (c.getP (fPg word)) fun j =>
    match cvtSource src ty (fFn word) j with
    | some i => tyWrite ty (tyRead src (a.getD i 0))
    | none => (d.getD j 0, 0)

/-- Byte `i` of a register replaced. -/
def putByte (v : Word) (i b : Nat) : Word := BitVec.ofNat 64 (setFld v.toNat (8 * i) 8 b)

/-- MXE8 and MXE4: 32 binary32 lanes become one MX block (03 R82). -/
def mxEncode (core : Nat) (word : BitVec 32) (f : Fmt) (big : Nat) : CoreE Unit := do
  let c ← coreGet core
  let i := fTy word % 4
  let (scale, elems, flags) := mxWrite f big ((vLanes 0 (c.getV (fVs1 word))).map binary32.read)
  let block := pack (elems.map fun e => (e, f.bits))
  let size := 32 * f.bits
  coreSet core fun c =>
    let vd := BitVec.ofNat 1024 (setFld (c.getV (fVd word)).toNat (i * size) size block)
    ((c.putV (fVd word) vd).putS (fVs2 word) (putByte (c.getS (fVs2 word)) i scale)).raiseFlags flags

/-- MXD8 and MXD4: one MX block becomes 32 binary32 lanes (03 R71). -/
def mxDecode (core : Nat) (word : BitVec 32) (f : Fmt) : CoreE Unit := do
  let c ← coreGet core
  let i := fTy word % 4
  let size := 32 * f.bits
  let elems := lanesOf f.bits (BitVec.ofNat size (fld (c.getV (fVs1 word)) (i * size) size))
  let scale := fld (c.getS (fVs2 word)) (8 * i) 8
  writeLanes core (fVd word) 0 (BitVec.allOnes 128) fun j => binary32.write (mxRead f scale (elems.getD j 0))

/-- VCVT (07 R196): for the MX functions, TY holds the block index and pg is p0. -/
def execVcvt (core : Nat) (word : BitVec 32) (s : State) : Out :=
  .next (s.instruction core word (major word = 0x21) do
    let c ← coreGet core
    let mx := fPg word = 0 && fTy word < 4
    match fFn word with
    | 0 | 1 | 2 | 3 => vcvtLanes core word
    | 4 => do
      legalE mx
      mxEncode core word fmtE4m3 448
    | 5 => do
      legalE mx
      mxEncode core word fmtE2m1 6
    | 6 => do
      legalE mx
      mxDecode core word fmtE4m3
    | 7 => do
      legalE mx
      mxDecode core word fmtE2m1
    | _ => excE 0x01 0
    pure c.nextPc)

/-! ### VRED (07 R197) -/

/-- A lane compare of VRED: FN 0 equal, 1 less, 2 less or equal; false with a NaN. -/
def laneCompare (ty fn a b : Nat) : Bool :=
  let x := tyRead ty a
  let y := tyRead ty b
  match fn with
  | 0 => x.eqv y
  | 1 => x.lt y
  | _ => x.lt y || x.eqv y

/-- The least, or with `up` the greatest, of lane numbers (03 R74); none of an empty list. -/
def extremum (up : Bool) (l : List Num) : Option Num :=
  match l with
  | [] => none
  | x :: rest => some (rest.foldl (if up then Num.maximum else Num.minimum) x)

/-- A number as a scalar result: a binary32 encoding, or a 64-bit integer (07 R197). -/
def reduced (ty : Nat) (x : Num) : Word :=
  match tyFmt ty with
  | some _ => BitVec.ofNat 64 (binary32.write x).1
  | none => BitVec.ofInt 64 (x.toInt (-(2 ^ 63 : Nat)) ((2 ^ 64 : Nat) - 1)).1

/-- RSUM: integers as a 64-bit sum; a floating-point sum in an order that is open (03 R76). -/
def rsum (core ty : Nat) (l : List Nat) : CoreE Word := do
  match tyFmt ty with
  | none => pure (BitVec.ofInt 64 (l.map (tyInt ty)).sum)
  | some _ => do
    let (d, s) := (← get).drawRun l.length
    set s
    let (x, flags) := sumTerms d ((l.map (tyRead ty)).filter fun x => !x.isNan)
    coreSet core fun c => c.raiseFlags flags
    pure (BitVec.ofNat 64 (binary32.write x).1)

/-- RMIN and RMAX; with no lane that qualifies the manual states no result, and it is a free value (DESIGN CHOICE, log 27). -/
def rextremum (up : Bool) (ty : Nat) (l : List Nat) : CoreE Word := do
  match extremum up ((l.map (tyRead ty)).filter fun x => !x.isNan) with
  | some x => pure (reduced ty x)
  | none => do
    let (v, s) := (← get).draw
    set s
    pure (BitVec.ofNat 64 v)

/-- RMINI: the lowest index of an active lane that holds the minimum; all ones if none qualifies. -/
def rmini (ty : Nat) (p : PReg) (a : List Nat) : Word :=
  let ok := (activeLanes p ty).filter fun i => !(tyRead ty (a.getD i 0)).isNan
  match ok.find? fun i => ok.all fun j => !(tyRead ty (a.getD j 0)).below (tyRead ty (a.getD i 0)) with
  | some i => BitVec.ofNat 64 i
  | none => BitVec.allOnes 64

/-- VRED (07 R197, Table 7-12). -/
def execVred (core : Nat) (word : BitVec 32) (s : State) : Out :=
  .next (s.instruction core word (major word = 0x22) do
    let c ← coreGet core
    let ty := fTy word
    let fn := fFn word
    let p := c.getP (fPg word)
    let a := vLanes ty (c.getV (fVs1 word))
    let b := vLanes ty (c.getV (fVs2 word))
    let act := (activeLanes p ty).map fun i => a.getD i 0
    legalE (tyArith ty && (fn ≤ 2 || fVs2 word = 0))
    match fn with
    | 0 | 1 | 2 => do
      legalE (fVd word < 8)
      coreSet core fun c => c.putP (fVd word) (pOf ty fun i => laneActive p ty i && laneCompare ty fn (a.getD i 0) (b.getD i 0))
      pure c.nextPc
    | 3 => do putScalar core (fVd word) (← rsum core ty act)
    | 4 => do putScalar core (fVd word) (← rextremum false ty act)
    | 5 => do putScalar core (fVd word) (← rextremum true ty act)
    | 6 => putScalar core (fVd word) (rmini ty p a)
    | 7 => do
      legalE (fPg word = 0)
      let r := (leBytes 128 (c.getV (fVs1 word)).toNat).foldl crcByte ((c.getS (fVd word)).toNat % 2 ^ 32)
      putScalar core (fVd word) (BitVec.ofNat 64 (setFld (c.getS (fVd word)).toNat 0 32 r))
    | _ => excE 0x01 0)

/-! ### VPERM (07 R197) -/

/-- VPERM (07 R197, Table 7-12). -/
def execVperm (core : Nat) (word : BitVec 32) (s : State) : Out :=
  .next (s.instruction core word (major word = 0x23) do
    let c ← coreGet core
    let ty := fTy word
    let p := c.getP (fPg word)
    let vd := fVd word
    let old := vLanes ty (c.getV vd)
    let a := vLanes ty (c.getV (fVs1 word))
    let b := vLanes ty (c.getV (fVs2 word))
    let s1 := (c.getS (fVs1 word)).toNat
    let at_ := (c.getS (fVs2 word)).toNat % tyLanes ty
    match fFn word with
    | 0 => do
      legalE (fVs2 word = 0)
      writeLanes core vd ty p fun _ => (s1, 0)
      pure c.nextPc
    | 1 => do
      legalE (fPg word = 0)
      putScalar core vd (BitVec.ofNat 64 (a.getD at_ 0))
    | 2 => do
      writeLanes core vd ty p fun i => (if i = at_ then s1 else old.getD i 0, 0)
      pure c.nextPc
    | 3 => do
      legalE (5 ≤ ty && fVs1 word = 0 && fVs2 word = 0)
      writeLanes core vd ty p fun i => (i, 0)
      pure c.nextPc
    | 4 => do
      legalE (fVs2 word = 0)
      let kept := (activeLanes p ty).map fun i => a.getD i 0
      coreSet core fun c => c.putV vd (vOf ty kept)
      pure c.nextPc
    | 5 => do
      let new := (List.range (tyLanes ty)).map fun i => if laneActive p ty i then a.getD i 0 else b.getD i 0
      coreSet core fun c => c.putV vd (vOf ty new)
      pure c.nextPc
    | _ => excE 0x01 0)

/-! ### PRED (07 R197) -/

/-- PRED (07 R197, Table 7-12). -/
def execPred (core : Nat) (word : BitVec 32) (s : State) : Out :=
  .next (s.instruction core word (major word = 0x24) do
    let c ← coreGet core
    let ty := fTy word
    let a := c.getP (fVs1 word)
    let b := c.getP (fVs2 word)
    let setP := fun (two one : Bool) (v : PReg) => (do
      legalE (fVd word < 8 && (if one then fVs1 word < 8 else fVs1 word = 0) && (if two then fVs2 word < 8 else fVs2 word = 0))
      coreSet core fun c => c.putP (fVd word) v
      pure c.nextPc : CoreE Word)
    legalE (fPg word = 0)
    match fFn word with
    | 0 => setP true true (a &&& b)
    | 1 => setP true true (a ||| b)
    | 2 => setP true true (a ^^^ b)
    | 3 => setP false true (~~~a)
    | 4 => setP false false (BitVec.allOnes 128)
    | 5 => setP false false 0
    | 6 => do
      legalE (tyArith ty && fVs1 word < 8 && fVs2 word = 0)
      putScalar core (fVd word) (BitVec.ofNat 64 (activeLanes a ty).length)
    | 7 => do
      legalE (tyArith ty && fVd word < 8 && fVs1 word = 0)
      coreSet core fun c => c.putP (fVd word) (pOf ty fun i => i < (c.getS (fVs2 word)).toNat)
      pure c.nextPc
    | _ => excE 0x01 0)

/-! ### MMA and ACC (07 R198, R199) -/

def fAd (w : BitVec 32) : Nat := fld w 6 3
def fV1 (w : BitVec 32) : Nat := fld w 9 5
def fV2 (w : BitVec 32) : Nat := fld w 14 5
def fSs (w : BitVec 32) : Nat := fld w 19 5

/-- The K of an MMA function, and the FORMAT codes of A and B (07 Table 7-13); none for a reserved FN. -/
def mmaShape (fn : Nat) : Option (Nat × Nat × Nat) :=
  match fn with
  | 0 => some (4, 0, 0)
  | 1 => some (8, 1, 1)
  | 2 => some (8, 2, 2)
  | 3 => some (16, 3, 3)
  | 4 => some (16, 3, 4)
  | 5 => some (16, 4, 3)
  | 6 => some (16, 4, 4)
  | 7 => some (16, 7, 7)
  | 8 => some (16, 5, 5)
  | 9 => some (32, 6, 6)
  | _ => none

/-- The format of the elements of a FORMAT code; MXFP8 has E4M3 elements and MXFP4 E2M1 (03 R67). -/
def mmaFmt (code : Nat) : Fmt :=
  match code with
  | 5 => fmtE4m3
  | 6 => fmtE2m1
  | c => (fmtOfCode c).getD binary32

/-- Bits of an element. -/
def mmaBits (code : Nat) : Nat := if code = 7 then 8 else (mmaFmt code).bits

/-- Element (m, k) of A. MXFP4 holds an even k in the low nibble (DEDUCED, log 25). -/
def elemA (code kk : Nat) (v : VReg) (m k : Nat) : Nat := fld v ((m * kk + k) * mmaBits code) (mmaBits code)

/-- Element (k, n) of B; in MXFP4 the elements (k, n) and (k + 1, n), k even, share a byte (DEDUCED, log 25). -/
def elemB (code : Nat) (v : VReg) (k n : Nat) : Nat :=
  if code = 6 then fld v (((k / 2) * 8 + n) * 8 + k % 2 * 4) 4 else fld v ((k * 8 + n) * mmaBits code) (mmaBits code)

/-- One floating-point lane of an MMA: the products, exact, and the accumulator are summed in an order that is open
(03 R72). -/
def mmaFloat (d kk ca cb : Nat) (a b : VReg) (scaleA scaleB : Num) (acc : Option Nat) (m n : Nat) : Nat × Nat :=
  let xs := (List.range kk).map fun k => ((mmaFmt ca).read (elemA ca kk a m k), (mmaFmt cb).read (elemB cb b k n))
  let scale := scaleA.mul scaleB
  let prods := xs.map fun (x, y) => (x.mul y).mul scale
  let nv := (xs.zip prods).foldl (fun f (xy, p) => f ||| nvOf [xy.1, xy.2, scale] p) 0
  let (r, fl) := sumTerms d (prods ++ (acc.map binary32.read).toList)
  let (v, fl2) := binary32.write r
  (v, nv ||| fl ||| fl2)

/-- One INT8 lane of an MMA: the sum wraps (03 R73). -/
def mmaInt (kk : Nat) (a b : VReg) (acc : Nat) (m n : Nat) : Nat :=
  wrap 32 ((acc : Int) + ((List.range kk).map fun k => signed 8 (elemA 7 kk a m k) * signed 8 (elemB 7 b k n)).sum)

/-- MMA (07 R198): AUX bit 24 writes the product in place of adding it. -/
def execMma (core : Nat) (word : BitVec 32) (s : State) : Out :=
  .next (s.instruction core word (major word = 0x25) do
    let c ← coreGet core
    match mmaShape (fFn word) with
    | none => excE 0x01 0
    | some (kk, ca, cb) => do
      let mx := ca = 5 || ca = 6
      legalE (fld word 25 2 = 0 && (if mx then fSs word % 2 = 0 else fSs word = 0))
      let zero := flag word 24
      let a := c.getV (fV1 word)
      let b := c.getV (fV2 word)
      let acc := lanesOf 32 (c.getA (fAd word))
      let scale := fun (r i : Nat) => if mx then scaleRead (fld (c.getS r) (8 * i) 8) else .fin false 1 0
      countC core 0 ca (64 * kk)
      let (d, s) := (← get).drawRun (64 * (kk + 1))
      set s
      let lanes := (List.range 64).map fun i =>
        let m := i / 8
        let n := i % 8
        let old := acc.getD i 0
        if ca = 7 then (mmaInt kk a b (if zero then 0 else old) m n, 0)
        else mmaFloat (d + i * (kk + 1)) kk ca cb a b (scale (fSs word) m) (scale (fSs word + 1) n)
          (if zero then none else some old) m n
      coreSet core fun c =>
        let c := { c with intAcc := BitVec.ofNat 8 (setFld c.intAcc.toNat (fAd word) 1 (bit (ca = 7))) }
        (c.putA (fAd word) (ofLanes 2048 32 (lanes.map (·.1)))).raiseFlags (joinFlags lanes)
      pure c.nextPc)

/-- The 64 lanes of an accumulator converted to a 16-bit format (07 R199). -/
def accNarrow (core : Nat) (word : BitVec 32) (f : Fmt) : CoreE Unit := do
  let c ← coreGet core
  let isInt := c.intAcc.getLsbD (fAd word)
  let l := (lanesOf 32 (c.getA (fAd word))).map fun v => f.write (if isInt then .ofInt (signed 32 v) else binary32.read v)
  coreSet core fun c => (c.putV (fV1 word) (ofLanes 1024 16 (l.map (·.1)))).raiseFlags (joinFlags l)

/-- ACC (07 R199, Table 7-14). -/
def execAcc (core : Nat) (word : BitVec 32) (s : State) : Out :=
  .next (s.instruction core word (major word = 0x26) do
    let c ← coreGet core
    let h := fld word 24 1
    legalE (fld word 25 2 = 0 && fV2 word = 0 && fSs word = 0)
    match fFn word with
    | 0 => do
      legalE (fV1 word = 0)
      coreSet core fun c => { c.putA (fAd word) 0 with intAcc := BitVec.ofNat 8 (setFld c.intAcc.toNat (fAd word) 1 0) }
    | 1 => coreSet core fun c => c.putV (fV1 word) (BitVec.ofNat 1024 (fld (c.getA (fAd word)) (1024 * h) 1024))
    | 2 => accNarrow core word bfloat16
    | 3 => accNarrow core word binary16
    | 4 => coreSet core fun c =>
        c.putA (fAd word) (BitVec.ofNat 2048 (setFld (c.getA (fAd word)).toNat (1024 * h) 1024 (c.getV (fV1 word)).toNat))
    | _ => excE 0x01 0
    pure c.nextPc)

/-! ### HAM (07 R200) -/

/-- The distance of code `j` of a register pair from its query part. -/
def hamming (cl : Nat) (lo hi q : VReg) (j : Nat) : Nat :=
  let v := if cl * j < 1024 then lo else hi
  popCount cl (fld v (cl * j % 1024) cl ^^^ fld q (cl * j % 1024) cl)

/-- HAM (07 R200): FN is 0, the pair is even, and the group fits the lanes. -/
def execHam (core : Nat) (word : BitVec 32) (s : State) : Out :=
  .next (s.instruction core word (major word = 0x27) do
    let c ← coreGet core
    let cl := 64 * 2 ^ fTy word
    let n := 2048 / cl
    let g := fPg word
    legalE (fFn word = 0 && fTy word ≤ 4 && fVs1 word % 2 = 0 && (g + 1) * n ≤ 64)
    let lo := c.getV (fVs1 word)
    let hi := c.getV (fVs1 word + 1)
    let q := c.getV (fVs2 word)
    countC core 1 8 32
    let old := vLanes 7 (c.getV (fVd word))
    let new := (List.range 64).map fun i => if g * n ≤ i && i < (g + 1) * n then hamming cl lo hi q (i - g * n) else old.getD i 0
    coreSet core fun c => c.putV (fVd word) (vOf 7 new)
    pure c.nextPc)

end Sys2Proof.Machine
end

