-- ==== Sys2Proof/Machine/Dispatch.lean ====
section
/-!
DEFINITION. The dispatch of the commands: one arm for each constructor of Instr, each a direct call of its meaning.
-/

namespace Sys2Proof.Machine

/-- What a command does to everything but the queue of pending commands. -/
def exec (i : Instr) (s : State) : Host.Outcome State Fault Refusal :=
  match i with
  | .tailPresented ring value => Sys2Proof.Machine.execTailPresented ring value s
  | .headPresented cq value => Sys2Proof.Machine.execHeadPresented cq value s
  | .descriptorFetch => Sys2Proof.Machine.execDescriptorFetch s
  | .completionWrite slot => Sys2Proof.Machine.execCompletionWrite slot s
  | .irqHoldoffExpiry vector => Sys2Proof.Machine.execIrqHoldoffExpiry vector s
  | .inFlightRefresh ring => Sys2Proof.Machine.execInFlightRefresh ring s
  | .leaseLapse lease => Sys2Proof.Machine.execLeaseLapse lease s
  | .commandTimeout slot => Sys2Proof.Machine.execCommandTimeout slot s
  | .nop slot => Sys2Proof.Machine.execNop slot s
  | .fence slot => Sys2Proof.Machine.execFence slot s
  | .summary slot => Sys2Proof.Machine.execSummary slot s
  | .leaseRenew slot => Sys2Proof.Machine.execLeaseRenew slot s
  | .commandRingRegister slot => Sys2Proof.Machine.execCommandRingRegister slot s
  | .commandRingDeregister slot => Sys2Proof.Machine.execCommandRingDeregister slot s
  | .deregisterDrainDone ring => Sys2Proof.Machine.execDeregisterDrainDone ring s
  | .completionRingRegister slot => Sys2Proof.Machine.execCompletionRingRegister slot s
  | .completionRingDeregister slot => Sys2Proof.Machine.execCompletionRingDeregister slot s
  | .leaseResume slot => Sys2Proof.Machine.execLeaseResume slot s
  | .bootRing value => Sys2Proof.Machine.execBootRing value s
  | .runOne slot => Sys2Proof.Machine.execRunOne slot s
  | .enterStep slot => Sys2Proof.Machine.execEnterStep slot s
  | .enterSerial slot => Sys2Proof.Machine.execEnterSerial slot s
  | .exitStep slot => Sys2Proof.Machine.execExitStep slot s
  | .sampleTenantSet slot => Sys2Proof.Machine.execSampleTenantSet slot s
  | .sampleRingSet slot => Sys2Proof.Machine.execSampleRingSet slot s
  | .clearTenantSet slot => Sys2Proof.Machine.execClearTenantSet slot s
  | .mapCounterPage slot => Sys2Proof.Machine.execMapCounterPage slot s
  | .unmapCounterPage slot => Sys2Proof.Machine.execUnmapCounterPage slot s
  | .counterPageRefresh => Sys2Proof.Machine.execCounterPageRefresh s
  | .counterClear value => Sys2Proof.Machine.execCounterClear value s
  | .tileMove slot => Sys2Proof.Machine.execTileMove slot s
  | .modelLoad slot => Sys2Proof.Machine.execModelLoad slot s
  | .modelUnload slot => Sys2Proof.Machine.execModelUnload slot s
  | .modelSchedule slot => Sys2Proof.Machine.execModelSchedule slot s
  | .layerFetchStart model execution => Sys2Proof.Machine.execLayerFetchStart model execution s
  | .layerLanded model execution => Sys2Proof.Machine.execLayerLanded model execution s
  | .kvSpill slot => Sys2Proof.Machine.execKvSpill slot s
  | .kvFetch slot => Sys2Proof.Machine.execKvFetch slot s
  | .ftlWriteAccept write => Sys2Proof.Machine.execFtlWriteAccept write s
  | .ftlBufferFlush stack page block => Sys2Proof.Machine.execFtlBufferFlush stack page block s
  | .gcRelocation stack source target => Sys2Proof.Machine.execGcRelocation stack source target s
  | .wearLevelMove stack source target => Sys2Proof.Machine.execWearLevelMove stack source target s
  | .readDisturbScan stack block worstBits => Sys2Proof.Machine.execReadDisturbScan stack block worstBits s
  | .patrolScan stack block worstBits => Sys2Proof.Machine.execPatrolScan stack block worstBits s
  | .ftlReadDone stack page block outcome => Sys2Proof.Machine.execFtlReadDone stack page block outcome s
  | .blockRetire stack block => Sys2Proof.Machine.execBlockRetire stack block s
  | .expanderFailure decoder => Sys2Proof.Machine.execExpanderFailure decoder s
  | .alloc slot choice => Sys2Proof.Machine.execAlloc slot choice s
  | .bind slot => Sys2Proof.Machine.execBind slot s
  | .unmap slot => Sys2Proof.Machine.execUnmap slot s
  | .extentRevoke slot => Sys2Proof.Machine.execExtentRevoke slot s
  | .drainEnd extent => Sys2Proof.Machine.execDrainEnd extent s
  | .drainLimit extent => Sys2Proof.Machine.execDrainLimit extent s
  | .scrubDone extent => Sys2Proof.Machine.execScrubDone extent s
  | .resolveFaults slot => Sys2Proof.Machine.execResolveFaults slot s
  | .invalidateAsid slot => Sys2Proof.Machine.execInvalidateAsid slot s
  | .convertPointers slot => Sys2Proof.Machine.execConvertPointers slot s
  | .asidCreate slot => Sys2Proof.Machine.execAsidCreate slot s
  | .asidSetWindow slot => Sys2Proof.Machine.execAsidSetWindow slot s
  | .asidDestroy slot => Sys2Proof.Machine.execAsidDestroy slot s
  | .faultBatchClose => Sys2Proof.Machine.execFaultBatchClose s
  | .faultBatchRetry => Sys2Proof.Machine.execFaultBatchRetry s
  | .faultRingVa sub value => Sys2Proof.Machine.execFaultRingVa sub value s
  | .agentReadShared agent address victim => Sys2Proof.Machine.execAgentReadShared agent address victim s
  | .agentReadOwnership agent address victim => Sys2Proof.Machine.execAgentReadOwnership agent address victim s
  | .agentWriteBack agent line data => Sys2Proof.Machine.execAgentWriteBack agent line data s
  | .snoopAnswer agent line data held => Sys2Proof.Machine.execSnoopAnswer agent line data held s
  | .snoopTimeout agent => Sys2Proof.Machine.execSnoopTimeout agent s
  | .agentTable agent row => Sys2Proof.Machine.execAgentTable agent row s
  | .homeAtomic request => Sys2Proof.Machine.execHomeAtomic request s
  | .albHoldExpiry die line => Sys2Proof.Machine.execAlbHoldExpiry die line s
  | .albEntryChoice die => Sys2Proof.Machine.execAlbEntryChoice die s
  | .watchRecallExpiry line => Sys2Proof.Machine.execWatchRecallExpiry line s
  | .flush slot => Sys2Proof.Machine.execFlush slot s
  | .publish slot => Sys2Proof.Machine.execPublish slot s
  | .publishStagingGrant region => Sys2Proof.Machine.execPublishStagingGrant region s
  | .versionQuery slot => Sys2Proof.Machine.execVersionQuery slot s
  | .regionCreate slot => Sys2Proof.Machine.execRegionCreate slot s
  | .regionDestroy slot => Sys2Proof.Machine.execRegionDestroy slot s
  | .fill slot => Sys2Proof.Machine.execFill slot s
  | .copy slot => Sys2Proof.Machine.execCopy slot s
  | .compare slot => Sys2Proof.Machine.execCompare slot s
  | .reduce slot => Sys2Proof.Machine.execReduce slot s
  | .salu core word => Sys2Proof.Machine.execSalu core word s
  | .addi core word => Sys2Proof.Machine.execAddi core word s
  | .andi core word => Sys2Proof.Machine.execAndi core word s
  | .ori core word => Sys2Proof.Machine.execOri core word s
  | .xori core word => Sys2Proof.Machine.execXori core word s
  | .lui core word => Sys2Proof.Machine.execLui core word s
  | .shori core word => Sys2Proof.Machine.execShori core word s
  | .br core word => Sys2Proof.Machine.execBr core word s
  | .jal core word => Sys2Proof.Machine.execJal core word s
  | .jalr core word => Sys2Proof.Machine.execJalr core word s
  | .csrr core word => Sys2Proof.Machine.execCsrr core word s
  | .csrw core word => Sys2Proof.Machine.execCsrw core word s
  | .halt core word => Sys2Proof.Machine.execHalt core word s
  | .brk core word => Sys2Proof.Machine.execBrk core word s
  | .drain core word => Sys2Proof.Machine.execDrain core word s
  | .dcwb core word => Sys2Proof.Machine.execDcwb core word s
  | .dcwbi core word => Sys2Proof.Machine.execDcwbi core word s
  | .icinv core word => Sys2Proof.Machine.execIcinv core word s
  | .ld core word victim => Sys2Proof.Machine.execLd core word victim s
  | .st core word victim => Sys2Proof.Machine.execSt core word victim s
  | .vld core word victim => Sys2Proof.Machine.execVld core word victim s
  | .vst core word victim => Sys2Proof.Machine.execVst core word victim s
  | .amo core word => Sys2Proof.Machine.execAmo core word s
  | .xcopy core word => Sys2Proof.Machine.execXcopy core word s
  | .sdf core word => Sys2Proof.Machine.execSdf core word s
  | .trackerEntryFree core entry => Sys2Proof.Machine.execTrackerEntryFree core entry s
  | .waitge core word => Sys2Proof.Machine.execWaitge core word s
  | .waitne core word => Sys2Proof.Machine.execWaitne core word s
  | .waitPoll core => Sys2Proof.Machine.execWaitPoll core s
  | .waitTimeLimit core => Sys2Proof.Machine.execWaitTimeLimit core s
  | .msend core word => Sys2Proof.Machine.execMsend core word s
  | .mrecv core word => Sys2Proof.Machine.execMrecv core word s
  | .mpeek core word => Sys2Proof.Machine.execMpeek core word s
  | .valu core word => Sys2Proof.Machine.execValu core word s
  | .vcvt core word => Sys2Proof.Machine.execVcvt core word s
  | .vred core word => Sys2Proof.Machine.execVred core word s
  | .vperm core word => Sys2Proof.Machine.execVperm core word s
  | .pred core word => Sys2Proof.Machine.execPred core word s
  | .mma core word => Sys2Proof.Machine.execMma core word s
  | .acc core word => Sys2Proof.Machine.execAcc core word s
  | .ham core word => Sys2Proof.Machine.execHam core word s
  | .launch slot => Sys2Proof.Machine.execLaunch slot s
  | .launchClaim slot => Sys2Proof.Machine.execLaunchClaim slot s
  | .kernelWatchdog slot => Sys2Proof.Machine.execKernelWatchdog slot s
  | .haltGrid slot => Sys2Proof.Machine.execHaltGrid slot s
  | .channelOpen slot => Sys2Proof.Machine.execChannelOpen slot s
  | .channelClose slot => Sys2Proof.Machine.execChannelClose slot s
  | .channelClosed producer handle => Sys2Proof.Machine.execChannelClosed producer handle s
  | .flitArrive flit => Sys2Proof.Machine.execFlitArrive flit s
  | .creditReturn producer handle => Sys2Proof.Machine.execCreditReturn producer handle s
  | .resetNotice producer handle => Sys2Proof.Machine.execResetNotice producer handle s
  | .resetAcknowledgement producer handle => Sys2Proof.Machine.execResetAcknowledgement producer handle s
  | .search slot => Sys2Proof.Machine.execSearch slot s
  | .searchStart slot => Sys2Proof.Machine.execSearchStart slot s
  | .searchLeg packet => Sys2Proof.Machine.execSearchLeg packet s
  | .shardResult packet => Sys2Proof.Machine.execShardResult packet s
  | .insert slot => Sys2Proof.Machine.execInsert slot s
  | .sideListAppend slot => Sys2Proof.Machine.execSideListAppend slot s
  | .delete slot => Sys2Proof.Machine.execDelete slot s
  | .merge slot => Sys2Proof.Machine.execMerge slot s
  | .mergeDiscard slot => Sys2Proof.Machine.execMergeDiscard slot s
  | .mergeBuildStart index => Sys2Proof.Machine.execMergeBuildStart index s
  | .buildDone index => Sys2Proof.Machine.execBuildDone index s
  | .indexCommit slot => Sys2Proof.Machine.execIndexCommit slot s
  | .indexCreate slot => Sys2Proof.Machine.execIndexCreate slot s
  | .indexDestroy slot => Sys2Proof.Machine.execIndexDestroy slot s
  | .gather slot => Sys2Proof.Machine.execGather slot s
  | .gatherStart slot => Sys2Proof.Machine.execGatherStart slot s
  | .scatter slot => Sys2Proof.Machine.execScatter slot s
  | .tableReplace slot => Sys2Proof.Machine.execTableReplace slot s
  | .replaceStart table => Sys2Proof.Machine.execReplaceStart table s
  | .replaceDone table => Sys2Proof.Machine.execReplaceDone table s
  | .tablePin slot => Sys2Proof.Machine.execTablePin slot s
  | .tableUnpin slot => Sys2Proof.Machine.execTableUnpin slot s
  | .pinStale pin => Sys2Proof.Machine.execPinStale pin s
  | .tableCreate slot => Sys2Proof.Machine.execTableCreate slot s
  | .tableDestroy slot => Sys2Proof.Machine.execTableDestroy slot s
  | .portTraining port => Sys2Proof.Machine.execPortTraining port s
  | .trainingDone port working => Sys2Proof.Machine.execTrainingDone port working s
  | .trainingTimeout port => Sys2Proof.Machine.execTrainingTimeout port s
  | .trainingRetry port => Sys2Proof.Machine.execTrainingRetry port s
  | .retrainTimeout port => Sys2Proof.Machine.execRetrainTimeout port s
  | .lockLost port => Sys2Proof.Machine.execLockLost port s
  | .keyCheck port keyId => Sys2Proof.Machine.execKeyCheck port keyId s
  | .retrainRequest port => Sys2Proof.Machine.execRetrainRequest port s
  | .enterLowRate port => Sys2Proof.Machine.execEnterLowRate port s
  | .exitLowRate port => Sys2Proof.Machine.execExitLowRate port s
  | .linkCtlResend port => Sys2Proof.Machine.execLinkCtlResend port s
  | .flitReceive port flit => Sys2Proof.Machine.execFlitReceive port flit s
  | .nak port ackSeq => Sys2Proof.Machine.execNak port ackSeq s
  | .rekey port seq => Sys2Proof.Machine.execRekey port seq s
  | .rekeySend port => Sys2Proof.Machine.execRekeySend port s
  | .cablePresent port demandMw => Sys2Proof.Machine.execCablePresent port demandMw s
  | .rd packet => Sys2Proof.Machine.execRd packet s
  | .remoteFill packet => Sys2Proof.Machine.execRemoteFill packet s
  | .atomic packet => Sys2Proof.Machine.execAtomic packet s
  | .cmd packet => Sys2Proof.Machine.execCmd packet s
  | .pubOpen packet => Sys2Proof.Machine.execPubOpen packet s
  | .wr packet => Sys2Proof.Machine.execWr packet s
  | .wrFinal packet => Sys2Proof.Machine.execWrFinal packet s
  | .groupEnd packet => Sys2Proof.Machine.execGroupEnd packet s
  | .pubLine packet => Sys2Proof.Machine.execPubLine packet s
  | .pubEnd packet => Sys2Proof.Machine.execPubEnd packet s
  | .rdRsp packet => Sys2Proof.Machine.execRdRsp packet s
  | .fillRsp packet => Sys2Proof.Machine.execFillRsp packet s
  | .atomicRsp packet => Sys2Proof.Machine.execAtomicRsp packet s
  | .cmdRsp packet => Sys2Proof.Machine.execCmdRsp packet s
  | .pubRsp packet => Sys2Proof.Machine.execPubRsp packet s
  | .wrAck packet => Sys2Proof.Machine.execWrAck packet s
  | .pending packet => Sys2Proof.Machine.execPending packet s
  | .pendingTimer source tag => Sys2Proof.Machine.execPendingTimer source tag s
  | .noRoute packet => Sys2Proof.Machine.execNoRoute packet s
  | .requestTimer tag => Sys2Proof.Machine.execRequestTimer tag s
  | .storedResponseExpiry source tag => Sys2Proof.Machine.execStoredResponseExpiry source tag s
  | .mirror record => Sys2Proof.Machine.execMirror record s
  | .mirrorAck mseq => Sys2Proof.Machine.execMirrorAck mseq s
  | .takeoverNotice id source => Sys2Proof.Machine.execTakeoverNotice id source s
  | .releaseIdNotice id source => Sys2Proof.Machine.execReleaseIdNotice id source s
  | .noticeAck id source release => Sys2Proof.Machine.execNoticeAck id source release s
  | .noticeRepeat id destination => Sys2Proof.Machine.execNoticeRepeat id destination s
  | .acopy slot => Sys2Proof.Machine.execAcopy slot s
  | .acopyFinal slot => Sys2Proof.Machine.execAcopyFinal slot s
  | .acopyFinalSend slot => Sys2Proof.Machine.execAcopyFinalSend slot s
  | .remoteAtomic slot => Sys2Proof.Machine.execRemoteAtomic slot s
  | .assignId head => Sys2Proof.Machine.execAssignId head s
  | .routeSet head rows => Sys2Proof.Machine.execRouteSet head rows s
  | .linkKey head key => Sys2Proof.Machine.execLinkKey head key s
  | .join head => Sys2Proof.Machine.execJoin head s
  | .teardown head => Sys2Proof.Machine.execTeardown head s
  | .restore head => Sys2Proof.Machine.execRestore head s
  | .leave head => Sys2Proof.Machine.execLeave head s
  | .fmEventAck value => Sys2Proof.Machine.execFmEventAck value s
  | .identityRecord record => Sys2Proof.Machine.execIdentityRecord record s
  | .heartbeatSend => Sys2Proof.Machine.execHeartbeatSend s
  | .heartbeat frame => Sys2Proof.Machine.execHeartbeat frame s
  | .twinLost => Sys2Proof.Machine.execTwinLost s
  | .probeTimeout => Sys2Proof.Machine.execProbeTimeout s
  | .warmResetAnnounce => Sys2Proof.Machine.execWarmResetAnnounce s
  | .announceWaitEnd => Sys2Proof.Machine.execAnnounceWaitEnd s
  | .resilverChunk => Sys2Proof.Machine.execResilverChunk s
  | .stepAdmit slot => Sys2Proof.Machine.execStepAdmit slot s
  | .admitWaitExpiry => Sys2Proof.Machine.execAdmitWaitExpiry s
  | .admissionHandover => Sys2Proof.Machine.execAdmissionHandover s
  | .contextOpen slot => Sys2Proof.Machine.execContextOpen slot s
  | .offer slot => Sys2Proof.Machine.execOffer slot s
  | .offerDeadline context => Sys2Proof.Machine.execOfferDeadline context s
  | .take slot => Sys2Proof.Machine.execTake slot s
  | .takeWaitExpiry slot => Sys2Proof.Machine.execTakeWaitExpiry slot s
  | .release slot => Sys2Proof.Machine.execRelease slot s
  | .ledgerQuery slot => Sys2Proof.Machine.execLedgerQuery slot s
  | .checkpoint slot => Sys2Proof.Machine.execCheckpoint slot s
  | .contextRun slot => Sys2Proof.Machine.execContextRun slot s
  | .phaseComplete slot => Sys2Proof.Machine.execPhaseComplete slot s
  | .katPeriod => Sys2Proof.Machine.execKatPeriod s
  | .katDone core pass => Sys2Proof.Machine.execKatDone core pass s
  | .mgmtWatchdogExpiry => Sys2Proof.Machine.execMgmtWatchdogExpiry s
  | .portArbitration port arrivals => Sys2Proof.Machine.execPortArbitration port arrivals s
  | .queueSample => Sys2Proof.Machine.execQueueSample s
  | .tenantTable tenant row => Sys2Proof.Machine.execTenantTable tenant row s
  | .limitTable row => Sys2Proof.Machine.execLimitTable row s
  | .schedStatsClear value => Sys2Proof.Machine.execSchedStatsClear value s
  | .arm request => Sys2Proof.Machine.execArm request s
  | .disarm request => Sys2Proof.Machine.execDisarm request s
  | .coreDebugHalt request => Sys2Proof.Machine.execCoreDebugHalt request s
  | .coreDebugStep request => Sys2Proof.Machine.execCoreDebugStep request s
  | .resume request => Sys2Proof.Machine.execResume request s
  | .readReg request => Sys2Proof.Machine.execReadReg request s
  | .writeReg request value => Sys2Proof.Machine.execWriteReg request value s
  | .readSpad request => Sys2Proof.Machine.execReadSpad request s
  | .status request => Sys2Proof.Machine.execStatus request s
  | .attest slot => Sys2Proof.Machine.execAttest slot s
  | .keyInstall slot => Sys2Proof.Machine.execKeyInstall slot s
  | .keyDestroy slot => Sys2Proof.Machine.execKeyDestroy slot s
  | .fwStage offset chunk => Sys2Proof.Machine.execFwStage offset chunk s
  | .fwCommit => Sys2Proof.Machine.execFwCommit s
  | .fwCommitAdvance => Sys2Proof.Machine.execFwCommitAdvance s
  | .keyRevoke mask => Sys2Proof.Machine.execKeyRevoke mask s
  | .mrExtend index digest => Sys2Proof.Machine.execMrExtend index digest s
  | .inputPowerUp => Sys2Proof.Machine.execInputPowerUp s
  | .railTimeout rail => Sys2Proof.Machine.execRailTimeout rail s
  | .powerGood prof => Sys2Proof.Machine.execPowerGood prof s
  | .stageEnd result => Sys2Proof.Machine.execStageEnd result s
  | .resetN level hot => Sys2Proof.Machine.execResetN level hot s
  | .coldResetRequest hot => Sys2Proof.Machine.execColdResetRequest hot s
  | .warmResetRequest hot => Sys2Proof.Machine.execWarmResetRequest hot s
  | .tenantReset tenant => Sys2Proof.Machine.execTenantReset tenant s
  | .tenantResetComplete => Sys2Proof.Machine.execTenantResetComplete s
  | .coreReset core => Sys2Proof.Machine.execCoreReset core s
  | .profileSelect profile => Sys2Proof.Machine.execProfileSelect profile s
  | .profileSelectReset profile hot => Sys2Proof.Machine.execProfileSelectReset profile hot s
  | .profileCopy value => Sys2Proof.Machine.execProfileCopy value s
  | .powerRequestActive => Sys2Proof.Machine.execPowerRequestActive s
  | .powerRequestDrowsy => Sys2Proof.Machine.execPowerRequestDrowsy s
  | .powerRequestDormant => Sys2Proof.Machine.execPowerRequestDormant s
  | .drowsyIdleExpiry => Sys2Proof.Machine.execDrowsyIdleExpiry s
  | .powerStateEntry => Sys2Proof.Machine.execPowerStateEntry s
  | .wakeComplete => Sys2Proof.Machine.execWakeComplete s
  | .mgmtFrame frame => Sys2Proof.Machine.execMgmtFrame frame s
  | .reassemblyTimeout source => Sys2Proof.Machine.execReassemblyTimeout source s
  | .discover source reqId => Sys2Proof.Machine.execDiscover source reqId s
  | .read entry sub => Sys2Proof.Machine.execRead entry sub s
  | .write entry sub value => Sys2Proof.Machine.execWrite entry sub value s
  | .readRows entry sub first rows => Sys2Proof.Machine.execReadRows entry sub first rows s
  | .writeRows entry sub first rows value => Sys2Proof.Machine.execWriteRows entry sub first rows value s
  | .describe entry sub => Sys2Proof.Machine.execDescribe entry sub s
  | .nextEntry entry sub => Sys2Proof.Machine.execNextEntry entry sub s
  | .mgmtTailPresented value => Sys2Proof.Machine.execMgmtTailPresented value s
  | .mgmtHeadPresented value => Sys2Proof.Machine.execMgmtHeadPresented value s
  | .mgmtRequestTake => Sys2Proof.Machine.execMgmtRequestTake s
  | .lossOfInput => Sys2Proof.Machine.execLossOfInput s
  | .holdupFlushDone blocks => Sys2Proof.Machine.execHoldupFlushDone blocks s
  | .thermalTrip sensor => Sys2Proof.Machine.execThermalTrip sensor s
  | .refclkLoss => Sys2Proof.Machine.execRefclkLoss s
  | .firmwareRestartDone => Sys2Proof.Machine.execFirmwareRestartDone s
  | .moduleLoss site module => Sys2Proof.Machine.execModuleLoss site module s

end Sys2Proof.Machine
end

