-- ==== Sys2Proof/Machine/Tick.lean ====
section
/-!
DEFINITION. What one TCLK of waiting does, with no command pending (DESIGN CHOICE, log 8): the timestamp counter advances, the waits that
the manual counts grow, and staged trace records are written.
-/

namespace Sys2Proof.Machine

open Sys2Proof

/-! ### Waits (06 R169, 07 R186, 14 R396) -/

/-- Cores whose issue waits for a cause: 1 all tracker entries held, 2 an overlapping entry, 3 credits of a channel. -/
def State.coresBlocked (s : State) (why : Nat) : Nat := (s.grid.cores.filter fun (_, c) => c.blocked = why).length

/-- Commands of an opcode that wait at a bound of their chapter. -/
def State.slotsWaiting (s : State) (opcode : Nat) : Nat :=
  (s.fe.slots.filter fun (_, x) => x.opcode = opcode && x.stage = .waiting).length

/-- Whether a completion record waits for room in its completion ring (06 R164). -/
def State.recordWaits (s : State) : Bool :=
  s.fe.slots.any fun (_, x) => x.stage = .finished && match (s.ring? x.ring).bind fun r => s.cq? r.cq with
    | some c => c.written - c.headSeen ≥ 2 ^ c.log2
    | none => false

/-- Whether a unit holds 256 pending faults (04 R98). -/
def State.unitFull (s : State) : Bool :=
  [0, 1, 2, 3, 4].any fun u => (s.tr.faults.filter fun f => f.unit = u).length ≥ 256

/-- Tracker entries whose next store waits at the limit of Held lines (05 R130). -/
def State.storesHeld (s : State) : Nat :=
  if s.heldLines < s.val (dkey 0x5020 1) * 16384 then 0
  else (s.grid.cores.map fun (_, c) => (c.tracker.filter fun (_, t) => match t.todo with
    | w :: _ => match s.placeOf w.address with
      | .away p la => (SMap.look s.rlc.lines (lineOf (globalOf p la))).any fun x => x.versioned && x.state ≠ .held
      | _ => false
    | [] => false).length).sum

/-- Builds that wait for searches of the generation before (10 R285). -/
def State.buildsWaiting (s : State) : Nat :=
  (s.idx.indexes.filter fun (_, x) => x.merge = .building && !x.buildStarted &&
    x.searches.any fun (_, g, _) => g + 1 = x.generation).length

/-- Replacements that wait for pins of older versions (11 R313). -/
def State.replacesWaiting (s : State) : Nat :=
  (s.fe.slots.filter fun (_, x) => x.opcode = 0x72 && x.stage = .running && x.cursor = 0 &&
    (s.table? (x.id 128 12)).any fun t => t.replacing.isNone && s.oldPin (x.id 128 12) t).length

/-- The waiters of each cause that the manual counts, by the key of its entry. -/
def State.waits (s : State) : List (Nat × Nat) := [
  (dkey 0x9102 1, bit (s.fe.slots.length ≥ 65536)),
  (dkey 0x9102 2, bit s.recordWaits),
  (dkey 0x4012 4, bit s.unitFull),
  (dkey 0x6001 2, (s.grid.launches.filter fun (_, l) => !l.claimed).length),
  (dkey 0x6100 1, s.coresBlocked 1),
  (dkey 0x6100 2, s.coresBlocked 2),
  (dkey 0x6002 4, s.coresBlocked 3),
  (dkey 0x5011 1, s.coh.albWaiting.length),
  (dkey 0x5020 2, s.storesHeld),
  (dkey 0xA002 1, (s.twin.unacked.filter fun (_, l, _) => l ≠ metaLine).length),
  (dkey 0x7002 4, s.slotsWaiting 0x60),
  (dkey 0x7004 0, s.slotsWaiting 0x62),
  (dkey 0x7004 3, s.buildsWaiting),
  (dkey 0x8003 3, s.slotsWaiting 0x70),
  (dkey 0x8005 2, s.replacesWaiting)]

/-- The ticks of waiting after one more. -/
def State.countWaits (s : State) : SMap Nat :=
  s.waits.foldl (fun m (k, n) => SMap.putD m k (SMap.get m k 0 + n) 0) s.stall

/-- Tenants that a ring of theirs waits for a slot that they may not take (14 R396). -/
def State.quotaWaits (s : State) : SMap Nat :=
  let l := s.fe.rings.filter fun (n, r) => s.wantsSlot n r && !s.mayTake r.tenant
  (l.foldl (fun t (_, r) => insertNat t r.tenant) []).foldl (fun m t => SMap.put m t (SMap.get m t 0 + 1)) s.sched.quotaStall

/-- The CCLK that each kernel waited at issue (07 R186, Table 7-17). -/
def State.stalledCores (s : State) : SMap Core :=
  s.grid.cores.map fun (n, c) => (n, if c.blocked = 1 || c.blocked = 2 then { c with stall := c.stall + 8 } else c)

/-! ### Trace records (15 R424) -/

/-- The oldest staged trace record is written at its place in the buffer. A full buffer wraps, or else recording stops: the
records that are staged then are dropped (DESIGN CHOICE, log 46). A record whose write fails is lost. -/
def State.drainTrace (s : State) : State :=
  match s.cnt.staging with
  | [] => s
  | r :: rest =>
    let room := s.val (dkey 0xB020 7) * 16384
    let n := s.val (dkey 0xB020 8) % room
    let done := fun (s : State) (l : List (BitVec 512)) => { s with cnt := { s.cnt with staging := l } }
    match (writeVa deviceWho 0 (s.val (dkey 0xB020 1) + 64 * n) (leBytes 64 r.toNat)).go s with
    | (.ok _, s) =>
      let s := s.bump (dkey 0xB020 8) 1
      if n + 1 = room && s.val (dkey 0xB020 2) = 0 then (done s []).setVal (dkey 0xB020 0) 0 else done s rest
    | (.error .wait, s) => s
    | (.error (.fail _), s) => (done s rest).bump (dkey 0xB020 9) 1

/-- One TCLK passes (15 R423). -/
def tick (s : State) : State :=
  ({ s with
    time := (s.time + 1) % 2 ^ 64
    stall := s.countWaits
    sched := { s.sched with quotaStall := s.quotaWaits }
    grid := { s.grid with cores := s.stalledCores } }).drainTrace

end Sys2Proof.Machine
end

