-- ==== Sys2Proof/Safety.lean ====
section
/-!
DEFINITION. The vocabulary of the statements: when a command that holds a slot may begin and how it looks once it has,
when an instruction of a core issues, and the invariants of a state in use.
-/

namespace Sys2Proof.Machine

open Sys2Proof

/-! ### Commands that hold slots -/

/-- Slot `n` holds the command `sl` of an opcode, which is fetched and may be dispatched (06 R158, R169). -/
def State.ready (s : State) (n opcode : Nat) (sl : Slot) : Prop :=
  s.slot? n = some sl ∧ sl.opcode = opcode ∧ sl.stage = .fetched ∧ s.dispatchable sl = true

/-- Slot `n` holds the command `sl` of an opcode, which has begun and not finished. -/
def State.begun (s : State) (n opcode : Nat) (sl : Slot) : Prop :=
  s.slot? n = some sl ∧ sl.opcode = opcode ∧ (sl.stage = .running ∨ sl.stage = .waiting) ∧ s.dispatchable sl = true

/-- A command as its dispatch at a time leaves it. -/
def Slot.run (sl : Slot) (time : Nat) : Slot := { sl with stage := .running, dispatchTime := time }

/-! ### Silt cores -/

/-- Core `n` issues the instruction word at its PC (07 R184, R191): its kernel runs, nothing holds issue, and the fetch, which
leaves the state `t`, gives the word. -/
def State.issues (s : State) (n : Nat) (word : BitVec 32) (t : State) : Prop :=
  n < 25600 ∧ (s.core n).mayIssue = true ∧ (fetchWord n).go s = (.ok word, t)

/-- The state after an instruction of core `n` that writes `v` to scalar register `rd` and does nothing else. -/
def State.scalarDone (t : State) (n rd : Nat) (v : Word) : State :=
  (t.updCore n fun c => c.putS rd v).retire n ((t.core n).pc + 4)

/-! ### Management writes and requests of other packages -/

/-- The management controller answers, and the entries of the data path with it (17 R443, 18 R472). -/
def State.managed (s : State) : Prop := s.dataPath = true ∧ s.mgmtAnswers = true ∧ s.pwr.bootOnly = false

/-- A packet of a request type has arrived for this package, which serves it now: it is neither held with its answer nor a
reissue of a request whose response is stored (12 R334, R340). -/
def State.received (s : State) (type : Nat) (k : Packet) : Prop :=
  (packetHead k).type = type ∧ s.isMine (packetHead k) = true ∧ s.servesNone = false ∧ s.awake = true ∧
    ((s.held? (packetHead k).src (packetHead k).tag).bind (·.answer)) = none ∧
    (storedType (packetHead k) = false ∨ (packetHead k).reissue = false ∨
      SMap.look s.fab.stored (requestKey (packetHead k)) = none ∧ SMap.look s.twin.mirrored (requestKey (packetHead k)) = none)

/-- A request as its home takes it up: out of the input buffer and held until it is answered. -/
def State.taken (s : State) (k : Packet) : State := (s.takeIn k).hold k id

/-! ### Invariants -/

/-- The store is in its one form: addresses strictly rising, and no byte listed that reads as an unlisted one does. -/
def State.storeOk (s : State) : Prop := Memory.wf s.mem

end Sys2Proof.Machine
end

