-- ==== Sys2Proof/Certificates/Slice0/Obligations.lean ====
section
/-!
DEFINITION. The obligations: what the spec's rules say of the commands of one package, command by command, and of every step.
A hypothesis of the form `(action).go s = (.ok v, t)` says what the named action gives where the state is `s`.
-/

open Sys2Proof Sys2Proof.Machine

/-! ### Queue and store -/

/-- A step runs the command at the front of the queue on the state with the rest of the queue. The queue of commands is the model's
own (log 8). -/
def Obligations.StepRunsFrontCommand : Prop :=
  ∀ (c : Instr) (rest : List Instr) (s : State), s.pending = c :: rest → step s = exec c { s with pending := rest }

/-- The store keeps its one form at every step: addresses strictly rising, no byte listed that reads as unlisted. The form of the
store is the model's own (log 4). -/
def Obligations.EveryStepKeepsStoreForm : Prop :=
  ∀ s t : State, s.storeOk → step s = .next t → t.storeOk

/-- The store has its one form at power-on. The form of the store is the model's own (log 4). -/
def Obligations.ResetHasStoreForm : Prop :=
  State.reset.storeOk

/-- Chapters 12 to 19: the commands that move a link, a timer, a mode or a reading, and store nothing, leave every byte of the store
as it was. -/
def Obligations.CommandsThatStoreNothingKeepTheStore : Prop :=
  ∀ (s t : State) (n m : Nat) (a : BitVec 12) (k : BitVec 8) (v : BitVec 16) (h : BitVec 128) (key : List Byte)
    (port : BitVec 16) (arrivals : List PortArrival) (x : BitVec 256) (y : BitVec 128) (pins : BitVec 2)
    (rel : Bool),
    let keeps := fun (i : Instr) => exec i s = .next t → t.mem = s.mem
    keeps (.portTraining n) ∧ keeps (.trainingRetry n) ∧ keeps (.trainingTimeout n) ∧ keeps (.retrainRequest n) ∧
    keeps (.lockLost n) ∧ keeps (.enterLowRate n) ∧ keeps (.exitLowRate n) ∧ keeps (.linkCtlResend n) ∧ keeps (.nak n a) ∧
    keeps (.rekey n a) ∧ keeps (.rekeySend n) ∧ keeps (.cablePresent n m) ∧ keeps (.join h) ∧ keeps (.assignId h) ∧
    keeps (.linkKey h key) ∧ keeps (.restore h) ∧ keeps (.storedResponseExpiry n m) ∧ keeps (.noticeAck n m rel) ∧
    keeps .heartbeatSend ∧ keeps (.portArbitration port arrivals) ∧ keeps .queueSample ∧ keeps (.tenantTable n x) ∧
    keeps (.limitTable y) ∧ keeps (.schedStatsClear v) ∧ keeps (.arm y) ∧ keeps (.disarm y) ∧ keeps (.coreDebugHalt y) ∧
    keeps (.coreDebugStep y) ∧ keeps (.resume y) ∧ keeps (.readReg y) ∧ keeps (.writeReg y key) ∧ keeps (.readSpad y) ∧
    keeps (.status y) ∧ keeps (.keyRevoke k) ∧ keeps (.mrExtend k key) ∧ keeps .inputPowerUp ∧ keeps (.railTimeout n) ∧
    keeps (.powerGood pins) ∧ keeps .refclkLoss ∧ keeps (.moduleLoss n m) ∧ keeps .drowsyIdleExpiry ∧ keeps .powerStateEntry ∧
    keeps .katPeriod ∧ keeps (.katDone n rel) ∧ keeps (.creditReturn n m) ∧ keeps (.reassemblyTimeout n)

/-- 01 R16: in an assembly of Table 0-1 the scratchpad window of the core at (x, y) begins at 0x0_4000_0000_0000 + y × 0x200_0000 +
x × 0x2_0000 and spans 128 KiB; slots with x or y from 160 to 255 are reserved. -/
def Obligations.ScratchpadWindowsLieAsR16Says : Prop :=
  ∀ (s : State) (x y off : Nat), s.asm.hbm ≤ 16 → s.asm.flash ≤ 8 → x < 256 → y < 256 → off < 0x2_0000 →
    let a := 0x4000_0000_0000 + y * 0x200_0000 + x * 0x2_0000 + off
    (x < 160 → y < 160 → s.areaOf a = .scratch (y * 160 + x) ∧ scratchBase (y * 160 + x) + off = a) ∧
    (160 ≤ x ∨ 160 ≤ y → s.areaOf a = .reservedSlot)

/-! ### Command rings and counters (chapters 6 and 15) -/

/-- 06 R157, R171, R172: a tail value in range is taken as the new tail; with RESTART, a QUIESCED or ERROR ring discards the
descriptors up to it and is ACTIVE again. R165: a head value in range is taken. Everything else stays as it is. 06 R168: the end
of a hold-off releases the vector, or sends the one message that fell due in it. R149: the status block is refreshed while
IN_FLIGHT differs from the value written. R171: a lapse makes the rings of the lease QUIESCED, is counted and logged. R162: the
time limit ends a command with TIMEOUT. R155: BOOT_RING takes a free HBM extent and registers both rings 0. -/
def Obligations.RingWordsTimersAndBootRing : Prop :=
  (∀ s : State,
    (∀ (n : Nat) (v : BitVec 64) (r : Ring), s.ring? n = some r → r.state ≠ .draining → r.state ≠ .error →
      SMap.has s.coh.watches r.wordLine = true → v.toNat < 2 ^ 63 → v.toNat ≠ r.lastPresented →
      r.tailSeen ≤ v.toNat → v.toNat ≤ r.fetched + 2 ^ r.log2 →
      ∃ t, exec (.tailPresented n v) s = .next t ∧
        t = { s with
          pwr := t.pwr
          fe := { s.fe with vt := t.fe.vt, rings := SMap.put s.fe.rings n { r with lastPresented := v.toNat, tailSeen := v.toNat } } }) ∧
    (∀ (n : Nat) (v : BitVec 64) (r : Ring), s.ring? n = some r → r.state ≠ .draining → r.state ≠ .error →
      SMap.has s.coh.watches r.wordLine = true → v.toNat < 2 ^ 63 → v.toNat ≠ r.lastPresented → v.toNat < r.tailSeen →
      ∃ t, exec (.tailPresented n v) s = .next t ∧
        t = (((s.setRing n { r with lastPresented := v.toNat }).wake).ringError n 1).writeStatus n) ∧
    (∀ (n : Nat) (v : BitVec 64) (c : Cq), s.cq? n = some c → SMap.has s.coh.watches c.wordLine = true →
      c.headSeen ≤ v.toNat → v.toNat ≤ c.written →
      exec (.headPresented n v) s = .next { s with fe := { s.fe with cqs := SMap.put s.fe.cqs n { c with headSeen := v.toNat } } }) ∧
    (∀ (n : Nat) (v : BitVec 64) (c : Cq), s.cq? n = some c → SMap.has s.coh.watches c.wordLine = true →
      (v.toNat < c.headSeen ∨ c.written < v.toNat) →
      ∃ t, exec (.headPresented n v) s = .next t ∧ t.fe = s.fe ∧ t.log.newest = s.log.newest + 1)) ∧
  (∀ s : State,
    (∀ (n : Nat) (v : Vector2), SMap.look s.fe.vectors n = some v →
      let w : Vector2 := if v.holdoff && v.pending then { v with pending := false, sent := v.sent + 1 } else { v with holdoff := false }
      exec (.irqHoldoffExpiry n) s = .next { s with fe := { s.fe with vectors := SMap.put s.fe.vectors n w } }) ∧
    (∀ (n : Nat) (r : Ring) (u : Unit) (t : State), s.ring? n = some r → r.inFlightWritten ≠ s.inFlightOf n →
      (writeVa (ringWho r.tenant (.status n)) r.asid r.statusVa (s.ringBlock n r)).go s = (.ok u, t) →
      exec (.inFlightRefresh n) s =
        .next (t.updRing n fun x => { x with inFlightWritten := s.inFlightOf n, statusDue := false })) ∧
    (∀ (l n : Nat) (r : Ring) (u : Unit) (t : State), s.awake = true → SMap.has s.fe.leases l = true → r.runOne = none →
      s.ring? n = some r → (s.fe.rings.filter fun (_, r) => r.lease = l && (r.state = .active || r.state = .step)) = [(n, r)] →
      let q : Ring := { r with state := .quiesced, mode := .normal, runOne := none, runGrant := false, stepEnter := none }
      let s1 := { s with fe := { s.fe with leases := SMap.del s.fe.leases l, rings := SMap.upd s.fe.rings n fun _ => q } }
      (writeVa (ringWho q.tenant (.status n)) q.asid q.statusVa (s1.ringBlock n q)).go s1 = (.ok u, t) →
      exec (.leaseLapse l) s = .next
        ((((t.updRing n fun x => { x with inFlightWritten := s.inFlightOf n, statusDue := false }).bump (dkey 0x9103 1) 1).logError
          0x0003 11 0 (l % twinSpace 10) (l % twinSpace 10)).mirrorMeta none)) ∧
    (∀ (n : Nat) (sl : Slot), s.slot? n = some sl → sl.stage ≠ .finished → s.timeLimitMs sl ≠ 0 →
      SMap.look s.grid.launches n = none → sl.opcode ≠ 0x71 → sl.opcode ≠ 0x75 → sl.opcode ≠ 0x60 →
      exec (.commandTimeout n) s =
        .next (({ s with grid := { s.grid with launches := SMap.del s.grid.launches n } } : State).failSlot n .timeout)) ∧
    (∀ (v : BitVec 64) (x : Extent), s.dataPath = true → s.mgmtAnswers = true → s.pwr.bootOnly = false → v.toNat ≠ 0 →
      v.toNat % 2 ^ 30 = 0 → v.toNat < s.asm.hbmBytes → s.ring? 0 = none → s.cq? 0 = none →
      s.extent? (extentOf v.toNat) = some x → x.state = .freeClean → x.hold = .none →
      exec (.bootRing v) s = .next (State.answer (.ok, s.bootRing (extentOf v.toNat) x))))

/-- 06 R157, R161: the ring that R397 picks gives its next descriptor to a free slot; a descriptor that passes its checks is
fetched, one that fails completes with its status and is counted. R149, R165, R168: a finished command writes its completion
record and WRITTEN, raises its vector, and frees its slot. -/
def Obligations.DescriptorsAreFetchedAndRecordsWritten : Prop :=
  ∀ s : State,
    (∀ (n : Nat) (r : Ring) (bs : List Byte) (t : State) (d : Desc), s.pickRing = some (n, r) → r.fetchWait ≠ .failed →
      (readVaP (ringWho r.tenant (.ring n)) r.asid (r.baseVa + r.fetched % 2 ^ r.log2 * 64) 64).go s = (.ok (bs, false), t) →
      t.checkDescriptor n r.driver r.tenant (BitVec.ofNat 512 (leNat bs)) = .ok d →
      exec .descriptorFetch s = .next (t.takeDescriptor n r (Slot.fetch n r.fetched r.tenant t.time d .fetched .ok))) ∧
    (∀ (n : Nat) (r : Ring) (bs : List Byte) (t : State) (st : Status), s.pickRing = some (n, r) → r.fetchWait ≠ .failed →
      (readVaP (ringWho r.tenant (.ring n)) r.asid (r.baseVa + r.fetched % 2 ^ r.log2 * 64) 64).go s = (.ok (bs, false), t) →
      t.checkDescriptor n r.driver r.tenant (BitVec.ofNat 512 (leNat bs)) = .error st →
      exec .descriptorFetch s = .next ((t.bump (dkey 0x9106 0) 1).takeDescriptor n r
        (Slot.fetch n r.fetched r.tenant t.time (BitVec.ofNat 512 (leNat bs)) .finished st))) ∧
    (∀ (n : Nat) (sl : Slot) (r : Ring) (c : Cq) (u : Unit) (t : State), s.slot? n = some sl → s.ring? sl.ring = some r →
      s.cq? r.cq = some c → sl.stage = .finished → s.slotSettled n = true → sl.silent = false → r.runOne = none →
      c.written - c.headSeen < 2 ^ c.log2 → SMap.Sorted t.fe.slots →
      (do
        writeVa (ringWho c.tenant (.cq r.cq)) c.asid (c.baseVa + c.written % 2 ^ c.log2 * 32) (sl.record c.log2 c.written)
        writeVa (ringWho c.tenant (.cq r.cq)) c.asid c.statusVa (Cq.block (c.written + 1) c) : Eng Unit).go s = (.ok u, t) →
      exec (.completionWrite n) s = .next (((t.setCq r.cq { c with written := c.written + 1 }).freeSlot n sl).raiseCq sl c)) ∧
    (∀ (n k : Nat) (r : Ring) (sl : Slot), k = leastFree (SMap.keys s.fe.slots) 65536 0 → sl.opcode ≠ 0x05 →
      (s.takeDescriptor n r sl).slot? k = some sl)

/-- 06 Table 6-5, R158, R170, R171: NOP and FENCE complete OK once dispatched; LEASE_RENEW completes OK, and with RESUME_ALL moves
the QUIESCED rings of its lease to ACTIVE; LEASE_RESUME renews a lease that has rings and resumes them. 06 R173, R174: a summary
that fits is written to its address; it completes OK with the bytes written; one that does not fit writes its header alone and
completes RESOURCE with the bytes it needs. 15 R418: what the four operations of STEP do to an ACTIVE or STEP ring: RUN_ONE
grants one descriptor and waits for it (on an empty ring it completes OK with COUNT 0); ENTER_STEP makes an idle ring a stepped
one; ENTER_SERIAL and EXIT set the mode. -/
def Obligations.ControlAndStepCommandsComplete : Prop :=
  (∀ (s : State) (n : Nat) (sl : Slot),
    (s.ready n 0x00 sl → exec (.nop n) s = .next ((s.dispatch n sl).finish n .ok 0 0)) ∧
    (s.ready n 0x01 sl → exec (.fence n) s = .next ((s.dispatch n sl).finish n .ok 0 0)) ∧
    (s.ready n 0x05 sl → sl.f 128 1 = 0 → exec (.leaseRenew n) s = .next ((s.dispatch n sl).finish n .ok 0 0)) ∧
    (∀ r : Ring, s.ready n 0x05 sl → sl.f 128 1 = 1 → s.ring? sl.ring = some r →
      exec (.leaseRenew n) s = .next (((s.dispatch n sl).resumeLease r.lease).finish n .ok 0 0)) ∧
    (s.ready n 0x06 sl → sl.f 128 4 = 4 → s.fe.rings.any (fun (_, r) => r.lease = sl.id 224 10) = true →
      exec (.leaseResume n) s =
        .next ((((s.dispatch n sl).renewLease (sl.id 224 10)).resumeLease (sl.id 224 10)).finish n .ok 0 0))) ∧
  (∀ (s : State) (n : Nat) (sl : Slot) (dir body : List Byte) (t t2 : State) (u : Unit),
    s.ready n 0x02 sl → sl.f 128 57 % 64 = 0 →
    let kinds := if sl.tenant = 0 then [1, 2, 3, 4, 5, 6, 7, 8, 9] else [1, 2, 3, 4, 6]
    let total := 64 + dir.length + body.length
    let head0 := summaryHeader kinds.length total t.time sl.seq 0
    (s.dispatch n sl).sections (sl.tenant = 0) sl.tenant kinds (64 + 16 * kinds.length) = (dir, body, t) →
    (total ≤ sl.f 192 64 →
      (writeVa (sl.who n 5) sl.asid (sl.f 128 57)
        (summaryHeader kinds.length total t.time sl.seq (crc32c (head0.take 60 ++ dir ++ body)) ++ dir ++ body)).go t = (.ok u, t2) →
      exec (.summary n) s = .next (t2.finish n .ok total 0)) ∧
    (sl.f 192 64 < total →
      (writeVa (sl.who n 5) sl.asid (sl.f 128 57)
        (summaryHeader kinds.length total t.time sl.seq (crc32c (head0.take 60)))).go t = (.ok u, t2) →
      exec (.summary n) s = .next ((t2.updSlot n fun x => { x with count := total }).rejectSlot n .resource))) ∧
  (∀ (s : State) (n : Nat) (sl : Slot) (r : Ring),
    let id := sl.id 128 14
    let s1 := s.dispatch n sl
    s.ready n 0x03 sl → s.ring? id = some r →
    (sl.f 142 4 = 0 → r.state = .step → id ≠ sl.ring → r.runOne = none → r.fetched = r.tailSeen →
      exec (.runOne n) s = .next (s1.finish n .ok 0 0)) ∧
    (sl.f 142 4 = 0 → r.state = .step → id ≠ sl.ring → r.runOne = none → r.fetched ≠ r.tailSeen →
      exec (.runOne n) s = .next ((s1.updSlot n fun x => { x with cursor := r.fetched + 1 }).setRing id
        { r with runOne := some sl.seq, runGrant := true })) ∧
    (sl.f 142 4 = 1 → r.state = .active → r.stepEnter = none → sl.f 192 57 % 64 = 0 → 4 ≤ sl.f 256 4 → sl.f 256 4 ≤ 12 →
      (∀ k x, (k, x) ∈ s1.fe.slots → x.ring = id → k = n) →
      ∃ t, exec (.enterStep n) s = .next t ∧
        t = (((s1.setRing id { r with stepEnter := some sl.seq }).setRing id { r with
          state := .step, mode := .step, stepEnter := none, recAsid := sl.asid, recVa := sl.f 192 57, recLog2 := sl.f 256 4,
          stepRecords := 0, runGrant := false }).writeStatus id).finish n .ok 0 0) ∧
    (sl.f 142 4 = 2 → r.state = .active ∨ r.state = .step →
      exec (.enterSerial n) s = .next ((s1.setMode id r .serial).finish n .ok 0 0)) ∧
    (sl.f 142 4 = 3 → r.state = .active ∨ r.state = .step →
      exec (.exitStep n) s = .next ((s1.setMode id r .normal).finish n .ok 0 0)))

/-- 06 R151 to R154: the four registrations of RING_CONFIG. A command ring or completion ring that passes its checks is registered,
watched, and reported; one that is free of commands and rings is taken out, with its watch. -/
def Obligations.RingsAreRegisteredAndDeregistered : Prop :=
  ∀ (s : State) (n : Nat) (sl : Slot),
    let s1 := s.dispatch n sl
    let id := sl.id 132 14
    (∀ (line : Nat) (t : State), s.ready n 0x06 sl → sl.f 128 4 = 0 → s.ring? id = none →
      (s.cq? (sl.id 176 14)).any (fun c => c.tenant = sl.f 148 12) = true →
      (checkRing (sl.who n 5) (sl.run s.time) (64 * 2 ^ sl.f 192 5)).go s1 = (.ok line, t) →
      let r := Ring.fresh (sl.f 146 1 = 1) (sl.f 148 12) (sl.id 160 16) (sl.id 176 14) (sl.id 224 10) (sl.f 256 57)
        (sl.f 320 57) (sl.f 384 57) (sl.f 192 5) line
      exec (.commandRingRegister n) s = .next
        ((((((t.setRing id r).watch line (.tail id)).renewLease r.lease).writeStatus id).mirrorMeta (some n)).finish n .ok 0 0)) ∧
    (∀ r : Ring, s.ready n 0x06 sl → sl.f 128 4 = 1 → s.ring? id = some r → r.dereg = none → r.tenant = sl.f 148 12 →
      id ≠ sl.ring → r.state ≠ .draining → r.runOne = none →
      exec (.commandRingDeregister n) s = .next
        (((s1.setRing id { r with
            state := .draining, cause := 0, discarded := (r.tailSeen - r.fetched) % 2 ^ 32, mode := .normal, runOne := none,
            runGrant := false, stepEnter := none, dereg := some sl.seq }).writeStatus id).updSlot n fun x =>
          { x with count := r.tailSeen - r.fetched })) ∧
    (∀ (line : Nat) (t t2 : State) (u : Unit), s.ready n 0x06 sl → sl.f 128 4 = 2 → s.cq? id = none →
      (checkRing (sl.who n 5) (sl.run s.time) (32 * 2 ^ sl.f 192 5)).go s1 = (.ok line, t) →
      let c : Cq := { tenant := sl.f 148 12, asid := sl.id 160 16, baseVa := sl.f 256 57, wordVa := sl.f 320 57,
                      statusVa := sl.f 384 57, log2 := sl.f 192 5, wordLine := line, msix := sl.f 208 16,
                      irqAll := sl.f 448 1 = 1, written := 0, headSeen := 0 }
      (writeVa (sl.who n 5) c.asid c.statusVa (c.block 0)).go t = (.ok u, t2) →
      exec (.completionRingRegister n) s =
        .next ((((t2.setCq id c).watch line (.head id)).mirrorMeta (some n)).finish n .ok 0 0)) ∧
    (∀ c : Cq, s.ready n 0x06 sl → sl.f 128 4 = 3 → s.cq? id = some c → c.tenant = sl.f 148 12 →
      s.fe.rings.any (fun (_, r) => r.cq = id) = false →
      exec (.completionRingDeregister n) s = .next
        ((({ s1.unwatch c.wordLine with fe := { s1.fe with cqs := SMap.del s1.fe.cqs id } } : State).mirrorMeta (some n)).finish n
          .ok 0 0)) ∧
    (∀ (ring : Nat) (r : Ring) (q k : Nat) (x : Slot), s.ring? ring = some r → r.state = .draining → s.inFlightOf ring = 0 →
      r.dereg = some q → s.live? q = some (k, x) →
      exec (.deregisterDrainDone ring) s = .next
        ((({ s.unwatch r.wordLine with
            fe := { s.fe with rings := SMap.del s.fe.rings ring }
            cnt := { s.cnt with ringSets := SMap.del s.cnt.ringSets ring } } : State).mirrorMeta (some k)).finish k .ok x.count 0))

/-- 15 R411 to R417: samples write their record, and CLEAR acts after it; a cleared set is empty and its time is the time of the
clear; a counter page is mapped read-only, rewritten as one image, and unmapped. 02 R46, R47, R60, R61: a command whose checks
pass and whose units have all landed completes OK; COUNT is the number of units landed. A unit lands once: its counter is
increased after it has landed. Where the counter page lies is the model's choice (logs 12, 13). -/
def Obligations.CounterSetsAndTileCommandsComplete : Prop :=
  (∀ (s : State) (n : Nat) (sl : Slot),
    let s1 := s.dispatch n sl
    (∀ (t : State) (u : Unit), s.ready n 0x04 sl → sl.f 128 4 = 0 → sl.f 192 57 % 64 = 0 →
      (writeVa (sl.who n 5) sl.asid (sl.f 192 57) (sampleHeader 0 (sl.f 132 12) 0 0 s.time
        (SMap.get s1.cnt.since (sl.f 132 12) 0) false ++ (s1.tenantSet (sl.f 132 12)).bytes)).go s1 = (.ok u, t) →
      exec (.sampleTenantSet n) s =
        .next ((if sl.f 256 1 = 1 then t.clearSet (sl.f 132 12) else t).finish n .ok 0 0)) ∧
    (∀ (t : State) (u : Unit) (r : Ring) (x : RingSet), s.ready n 0x04 sl → sl.f 128 4 = 1 → sl.f 192 57 % 64 = 0 →
      s.ring? (sl.id 144 14) = some r → SMap.look s1.cnt.ringSets (sl.id 144 14) = some x →
      (writeVa (sl.who n 5) sl.asid (sl.f 192 57) (sampleHeader 1 r.tenant (sl.id 144 14) (x.tag.getD (2 ^ 64 - 1)) s.time
        x.since x.running ++ x.set.bytes)).go s1 = (.ok u, t) →
      exec (.sampleRingSet n) s = .next (t.finish n .ok 0 (x.tag.getD (2 ^ 64 - 1)))) ∧
    (s.ready n 0x04 sl → sl.f 128 4 = 2 →
      exec (.clearTenantSet n) s = .next ((s1.clearSet (sl.f 132 12)).finish n .ok 0 0)) ∧
    (∀ m : Mapping, m = { asid := sl.asid, va := sl.f 192 57, page := 0, package := none, address := counterPageAt sl.asid,
                          readOnly := true, kind := .devicePage } →
      s.ready n 0x04 sl → sl.f 128 4 = 3 → sl.f 192 57 % 2 ^ 16 = 0 → inAlias (sl.f 192 57) = false →
      s.mapped sl.asid (sl.f 192 57) (2 ^ 16) = false → SMap.has s.cnt.pages sl.asid = false →
      exec (.mapCounterPage n) s = .next
        ((({ s1 with tr := { s1.tr with maps := s1.tr.maps ++ [m] } } : State).refreshPage sl.asid
          { tenant := sl.tenant, va := sl.f 192 57, address := counterPageAt sl.asid, refreshes := 0 }).finish n .ok 0 0)) ∧
    (∀ p : CounterPage, s.ready n 0x04 sl → sl.f 128 4 = 4 → SMap.look s.cnt.pages sl.asid = some p → p.va = sl.f 192 57 →
      ∃ t, exec (.unmapCounterPage n) s = .next t ∧ t.cnt.pages = SMap.del s.cnt.pages sl.asid ∧
        (t.slot? n).map (·.stage) = some .finished ∧ (t.slot? n).map (·.status) = some (sl.status.join .ok)) ∧
    (∀ (a : Nat) (p : CounterPage), s.cnt.pages = [(a, p)] →
      exec .counterPageRefresh s = .next (s.refreshPage a p) ∧
      (s.refreshPage a p).cnt.pages = [(a, { p with refreshes := p.refreshes + 1 })] ∧
      (s.storeOk → (s.refreshPage a p).peek p.address 1280 = (s.counterImage { p with refreshes := p.refreshes + 1 }).take 1280)) ∧
    (∀ v : BitVec 16, v.toNat < 4096 → s.dataPath = true → s.mgmtAnswers = true → s.pwr.bootOnly = false →
      exec (.counterClear v) s = .next (State.answer (.ok, s.clearSet v.toNat)) ∧
      (State.answer (.ok, s.clearSet v.toNat)).tenantSet v.toNat = SMap.get (SMap.del s.cnt.tenants v.toNat) v.toNat [])) ∧
  (∀ (s : State) (n : Nat) (sl x : Slot) (t : State) (u : Unit),
    let s1 := s.dispatch n sl
    (s.ready n 0x20 sl → 1 ≤ sl.f 256 32 → sl.f 256 32 ≤ 1048576 → sl.f 288 32 % 64 = 0 → sl.f 320 32 % 64 = 0 →
      sl.f 360 1 = 0 → (sl.f 361 1 = 0 ∨ sl.f 384 57 % 8 = 0) →
      (units (sl.tileWho n) n (sl.f 256 32) (moveTile n)).go s1 = (.ok u, t) → t.slot? n = some x →
      exec (.tileMove n) s = .next (t.finish n .ok x.count 0)) ∧
    (s.ready n 0x23 sl → 1 ≤ sl.f 224 32 → sl.f 224 32 ≤ 1048576 → (sl.f 257 1 = 0 ∨ sl.f 320 57 % 8 = 0) →
      (units (sl.tileWho n) n (sl.f 224 32) (kvBlock true n)).go s1 = (.ok u, t) → t.slot? n = some x →
      exec (.kvSpill n) s = .next (t.finish n .ok x.count 0)) ∧
    (s.ready n 0x24 sl → 1 ≤ sl.f 224 32 → sl.f 224 32 ≤ 1048576 → (sl.f 257 1 = 0 ∨ sl.f 320 57 % 8 = 0) →
      (units (sl.tileWho n) n (sl.f 224 32) (kvBlock false n)).go s1 = (.ok u, t) → t.slot? n = some x →
      exec (.kvFetch n) s = .next (t.finish n .ok x.count 0)) ∧
    (∀ (i asid ctrVa : Nat) (on : Bool) (land : Eng Unit) (s2 : State), s.slot? n = some sl → sl.parts = 0 →
      land.go s = (.ok u, s2) →
      (landOnce (sl.tileWho n) n i asid on ctrVa land).go s =
        (landCounter (sl.tileWho n) n asid on ctrVa).go ((s2.updSlot n fun y => { y with count := i + 1 }).updSlot n fun y =>
          { y with parts := 1 })))

/-! ### Store and tiers (chapter 2) -/

/-- 02 R48 to R57: a MODEL_LOAD whose descriptor and tables are well-formed registers the model, with CTRL zeroed, and waits for its
first layers; a fetch that may issue joins those in flight; a layer that has landed advances READY; MODEL_SCHEDULE takes a new
table for the next pass; MODEL_UNLOAD of a stopped model frees it. The state of the slots is the model's reading (log 18). -/
def Obligations.ModelsStreamTheirLayers : Prop :=
  ∀ (s : State) (n : Nat) (sl : Slot),
    let s1 := s.dispatch n sl
    let w := sl.who n 4
    (∀ (d k : Nat) (tbl : List Nat) (s2 s3 s4 : State) (u : Unit),
      s.ready n 0x21 sl → sl.f 192 1 = 0 → s.models = [] →
      (readNat w sl.asid (sl.f 128 57) 64).go s1 = (.ok d, s2) →
      let e := BitVec.ofNat 512 d
      let m : Model := {
        asid := sl.asid, mdVa := sl.f 128 57, tenant := sl.tenant, seq := sl.seq, desc := e,
        layers := tbl.map fun x => (bitsOf x 0 57, bitsOf x 64 32), schedule := [], nextSchedule := none, inFlight := [],
        issued := 0, landed := [], reload := [], ready := 0, stopped := false, loadSeq := some sl.seq, first := [],
        unload := false, resp := [] }
      let m := { m with reload := (List.range m.layerCount).filter m.resident }
      scheduled e (s1.val (dkey 0x3030 0)) = false → 1 ≤ fld e 32 16 → fld e 32 16 ≤ 4096 → fld e 48 8 ≤ 2 →
      2 ≤ windowOf e (s1.val (dkey 0x3030 1)) → fld e 224 16 = windowOf e (s1.val (dkey 0x3030 1)) → fld e 224 16 ≤ 4096 →
      fld e 416 57 % 32 = 0 → (readTable w sl.asid (fld e 64 57) 16 (fld e 32 16)).go s2 = (.ok tbl, s3) →
      (∀ x ∈ tbl, bitsOf x 64 32 ≤ fld e 384 32 ∧ bitsOf x 96 32 ≤ fld e 192 32 * 1024) →
      (writeVa w sl.asid m.ctrlVa (leBytes 8 0)).go s3 = (.ok u, s4) → k = leastFree (SMap.keys s4.models) 64 0 →
      exec (.modelLoad n) s = .next (s4.setModel k { m with first := m.firstLoads })) ∧
    (∀ (k : Nat) (m : Model), s.ready n 0x21 sl → sl.f 192 1 = 1 →
      s.models.find? (fun (_, m) => m.asid = sl.asid && m.mdVa = sl.f 128 57) = some (k, m) → m.inFlight = [] → m.stopped = true →
      exec (.modelUnload n) s = .next (({ s1 with
        models := SMap.del (SMap.put s.models k { m with unload := true }) k } : State).finish n .ok 0 0)) ∧
    (∀ (k : Nat) (m : Model) (tbl : List Nat) (t : State), s.ready n 0x22 sl →
      s.models.find? (fun (_, m) => m.asid = sl.asid && m.mdVa = sl.f 128 57) = some (k, m) → m.nextSchedule = none →
      m.windowed = false → m.stopped = false → m.unload = false →
      (readTable w sl.asid (m.f 256 57) 8 m.layerCount).go s1 = (.ok tbl, t) → scheduleOk m.layerCount (m.f 224 16) tbl = true →
      exec (.modelSchedule n) s =
        .next (t.setModel k { m with nextSchedule := some (tbl, m.issued / m.layerCount + 1, sl.seq) })) ∧
    (∀ (k i retire : Nat) (m : Model) (t : State), s.model? k = some m → m.nextSchedule = none → m.mayIssue i = true →
      (readRetire k m).go s = (.ok retire, t) → retire ≤ m.ready → m.clear retire i = true →
      let m' := { m with inFlight := m.inFlight ++ [i], resp := [] }
      exec (.layerFetchStart k i) s = .next (t.setModel k { m' with issued := m'.nextIssue (i + 2) m'.issued })) ∧
    (∀ (k i retire : Nat) (m : Model) (s2 s3 s4 : State) (u : Unit), s.model? k = some m → m.stopped = false →
      m.inFlight.contains i = true → m.total = none → retire < i ∨ i = 0 → retire ≤ m.ready →
      let (src, tiles) := m.layers.getD (m.layerAt i) (0, 0)
      let p := m.slotAt i
      (loadTiles (m.who k) m (m.f 320 57 + p * m.f 384 32 * 64) (m.f 128 57 + p * m.f 192 32 * 2 ^ 16) src tiles 0).go s = (.ok u, s2) →
      (readRetire k m).go s2 = (.ok retire, s3) →
      let m' : Model := { m with inFlight := m.inFlight.filter (· ≠ i), landed := m.landed ++ [i], first := m.first.filter (· ≠ i) }
      let m' := m'.advance (m.layerCount + m.landed.length + 1)
      m'.total = none →
      (do writeVa (m.who k) m.asid m.ctrlVa (leBytes 8 m'.ready); clearMail (m.who k) : Eng Unit).go s3 = (.ok u, s4) →
      exec (.layerLanded k i) s =
        .next ((s4.setModel k { m' with resp := [] }).loadDone k { m' with resp := [] }))

/-- 02 R26, R28 to R35: what the flash translation layer does to a stack. An accepted write joins its page in the buffer; a flush
programs the page and drops it from the buffer; relocation copies the valid pages of a block and erases it; scans queue a worn
block for relocation or restart its count; a read of Table 2-3 is counted and recovered; a failed block is retired. 02 R39: a
decoder whose expander fails is down, and its failure is logged; its accesses then complete TARGET_DEAD. The blocks of a stack
as shipped are the model's choice (log 16). -/
def Obligations.FlashStacksAndExpanders : Prop :=
  (∀ (s : State) (k : Nat) (x : Stack), s.stack? k = some x →
    (∀ w : FtlWrite, w.stack = k → x.readOnly = false → s.val (dkey 0x3010 1) ≤ x.free →
      exec (.ftlWriteAccept w) s = .next ((s.setStack k { x with
        buffer := SMap.put x.buffer w.page (min 16384 (((SMap.look x.buffer w.page).map (·.1)).getD 0 + w.bytes), w.stream)
        hostBytes := x.hostBytes + w.bytes }).bump (dkey 0x3013 0) w.stalledUs)) ∧
    (∀ (p b bytes stream : Nat), SMap.look x.buffer p = some (bytes, stream) → x.accepts b stream 1 = true →
      exec (.ftlBufferFlush k p b) s = .next (s.setStack k { x.program b stream [p] with buffer := SMap.del x.buffer p })) ∧
    (∀ b c : Nat, b ≠ c → 0 < (x.block b).used → (x.block b).retired = false → x.free < s.val (dkey 0x3010 0) →
      x.accepts c 2 (x.block b).valid.length = true →
      exec (.gcRelocation k b c) s = .next ((s.setStack k ((x.program c 2 (x.block b).valid).erase b)).warnLife k)) ∧
    (∀ b c : Nat, s.val (dkey 0x3012 0) < x.spread → x.movable b c = true →
      (∀ i o, (i, o) ∈ x.blocks → o.used = 0 ∨ o.retired = true ∨ (x.block b).erases ≤ o.erases) → c < rawBlocks →
      (x.block c).erased = true → (x.block b).erases < (x.block c).erases →
      exec (.wearLevelMove k b c) s =
        .next ((s.setStack k ((x.program c (x.block b).stream (x.block b).valid).erase b)).warnLife k)) ∧
    (∀ b bits : Nat, s.val (dkey 0x3011 0) ≤ (x.block b).reads → (x.block b).retired = false →
      exec (.readDisturbScan k b bits) s = .next (s.setStack k (x.setBlock b
        (if s.val (dkey 0x3011 1) ≤ bits then { x.block b with relocate := true } else { x.block b with reads := 0 })))) ∧
    (∀ b bits : Nat, 0 < (x.block b).used → (x.block b).retired = false → s.val (dkey 0x3011 1) ≤ bits →
      exec (.patrolScan k b bits) s = .next (s.setStack k (x.setBlock b { x.block b with relocate := true }))) ∧
    (∀ p b : Nat, SMap.look x.map p = some b →
      exec (.ftlReadDone k p b .corrected) s =
        .next (s.setStack k (x.setBlock b { x.block b with reads := (x.block b).reads + 1 })) ∧
      exec (.ftlReadDone k p b .retried) s =
        .next (s.setStack k ((x.setBlock b { x.block b with reads := (x.block b).reads + 1 }).setBlock b
          { x.block b with reads := (x.block b).reads + 1, relocate := true })) ∧
      (∃ t, exec (.ftlReadDone k p b .lost) s = .next t ∧ t.log.newest = s.log.newest + 1 ∧ t.mem = s.mem ∧
        ∀ i, i < 256 → t.poisoned (lineOf (flashPageAt k p) + i) = true)) ∧
    (∀ b : Nat, (x.block b).retired = false → (x.block b).valid = [] → (x.block b).erased = false → b < rawBlocks →
      0 < x.reserve → x.grownBad + 1 ≤ badReserve →
      exec (.blockRetire k b) s = .next (s.setStack k
        (({ x with free := x.free + 1, grownBad := x.grownBad + 1, reserve := x.reserve - 1 } : Stack).setBlock b
          { x.block b with valid := [], retired := true, relocate := false })))) ∧
  (∀ (s : State) (k : Nat) (d : Decoder), SMap.look s.flash.decoders k = some d → d.up = true →
    ∃ t, exec (.expanderFailure k) s = .next t ∧ t.log.newest = s.log.newest + 1 ∧ t.mem = s.mem ∧
      t.flash = { s.flash with decoders := SMap.put s.flash.decoders k { d with up := false } } ∧
      (∀ (tenant la : Nat), t.areaOf la = .far → t.extent? (extentOf la) = none → t.decoderOf la = some { d with up := false } →
        t.homeRefusal tenant la = some .targetDead))

/-! ### Translation and extents (chapter 4) -/

/-- 04 R93 to R97: ALLOC takes the units that its choice lists from the first tier that is not short, maps them and answers how
many; BIND of a local range that passes its checks maps it and adds its shares; UNMAP of whole pages removes them. 04 R97: UNMAP
removes exactly the mappings of the ASID that meet the range, if each lies wholly in it. 04 R105 to R107: a revocation of an
owned extent marks it DRAINING and recalls its lines; once nothing of it is left, or its drain limit has passed, its mappings go
and it is scrubbed or free; a scrubbed extent is zero and free. Which units ALLOC takes, and the inputs of a remote BIND, are
the model's (logs 14, 15). -/
def Obligations.ExtentsAreMappedAndRevoked : Prop :=
  (∀ (s : State) (n : Nat) (sl : Slot) (a : Asid),
    let s1 := s.dispatch n sl
    let asid := sl.id 144 16
    let bytes := sl.f 320 32 * 2 ^ 16
    s.ready n 0x30 sl → s1.asid? asid = some a → s1.rangeOk asid (sl.f 192 57) (sl.f 132 2) bytes = true →
    (∀ (choice l : List Nat) (t : State), sl.f 128 4 = 0 → sl.f 132 2 = 2 → sl.f 137 1 = 0 → sl.f 139 1 = 1 →
      s1.takeUnits a.tenant [sl.f 134 2] false false false (ceilDiv bytes (2 ^ 30)) choice = .ok (t, l) →
      exec (.alloc n choice) s = .next ((({ t with tr := { t.tr with
        maps := t.tr.maps ++ pagesOver asid (sl.f 192 57) 2 (sl.f 136 1 = 1) l (bytes / pageBytes 2) } } : State).mirrorMeta
          (some n)).finish n .ok l.length 0)) ∧
    (∀ choice : List Nat, sl.f 128 4 = 0 → sl.f 132 2 = 2 → sl.f 137 1 = 0 → sl.f 139 1 = 1 → bytes = 2 ^ 30 →
      s1.tierShort a.tenant false (sl.f 134 2) = true →
      exec (.alloc n choice) s = .next ((s1.bump (dkey 0x3002 2) 1).rejectSlot n .resource)) ∧
    (∀ (la : Nat) (t : State), sl.f 128 4 = 1 → sl.f 256 56 % pageBytes (sl.f 132 2) = 0 →
      s1.placeOf (sl.f 256 56) = .here la → sl.f 256 56 / 2 ^ 50 % 64 = s1.ownId →
      s1.bindHere false sl.tenant a.tenant (sl.tenant = 0 && ((s1.ring? sl.ring).map (·.driver)).getD false) (sl.f 138 1 = 1)
        (sl.f 132 2) la bytes = .ok t →
      exec (.bind n) s = .next ((({ t with tr := { t.tr with
        maps := t.tr.maps ++ (List.range (bytes / pageBytes (sl.f 132 2))).map fun i =>
          ({ asid, va := sl.f 192 57 + i * pageBytes (sl.f 132 2), page := sl.f 132 2, package := none,
             address := sl.f 256 56 % 2 ^ 50 + i * pageBytes (sl.f 132 2), readOnly := sl.f 136 1 = 1,
             kind := .host } : Mapping) } } : State).mirrorMeta (some n)).finish n .ok 0 0))) ∧
  (∀ (s : State) (n : Nat) (sl : Slot) (a : Asid),
    let asid := sl.id 144 16
    let va := sl.f 192 57
    let end_ := va + sl.f 320 32 * 2 ^ 16
    let hit := fun (m : Mapping) => m.asid = asid && m.va < end_ && va < m.va + pageBytes m.page
    s.ready n 0x30 sl → sl.f 128 4 = 2 → s.asid? asid = some a → s.mirrorsMeta = false →
    (∀ m ∈ s.tr.maps, hit m = true → va ≤ m.va ∧ m.va + pageBytes m.page ≤ end_) →
    ∃ t, exec (.unmap n) s = .next t ∧ t.tr.maps = s.tr.maps.filter (fun m => !hit m) ∧ t.mem = s.mem ∧ t.ext = s.ext ∧
      (t.slot? n).map (·.status) = some (sl.status.join .ok)) ∧
  (∀ (s : State) (e : Nat) (x : Extent),
    (∀ (n : Nat) (sl : Slot), s.ready n 0x31 sl → sl.ring < resumedRing → e = extentOf (sl.f 128 57) → s.extent? e = some x →
      sl.f 128 57 % 2 ^ 30 = 0 → x.state = .owned → x.hold = .none → x.revokers.contains sl.seq = false →
      exec (.extentRevoke n) s = .next ((s.dispatch n sl).startDrain e x (sl.f 192 1 = 1)
        (if sl.f 200 24 = 0 then (s.dispatch n sl).val (dkey 0x4020 0) else sl.f 200 24) sl.seq)) ∧
    (s.extent? e = some x → x.state = .draining → s.drained e = true → x.hold = .none → x.scrub = true →
      exec (.drainEnd e) s = .next ((s.unmapExtent s.ownId e).setExtent e { x with state := .scrubbing })) ∧
    (s.extent? e = some x → x.state = .draining → s.drained e = true → x.hold = .none → x.scrub = false →
      exec (.drainEnd e) s = .next ((s.unmapExtent s.ownId e).freeExtent e x .freeDirty)) ∧
    (s.extent? e = some x → x.state = .draining → s.drained e = false → x.hold = .none → x.scrub = true →
      ∃ t, exec (.drainLimit e) s = .next t ∧ t.extent? e = some { x with state := .scrubbing } ∧ t.drained e = true ∧
        t.mem = s.mem ∧ ∀ m ∈ t.tr.maps, m.reaches s.ownId s.ownId e = false) ∧
    (s.extent? e = some x → x.state = .scrubbing → x.hold = .none → x.revokers = [] →
      exec (.scrubDone e) s = .next ((s.zeroRange (e * 2 ^ 30) (2 ^ 30)).setExtent e (.freed .freeClean))))

/-- 04 R86, R89, R99, R101, R102, R104: ASIDs are made, changed and removed; pointers are converted; a full batch of faults is
closed and written; the fault ring is placed; a resolved batch frees its slots; an invalidated ASID has no cached translation. -/
def Obligations.TranslationCommandsComplete : Prop :=
  ∀ (s : State) (n : Nat) (sl : Slot),
    let s1 := s.dispatch n sl
    let id := sl.id 128 16
    (s.ready n 0x35 sl → sl.f 156 2 = 0 → s.asid? id = none → sl.windowOk = true →
      exec (.asidCreate n) s = .next ((s1.setAsid id n (some sl.newAsid)).finish n .ok 0 0)) ∧
    (∀ a : Asid, s.ready n 0x35 sl → sl.f 156 2 = 1 → s.asid? id = some a → a.tenant = sl.f 144 12 → sl.windowOk = true →
      exec (.asidSetWindow n) s = .next ((s1.setAsid id n (some sl.newAsid)).finish n .ok 0 0)) ∧
    (∀ a : Asid, s.ready n 0x35 sl → sl.f 156 2 = 2 → s.asid? id = some a → a.tenant = sl.f 144 12 →
      s1.asidHeld id = false →
      let t := s1.setAsid id n none
      exec (.asidDestroy n) s = .next
        (({ t with tr := { t.tr with tcache := t.tr.tcache.filter fun (_, x, _) => x ≠ id } } : State).finish n .ok 0 0)) ∧
    (∀ (a : Asid) (x : Slot) (t : State) (u : Unit), s.ready n 0x34 sl → sl.f 128 57 % 8 = 0 → 1 ≤ sl.f 192 32 →
      sl.f 192 32 ≤ 16777216 → s.asid? sl.asid = some a → a.winSize ≠ 0 →
      (units (sl.who n 5) n (sl.f 192 32) (fun i => do
        let at_ := sl.f 128 57 + i * (8 * max (sl.f 224 8) 1)
        match convertEntry a (sl.f 232 1 = 1) (← readNat (sl.who n 5) sl.asid at_ 8) with
        | none => pure ()
        | some v => do
          writeVa (sl.who n 5) sl.asid at_ (leBytes 8 v)
          setCount n ((← getSlot n).count + 1))).go s1 = (.ok u, t) → t.slot? n = some x →
      exec (.convertPointers n) s = .next (t.finish n .ok x.count 0)) ∧
    (∀ b : Batch, s.ready n 0x32 sl →
      s.tr.batches.find? (fun b => b.number = sl.f 128 16 && b.written && !b.resolved) = some b → b.records = [] →
      exec (.resolveFaults n) s = .next ((({ s1 with tr := { s1.tr with
        batches := freeBatches (s1.tr.batches.map fun (x : Batch) => if x.number = b.number then { x with resolved := true } else x) } }
          : State).retryBatches).finish n .ok 0 0)) ∧
    (s.ready n 0x33 sl → sl.cursor = 0 → (s.asid? id).isSome = true → s.asidBusy id n = false →
      ∃ t, exec (.invalidateAsid n) s = .next t ∧ t.tr = { s.tr with tcache := s.tr.tcache.filter fun (_, x, _) => x ≠ id } ∧
        (t.slot? n).map (·.stage) = some .finished ∧ t.mem = s.mem) ∧
    (∀ f : PendingFault, s.tr.faults = [f] → f.batch = none → s.val (dkey 0x4010 0) = 1 →
      let g : PendingFault := { f with batch := some s.tr.nextBatch }
      let t : State := { s with tr := { s.tr with
        faults := [g], nextBatch := (s.tr.nextBatch + 1) % 65536
        batches := s.tr.batches ++ [{ number := s.tr.nextBatch, records := [g], written := false, resolved := false }] } }
      t.retryBatches.val (dkey 0x4012 0) = 0 →
      exec .faultBatchClose s = .next t.retryBatches) ∧
    (∀ b ∈ s.tr.batches, b.written = false → exec .faultBatchRetry s = .next s.retryBatches) ∧
    (∀ v : BitVec 64, v.toNat < 2 ^ 57 → v.toNat % 2 ^ 16 = 0 → s.dataPath = true → s.mgmtAnswers = true →
      s.pwr.bootOnly = false →
      let t := s.setVal (dkey 0x4011 0) v.toNat
      exec (.faultRingVa 0 v) s =
        .next (State.answer (.ok, ({ t with tr := { t.tr with ringTail := 0 } } : State).retryBatches)))

/-! ### Coherence and pool operations (chapter 5) -/

/-- 05 R113, R116, R118, Table 5-4: an agent's read of a line of HBM that no directory entry tracks is answered with the line and
enters it: shared for AGENT_READ_SHARED, exclusive for AGENT_READ_OWNERSHIP. An address outside the agent's window completes
with poison and is logged. 05 Table 5-4, R117: data written back by the owner, or given in answer to a snoop, takes its place at
the home; an owner that wrote back, or answered an invalidation, leaves the directory, and one that answered a request for data
stays a sharer. 05 R119: an agent that does not answer is disabled and dropped from every entry of the directory. What the
agents' rows decide beyond the text is the model's (log 29). -/
def Obligations.AgentsReadReturnAndAreDropped : Prop :=
  (∀ (s t : State) (agent address victim va ga la : Nat) (r : AgentRow),
    let who := agentWho agent r
    let line := lineOf la
    SMap.look s.coh.agents agent = some r → r.enable = true → s.dataPath = true → s.awake = true →
    (agentVa r address = some va → t.placeOf ga = .here la → t.areaOf la = .hbm → t.homeRefusal r.tenant la = none →
      t.awaitsTwin line = false → t.coh.alb.any (fun e => e.line = line) = false → t.dir? line = none →
      t.coh.snoops.any (fun x => x.line = line) = false → t.sliceUse (sliceOf line) < 8388608 →
      ((translate who r.asid va false).go s = (.ok ga, t) →
        exec (.agentReadShared agent address victim) s = .next
          (((t.setDir line (some (.shared [agent]))).setMail (.agent agent) []).answerAgent address (t.peek (line * 64) 64)
            (t.readsBad line))) ∧
      ((translate who r.asid va true).go s = (.ok ga, t) → t.mirrors (line * 64) = false →
        exec (.agentReadOwnership agent address victim) s = .next
          (((t.makeOwner line agent).setMail (.agent agent) []).answerAgent address (t.peek (line * 64) 64) (t.readsBad line)))) ∧
    (agentVa r address = none →
      let u := (s.answerAgent address [] true).logError 0x0004 who.cls r.tenant agent address
      exec (.agentReadShared agent address victim) s = .next u ∧ exec (.agentReadOwnership agent address victim) s = .next u)) ∧
  (∀ (s : State) (agent line : Nat) (d : List Byte), line < remoteKey 0 → d.length = 64 →
    (s.dir? line = some (.exclusive agent) →
      exec (.agentWriteBack agent line d) s = .next (((s.placeWrite (line * 64) d none).setDir line none).endOwner line)) ∧
    (s.dir? line ≠ some (.exclusive agent) → exec (.agentWriteBack agent line d) s = .next s) ∧
    (∀ (k : SnoopKind) (b held : Bool), s.dir? line = some (.exclusive agent) →
      s.coh.snoops = [{ agent, line, kind := k, recalled := b }] →
      let t : State := { s with coh := { s.coh with snoops := [] } }
      exec (.snoopAnswer agent line (some d) held) s = .next
        (((t.placeWrite (line * 64) d none).setDir line (match k with
          | .data => some (.shared [agent])
          | .invalidate => none)).endOwner line)) ∧
    (∀ (l : List Nat) (b : Bool), s.dir? line = some (.shared l) → l ≠ [] → agent ∉ l →
      s.coh.snoops = [{ agent, line, kind := .invalidate, recalled := b }] →
      let t : State := { s with coh := { s.coh with snoops := [] } }
      exec (.snoopAnswer agent line none false) s = .next ((t.setDir line (some (.shared l))).bump (dkey 0x5003 2) 1))) ∧
  (∀ (s : State) (agent : Nat) (r : AgentRow), SMap.look s.coh.agents agent = some r →
    s.coh.snoops.any (fun x => x.agent = agent) = true →
    ∃ t, exec (.snoopTimeout agent) s = .next t ∧
      SMap.look t.coh.agents agent = some { r with enable := false } ∧
      (∀ x ∈ t.coh.snoops, x.agent ≠ agent) ∧
      (∀ line, t.dir? line ≠ some (.exclusive agent)) ∧
      (∀ line l, t.dir? line = some (.shared l) → agent ∉ l) ∧ t.mem = s.mem ∧ t.log.newest = s.log.newest + 1)

/-- 05 R113, R114, R120 to R122, R126: a row of AGENT_TABLE that passes its checks is written; an atomic on a line of HBM that no
agent holds performs there and returns the old value; an entry of the atomic line buffer leaves it after its hold time, or,
being the oldest, for an atomic that waits; the recall timer of a watched line snoops its owner for data. What the agents' rows
decide beyond the text is the model's (log 29). -/
def Obligations.HomesKeepAtomicsAndWatchedLines : Prop :=
  ∀ s : State,
    (∀ (agent : Nat) (row : AgentRow), s.managed → agent < 64 → (SMap.get s.coh.agents agent noAgent).enable = false →
      row.port < 18 → row.index < (if row.port < 2 then 1 else 4) →
      (row.enable = true → ∃ a, s.asid? row.asid = some a ∧ a.tenant = row.tenant) →
      exec (.agentTable agent row) s = .next (State.answer (.ok,
        ({ s with coh := { s.coh with agents := SMap.putD s.coh.agents agent row noAgent } } : State).inProfile
          fun p => { p with agents := SMap.putD p.agents agent row noAgent }))) ∧
    (∀ r : AtomicRequest,
      let size := r.size.toNat
      let line := lineOf r.address
      let old := leNat (s.peek r.address (atomicBytes size))
      let new := atomicResult r.op.toNat (8 * atomicBytes size) old r.operand.toNat r.compare.toNat
      atomicAllowed r.op.toNat size = true → r.address % atomicBytes size = 0 → s.areaOf r.address = .hbm →
      s.homeRefusal r.tenant r.address = none → s.awaitsTwin line = false → s.dir? line = none → s.albFull line = false →
      s.readsBad line = false →
      let t := (((s.albTouch line).placeWrite r.address (leBytes (atomicBytes size) new) none).countWork r.tenant none 8
        (if r.op.toNat = 0xA then 0x0 else 0xF) 1).bump (dkey 0x5011 2) 1
      exec (.homeAtomic r) s =
        .next (({ t with coh := { t.coh with albReturn := old } } : State).checkRetire r.address)) ∧
    (∀ die line : Nat, s.coh.alb.any (fun e => e.die = die && e.line = line) = true → s.awaitsTwin line = false →
      exec (.albHoldExpiry die line) s = .next ((s.albFree line).albGive die)) ∧
    (∀ (die : Nat) (r : AtomicRequest) (e : AlbEntry),
      s.coh.albWaiting.find? (fun r => sliceOf (lineOf r.address) = die) = some r → s.albFull (lineOf r.address) = true →
      s.albOldest die = some e → s.awaitsTwin e.line = false →
      exec (.albEntryChoice die) s = .next ((s.albFree e.line).albGive die)) ∧
    (∀ (line a : Nat) (w : Watch), SMap.look s.coh.watches line = some w → w.timer = true →
      s.dir? line = some (.exclusive a) → s.coh.snoops = [] →
      let t : State := { s with coh := { s.coh with watches := SMap.put s.coh.watches line { w with timer := false } } }
      let u := t.bump (dkey 0x5010 1) 1
      exec (.watchRecallExpiry line) s = .next { u with coh := { u.coh with
        snoops := [{ agent := a, line, kind := .data, recalled := true }] } })

/-- 05 R132 to R136: FLUSH completes once its lines are written back or dropped and no write of them is on its way; a PUBLISH to a
region of this package opens it and, accepted, advances its version by 1; VERSION_QUERY answers the version; REGION_CONFIG makes
and ends a region; a publish that is next and fits takes staging. 05 R133: a region that is made lies in owned extents, starts
at version 0 and has a number that no region had. 05 R134, R135, R137: the home of a region takes an open request of another
package, stages the lines it sends, and at the end applies them and advances the version by 1. The payloads of the publish
packets are the model's (log 30). -/
def Obligations.RegionsArePublishedAtTheirHome : Prop :=
  (∀ (s : State) (n : Nat) (sl : Slot),
    let s1 := s.dispatch n sl
    let w := sl.who n 5
    (∀ (t : State) (u : Unit), s.ready n 0x40 sl → 1 ≤ sl.f 192 64 → sl.f 192 64 ≤ 2 ^ 50 →
      let l := s1.mappedRanges sl.asid (sl.f 128 57) (sl.f 192 64)
      (flushLines w (sl.f 320 1 = 1) (s1.cachedIn l)).go s1 = (.ok u, t) → t.fab.tags = [] → t.mailbox w.waiter = [] →
      exec (.flush n) s = .next (t.finish n .ok 0 0)) ∧
    (∀ (ga la id : Nat) (t : State) (r : Region), s.ready n 0x41 sl → sl.f 192 64 = 0 → sl.cursor = 0 →
      (translate w sl.asid (sl.f 128 57) true).go s1 = (.ok ga, t) → t.placeOf ga = .here la → t.regionAt la = some (id, r) →
      exec (.publish n) s = .next ((t.updSlot n fun x => { x with cursor := 1 }).takeOpen id
        { package := none, tag := sl.seq, announced := 0, base := sl.f 256 64, granted := false, received := 0, staged := [] })) ∧
    (∀ (ga la id : Nat) (t : State) (r : Region) (x : Resp), s.begun n 0x41 sl → sl.f 192 64 = 0 → sl.cursor = 1 →
      (translate w sl.asid (sl.f 128 57) true).go s = (.ok ga, t) → t.placeOf ga = .here la → t.regionAt la = some (id, r) →
      sl.resp.find? (fun r => r.address = partMark) = some x → x.status = 0 →
      exec (.publish n) s = .next ((t.advanceVersion id r (some n)).finish n .ok 0 (r.version + 1))) ∧
    (∀ (ga la id : Nat) (t : State) (r : Region), s.ready n 0x42 sl → sl.f 192 64 = 0 →
      (translate w sl.asid (sl.f 128 57) false).go s1 = (.ok ga, t) → t.placeOf ga = .here la → t.regionAt la = some (id, r) →
      exec (.versionQuery n) s = .next (t.finish n .ok 0 r.version)) ∧
    (∀ (ga la len : Nat) (t : State) (u : State) (v : Unit), s.ready n 0x43 sl → sl.f 321 1 = 0 → sl.f 192 64 = len →
      len % 2 ^ 16 = 0 → 2 ^ 16 ≤ len → len ≤ 2 ^ 36 →
      (rangePieces w sl.asid (sl.f 128 57) len false (len / 2 ^ 16 + 1)).go s1 = (.ok [(ga, len)], t) → t.placeOf ga = .here la →
      (createRegion sl.tenant [(la, len)] len (some n)).go t = (.ok v, u) →
      exec (.regionCreate n) s = .next (u.finish n .ok 0 0)) ∧
    (∀ (ga la id : Nat) (t : State) (r : Region), s.ready n 0x43 sl → sl.f 321 1 = 1 →
      (translate w sl.asid (sl.f 128 57) false).go s1 = (.ok ga, t) → t.placeOf ga = .here la → t.regionAt la = some (id, r) →
      r.current = none →
      exec (.regionDestroy n) s = .next
        ((({ t with rlc := { t.rlc with regions := SMap.del t.rlc.regions id } } : State).mirrorMeta (some n)).finish n .ok 0 0)) ∧
    (∀ (id : Nat) (r : Region) (p : Publish), SMap.look s.rlc.regions id = some r → r.current = some p → p.granted = false →
      s.nextStaging = some id → s.stagingUsed + p.announced ≤ s.stagingLines →
      exec (.publishStagingGrant id) s = .next
        ((s.setRegion id { r with current := some { p with granted := true } }).answerOpen p .ok r.version))) ∧
  (∀ (s t : State) (tenant len : Nat) (pieces : List (Nat × Nat)) (u : Unit), SMap.Sorted s.rlc.regions →
    s.val (dkey 0x5021 2) ≤ 4096 →
    (createRegion tenant pieces len none).go s = (.ok u, t) →
    ∃ id, SMap.look s.rlc.regions id = none ∧
      SMap.look t.rlc.regions id =
        some { pieces, length := len, tenant, version := 0, current := none, waiting := [] } ∧ t.mem = s.mem ∧
      (∀ other, other ≠ id → SMap.look t.rlc.regions other = SMap.look s.rlc.regions other) ∧
      (∀ r ∈ s.rlc.regions, rangesShare r.2.pieces pieces = false)) ∧
  (∀ (s : State) (k : Packet) (la base id : Nat) (r : Region),
    let q := packetHead k
    let t := s.taken k
    let mine := fun (p : Publish) => p.package = some q.src && p.tag = q.tag
    (s.received 0x05 k → t.place q.dst q.addr = .here la → (permitE q.tenant la).go t = (.ok (), t) →
      t.regionAt la = some (id, r) → r.current.any mine = false → r.waiting.any mine = false →
      exec (.pubOpen k) s = .next (t.takeOpen id
        { package := some q.src, tag := q.tag, announced := leNat (k.payload.drop 8 |>.take 8),
          base := leNat (k.payload.take 8), granted := false, received := 0, staged := [] })) ∧
    (∀ p : Publish, s.received 0x09 k → t.place q.dst q.ctr = .here base → t.place q.dst q.addr = .here la →
      t.regionAt base = some (id, r) → r.current = some p → p.package = some q.src → p.granted = true →
      inRanges r.pieces (lineOf la) = true → p.staged.any (fun (l, _, _) => l = lineOf la) = false →
      exec (.pubLine k) s = .next ((t.setRegion id { r with current := some { p with
        received := p.received + 1
        staged := p.staged.filter (fun (l, _, _) => l ≠ lineOf la) ++
          [(lineOf la, k.payload.take 64, BitVec.ofNat 64 (leNat (k.payload.drop 64)))] } }).reply k (plainHead q .ok) [] [])) ∧
    (∀ (p : Publish) (u : State) (v : Unit), s.received 0x0A k → t.place q.dst q.addr = .here base →
      t.regionAt base = some (id, r) → r.current = some p → p.package = some q.src → p.granted = true →
      p.announced ≤ p.received → (applyStaged q.tenant id r p p.staged).go t = (.ok v, u) →
      exec (.pubEnd k) s = .next ((u.advanceVersion id { r with current := none } none).reply k (plainHead q .ok)
        (versionPayload (r.version + 1) p.announced) (p.staged.map (·.1)))))

/-- 05 R139, R141: FILL and COPY write every line of their destination once, COPY with the bytes its source held before, and report
the lines written. 05 R142, R143: COMPARE reports the position of the first difference it met, or all ones; REDUCE writes the
lines of its result, every element of which is made of the elements its sources held before. The order of the lines is the
model's choice (log 32). -/
def Obligations.PoolOperationsWriteAndReport : Prop :=
  (∀ (s : State) (n : Nat) (sl x : Slot) (t : State) (u : Unit),
    let s1 := s.dispatch n sl
    let w := sl.who n 3
    let len := sl.f 256 64
    let va := sl.f 192 57
    1 ≤ len → len ≤ 2 ^ 50 → t.slot? n = some x →
    (s.ready n 0x10 sl →
      let pat := leBytes 16 (sl.f 384 128)
      (pat.drop (2 ^ sl.f 320 4)).all (fun b => b = 0) = true →
      (units w n (lineCount va len) (poolLine w n (sl.run s.time) va len fun i =>
        ((List.range (lineAt va len i).2).map fun j =>
          pat.getD (((lineAt va len i).1 - va + j) % 2 ^ sl.f 320 4) 0, false))).go s1 = (.ok u, t) →
      exec (.fill n) s = .next (t.finish n .ok x.count 0)) ∧
    (∀ (kept : List Nat) (t1 : State), s.ready n 0x11 sl → sl.marks = [] →
      (readCopySource w sl.asid (sl.f 128 57) va len (lineCount va len) 0).go s1 = (.ok kept, t1) →
      let y : Slot := { sl.run s.time with marks := kept }
      let t2 := (t1.updSlot n fun x => { x with marks := kept }).setMail w.waiter []
      t2.slot? n = some { y with resp := [] } →
      (units w n (lineCount va len) (poolLine w n (sl.run s.time) va len fun i =>
        keptLine (lineAt va len i).2 (kept.getD i 0))).go t2 = (.ok u, t) →
      exec (.copy n) s = .next (t.finish n .ok x.count 0))) ∧
  (∀ (s : State) (n : Nat) (sl x : Slot) (t : State) (u : Unit),
    let s1 := s.dispatch n sl
    let w := sl.who n 3
    t.slot? n = some x →
    (s.ready n 0x12 sl → 1 ≤ sl.f 256 64 → sl.f 256 64 ≤ 2 ^ 50 →
      let va := sl.f 128 57
      (units w n (lineCount va (sl.f 256 64)) (fun i => do
        let b ← readVa w sl.asid (sl.f 192 57 + ((lineAt va (sl.f 256 64) i).1 - va)) (lineAt va (sl.f 256 64) i).2
        let d ← compareLine w (sl.run s.time) (lineAt va (sl.f 256 64) i).1 b
        modify fun s => s.updSlot n fun x => { x with count := i + 1, marks := match d with
          | some j => if x.marks.isEmpty then [(lineAt va (sl.f 256 64) i).1 - va + j] else x.marks
          | none => x.marks })).go s1 = (.ok u, t) →
      exec (.compare n) s = .next (t.finish n .ok x.count (x.marks.headD (2 ^ 64 - 1)))) ∧
    (∀ (srcs : List (Nat × Nat)) (l : List (Byte × Bool)) (t0 t1 : State) (y : Slot),
      let r := reductionOf sl
      s.ready n 0x13 sl → sl.marks = [] → 1 ≤ r.n → 1 ≤ r.sources → r.sources ≤ 4096 → r.stride % elemBytes r.inF = 0 →
      r.clash = false → (sourceLines w sl.asid r r.sources 0).go s1 = (.ok srcs, t0) →
      (reduceElems w sl.asid r srcs r.n 0).go t0 = (.ok l, t1) →
      let t2 := (t1.updSlot n fun x => { x with marks := resultLines r.dst l }).setMail w.waiter []
      t2.slot? n = some y → y.marks = resultLines r.dst l →
      (units w n (lineCount r.dst (r.n * elemBytes r.outF)) (poolLine w n (sl.run s.time) r.dst (r.n * elemBytes r.outF) fun i =>
        keptLine (lineAt r.dst (r.n * elemBytes r.outF) i).2 ((resultLines r.dst l).getD i 0))).go t2 = (.ok u, t) →
      exec (.reduce n) s = .next (t.finish n .ok x.count 0)))

/-! ### Silt cores (chapter 7) -/

/-- 07 Table 7-1: s0 reads zero and p0 reads all ones, and a write to either is discarded; every other scalar register holds what is
written to it, and no write to one register changes another. 07 R184, R191: an instruction whose line stands in the instruction
cache issues without another change of the state; one that is fetched from memory leaves its line in the cache. A word of no row
raises ILLEGAL and has no other effect. -/
def Obligations.RegistersAndInstructionIssue : Prop :=
  (∀ (c : Core) (v : Word) (p : PReg), c.getS 0 = 0 ∧ c.putS 0 v = c ∧ c.getP 0 = BitVec.allOnes 128 ∧ c.putP 0 p = c ∧
    ∀ r q : Nat, r ≠ 0 → SMap.Sorted c.s → (c.putS r v).getS q = if q = r then v else c.getS q) ∧
  (∀ (s : State) (n : Nat) (word : BitVec 32) (bs : List Byte),
    let pc := (s.core n).pc.toNat
    (SMap.look (s.core n).icache (pc / 64) = some bs → n < 25600 → (s.core n).mayIssue = true →
      word = BitVec.ofNat 32 (leNat ((bs.drop (pc % 64)).take 4)) → s.issues n word s) ∧
    (∀ t : State, SMap.look (s.core n).icache (pc / 64) = none → (s.core n).icache.length < 256 → n < 25600 →
      (s.core n).mayIssue = true →
      (readVaP (s.coreWho n) (s.core n).asid (pc / 64 * 64) 64).go s = (.ok (bs, false), t) →
      (t.core n).icache.length < 256 →
      s.issues n (BitVec.ofNat 32 (leNat ((bs.drop (pc % 64)).take 4)))
        (t.updCore n fun c => { c with icache := SMap.put c.icache (pc / 64) bs, resp := [] })) ∧
    (∀ t : State, s.issues n word t → ownerless word = true →
      exec (.salu n word) s = .next (t.coreExc n 0x01 0 false word) ∧
      exec (.halt n word) s = .next ((t.coreExc n 0x01 0 false word).coreProgress n)))

/-- 07 R192, Table 7-7: SALU writes s(rd) with the result of its FN, modulo 2^64, and does nothing else. A division by zero gives
all ones and its remainder gives the dividend. 07 Table 7-5: the instructions with an immediate write s(rd) from s(rs1) and
IMM16, and do nothing else. LUI whose rs1 is not s0 raises ILLEGAL. -/
def Obligations.ScalarUnitComputes : Prop :=
  (∀ (s t : State) (n : Nat) (word : BitVec 32), s.issues n word t → major word = 0x01 → saluFields word = true →
    let a := (t.core n).getS (fRs1 word)
    let b := (t.core n).getS (fRs2 word)
    let c := (t.core n).getS (fRs3 word)
    let is := fun (fn : Nat) (v : Word) => fnA word = fn → exec (.salu n word) s = .next (t.scalarDone n (fRd word) v)
    is 0 (a + b) ∧ is 1 (a - b) ∧ is 2 (a &&& b) ∧ is 3 (a ||| b) ∧ is 4 (a ^^^ b) ∧
    is 5 (a <<< (b.toNat % 64)) ∧ is 6 (a >>> (b.toNat % 64)) ∧ is 7 (a.sshiftRight (b.toNat % 64)) ∧
    is 8 (a * b) ∧ is 9 (BitVec.ofNat 64 (a.toNat * b.toNat / 2 ^ 64)) ∧
    is 10 (if b = 0 then BitVec.allOnes 64 else BitVec.ofNat 64 (a.toNat / b.toNat)) ∧
    is 11 (if b = 0 then a else BitVec.ofNat 64 (a.toNat % b.toNat)) ∧
    is 12 (if a.toInt < b.toInt then 1 else 0) ∧ is 13 (if a.toNat < b.toNat then 1 else 0) ∧
    is 14 (if a.toInt < b.toInt then a else b) ∧ is 15 (if a.toInt < b.toInt then b else a) ∧
    is 16 (if a.toNat < b.toNat then a else b) ∧ is 17 (if a.toNat < b.toNat then b else a) ∧
    is 18 (BitVec.ofNat 64 (popCount 64 a.toNat)) ∧ is 19 (BitVec.ofNat 64 (clz 64 a.toNat)) ∧
    is 20 (BitVec.ofNat 64 (ctz 64 a.toNat)) ∧ is 21 (if c ≠ 0 then a else b) ∧
    is 22 (BitVec.ofNat 64 ((leBytes 8 b.toNat).foldl crcByte (a.toNat % 2 ^ 32)))) ∧
  (∀ (s t : State) (n : Nat) (word : BitVec 32), s.issues n word t →
    let a := (t.core n).getS (fRs1 word)
    let imm := word.extractLsb' 16 16
    let gives := fun (i : Instr) (v : Word) => exec i s = .next (t.scalarDone n (fRd word) v)
    (major word = 0x02 → gives (.addi n word) (a + imm.signExtend 64)) ∧
    (major word = 0x03 → gives (.andi n word) (a &&& imm.zeroExtend 64)) ∧
    (major word = 0x04 → gives (.ori n word) (a ||| imm.zeroExtend 64)) ∧
    (major word = 0x05 → gives (.xori n word) (a ^^^ imm.zeroExtend 64)) ∧
    (major word = 0x06 → fRs1 word = 0 → gives (.lui n word) (imm.signExtend 64 <<< 16)) ∧
    (major word = 0x06 → fRs1 word ≠ 0 → exec (.lui n word) s = .next (t.coreExc n 0x01 0 false word)) ∧
    (major word = 0x07 → gives (.shori n word) (a <<< 16 ||| imm.zeroExtend 64)))

/-- 07 R193, Tables 7-5 and 7-8: BR goes to PC + OFF13 × 4 when its condition holds, and on otherwise; JAL and JALR write the
address of the next instruction and go to their target, which JALR forms before it writes. Nothing else changes. -/
def Obligations.BranchesAndJumpsSetThePc : Prop :=
  ∀ (s t : State) (n : Nat) (word : BitVec 32), s.issues n word t →
    let c := t.core n
    let a := c.getS (fld word 6 5)
    let b := c.getS (fld word 11 5)
    let br := fun (cond : Nat) (holds : Prop) => major word = 0x08 → fld word 16 3 = cond →
      (holds → exec (.br n word) s = .next (t.retire n (c.pc + (word.extractLsb' 19 13).signExtend 64 <<< 2))) ∧
      (¬holds → exec (.br n word) s = .next (t.retire n (c.pc + 4)))
    br 0 (a = b) ∧ br 1 (a ≠ b) ∧ br 2 (a.toInt < b.toInt) ∧ br 3 (b.toInt ≤ a.toInt) ∧ br 4 (a.toNat < b.toNat) ∧
    br 5 (b.toNat ≤ a.toNat) ∧
    (major word = 0x09 → exec (.jal n word) s = .next
      ((t.updCore n fun x => x.putS 31 (c.pc + 4)).retire n (c.pc + (word.extractLsb' 6 26).signExtend 64 <<< 2))) ∧
    (major word = 0x0A → exec (.jalr n word) s = .next
      ((t.updCore n fun x => x.putS (fRd word) (c.pc + 4)).retire n
        ((c.getS (fRs1 word) + (word.extractLsb' 16 16).signExtend 64) &&& ~~~3)))

/-- 07 R208, Table 7-16: CSRR writes s(rd) with the register; CSRW to FFLAGS clears the bits written as 1, and to any other register
is ignored; a reserved number raises ILLEGAL. 07 Table 7-6, R184, R207: HALT ends the kernel on its core; BRK halts an armed
core at the BRK and raises BREAK on another; DRAIN goes on once the tracker is free; DCWB and DCWBI once every dirty line has
landed, DCWBI with the cache empty; ICINV empties the instruction cache. -/
def Obligations.ControlAndSystemInstructions : Prop :=
  (∀ (s t : State) (n : Nat) (word : BitVec 32), s.issues n word t →
    let num := fld word 16 16
    (∀ v : Nat, major word = 0x0B → fRs1 word = 0 → t.csr n num = some v →
      exec (.csrr n word) s = .next (t.scalarDone n (fRd word) (BitVec.ofNat 64 v))) ∧
    (major word = 0x0C → fRd word = 0 → num = 0x010 → exec (.csrw n word) s = .next
      ((t.updCore n fun c => { c with fflags := c.fflags &&& ~~~((c.getS (fRs1 word)).setWidth 4) }).retire n
        ((t.core n).pc + 4))) ∧
    (∀ v : Nat, major word = 0x0C → fRd word = 0 → num ≠ 0x010 → t.csr n num = some v →
      exec (.csrw n word) s = .next ((t.updCore n fun c => c).retire n ((t.core n).pc + 4))) ∧
    (t.csr n num = none →
      (major word = 0x0B → exec (.csrr n word) s = .next (t.coreExc n 0x01 0 false word)) ∧
      (major word = 0x0C → exec (.csrw n word) s = .next (t.coreExc n 0x01 0 false word)))) ∧
  (∀ (s t : State) (n : Nat) (word : BitVec 32), s.issues n word t → major word = 0x0D → fld word 6 20 = 0 →
    let c := t.core n
    (fnA word = 0 → c.failure = none →
      exec (.halt n word) s = .next (((t.updCore n fun c => { c with run := .ending }).retire n c.pc).coreProgress n)) ∧
    (fnA word = 1 → c.armed = true →
      exec (.brk n word) s = .next ((t.updCore n fun c => { c with dbg := .halted, atBrk := true }).retire n c.pc)) ∧
    (fnA word = 1 → c.armed = false → exec (.brk n word) s = .next (t.coreExc n 0x0B 0 false word)) ∧
    (fnA word = 2 → c.tracker = [] → c.failure = none → exec (.drain n word) s = .next (t.retire n (c.pc + 4))) ∧
    (c.dirtyLines = [] → c.tracker = [] →
      (fnA word = 3 → exec (.dcwb n word) s = .next ((t.updCore n fun c => c).retire n (c.pc + 4))) ∧
      (fnA word = 4 → exec (.dcwbi n word) s =
        .next (((t.updCore n fun c => c).updCore n fun c => { c with dcache := [] }).retire n (c.pc + 4)))) ∧
    (fnA word = 5 → exec (.icinv n word) s =
      .next ((t.updCore n fun c => { c with icache := [] }).retire n (c.pc + 4))))

/-- 07 R187, R188, Table 7-2: a scalar load writes s(rd) with the bytes of its range, extended as SX says, and VLD writes vd; a
store gives its bytes to its range. An address that is not aligned raises MISALIGNED with no other effect. 07 Table 7-3, R178: a
load or store of bytes in the core's own scratchpad goes there directly: a load reads the bytes of the store and changes neither
memory nor cache; a store changes exactly its own bytes. Loads and atomics in program order, and what an address above 57 bits
is, are the model's (log 20). -/
def Obligations.LoadsAndStoresMoveTheirBytes : Prop :=
  (∀ (s t : State) (n victim : Nat) (word : BitVec 32), s.issues n word t →
    let c := t.core n
    let k := 2 ^ fld word 16 2
    let va := addrM c word
    let form := fld word 19 2
    let formV := fld word 24 2
    (∀ (bs : List Byte) (u : State), major word = 0x10 → form ≤ 1 → va % k = 0 →
      (loadRanges n form victim [(va, k)]).go t = (.ok bs, u) →
      exec (.ld n word victim) s = .next (u.scalarDone n (fRd word)
        (if flag word 18 then BitVec.ofInt 64 (signed (8 * k) (leNat bs)) else BitVec.ofNat 64 (leNat bs)))) ∧
    (∀ (u : State) (x : Unit), major word = 0x11 → form ≤ 1 → flag word 18 = false → va % k = 0 →
      (storeRanges n form victim [(va, k)] (leBytes k (c.getS (fRd word)).toNat)).go t = (.ok x, u) →
      exec (.st n word victim) s = .next (u.retire n (c.pc + 4))) ∧
    (∀ (bs : List Byte) (u : State), major word = 0x12 → legalVM word = true → (∀ g ∈ segsVM c word, g.1 % g.2 = 0) →
      (loadRanges n formV victim (segsVM c word)).go t = (.ok bs, u) →
      exec (.vld n word victim) s = .next
        ((u.updCore n fun c => c.putV (fRd word) (BitVec.ofNat 1024 (leNat bs))).retire n (c.pc + 4))) ∧
    (∀ (u : State) (x : Unit), major word = 0x13 → legalVM word = true → (∀ g ∈ segsVM c word, g.1 % g.2 = 0) →
      (storeRanges n formV victim (segsVM c word) (leBytes 128 (c.getV (fRd word)).toNat)).go t = (.ok x, u) →
      exec (.vst n word victim) s = .next (u.retire n (c.pc + 4))) ∧
    (va % k ≠ 0 → form ≤ 1 →
      (major word = 0x10 → exec (.ld n word victim) s = .next (t.coreExc n 0x02 va false word)) ∧
      (major word = 0x11 → flag word 18 = false → exec (.st n word victim) s = .next (t.coreExc n 0x02 va false word)))) ∧
  (∀ (s t u : State) (n victim ga : Nat) (word : BitVec 32), s.issues n word t →
    let c := t.core n
    let k := 2 ^ fld word 16 2
    let va := addrM c word
    let la := ga % 2 ^ 50
    fld word 19 2 ≤ 1 → va % k = 0 → t.storeOk →
    u.ownSpad n ga k = true → ga % 64 + k ≤ 64 → u.placeOf ga = .here la → u.areaOf la = .scratch n →
    u.homeRefusal (u.coreWho n).tenant la = none → u.awaitsTwin (lineOf la) = false → u.dir? (lineOf la) = none →
    (u.core n).failure = none → (u.core n).tracker = [] → u.core n = c → u.mem = t.mem → va % 64 + k ≤ 64 →
    (∀ v : Word, major word = 0x10 → flag word 18 = false → (translate (t.coreWho n) c.asid va false).go t = (.ok ga, u) →
      u.readsBad (lineOf la) = false → v = BitVec.ofNat 64 (leNat (t.peek la k)) →
      ∃ w, exec (.ld n word victim) s = .next w ∧ w.mem = t.mem ∧ (w.core n).dcache = c.dcache ∧
        w.core n = ((u.scalarDone n (fRd word) v).core n)) ∧
    (major word = 0x11 → flag word 18 = false → (translate (t.coreWho n) c.asid va true).go t = (.ok ga, u) →
      ∃ w, exec (.st n word victim) s = .next w ∧ w.peek la k = leBytes k (c.getS (fRd word)).toNat ∧
        (∀ a, a < la ∨ la + k ≤ a → w.peek a 1 = t.peek a 1) ∧ (w.core n).s = c.s ∧ (w.core n).pc = c.pc + 4 ∧
        (w.core n).dcache = c.dcache))

/-- 07 R202 to R204: an atomic writes the old value to s(rd); XCOPY holds two tracker entries for its two ranges and SDF one for its
store, each with the writes that it still has to make; a copy whose ranges overlap, or whose length is out of range, raises
BAD_OPERAND. 07 R185, R203: a write of a tracker entry takes its place at its home, and an entry with nothing left frees. The
order in which a copy lands is free (log 21). -/
def Obligations.AtomicsCopiesAndTheTracker : Prop :=
  (∀ (s t : State) (n : Nat) (word : BitVec 32), s.issues n word t →
    let c := t.core n
    let size := fld word 30 2
    let op := fld word 26 4
    let va := (c.getS (fRs1 word)).toNat
    (∀ (ga old : Nat) (u v : State), major word = 0x14 → legalAmo word = true → size ≤ 1 → va % atomicBytes size = 0 →
      atomicAllowed op size = true → c.dcache = [] → c.tracker = [] → c.failure = none →
      (translateC n c.asid true [(va, atomicBytes size)]).go t = (.ok [(va, ga, atomicBytes size)], u) → u.core n = c →
      (atomicPhys (u.coreWho n) ga op size (c.wide size (fRs2 word)) (c.wide size (fRs3 word))).go
        ((u.updCore n fun c => c.cleanSome []).updCore n fun c => { c with dcache := [] }) = (.ok old, v) →
      exec (.amo n word) s = .next ((match v.placeOf ga with
        | .here la => v.checkRetire la
        | _ => v).scalarDone n (fRd word) (BitVec.ofNat 64 old))) ∧
    (major word = 0x14 → legalAmo word = true → va % atomicBytes size ≠ 0 →
      exec (.amo n word) s = .next (t.coreExc n 0x04 va false word)) ∧
    (∀ len : Nat, major word = 0x15 → flag word 31 = false → (flag word 30 = true ∨ fRd word = 0) →
      len = (c.getS (fRs3 word)).toNat →
      ((len = 0 ∨ 16777216 < len) → exec (.xcopy n word) s = .next (t.coreExc n 0x03 0 false word)) ∧
      (∀ (src dst : List Piece) (u v : State), 1 ≤ len → len ≤ 16777216 → fRd word = 0 →
        (translateC n c.asid false (piecesOf (c.getS (fRs2 word)).toNat len)).go t = (.ok src, u) →
        (translateC n c.asid true (piecesOf va len)).go u = (.ok dst, v) →
        (piecesMeet (physOf src) (physOf dst) = true → exec (.xcopy n word) s = .next (v.coreExc n 0x03 va false word)) ∧
        (piecesMeet (physOf src) (physOf dst) = false → (v.core n).dcache = [] → (v.core n).tracker = [] →
          (v.core n).failure = none →
          ∃ w, exec (.xcopy n word) s = .next w ∧ (w.core n).tracker.length = 2 ∧ w.mem = v.mem ∧ (w.core n).pc = c.pc + 4 ∧
            ∃ e1 e2, SMap.look (w.core n).tracker 0 = some e1 ∧ SMap.look (w.core n).tracker 1 = some e2 ∧
              e1.kind = .copySource ∧ e1.pieces = physOf src ∧ e1.todo = [] ∧ e2.kind = .copyDest ∧ e2.pieces = physOf dst ∧
              e2.final = flag word 30 ∧ e2.group = some (fld word 26 4) ∧ e2.partner = e1.order))) ∧
    (∀ (ga : Nat) (u : State), major word = 0x16 → fld word 30 2 = 0 → fRs3 word = 0 → fRd word = 0 → va % 8 = 0 →
      (translateC n c.asid true [(va, 8)]).go t = (.ok [(va, ga, 8)], u) → (u.core n).dcache = [] → (u.core n).tracker = [] →
      (u.core n).failure = none →
      ∃ w e, exec (.sdf n word) s = .next w ∧ SMap.look (w.core n).tracker 0 = some e ∧ w.mem = u.mem ∧
        (w.core n).pc = c.pc + 4 ∧ e.kind = .sdf ∧ e.final = true ∧ e.group = some (fld word 26 4) ∧
        e.pieces = [(ga, 8)] ∧ e.counter = none ∧
        e.todo = [{ address := ga, va := 0, length := 8, data := leBytes 8 (c.getS (fRs2 word)).toNat, mask := none,
                    sources := [] }])) ∧
  (∀ (s u : State) (n e : Nat) (t : Track) (x : TrackWrite) (v : Unit), SMap.look (s.core n).tracker e = some t →
    (s.core n).run = .running → t.kind = .store → t.final = false → t.group = none → t.counter = none → t.todo = [x] →
    (landWrite n t x true).go s = (.ok v, u) → u.core n = s.core n →
    ∃ w, exec (.trackerEntryFree n e) s = .next w ∧ w.mem = u.mem ∧ (w.core n).s = (s.core n).s ∧
      ∀ k, SMap.look (w.core n).tracker k = if k = e then none else SMap.look (s.core n).tracker k)

/-- 07 R205: a WAIT whose word meets its condition returns it at once; one that does not holds issue, is read again at a poll, and
returns the last value read when its time limit passes. 07 R206, 08 R229, R235, R237: MSEND takes its flits' credits and sends
them with s(rd) 0, and in a channel that is in QUEUE_RESET sends nothing, with s(rd) 1 and the channel open again; MRECV takes
the oldest packet and MPEEK gives its length; an unopened handle or a queue above 3 raises CHANNEL. -/
def Obligations.WaitsAndMessagesComplete : Prop :=
  (∀ (s t u : State) (n : Nat) (word : BitVec 32) (v : Word),
    let c := t.core n
    let va := (c.getS (fRs1 word)).toNat
    (s.issues n word t → major word = 0x17 → va % 8 = 0 → (waitRead n va).go t = (.ok v, u) →
      (fnA word = 0 → (c.getS (fRs2 word)).toNat ≤ v.toNat →
        exec (.waitge n word) s = .next (u.scalarDone n (fRd word) v)) ∧
      (fnA word = 1 → v ≠ c.getS (fRs2 word) → exec (.waitne n word) s = .next (u.scalarDone n (fRd word) v)) ∧
      (fnA word = 0 → v.toNat < (c.getS (fRs2 word)).toNat → c.getS (fRs3 word) = 0 →
        ∃ w, exec (.waitge n word) s = .next w ∧ w.mem = u.mem ∧
          (w.core n).wait = some (.counter true va (c.getS (fRs2 word)) 0 (fRd word) v) ∧ (w.core n).mayIssue = false)) ∧
    (∀ (ge : Bool) (va limit rd : Nat) (target last : Word), (s.core n).wait = some (.counter ge va target limit rd last) →
      (s.core n).run = .running → (s.core n).dbg ≠ .halted →
      ((waitRead n va).go s = (.ok v, u) → waitMet ge v target = true →
        exec (.waitPoll n) s = .next (u.endWait n rd v)) ∧
      ((waitRead n va).go s = (.ok v, u) → waitMet ge v target = false →
        exec (.waitPoll n) s = .next (u.updCore n fun c =>
          { c with resp := [], wait := some (.counter ge va target limit rd v) })) ∧
      (limit ≠ 0 → limit ≤ 8 * s.time → exec (.waitTimeLimit n) s = .next (s.endWait n rd last)) ∧
      (8 * s.time < limit → exec (.waitTimeLimit n) s = .next s))) ∧
  (∀ (s t : State) (n : Nat) (word : BitVec 32), s.issues n word t → major word = 0x18 →
    let c := t.core n
    let handle := (c.getS (fRs2 word)).toNat
    let key := n * 64 + handle
    let k := (c.getS (fRs3 word)).toNat
    let queue := (c.getS (fRs1 word)).toNat
    let q := t.queue (n * 4 + queue)
    (∀ (ch : Channel), fnA word = 0 → handle < 64 → t.channel? key = some ch → 1 ≤ k → k ≤ 16 → k ≤ ch.granted →
      (∀ (ga : Nat) (l : List (List Byte)) (u v : State), ch.state = .open →
        (spadAddress n (c.getS (fRs1 word)).toNat (32 * k) false).go t = (.ok ga, u) → k ≤ ch.credits →
        (readFlits n ga k).go u = (.ok (l, false), v) →
        exec (.msend n word) s = .next ((v.updChannel key fun x => { x with
          credits := x.credits - l.length
          mesh := x.mesh ++ packetMesh x key (v.core n).trackOrder l.length false l 0 }).scalarDone n (fRd word) 0)) ∧
      (ch.state = .queueReset → exec (.msend n word) s = .next
        ((t.updChannel key fun x => { x with state := .open }).scalarDone n (fRd word) 1))) ∧
    (fnA word = 0 → 64 ≤ handle → exec (.msend n word) s = .next (t.coreExc n 0x0A 0 false word)) ∧
    (∀ (ga : Nat) (p : CorePacket) (rest : List CorePacket) (u v : State) (x y : Unit), fnA word = 1 → fRs3 word = 0 → queue ≤ 3 →
      q.resetPending = false → q.packets = p :: rest →
      (spadAddress n (c.getS (fRs2 word)).toNat 32 true).go t = (.ok ga, u) →
      (trackClear n [(ga, p.payload.length)] true).go u = (.ok x, u) →
      (recvPacket n (n * 4 + queue) ga p).go u = (.ok y, v) →
      exec (.mrecv n word) s = .next (v.scalarDone n (fRd word) (recvWord p))) ∧
    (fnA word = 1 → fRs3 word = 0 → queue ≤ 3 → q.resetPending = true →
      exec (.mrecv n word) s = .next
        ((t.setQueue (n * 4 + queue) { q with resetPending := false }).scalarDone n (fRd word) (BitVec.ofNat 64 (2 ^ 63)))) ∧
    (fnA word = 2 → fRs2 word = 0 → fRs3 word = 0 → queue ≤ 3 → q.resetPending = false →
      exec (.mpeek n word) s = .next (t.scalarDone n (fRd word)
        (BitVec.ofNat 64 ((q.packets.head?.map fun p => p.payload.length / 32).getD 0)))) ∧
    (fnA word = 2 → fRs2 word = 0 → fRs3 word = 0 → 3 < queue →
      exec (.mpeek n word) s = .next (t.coreExc n 0x0A 0 false word)))

/-- 07 R194, R195, R201, Table 7-10: VALU writes each active lane of vd with its function of the lanes of vs1, vs2 and vd, leaves
the other lanes, and sets the flags of the active lanes. Integer lanes wrap; a floating-point result is rounded once. 07 R195,
Table 7-10: the integer functions of a lane, modulo 2^w; the floating-point functions are exact before one rounding. 07 R196,
Table 7-11: CVT converts the source lanes of its part into active lanes of TY; the MX functions encode one block of 32 binary32
lanes with its scale, and decode one. Integer conversions that saturate are the model's (log 27). -/
def Obligations.VectorLanesComputeAndConvert : Prop :=
  (∀ (s t : State) (n : Nat) (word : BitVec 32), s.issues n word t → major word = 0x20 →
    let c := t.core n
    let fn := fFn word
    let ty := fTy word
    let p := c.getP (fPg word)
    let d := vLanes ty (c.getV (fVd word))
    let a := vLanes ty (c.getV (fVs1 word))
    let b := vLanes ty (c.getV (fVs2 word))
    let new := (List.range (tyLanes ty)).map fun i =>
      if laneActive p ty i then valuLane ty fn (d.getD i 0) (a.getD i 0) (b.getD i 0) else (d.getD i 0, 0)
    let u := if fn = 2 ∨ fn = 3 then
        t.countWork c.tenant (some c.launchSeq) 0 (tyColumn ty) (activeLanes p ty).length else t
    (valuTypes fn ty = true → (fn < 11 ∨ fn = 14 ∨ fVs2 word = 0) →
      exec (.valu n word) s = .next ((u.updCore n fun c =>
        (c.putV (fVd word) (vOf ty (new.map (·.1)))).raiseFlags (joinFlags new)).retire n (c.pc + 4))) ∧
    (valuTypes fn ty = false → exec (.valu n word) s = .next (t.coreExc n 0x01 0 false word))) ∧
  (∀ (ty d a b : Nat),
    (tyFmt ty = none →
      let w := 8 * tyBytes ty
      let x := tyInt ty a
      let y := tyInt ty b
      valuLane ty 0 d a b = (wrap w (x + y), 0) ∧ valuLane ty 1 d a b = (wrap w (x - y), 0) ∧
      valuLane ty 2 d a b = (wrap w (x * y), 0) ∧ valuLane ty 3 d a b = (wrap w (tyInt ty d + x * y), 0) ∧
      valuLane ty 4 d a b = (wrap w (min x y), 0) ∧ valuLane ty 5 d a b = (wrap w (max x y), 0) ∧
      valuLane ty 6 d a b = (a &&& b, 0) ∧ valuLane ty 7 d a b = (a ||| b, 0) ∧ valuLane ty 8 d a b = (a ^^^ b, 0) ∧
      valuLane ty 9 d a b = (wrap w (x * (2 ^ (b % w) : Nat)), 0) ∧
      valuLane ty 10 d a b = (wrap w (x / (2 ^ (b % w) : Nat)), 0) ∧
      valuLane ty 11 d a b = (wrap w x.natAbs, 0) ∧ valuLane ty 12 d a b = (wrap w (-x), 0) ∧ valuLane ty 13 d a b = (a, 0)) ∧
    (∀ f : Fmt, tyFmt ty = some f →
      let x := f.read a
      let y := f.read b
      (valuLane ty 0 d a b).1 = (f.write (x.add y)).1 ∧ (valuLane ty 1 d a b).1 = (f.write (x.add y.negate)).1 ∧
      (valuLane ty 2 d a b).1 = (f.write (x.mul y)).1 ∧ (valuLane ty 3 d a b).1 = (f.write ((f.read d).add (x.mul y))).1 ∧
      (valuLane ty 4 d a b).1 = (f.write (x.minimum y)).1 ∧ (valuLane ty 5 d a b).1 = (f.write (x.maximum y)).1 ∧
      (valuLane ty 11 d a b).1 = (f.write x.abs).1 ∧ (valuLane ty 12 d a b).1 = (f.write x.negate).1 ∧
      valuLane ty 13 d a b = (a, 0) ∧ (valuLane ty 14 d a b).1 = (f.write (x.div y)).1 ∧
      (valuLane ty 15 d a b).1 = (f.write x.sqrt).1)) ∧
  (∀ (s t : State) (n : Nat) (word : BitVec 32), s.issues n word t → major word = 0x21 →
    let c := t.core n
    let fn := fFn word
    let src := fVs2 word % 8
    let ty := fTy word
    let p := c.getP (fPg word)
    let d := vLanes ty (c.getV (fVd word))
    let a := vLanes src (c.getV (fVs1 word))
    let new := (List.range (tyLanes ty)).map fun i =>
      if laneActive p ty i then (match cvtSource src ty fn i with
        | some k => tyWrite ty (tyRead src (a.getD k 0))
        | none => (d.getD i 0, 0)) else (d.getD i 0, 0)
    (fn ≤ 3 → fVs2 word < 8 → fn < cvtRatio src ty → exec (.vcvt n word) s = .next ((t.updCore n fun c =>
      (c.putV (fVd word) (vOf ty (new.map (·.1)))).raiseFlags (joinFlags new)).retire n (c.pc + 4))) ∧
    (∀ (f : Fmt) (big : Nat), (fn = 4 ∧ f = fmtE4m3 ∧ big = 448 ∨ fn = 5 ∧ f = fmtE2m1 ∧ big = 6) → fPg word = 0 → ty < 4 →
      ∀ (scale flags : Nat) (elems : List Nat),
      mxWrite f big ((vLanes 0 (c.getV (fVs1 word))).map binary32.read) = (scale, elems, flags) →
      exec (.vcvt n word) s = .next ((t.updCore n fun c =>
        ((c.putV (fVd word) (BitVec.ofNat 1024 (setFld (c.getV (fVd word)).toNat (ty * (32 * f.bits)) (32 * f.bits)
          (pack (elems.map fun e => (e, f.bits)))))).putS (fVs2 word) (putByte (c.getS (fVs2 word)) ty scale)).raiseFlags
            flags).retire n (c.pc + 4))) ∧
    (∀ f : Fmt, (fn = 6 ∧ f = fmtE4m3 ∨ fn = 7 ∧ f = fmtE2m1) → fPg word = 0 → ty < 4 →
      let block := lanesOf f.bits (BitVec.ofNat (32 * f.bits) (fld (c.getV (fVs1 word)) (ty * (32 * f.bits)) (32 * f.bits)))
      let out := (List.range 32).map fun j => binary32.write (mxRead f (fld (c.getS (fVs2 word)) (8 * ty) 8) (block.getD j 0))
      exec (.vcvt n word) s = .next ((t.updCore n fun c =>
        (c.putV (fVd word) (vOf 0 (out.map (·.1)))).raiseFlags (joinFlags out)).retire n (c.pc + 4))))

/-- 07 R194, R197, Table 7-12: the compares of VRED write every bit of a predicate; the reductions, the floating-point sum in an
order that a free value gives, write s(rd) from the active lanes (with no lane that qualifies RMIN and RMAX give a free value,
log 27); PRED combines predicates and counts lanes. 07 R197, Table 7-12: VPERM splats, extracts and inserts a lane, numbers the
lanes, packs the active ones and selects. The reductions of no lane, and the lanes that the text leaves open, are the model's
(log 27). -/
def Obligations.ReductionsPredicatesAndPermutes : Prop :=
  (∀ (s t : State) (n : Nat) (word : BitVec 32), s.issues n word t →
    let c := t.core n
    let fn := fFn word
    let ty := fTy word
    let p := c.getP (fPg word)
    let a := vLanes ty (c.getV (fVs1 word))
    let b := vLanes ty (c.getV (fVs2 word))
    let act := (activeLanes p ty).map fun i => a.getD i 0
    let toP := fun (i : Instr) (v : PReg) => exec i s = .next ((t.updCore n fun c => c.putP (fVd word) v).retire n (c.pc + 4))
    let toS := fun (i : Instr) (v : Word) => exec i s = .next (t.scalarDone n (fVd word) v)
    (major word = 0x22 → tyArith ty = true →
      (fn = 0 → fVd word < 8 → toP (.vred n word) (pOf ty fun i => laneActive p ty i && (tyRead ty (a.getD i 0)).eqv (tyRead ty (b.getD i 0)))) ∧
      (fn = 1 → fVd word < 8 → toP (.vred n word) (pOf ty fun i => laneActive p ty i && (tyRead ty (a.getD i 0)).lt (tyRead ty (b.getD i 0)))) ∧
      (fn = 2 → fVd word < 8 → toP (.vred n word) (pOf ty fun i => laneActive p ty i &&
        ((tyRead ty (a.getD i 0)).lt (tyRead ty (b.getD i 0)) || (tyRead ty (a.getD i 0)).eqv (tyRead ty (b.getD i 0))))) ∧
      (∀ f : Fmt, fVs2 word = 0 → fn = 3 → tyFmt ty = some f →
        let r := sumTerms t.free ((act.map (tyRead ty)).filter fun x => !x.isNan)
        exec (.vred n word) s = .next (((t.drawRun act.length).2.updCore n fun c => c.raiseFlags r.2).scalarDone n (fVd word)
          (BitVec.ofNat 64 (binary32.write r.1).1))) ∧
      (fVs2 word = 0 → fn = 3 → tyFmt ty = none → toS (.vred n word) (BitVec.ofInt 64 (act.map (tyInt ty)).sum)) ∧
      (∀ x : Sys2Proof.Num, fVs2 word = 0 → fn = 4 → extremum false ((act.map (tyRead ty)).filter fun x => !x.isNan) = some x →
        toS (.vred n word) (reduced ty x)) ∧
      (∀ x : Sys2Proof.Num, fVs2 word = 0 → fn = 5 → extremum true ((act.map (tyRead ty)).filter fun x => !x.isNan) = some x →
        toS (.vred n word) (reduced ty x)) ∧
      (fVs2 word = 0 → (fn = 4 ∨ fn = 5) → (act.map (tyRead ty)).filter (fun x => !x.isNan) = [] →
        exec (.vred n word) s = .next (t.draw.2.scalarDone n (fVd word) (BitVec.ofNat 64 t.draw.1))) ∧
      (fVs2 word = 0 → fn = 6 → toS (.vred n word) (rmini ty p a)) ∧
      (fVs2 word = 0 → fn = 7 → fPg word = 0 → toS (.vred n word) (BitVec.ofNat 64 (setFld (c.getS (fVd word)).toNat 0 32
        ((leBytes 128 (c.getV (fVs1 word)).toNat).foldl crcByte ((c.getS (fVd word)).toNat % 2 ^ 32)))))) ∧
    (major word = 0x24 → fPg word = 0 → fVd word < 8 → fVs1 word < 8 →
      (fn = 0 → fVs2 word < 8 → toP (.pred n word) (c.getP (fVs1 word) &&& c.getP (fVs2 word))) ∧
      (fn = 1 → fVs2 word < 8 → toP (.pred n word) (c.getP (fVs1 word) ||| c.getP (fVs2 word))) ∧
      (fn = 2 → fVs2 word < 8 → toP (.pred n word) (c.getP (fVs1 word) ^^^ c.getP (fVs2 word))) ∧
      (fn = 3 → fVs2 word = 0 → toP (.pred n word) (~~~(c.getP (fVs1 word)))) ∧
      (fn = 4 → fVs1 word = 0 → fVs2 word = 0 → toP (.pred n word) (BitVec.allOnes 128)) ∧
      (fn = 5 → fVs1 word = 0 → fVs2 word = 0 → toP (.pred n word) 0) ∧
      (fn = 6 → fVs2 word = 0 → tyArith ty = true →
        toS (.pred n word) (BitVec.ofNat 64 (activeLanes (c.getP (fVs1 word)) ty).length)) ∧
      (fn = 7 → fVs1 word = 0 → tyArith ty = true → toP (.pred n word) (pOf ty fun i => i < (c.getS (fVs2 word)).toNat)))) ∧
  (∀ (s t : State) (n : Nat) (word : BitVec 32), s.issues n word t → major word = 0x23 →
    let c := t.core n
    let fn := fFn word
    let ty := fTy word
    let p := c.getP (fPg word)
    let old := vLanes ty (c.getV (fVd word))
    let a := vLanes ty (c.getV (fVs1 word))
    let b := vLanes ty (c.getV (fVs2 word))
    let spot := (c.getS (fVs2 word)).toNat % tyLanes ty
    let lanes := fun (l : List (Nat × Nat)) => exec (.vperm n word) s = .next
      ((t.updCore n fun c => (c.putV (fVd word) (vOf ty (l.map (·.1)))).raiseFlags (joinFlags l)).retire n (c.pc + 4))
    let actives := fun (f : Nat → Nat) => (List.range (tyLanes ty)).map fun i =>
      if laneActive p ty i then (f i, 0) else (old.getD i 0, 0)
    let whole := fun (l : List Nat) => exec (.vperm n word) s = .next
      ((t.updCore n fun c => c.putV (fVd word) (vOf ty l)).retire n (c.pc + 4))
    (fn = 0 → fVs2 word = 0 → lanes (actives fun _ => (c.getS (fVs1 word)).toNat)) ∧
    (fn = 1 → fPg word = 0 → exec (.vperm n word) s = .next (t.scalarDone n (fVd word) (BitVec.ofNat 64 (a.getD spot 0)))) ∧
    (fn = 2 → lanes (actives fun i => if i = spot then (c.getS (fVs1 word)).toNat else old.getD i 0)) ∧
    (fn = 3 → 5 ≤ ty → fVs1 word = 0 → fVs2 word = 0 → lanes (actives fun i => i)) ∧
    (fn = 4 → fVs2 word = 0 → whole ((activeLanes p ty).map fun i => a.getD i 0)) ∧
    (fn = 5 → whole ((List.range (tyLanes ty)).map fun i => if laneActive p ty i then a.getD i 0 else b.getD i 0)))

/-- 07 R198 to R200: MMA writes all 64 lanes of its accumulator, an INT8 one with the wrapping sum of its products and the old lane,
a floating-point one with the sum of its terms in an order that a free value gives (03 R72); ACC clears, reads and loads an
accumulator; HAM writes the distances of its group of lanes. How MXFP4 pairs lie, and the type of an accumulator, are the
model's (logs 25, 26). -/
def Obligations.MatricesAndDistances : Prop :=
  ∀ (s t : State) (n : Nat) (word : BitVec 32), s.issues n word t →
    let c := t.core n
    let fn := fFn word
    let h := fld word 24 1
    let acc := lanesOf 32 (c.getA (fAd word))
    let zero := flag word 24
    (major word = 0x25 → fn = 7 → fld word 25 2 = 0 → fSs word = 0 →
      let a := c.getV (fV1 word)
      let b := c.getV (fV2 word)
      let u := (t.countWork c.tenant (some c.launchSeq) 0 7 1024).drawRun (64 * 17)
      let new := (List.range 64).map fun i => wrap 32 (((if zero then 0 else acc.getD i 0 : Nat) : Int) +
        ((List.range 16).map fun k => signed 8 (fld a ((i / 8 * 16 + k) * 8) 8) * signed 8 (fld b ((k * 8 + i % 8) * 8) 8)).sum)
      exec (.mma n word) s = .next ((u.2.updCore n fun c =>
        (({ c with intAcc := BitVec.ofNat 8 (setFld c.intAcc.toNat (fAd word) 1 1) } : Core).putA (fAd word)
          (ofLanes 2048 32 new)).raiseFlags 0).retire n (c.pc + 4))) ∧
    (∀ kk ca cb : Nat, major word = 0x25 → mmaShape fn = some (kk, ca, cb) → ca ≠ 7 → fld word 25 2 = 0 →
      (if 5 ≤ ca then fSs word % 2 = 0 else fSs word = 0) →
      let a := c.getV (fV1 word)
      let b := c.getV (fV2 word)
      let u := (t.countWork c.tenant (some c.launchSeq) 0 ca (64 * kk)).drawRun (64 * (kk + 1))
      let scale := fun (r i : Nat) => if 5 ≤ ca then scaleRead (fld (c.getS r) (8 * i) 8) else .fin false 1 0
      let new := (List.range 64).map fun i => mmaFloat (u.1 + i * (kk + 1)) kk ca cb a b (scale (fSs word) (i / 8))
        (scale (fSs word + 1) (i % 8)) (if zero then none else some (acc.getD i 0)) (i / 8) (i % 8)
      exec (.mma n word) s = .next ((u.2.updCore n fun c =>
        (({ c with intAcc := BitVec.ofNat 8 (setFld c.intAcc.toNat (fAd word) 1 0) } : Core).putA (fAd word)
          (ofLanes 2048 32 (new.map (·.1)))).raiseFlags (joinFlags new)).retire n (c.pc + 4))) ∧
    (major word = 0x26 → fld word 25 2 = 0 → fV2 word = 0 → fSs word = 0 →
      (fn = 0 → fV1 word = 0 → exec (.acc n word) s = .next ((t.updCore n fun c =>
        { c.putA (fAd word) 0 with intAcc := BitVec.ofNat 8 (setFld c.intAcc.toNat (fAd word) 1 0) }).retire n (c.pc + 4))) ∧
      (fn = 1 → exec (.acc n word) s = .next ((t.updCore n fun c =>
        c.putV (fV1 word) (BitVec.ofNat 1024 (fld (c.getA (fAd word)) (1024 * h) 1024))).retire n (c.pc + 4))) ∧
      (∀ f : Fmt, (fn = 2 ∧ f = bfloat16 ∨ fn = 3 ∧ f = binary16) →
        let l := acc.map fun v => f.write (if c.intAcc.getLsbD (fAd word) then .ofInt (signed 32 v) else binary32.read v)
        exec (.acc n word) s = .next ((t.updCore n fun c =>
          (c.putV (fV1 word) (ofLanes 1024 16 (l.map (·.1)))).raiseFlags (joinFlags l)).retire n (c.pc + 4))) ∧
      (fn = 4 → exec (.acc n word) s = .next ((t.updCore n fun c =>
        c.putA (fAd word) (BitVec.ofNat 2048 (setFld (c.getA (fAd word)).toNat (1024 * h) 1024
          (c.getV (fV1 word)).toNat))).retire n (c.pc + 4)))) ∧
    (∀ cl k : Nat, major word = 0x27 → fn = 0 → cl = 64 * 2 ^ fTy word → k = 2048 / cl → fTy word ≤ 4 → fVs1 word % 2 = 0 →
      (fPg word + 1) * k ≤ 64 →
      let u := t.countWork c.tenant (some c.launchSeq) 1 8 32
      let old := vLanes 7 (c.getV (fVd word))
      exec (.ham n word) s = .next ((u.updCore n fun c => c.putV (fVd word) (vOf 7 ((List.range 64).map fun i =>
        if fPg word * k ≤ i ∧ i < (fPg word + 1) * k then
          hamming cl (c.getV (fVs1 word)) (c.getV (fVs1 word + 1)) (c.getV (fVs2 word)) (i - fPg word * k)
        else old.getD i 0))).retire n (c.pc + 4)))

/-! ### The grid (chapter 8) -/

/-- 08 R218 to R223, R226: a LAUNCH whose image is readable and well-formed waits for its rectangle; when its cores have ended it
completes with the join of their statuses, the number of exceptions and its CCLK; the claim prepares and starts every core;
HALT_GRID of a LAUNCH none of whose cores runs completes OK. 07 R176, R180, R184, 08 R222: a core that is prepared starts with
registers, accumulators and flags zero, its caches and tracker empty, the PC at the entry, and its scratchpad held by the
tenant: as it was left if the tenant held it, else zero. -/
def Obligations.KernelsAreLaunchedAndEnd : Prop :=
  (∀ (s : State) (n : Nat) (sl : Slot),
    (∀ (hd code : List Byte) (t u : State), s.ready n 0x50 sl → SMap.look s.grid.launches n = none → sl.launchOk = true →
      (readVa (sl.who n 5) sl.asid (sl.f 128 57) 64).go (s.dispatch n sl) = (.ok hd, t) → imageHeadOk (leNat hd) = true →
      (readVa (sl.who n 5) sl.asid (sl.f 128 57 + 64) (bitsOf (leNat hd) 32 32)).go t = (.ok code, u) →
      crc32c (hd.take 60) = bitsOf (leNat hd) 480 32 → crc32c code = bitsOf (leNat hd) 128 32 →
      (∀ k ∈ sl.rect, (u.core k).available = true) →
      exec (.launch n) s = .next { u with grid := { u.grid with
        launchOrder := u.grid.launchOrder + 1
        launches := SMap.put u.grid.launches n
          { x0 := sl.f 256 8, y0 := sl.f 264 8, w := sl.f 272 8, h := sl.f 280 8, order := u.grid.launchOrder, claimed := false,
            entry := bitsOf (leNat hd) 64 32, startTime := 0, ended := [], excs := [], status := .ok,
            compare := u.compares sl.tenant } } }) ∧
    (∀ l : Launch, s.slot? n = some sl → sl.opcode = 0x50 → sl.stage ≠ .finished → SMap.look s.grid.launches n = some l →
      l.claimed = true → l.w * l.h ≤ l.ended.length → sl.f 384 57 = 0 → l.compare = false →
      exec (.launch n) s = .next
        (({ s with grid := { s.grid with launches := SMap.del s.grid.launches n } } : State).finish n (l.status.join .ok)
          l.excs.length (8 * (s.time - l.startTime)))) ∧
    (∀ l : Launch, s.slot? n = some sl → sl.opcode = 0x50 → sl.stage ≠ .finished → SMap.look s.grid.launches n = some l →
      s.mayClaim l = true →
      let t := (rectCores l.x0 l.y0 l.w l.h).foldl (fun s c => s.prepareCore sl n l.entry c) s
      exec (.launchClaim n) s = .next { t with grid := { t.grid with
        launches := SMap.put t.grid.launches n { l with claimed := true, startTime := t.time } } }) ∧
    (∀ l : Launch, s.slot? n = some sl → SMap.look s.grid.launches n = some l → l.claimed = true →
      l.startTime + s.watchdogTicks sl ≤ s.time → exec (.kernelWatchdog n) s = .next (s.haltLaunch n 0x0C)) ∧
    (s.ready n 0x51 sl → s.grid.cores.filter (fun (_, c) => c.run ≠ .idle && c.launchSeq = sl.f 128 64) = [] →
      exec (.haltGrid n) s = .next ((s.dispatch n sl).finish n .ok 0 0))) ∧
  (∀ (s : State) (sl : Slot) (slot entry n : Nat),
    let t := s.prepareCore sl slot entry n
    let c := t.core n
    c.run = .running ∧ c.s = [] ∧ c.v = [] ∧ c.a = [] ∧ c.p = [] ∧ c.fflags = 0 ∧ c.dcache = [] ∧ c.icache = [] ∧ c.tracker = [] ∧
      c.holder = some sl.tenant ∧ c.tenant = sl.tenant ∧ c.pc = BitVec.ofNat 64 (sl.f 128 57 + entry) ∧
      (∀ m, m ≠ n → (t.core m) = s.core m) ∧
      ((s.core n).holder = some sl.tenant → t.mem = s.mem) ∧
      ((s.core n).holder ≠ some sl.tenant → ∀ a, t.peek a 1 =
        if scratchBase n ≤ a ∧ a < scratchBase n + 0x2_0000 then [0] else s.peek a 1))

/-- 08 R227, R228, R230: CHANNEL_OPEN opens every channel of its list or none; CHANNEL_CLOSE moves its channels to CLOSING and
completes when they are CLOSED; a closing channel with nothing in the mesh and its credits home is CLOSED. 08 R229, R234, R235,
R238, R240: the last flit of a packet commits it at its queue; one that fails its check rewinds the packet; a mismatch of the
pointers resets the queue. Freed credits return; a reset notice restores the credits and puts the channel in QUEUE_RESET; its
acknowledgement leaves the mesh. What governs a flit whose sideband differs is the model's (log 28). -/
def Obligations.ChannelsCarryFlitsAndRecover : Prop :=
  (∀ (s : State) (n : Nat) (sl : Slot),
    (∀ (bs : List Byte) (t u : State), s.ready n 0x52 sl → sl.f 128 57 % 16 = 0 →
      (readVa (sl.who n 5) sl.asid (sl.f 128 57) (16 * sl.entries)).go (s.dispatch n sl) = (.ok bs, t) →
      t.openChannels sl.tenant ((chunksOf 16 sl.entries bs).map leNat) 0 = .ok u →
      exec (.channelOpen n) s = .next (u.finish n .ok 0 0)) ∧
    (∀ (bs : List Byte) (t : State) (st : Status) (i : Nat), s.ready n 0x52 sl → sl.f 128 57 % 16 = 0 →
      (readVa (sl.who n 5) sl.asid (sl.f 128 57) (16 * sl.entries)).go (s.dispatch n sl) = (.ok bs, t) →
      t.openChannels sl.tenant ((chunksOf 16 sl.entries bs).map leNat) 0 = .error (st, i) →
      exec (.channelOpen n) s = .next ((t.updSlot n fun x => { x with result := i }).rejectSlot n st)) ∧
    (s.begun n 0x53 sl → sl.f 128 57 % 16 = 0 → sl.cursor = 1 →
      (∀ p ∈ s.grid.channels, sl.marks.contains p.2.serial = false) → sl.f 208 1 = 0 →
      exec (.channelClose n) s = .next (s.finish n .ok 0 0)) ∧
    (∀ (bs : List Byte) (t : State), s.ready n 0x53 sl → sl.f 128 57 % 16 = 0 → sl.cursor = 0 →
      (readVa (sl.who n 5) sl.asid (sl.f 128 57) (16 * sl.entries)).go (s.dispatch n sl) = (.ok bs, t) →
      let u := (t.closeChannels sl.tenant sl.seq n ((chunksOf 16 sl.entries bs).map leNat)).updSlot n fun x => { x with cursor := 1 }
      (∃ x p, u.slot? n = some x ∧ p ∈ u.grid.channels ∧ x.marks.contains p.2.serial = true) →
      exec (.channelClose n) s = .next u) ∧
    (∀ (producer handle : Nat) (c : Channel), handle < 64 → s.channel? (producer * 64 + handle) = some c → c.state = .closing →
      c.mesh = [] → c.notice = false → c.ack = false → c.credits + c.held = c.granted →
      exec (.channelClosed producer handle) s = .next (s.delChannel (producer * 64 + handle)))) ∧
  (∀ (s : State) (producer handle : Nat) (c : Channel),
    let key := producer * 64 + handle
    let q := s.queue c.queueKey
    handle < 64 → s.channel? key = some c →
    (∀ (f : MeshFlit) (x : MeshSent) (rest : List MeshSent), c.mesh = x :: rest →
      fld f.sideband 40 8 * 160 + fld f.sideband 32 8 = producer → fld f.sideband 48 6 = handle →
      (s.core producer).tracker = [] → fld x.sideband 25 2 = 0 → f.sideband = x.sideband → padTo 32 f.payload = padTo 32 x.payload →
      q.state ≠ .reset → (q.assembling = none ∨ q.assembling = some key) → q.dropping = false →
      (s.tracesFlit c.consumer = false ∨ s.traces 4 c.tenant = false) →
      let t := s.updChannel key fun c => { c with mesh := c.mesh.drop 1 }
      (f.mismatch = true → exec (.flitArrive f) s = .next (t.resetQueue c.queueKey)) ∧
      (f.mismatch = false → flitCrcOk f = false →
        exec (.flitArrive f) s = .next (t.rewind c.queueKey key true (flag x.sideband 19))) ∧
      (f.mismatch = false → flitCrcOk f = true → flag x.sideband 20 = true →
        exec (.flitArrive f) s = .next (t.rewind c.queueKey key false true)) ∧
      (f.mismatch = false → flitCrcOk f = true → flag x.sideband 20 = false → flag x.sideband 19 = true →
        let w := (q.wptrA + 1) % 128
        let body := q.partialFlits ++ x.payload
        let p : CorePacket := { producer := key / 64, tag := c.tag, payload := body, channel := key, serial := c.serial }
        exec (.flitArrive f) s = .next (((t.setQueue c.queueKey
          { q with wptrA := w, wptrB := w, commitA := w, commitB := w, packets := q.packets ++ [p], partialFlits := [],
                   state := .open, assembling := none }).setChannel key
          { c with mesh := rest, held := c.held + body.length / 32 }).wakeRecv c.queueKey)) ∧
      (f.mismatch = false → flitCrcOk f = true → flag x.sideband 20 = false → flag x.sideband 19 = false →
        let w := (q.wptrA + 1) % 128
        exec (.flitArrive f) s = .next (t.setQueue c.queueKey
          { q with wptrA := w, wptrB := w, partialFlits := q.partialFlits ++ x.payload, state := .assembling,
                   assembling := some key }))) ∧
    exec (.creditReturn producer handle) s = .next
      (s.updChannel key fun c => { c with credits := c.credits + c.returning, returning := 0 }) ∧
    (c.notice = true → ∃ t x, exec (.resetNotice producer handle) s = .next t ∧ t.mem = s.mem ∧ t.grid.queues = s.grid.queues ∧
      fld x.sideband 25 2 = 1 ∧ t.channel? key = some { c with
        notice := false, credits := c.granted, returning := 0, mesh := c.mesh ++ [x]
        state := if c.state = .open then .queueReset else c.state }) ∧
    (∀ (x : MeshSent) (rest : List MeshSent), c.mesh = x :: rest → fld x.sideband 25 2 = 1 → c.notice = false →
      let t := s.setChannel key { c with mesh := rest, ack := false }
      (q.state = .reset → t.grid.channels.any (fun (_, o) => o.queueKey = c.queueKey && o.ack) = false →
        exec (.resetAcknowledgement producer handle) s = .next (t.setQueue c.queueKey { q with state := .open })) ∧
      (q.state ≠ .reset → exec (.resetAcknowledgement producer handle) s = .next t)))

/-! ### Vector search (chapter 10) -/

/-- 10 R262 to R267: INDEX_CREATE of a descriptor that passes its checks writes its empty head buckets (unless PREBUILT) and makes
the index at generation 1 with an empty side list; INDEX_DESTROY removes it, and searches that run keep it to their end. 10 R281
to R283: INSERT takes its records in order and counts them; a waiting append goes on once the side list has room; DELETE sets
the tombstone bits of its ids. 10 R282, R287: a record that is taken lies at the next position of the side list: TAIL grows by
1, and the generation and HEAD stay. The order of the overflow buckets is the model's (log 34). -/
def Obligations.IndexesTakeAndLoseRecords : Prop :=
  (∀ (s : State) (n : Nat) (sl : Slot),
    let id := sl.id 128 10
    let w := sl.who n 5
    (∀ (a : Asid) (bs : List Byte) (t u : State) (v : Unit), s.ready n 0x65 sl → sl.f 138 2 = 0 → sl.f 192 57 % 64 = 0 →
      SMap.look s.idx.indexes id = none → s.asid? (sl.id 160 16) = some a → sl.marks = [] →
      (readVa w sl.asid (sl.f 192 57) 128).go (s.dispatch n sl) = (.ok bs, t) →
      crc32c (bs.take 124) = leNat (bs.drop 124) →
      let x := Index.fresh a.tenant (sl.id 160 16) (BitVec.ofNat 1024 (leNat bs))
      x.ok = true → (t.slot? n).isSome = true →
      let t2 := (t.updSlot n fun y => { y with marks := [leNat bs] }).setMail w.waiter []
      (if x.f 60 1 = 0 then units w n x.heads (writeEmptyHead w x 1) else pure ()).go t2 = (.ok v, u) →
      exec (.indexCreate n) s = .next (((u.setIndex id x).mirrorMeta (some n)).finish n .ok 0 0) ∧
        x.generation = 1 ∧ x.areaB = false ∧ x.head = x.tail ∧ x.merge = .idle) ∧
    (∀ x : Index, s.ready n 0x65 sl → sl.f 138 2 = 1 → SMap.look s.idx.indexes id = some x → x.merge = .idle →
      let s1 := s.dispatch n sl
      exec (.indexDestroy n) s = .next ((({ s1 with idx := { s1.idx with
        indexes := SMap.del s1.idx.indexes id
        ending := s1.idx.ending ++ (if x.searches.isEmpty then [] else [x.discard]) } } : State).mirrorMeta (some n)).finish n
          .ok 0 0))) ∧
  (∀ (s t : State) (n : Nat) (sl x : Slot) (i : Index) (u : Unit),
    let w := sl.who n 5
    let count := sl.f 256 32
    1 ≤ count → count ≤ 16777216 → SMap.look s.idx.indexes (sl.id 128 10) = some i → t.slot? n = some x →
    (s.ready n 0x61 sl → sl.f 192 57 % 16 = 0 →
      (units w n count (insertRecord w n (sl.run s.time))).go (s.dispatch n sl) = (.ok u, t) →
      exec (.insert n) s = .next (t.finish n .ok x.count 0)) ∧
    (s.slot? n = some sl → sl.opcode = 0x61 → sl.stage = .waiting → s.dispatchable sl = true → i.sideFull = false →
      sl.f 192 57 % 16 = 0 →
      let y : Slot := { sl with stage := .running }
      (s.setSlot n y).dispatchable y = true →
      (units w n count (insertRecord w n y)).go (s.setSlot n y) = (.ok u, t) →
      exec (.sideListAppend n) s = .next (t.finish n .ok x.count 0)) ∧
    (s.ready n 0x62 sl → sl.f 192 57 % 8 = 0 →
      (units w n count (fun k => do
        let j ← indexNamed (sl.run s.time)
        let id ← readNat w sl.asid (sl.f 192 57 + 8 * k) 8
        needE (id < j.idLimit) .badDescriptor
        let ga ← translate w j.asid (j.f 448 57 + id / 64 * 8) true
        let old ← atomicPhys w ga 0x2 1 (2 ^ (id % 64)) 0
        if bitOf old (id % 64) then pure ()
        else modify fun s => s.updSlot n fun y => { y with count := y.count + 1 })).go (s.dispatch n sl) = (.ok u, t) →
      exec (.delete n) s = .next (t.finish n .ok x.count 0))) ∧
  (∀ (s t : State) (w : Who) (n : Nat) (sl : Slot) (k : Nat) (x : Index) (u : Unit),
    SMap.look s.idx.indexes (sl.id 128 10) = some x → (insertRecord w n sl k).go s = (.ok u, t) →
    ∃ y, SMap.look t.idx.indexes (sl.id 128 10) = some y ∧ y.tail = x.tail + 1 ∧ y.head = x.head ∧
      y.generation = x.generation ∧ y.areaB = x.areaB ∧ y.searches = x.searches)

/-- 10 R284 to R286, Table 10-10: MERGE of an idle index begins a build; a build that has succeeded is committed, or kept as BUILT;
INDEX_COMMIT makes it current: generation, area and HEAD change in one step; MERGE_DISCARD and a build that failed discard it. A
build as one event, and INDEX_COMMIT during it, are the model's (log 34). -/
def Obligations.MergesBuildCommitAndDiscard : Prop :=
  ∀ (s : State) (n id : Nat) (sl : Slot) (x : Index), SMap.look s.idx.indexes id = some x →
    (s.ready n 0x63 sl → sl.id 128 10 = id → sl.f 257 1 = 0 → x.merge = .idle → x.mergeSlot = none →
      exec (.merge n) s = .next (((s.dispatch n sl).setIndex id { x with
        merge := .building, s0 := x.tail, commit := sl.f 256 1 = 1, mergeSlot := some sl.seq, buildStarted := false,
        failure := none, mergeSince := s.time }).mirrorMeta (some n))) ∧
    (s.ready n 0x63 sl → sl.id 128 10 = id → sl.f 257 1 = 1 → x.merge ≠ .idle →
      exec (.mergeDiscard n) s = .next ((((s.dispatch n sl).discardMerge id x .aborted).mirrorMeta (some n)).finish n .ok 0 0)) ∧
    (∀ (t : State) (u : Unit), x.merge = .building → x.buildStarted = false →
      x.searches.any (fun (_, g, _) => g + 1 = x.generation) = false → (buildIndex id x).go s = (.ok u, t) →
      exec (.mergeBuildStart id) s = .next { t with idx := { t.idx with
        indexes := SMap.upd t.idx.indexes id fun y => { y with buildStarted := true, failure := none, resp := [] } } }) ∧
    (x.merge = .building → x.buildStarted = true → x.mergeSlot = none →
      let y : Index := { x with merge := .idle, mergeSlot := none, buildStarted := false, failure := none, resp := [],
                                generation := x.generation + 1, areaB := !x.areaB, head := x.s0 }
      (x.failure = none → x.commit = true →
        exec (.buildDone id) s = .next (((s.setIndex id y).mirrorMeta none).bump (dkey 0x7004 1) 1)) ∧
      (x.failure = none → x.commit = false →
        exec (.buildDone id) s = .next ((s.setIndex id { x with merge := .built }).mirrorMeta none)) ∧
      (∀ st : Status, x.failure = some st →
        exec (.buildDone id) s = .next ((s.discardMerge id x st).logFree 0x000D 1 x.tenant id))) ∧
    (s.ready n 0x64 sl → sl.id 128 10 = id → x.merge = .built →
      let y : Index := { x with merge := .idle, mergeSlot := none, buildStarted := false, failure := none, resp := [],
                                generation := x.generation + 1, areaB := !x.areaB, head := x.s0 }
      exec (.indexCommit n) s = .next (((((s.dispatch n sl).setIndex id y).mirrorMeta (some n)).bump (dkey 0x7004 1) 1).finish n
        .ok 0 (x.generation + 1)))

/-- 10 R268 to R271, R280, R288 to R290: a SEARCH that has its result writes it and completes with its status; one that finds no
place of a search unit waits, and starts when one frees; a shard's leg answers what it found, and its answer is merged. The form
of a leg's answer is the model's (log 33). -/
def Obligations.SearchesRunAndMergeTheirShards : Prop :=
  ∀ (s t : State) (n : Nat) (sl : Slot),
    (∀ (x : Index) (block : List Byte) (f : Found) (t1 t2 t3 : State) (r : Status × Nat × Nat), s.ready n 0x60 sl →
      s.placeFree sl = true → sl.marks = [] → s.snapshot? sl.seq = none → SMap.look s.idx.indexes (sl.id 128 10) = some x →
      x.tenant = sl.tenant → sl.f 138 1 = 0 →
      (queryBlock (sl.who n 1) n (sl.run s.time) x).go (s.dispatch n sl) = (.ok block, t1) →
      (runSearch (sl.who n 1) (some sl.seq) (sl.id 128 10) sl.seq n block (s.ringOwn sl.ring)).go t1 = (.ok f, t2) →
      (do keepResult n (queryOf x block).k 0 f; writeResult (sl.who n 1) n).go t2 = (.ok r, t3) →
      exec (.search n) s = .next (t3.finish n r.1 r.2.1 r.2.2)) ∧
    (s.ready n 0x60 sl → s.placeFree sl = false → sl.marks = [] →
      exec (.search n) s = .next ((s.dispatch n sl).updSlot n fun x => { x with stage := .waiting, waitSince := s.time })) ∧
    (∀ r : Status × Nat × Nat, s.slot? n = some sl → sl.opcode = 0x60 → sl.stage = .waiting → s.placeFree sl = true →
      let y : Slot := { sl with stage := .running }
      (s.setSlot n y).dispatchable y = true → (searchBody n y).go (s.setSlot n y) = (.ok r, t) →
      exec (.searchStart n) s = .next (t.finish n r.1 r.2.1 r.2.2)) ∧
    (∀ (k : Packet) (x : Index) (f : Found),
      let q := packetHead k
      let id := fld (partDesc k) 128 10 + (s.taken k).partSpace q 10
      let block := partInputs k
      s.received 0x04 k → partKind k = 1 → (s.taken k).snapshot? (legKey q) = none →
      SMap.look s.idx.indexes id = some x → x.tenant = q.tenant → (queryOf x block).ok x = true →
      (runSearch (partWho q 1) none id (legKey q) (2 ^ 20 + requestKey q) block q.dst).go (s.taken k) = (.ok f, t) →
      exec (.searchLeg k) s = .next (t.reply k (plainHead q f.st)
        (partAnswer k (resultHeader f.hits.length 0 f.counts ++ f.hits.flatMap Hit.bytes)) [])) ∧
    (∀ (k : Packet) (q : Request) (m : Merging),
      let r := packetHead k
      s.answered? k = some q → q.type = 0x04 → partKind q.packet = 1 → s.isMine r = true → q.purpose = .slotPart n →
      SMap.look s.idx.merging n = some m → s.slot? n = some sl → m.awaited.contains q.dst = true →
      partSeq q.packet = sl.seq →
      exec (.shardResult k) s = .next ((s.freeTag r.tag).setMerging n (m.take
        { head := leNat ((partInputs q.packet).take 64), code := 0, vec := [] } q.dst false
        (s.answerStatus q r = 2 || s.fab.rerouted.contains q.dst) (foundOf k ((statusOf r.status).getD .targetDead)))))

/-! ### Embedding tables (chapter 11) -/

/-- 11 R299 to R305: a GATHER that has its gather units reads its bag block once, serves every bag and completes with its counts;
one that finds sixteen GATHERs at work waits, and starts when one has ended. 11 R307 to R310: a SCATTER that has read its
updates takes its place in the table order, applies them row by row, leaves the order and completes; under LAST_WRITER an update
older than the row's tag is discarded and counted, and the row keeps its bytes. What the gather units hold, and the order's
packets, are the model's (log 35). -/
def Obligations.GathersAndScattersRun : Prop :=
  (∀ (s t1 t2 : State) (n : Nat) (sl y z : Slot) (u : Unit),
    let w := sl.who n 2
    let finishes := fun (i : Instr) => exec i s = .next
      (t2.finish n (if y.marks.getD 2 0 = 1 then .okStalePin else .ok) z.count z.result)
    sl.marks = [] → s.idx.gatherUnits.contains sl.seq = false →
    t1.slot? n = some y → (units w n (y.f 176 16) (gatherBag w n y)).go t1 = (.ok u, t2) → t2.slot? n = some z →
    (∀ s1 : State, s.ready n 0x70 sl → s.idx.gatherUnits.length < 16 → s1 = s.dispatch n sl →
      (gatherBegin w n (sl.run s.time)).go
        { s1 with idx := { s1.idx with gatherUnits := s1.idx.gatherUnits ++ [sl.seq] } } = (.ok u, t1) →
      finishes (.gather n)) ∧
    (s.ready n 0x70 sl → 16 ≤ s.idx.gatherUnits.length →
      exec (.gather n) s = .next ((s.dispatch n sl).updSlot n fun x => { x with stage := .waiting, waitSince := s.time })) ∧
    (∀ s1 : State, s.slot? n = some sl → sl.opcode = 0x70 → sl.stage = .waiting → s.idx.gatherUnits.length < 16 →
      let x : Slot := { sl with stage := .running }
      s1 = s.setSlot n x → s1.dispatchable x = true →
      (gatherBegin w n x).go { s1 with idx := { s1.idx with gatherUnits := s1.idx.gatherUnits ++ [sl.seq] } } = (.ok u, t1) →
      finishes (.gatherStart n))) ∧
  ((∀ (s t1 t2 t3 : State) (n v : Nat) (sl y : Slot) (x : Table) (u : Unit),
    let w := sl.who n 2
    let id := sl.id 128 12
    s.ready n 0x71 sl → sl.marks = [] → (scatterBegin w n (sl.run s.time)).go (s.dispatch n sl) = (.ok u, t1) →
    t1.slot? n = some y → y.status = .ok → t1.table? id = some x →
    (takeOrder w y id x (y.seq % 2 ^ 49) 0).go t1 = (.ok v, t2) →
    (let rows := distinctRows (((y.marks.drop 2).take (y.f 160 32)).filter (· ≠ padEntry))
     (units w n (2 * rows.length) (scatterStep w n y rows)).go t2 = (.ok u, t3)) →
    (∀ z, t3.table? id = some z → z.primary = t3.tableOwn id) →
    exec (.scatter n) s = .next ((if (t3.table? id).isSome then t3.orderEnd id y.seq else t3).finish n .ok 0 0)) ∧
  (∀ (s t : State) (w : Who) (seq : Option Nat) (package r tag : Nat) (d : Desc) (x : Table) (ups : List Nat),
    fld d 140 1 = 1 → (readNat w x.asid (x.tagVa r) 8).go s = (.ok tag, t) → bitOf tag 63 = true →
    (fld d 320 48 < bitsOf tag 0 48 ∨ fld d 320 48 = bitsOf tag 0 48 ∧ package < bitsOf tag 48 6) →
    (applyRow w seq package d x r ups).go s = (.ok none, t.bump (dkey 0x8004 1) 1)))

/-- 11 R311, R312, R316: TABLE_REPLACE waits for its place in the table order; once it has it, its rows are written; when they are,
the next version is current and the command completes with it. 11 R313 to R315: TABLE_PIN takes the lowest free pin and answers
it with the current version; TABLE_UNPIN frees a pin; a pin turns stale once its version has been out of date for the retention
time and no GATHER runs under it. 11 R294 to R297: TABLE_CREATE of a table of this package alone, whose descriptor passes its
checks, makes it at version 1; TABLE_DESTROY of one that no command runs on removes it with its pins. A replacement that times
out goes on (log 35). -/
def Obligations.TablesVersionsAndPins : Prop :=
  (∀ (s : State) (n id : Nat) (sl : Slot) (x : Table), s.table? id = some x → x.members = [s.tableOwn id] →
    (s.ready n 0x72 sl → sl.id 128 12 = id → 1 ≤ sl.f 208 40 → sl.f 160 40 + sl.f 208 40 ≤ x.rows →
      exec (.tableReplace n) s = .next ((s.dispatch n sl).updTable id fun x =>
        if x.running.contains sl.seq then x else { x with running := x.running ++ [sl.seq] })) ∧
    (∀ (t : State) (u : Unit), x.replacing = none → s.nextReplace id x = some sl → x.scatters = [] → s.oldPin id x = false →
      let p : Replace := { slot := some sl.seq, first := sl.f 160 40, count := sl.f 208 40, srcVa := sl.f 256 57,
                           asid := sl.asid, cursor := sl.f 160 40, status := .ok }
      (replaceRows id (sl.f 208 40)).go ((s.setTable id { x with replacing := some p }).mirrorMeta none) = (.ok u, t) →
      exec (.replaceStart id) s = .next t) ∧
    (∀ (p : Replace) (k : Nat) (y : Slot), x.replacing = some p → p.slot = some sl.seq → p.first + p.count ≤ p.cursor →
      s.live? sl.seq = some (k, y) →
      exec (.replaceDone id) s = .next (((s.setTable id { x with
        version := x.version + 1, replacing := none, passed := some (x.version, p.first, p.count), doneTime := s.time
        resp := [] }).mirrorMeta (some k)).finishSeq sl.seq p.status 0 (x.version + 1)))) ∧
  (∀ (s : State) (n : Nat) (sl : Slot) (x : Table),
    let id := sl.id 128 12
    let s1 := s.dispatch n sl
    (s.ready n 0x73 sl → s.table? id = some x → x.shadowVa ≠ 0 → x.primary = s.tableOwn id →
      let pin := leastFree (SMap.keys s.emb.pins) 4096 (pinSpace id)
      pin < pinSpace id + 4096 →
      exec (.tablePin n) s = .next ((({ s1 with emb := { s1.emb with
        pins := SMap.put s1.emb.pins pin { table := id, tenant := x.tenant, version := x.version, stale := false } } } :
          State).mirrorMeta (some n)).finish n .ok x.version (pin % 65536))) ∧
    (∀ p : Pin, s.ready n 0x74 sl → SMap.look s.emb.pins (sl.id 160 16) = some p → p.tenant = sl.tenant →
      s.table? p.table = some x → x.primary = s.tableOwn p.table →
      exec (.tableUnpin n) s = .next ((({ s1 with emb := { s1.emb with pins := SMap.del s1.emb.pins (sl.id 160 16) } } :
        State).mirrorMeta (some n)).finish n (if p.stale then .okStalePin else .ok) 0 0)) ∧
    (∀ (pin : Nat) (p : Pin), SMap.look s.emb.pins pin = some p → s.table? p.table = some x → p.stale = false →
      p.version < x.version → x.doneTime + s.retain x ≤ s.time → s.pinInUse pin = false → x.primary = s.tableOwn p.table →
      exec (.pinStale pin) s = .next
        (({ s with emb := { s.emb with pins := SMap.put s.emb.pins pin { p with stale := true } } } : State).bump
          (dkey 0x8005 1) 1))) ∧
  (∀ (s : State) (n : Nat) (sl y : Slot),
    let id := sl.id 128 12
    (∀ (a : Asid) (bs : List Byte) (t : State), s.ready n 0x75 sl → sl.f 140 2 = 0 → sl.marks = [] → sl.status = .ok →
      sl.f 192 57 % 64 = 0 → s.table? id = none → s.asid? (sl.id 160 16) = some a →
      (readVa (sl.who n 2) sl.asid (sl.f 192 57) 64).go (s.dispatch n sl) = (.ok bs, t) →
      crc32c (bs.take 60) = leNat (bs.drop 60) → t.val (dkey 0x8001 0) = s.val (dkey 0x8001 0) →
      let x := Table.fresh a.tenant (sl.id 160 16) (BitVec.ofNat 512 (leNat bs)) (s.val (dkey 0x8001 0))
      let t2 := (t.updSlot n fun y => { y with marks := [leNat bs, a.tenant] }).setMail (sl.who n 2).waiter []
      t2.slot? n = some y → y.desc = sl.desc → y.ring = sl.ring → y.status = .ok → y.marks = [leNat bs, a.tenant] →
      x.ok = true → x.members = [s.tableOwn id] → t2.tableOwn id = s.tableOwn id → t2.table? id = none →
      t2.asid? (sl.id 160 16) = some a → bitOf (x.f 320 64) (s.tableOwn id) = true → sl.f 142 1 = 0 →
      exec (.tableCreate n) s = .next (((t2.setTable id x).mirrorMeta none).finish n .ok 0 0) ∧
        x.version = 1 ∧ x.replacing = none ∧ x.running = []) ∧
    (∀ x : Table, s.ready n 0x75 sl → sl.f 140 2 = 1 → s.table? id = some x → x.running = [] → x.members = [s.tableOwn id] →
      exec (.tableDestroy n) s = .next (((s.dispatch n sl).dropTable id).finish n .ok 0 0)))

/-! ### Rack fabric (chapter 12) -/

/-- 12 Table 12-6, R321 to R323, R352, 19 R479: the events that move the state of a fabric port. An enabled DOWN port trains; a
trained port waits for its key at the widest width of its working lanes; equal key ids bring it UP with the credits of link-up;
lost lock and a retrain request retrain it, which restarts its indexes and advances its key; failed training and the last failed
retrain take it DOWN; the low rate keeps lane 0. Sequence numbers that restart at link-up are the model's (log 36). -/
def Obligations.PortsTrainComeUpAndRetrain : Prop :=
  ∀ (s : State) (n : Nat),
    let p := s.port n
    (n < s.fabricPorts → s.portsEnabled = true → p.state = .down → p.cable = true → p.authFailed = false →
      exec (.portTraining n) s = .next (s.setPort n { p with state := .training }) ∧
      exec (.trainingRetry n) s = .next (s.setPort n { p with state := .training })) ∧
    (∀ working : List Nat, p.state = .training → (∀ i < 4, i ∈ working) → p.key = none → s.fab.composed = true →
      exec (.trainingDone n working) s = .next (s.setPort n { p with state := .keyWait, lanes := 4 })) ∧
    (∀ working : List Nat, p.state = .training → 0 ∈ working → (∀ i, 0 < i → i < 4 → i ∉ working) → p.key = none →
      s.fab.composed = false → s.fab.composeAsked = false →
      let t := (s.setPort n { p with state := .keyWait, lanes := 1 }).fmEvent 0x03 0 n 1
      exec (.trainingDone n working) s = .next
        (({ t with fab := { t.fab with composeAsked := true } } : State).fmEvent 0x06 (t.fab.id % 64) n 0)) ∧
    (p.state = .training → exec (.trainingTimeout n) s = .next (s.setPort n { p with state := .down, lanes := 0 })) ∧
    (∀ k : BitVec 8, p.state = .keyWait → p.key.isSome = true → p.keyId = k.toNat → s.fab.outbox = [] →
      exec (.keyCheck n k) s = .next ((s.setPort n { p with
        state := .up, controls := p.controls.filter (· ≠ 0x01), txIndex := p.txIndex + 1
        credits := (List.range 16).map fun i => (i, poolCredits i) }).fmEvent 0x01 0 n p.lanes)) ∧
    (p.state = .up →
      let q : Port := { p with txIndex := p.txIndex + 1 }
      exec (.lockLost n) s = .next (s.setPort n { p.rekey with state := .retrain, nakCount := 0 }) ∧
      exec (.retrainRequest n) s = .next (s.setPort n
        { ({ q with controls := q.controls.filter (· ≠ 0x04) } : Port).rekey with state := .retrain, nakCount := 0 }) ∧
      exec (.enterLowRate n) s = .next (s.setPort n
        { q with state := .lowRate, lanes := 1, controls := q.controls.filter (· ≠ 0x02) })) ∧
    (p.state = .lowRate →
      exec (.exitLowRate n) s = .next (s.setPort n
        { ({ p with txIndex := p.txIndex + 1, controls := p.controls.filter (· ≠ 0x03) } : Port).rekey with
          state := .retrain, nakCount := 0 })) ∧
    (p.state = .retrain →
      (p.retrainFails + 1 < s.val (dkey 0x5034 2) →
        exec (.retrainTimeout n) s = .next (s.setPort n { p with retrainFails := p.retrainFails + 1 })) ∧
      (s.val (dkey 0x5034 2) ≤ p.retrainFails + 1 →
        exec (.retrainTimeout n) s = .next ((s.portDown n).fmEvent 0x02 0 n 0) ∧ ((s.portDown n).port n).state = .down)) ∧
    (∀ mw : Nat, n < s.fabricPorts → exec (.cablePresent n mw) s = .next (s.setPort n { p with cable := mw ≤ 2500 })) ∧
    exec (.linkCtlResend n) s = .next (s.setPort n { p with txIndex := p.txIndex + p.controls.length })

/-- 12 R321: training brings a port up at the widest of 4, 2 or 1 lanes for which that many lanes train; with none it stays DOWN;
below 4 lanes LANE_DEGRADED is raised. -/
def Obligations.TrainingTakesTheWidestWidth : Prop :=
  ∀ (s : State) (n : Nat) (working : List Nat),
    let p := s.port n
    let k := ((List.range 4).filter fun i => i ∈ working).length
    p.state = .training →
    (k = 0 → exec (.trainingDone n working) s = .next s ∧
      exec (.trainingTimeout n) s = .next (s.setPort n { p with state := .down, lanes := 0 })) ∧
    (∀ w : Nat, (4 ≤ k ∧ w = 4 ∨ 2 ≤ k ∧ k < 4 ∧ w = 2 ∨ k = 1 ∧ w = 1) →
      let q : Port := { p with state := .keyWait, lanes := w }
      let t := s.setPort n (if p.key.isSome then q.control 0x01 else q)
      let u := if w < 4 then t.fmEvent 0x03 0 n w else t
      exec (.trainingDone n working) s = .next (if s.fab.composed = true ∨ s.fab.composeAsked = true then u
        else ({ u with fab := { u.fab with composeAsked := true } } : State).fmEvent 0x06 (u.fab.id % 64) n 0))

/-- 12 R327: a flit that passes its CRC but fails its tag or its KEY_EPOCH check is discarded; the port goes DOWN at once,
LINK_AUTH_FAIL is raised and a record written; nothing that arrives at the port brings it up until it gets a key. -/
def Obligations.AuthenticationFailureTakesThePortDown : Prop :=
  ∀ (s : State) (n : Nat) (f : LinkFlit),
    let p := s.port n
    (p.live = true → f.crcOk = true → (f.tagOk = false ∨ fld f.header 64 8 ≠ p.keyCount % 256) →
      let t := ((s.setPort n { p with rxIndex := p.rxIndex + 1 }).portDown n).updPort n fun p =>
        { p with authFailed := true, authFails := p.authFails + 1 }
      exec (.flitReceive n f) s = .next (((t.fmEvent 0x04 0 n 0).logFree 0x000C 10 0 n).fmEvent 0x02 0 n 0) ∧
        (t.port n).state = .down ∧ (t.port n).authFailed = true) ∧
    (p.state = .down → p.authFailed = true → ∀ (working : List Nat) (id : BitVec 8) (a q : BitVec 12),
      exec (.portTraining n) s = .next s ∧ exec (.trainingRetry n) s = .next s ∧ exec (.trainingDone n working) s = .next s ∧
      exec (.keyCheck n id) s = .next s ∧ exec (.flitReceive n f) s = .next s ∧ exec (.retrainRequest n) s = .next s ∧
      exec (.lockLost n) s = .next s ∧ exec (.enterLowRate n) s = .next s ∧ exec (.exitLowRate n) s = .next s ∧
      exec (.retrainTimeout n) s = .next s ∧ exec (.nak n a) s = .next s ∧ exec (.rekey n q) s = .next s ∧
      exec (.rekeySend n) s = .next s) ∧
    (∀ (h : BitVec 128) (key : List Byte), s.mgmtAnswers = true → s.pwr.bootOnly = false → fld h 0 8 = 0x03 →
      fmShape h false true false = true → key.length = 32 → fmPort h = n → n < s.fabricPorts → p.state = .down →
      exec (.linkKey h key) s = .next (State.answer (.ok, (s.setPort n
        { p.keyEvent with key := some key, keyId := fld h 32 8, salt := fld h 64 32, authFailed := false }).fmDone h)))

/-- 12 R323 to R328: a flit whose CRC fails asks for a replay; one whose tag or epoch fails takes the port DOWN until a new key; a
DATA flit out of order is not taken; the last DATA flit of a packet delivers it. A NAK sends again what is not acknowledged,
under the present key, and the last NAK of a row retrains. REKEY advances the key of both directions. -/
def Obligations.FlitsAreCheckedReplayedAndRekeyed : Prop :=
  ∀ (s : State) (n : Nat) (f : LinkFlit),
    let p := s.port n
    let t := s.setPort n { p with rxIndex := p.rxIndex + 1 }
    p.live = true →
    (f.crcOk = false → exec (.flitReceive n f) s = .next (s.setPort n
      { p with rxIndex := p.rxIndex + 1, crcErrors := p.crcErrors + 1, awaitReplay := true })) ∧
    (f.crcOk = true → (f.tagOk = false ∨ fld f.header 64 8 ≠ p.keyCount % 256) →
      exec (.flitReceive n f) s = .next (t.authFail n)) ∧
    (f.crcOk = true → f.tagOk = true → fld f.header 64 8 = p.keyCount % 256 → fld f.header 24 2 = 0 → fld f.header 26 3 = 0 →
      s.fab.outbox = [] →
      let q := ({ p with rxIndex := p.rxIndex + 1 } : Port).takeCredits (fld f.header 32 4) (fld f.header 36 12)
      (fld f.header 0 12 ≠ p.expectSeq →
        exec (.flitReceive n f) s = .next (s.setPort n { q with awaitReplay := true })) ∧
      (fld f.header 0 12 = p.expectSeq →
        exec (.flitReceive n f) s = .next ((s.setPort n q).takeData n f.header f.payload))) ∧
    (∀ a : BitVec 12,
      let left := ackedUpTo p.replay a.toNat
      (p.nakSeq ≠ a.toNat → 1 < s.val (dkey 0x5034 1) →
        exec (.nak n a) s = .next (s.setPort n
          { p with replay := left.map (resealed p.keyCount), nakSeq := a.toNat, nakCount := 1, replays := p.replays + left.length,
                   txIndex := p.txIndex + left.length, flitsSinceKey := p.flitsSinceKey + left.length })) ∧
      (p.nakSeq = a.toNat → s.val (dkey 0x5034 1) ≤ p.nakCount + 1 → p.state = .up →
        exec (.nak n a) s = .next (s.setPort n
          { ({ p with replay := left, nakSeq := a.toNat, nakCount := 0 } : Port).rekey with state := .retrain, nakCount := 0 }))) ∧
    (∀ q : BitVec 12, p.expectSeq = q.toNat → exec (.rekey n q) s = .next (s.setPort n p.takeSeq.rekey)) ∧
    (s.val (dkey 0x5034 0) ≤ p.flitsSinceKey → p.replay.length < 512 →
      exec (.rekeySend n) s = .next (s.setPort n p.sendRekey))

/-- 12 R332, R333, R340, 05 R121, R127, R129, 13 R363: a read, a fill, an atomic operation and a command part that this package
serves are answered with what their home gives: the bytes of every piece, the line and whether it may be cached, the old value
of an operation done once, the outputs of the part. A request that fails its check is answered with the status; one of a type
that the command does not name, or for another package, is not served. A request that is held is presented again (log 31). -/
def Obligations.RequestsAreServedAtTheirHome : Prop :=
  ∀ (s t u : State) (k : Packet),
    let q := packetHead k
    (∀ (l : List (Nat × Nat)) (bs : List Byte) (p : Bool), s.received 0x01 k →
      (homePieces q (piecesOf q.addr q.len)).go (s.taken k) = (.ok l, t) → (readHome q.tenant l).go t = (.ok (bs, p), u) →
      exec (.rd k) s = .next ((u.reply k { plainHead q (if p then .poisoned else .ok) with poison := p } bs []).probed q)) ∧
    (∀ st : Status, s.received 0x01 k → (homePieces q (piecesOf q.addr q.len)).go (s.taken k) = (.error (.fail st), t) →
      exec (.rd k) s = .next ((t.reply k { type := 0x01, dst := q.src, status := st.code } [] []).probed q)) ∧
    (∀ (la : Nat) (bs : List Byte) (p : Bool), s.received 0x02 k → (∀ n, t.areaOf la ≠ .scratch n) →
      (homeAddress q (q.addr / 64 * 64)).go (s.taken k) = (.ok la, s.taken k) →
      (permitE q.tenant la).go (s.taken k) = (.ok (), s.taken k) → (homeReadP q.tenant la 64).go (s.taken k) = (.ok (bs, p), t) →
      exec (.remoteFill k) s = .next (t.reply k { plainHead q (if p then .poisoned else .ok) with
        poison := p, versioned := t.versioned (lineOf la), uncached := SMap.has t.coh.watches (lineOf la) } bs [])) ∧
    (∀ la old : Nat, s.received 0x03 k → q.addr ≠ ledgerWordAddress → q.addr % atomicBytes q.asize = 0 →
      atomicAllowed q.aop q.asize = true → (homeAddress q q.addr).go (s.taken k) = (.ok la, s.taken k) →
      (permitE q.tenant la).go (s.taken k) = (.ok (), s.taken k) →
      (atomicAtHome q.tenant la q.aop q.asize (leNat (k.payload.take (atomicBytes q.asize)))
        (leNat (k.payload.drop (atomicBytes q.asize))) none).go (s.taken k) = (.ok old, t) →
      exec (.atomic k) s = .next
        ((t.checkRetire la).reply k (plainHead q .ok) (leBytes (atomicBytes q.asize) old) [lineOf la])) ∧
    (∀ old : Nat, s.received 0x03 k → q.addr = ledgerWordAddress →
      (ledgerCas q.ctr (leNat (k.payload.take 8)) (leNat (k.payload.drop 8))).go (s.taken k) = (.ok old, t) →
      exec (.atomic k) s = .next (t.reply k (plainHead q .ok) (leBytes 8 old) [metaLine])) ∧
    (∀ (r : Head) (out : List Byte) (lines : List Nat), s.received 0x04 k →
      (partBody k q).go (s.taken k) = (.ok (r, out, lines), t) → exec (.cmd k) s = .next (t.reply k r out lines)) ∧
    (q.type ≠ 0x03 ∨ s.isMine q = false → exec (.atomic k) s = .next (s.takeIn k)) ∧
    (q.type ≠ 0x04 ∨ s.isMine q = false → exec (.cmd k) s = .next (s.takeIn k))

/-- 12 R339 to R342: a WR is performed and, in a group, counted by its group's entry, which a failure marks; a WR_FINAL or GROUP_END
waits until the entry counts PRIOR; it then performs its write and adds 1 to its counter, or releases the entry only; an entry
that is marked answers with its failure. Failed writes count too (log 36). -/
def Obligations.GroupedWritesAreCountedAndClosed : Prop :=
  ∀ (s t : State) (k : Packet),
    let q := packetHead k
    let key := trackerKey q
    (∀ lines : List Nat, s.received 0x06 k → (performWrite k q).go (s.taken k) = (.ok lines, t) →
      (q.grouped = false → exec (.wr k) s = .next (t.reply k (plainHead q .ok) [] lines)) ∧
      (q.grouped = true → q.dst = t.fab.id →
        exec (.wr k) s = .next ((t.setGroup key { t.group key with count := (t.group key).count + 1 }).reply k
          (plainHead q .ok) [] lines))) ∧
    (s.received 0x06 k → q.grouped = true → (performWrite k q).go (s.taken k) = (.error (.fail .revoked), t) → q.dst = t.fab.id →
      (t.group key).failed = none →
      exec (.wr k) s = .next ((t.setGroup key
        { t.group key with count := (t.group key).count + 1, failed := some Status.revoked.code }).reply k
          { type := 0x06, dst := q.src, status := Status.revoked.code } [] [])) ∧
    (s.received 0x08 k → q.dst = s.fab.id →
      ((s.group key).count < q.prior → k ∈ (s.group key).held →
        exec (.groupEnd k) s = .next ((s.taken k).setGroup key ((s.taken k).group key))) ∧
      (q.prior ≤ (s.group key).count → (s.group key).failed = none →
        let u := s.taken k
        exec (.groupEnd k) s = .next (({ u with fab := { u.fab with groups := SMap.del u.fab.groups key } } : State).reply k
          (plainHead q .ok) [] [])) ∧
      (q.prior ≤ (s.group key).count → (s.group key).failed = some 0x44 →
        let u := s.taken k
        exec (.groupEnd k) s = .next (({ u with fab := { u.fab with groups := SMap.del u.fab.groups key } } : State).reply k
          { type := 0x08, dst := q.src, status := ((statusOf 0x44).getD .targetDead).code } [] []))) ∧
    (∀ (u v w x : State) (lines : List Nat) (la old : Nat) (pieces : List (Nat × Nat)), s.received 0x07 k → q.dst = s.fab.id →
      (stageOf q).go (s.taken k) = (.ok 0, s.taken k) → q.prior ≤ (s.group key).count → (s.group key).failed = none →
      (performWrite k q).go (s.taken k) = (.ok lines, t) → (setStage k writtenStage).go t = (.ok (), u) →
      (homeAddress q q.ctr).go u = (.ok la, u) → (permitE q.tenant la).go u = (.ok (), u) →
      (atomicAtHome q.tenant la 0x0 1 1 0 none).go u = (.ok old, v) →
      let f := v.checkRetire la
      w = { f with fab := { f.fab with groups := SMap.del f.fab.groups key } } →
      (homePieces q (piecesOf q.addr q.len)).go w = (.ok pieces, x) →
      exec (.wrFinal k) s = .next (x.reply k (plainHead q .ok) [] (lineOf la :: pieces.map fun (a, _) => lineOf a)))

/-- 12 R333, R336 to R341, 05 R127, R129: a response to a request in flight frees its tag and goes to the access that waits; a
fill's line enters the cache or, where it must not, goes to the access; one that no request awaits is dropped. PENDING restarts
the timer, NO_ROUTE holds the request. A request whose time has run out is sent again, and at the limit completes TARGET_DEAD. -/
def Obligations.ResponsesEndTheirRequests : Prop :=
  ∀ (s : State) (k : Packet),
    let r := packetHead k
    let u := s.takeIn k
    (s.isMine r = true → u.answered? k = none →
      (r.type = 0x0B → exec (.rdRsp k) s = .next u) ∧ (r.type = 0x0C → exec (.fillRsp k) s = .next u) ∧
      (r.type = 0x0D → exec (.atomicRsp k) s = .next u) ∧ (r.type = 0x0E → exec (.cmdRsp k) s = .next u) ∧
      (r.type = 0x0F → exec (.pubRsp k) s = .next u) ∧ (r.type = 0x10 → exec (.wrAck k) s = .next u)) ∧
    (∀ q : Request, s.isMine r = true → u.answered? k = some q →
      let e := u.endRequest r.tag q
      (r.type = 0x0B → exec (.rdRsp k) s = .next
        ((e.hand q (u.answerStatus q r) k.payload).countWork r.tenant none 6 0xF k.payload.length)) ∧
      (r.type = 0x0D → exec (.atomicRsp k) s = .next (e.hand q (u.answerStatus q r) k.payload)) ∧
      (r.type = 0x0F → exec (.pubRsp k) s = .next (e.hand q (u.answerStatus q r) k.payload)) ∧
      (r.type = 0x10 → exec (.wrAck k) s = .next (e.hand q (u.answerStatus q r) [])) ∧
      (r.type = 0x0E → q.isLeg = false → exec (.cmdRsp k) s = .next (e.hand q (u.answerStatus q r) (partInputs k))) ∧
      (r.type = 0x0E → q.isLeg = true → exec (.cmdRsp k) s = .next (u.shardResult k q)) ∧
      (r.type = 0x0C → r.status = 0 →
        let c := u.countWork r.tenant none 6 0xF k.payload.length
        (r.uncached = false → exec (.fillRsp k) s = .next
          (((c.endRequest r.tag q).rlcInstall (lineOf (globalOf q.dst (packetHead q.packet).addr)) k.payload r.versioned
            r.poison).bump (dkey 0x5020 0) 1)) ∧
        (r.uncached = true → exec (.fillRsp k) s = .next
          ((c.endRequest r.tag q).hand q (c.answerStatus q r + uncachedMark) k.payload)))) ∧
    (s.isMine r = true → r.type = 0x11 → exec (.pending k) s = .next
      { u with fab := { u.fab with tags := SMap.upd u.fab.tags r.tag fun q => { q with since := s.time, held := false } } }) ∧
    (s.isMine r = true → r.type = 0x12 → exec (.noRoute k) s = .next
      { u with fab := { u.fab with tags := SMap.upd u.fab.tags r.tag fun q => { q with held := true } } })

/-- 12 R337 to R340, R347, 05 R137: a home that holds a request long says PENDING; a request whose timer has run out is sent again
up to the limit, then completes TARGET_DEAD and tells the fabric manager; stored responses expire. A TAKEOVER notice is
acknowledged and reroutes its id, or fences the package it names; RELEASE_ID restores the row; unacknowledged notices repeat.
The layout of a notice is the model's (log 36). -/
def Obligations.RequestTimersAndNotices : Prop :=
  ∀ (s : State) (source tag id dst : Nat),
    (∀ x : Holding, s.held? source tag = some x →
      let q := packetHead x.packet
      exec (.pendingTimer source tag) s = .next
        ((s.route { type := 0x11, dst := q.src, src := q.src, tenant := q.tenant, tag := q.tag, addr := q.addr } []).getD s)) ∧
    (∀ q : Request, SMap.look s.fab.tags tag = some q →
      (s.time < q.since + usToTicks (s.val (dkey 0x5035 0)) → exec (.requestTimer tag) s = .next s) ∧
      (q.since + usToTicks (s.val (dkey 0x5035 0)) ≤ s.time → q.reissues < s.val (dkey 0x5035 1) →
        exec (.requestTimer tag) s = .next (s.resend tag q)) ∧
      (q.since + usToTicks (s.val (dkey 0x5035 0)) ≤ s.time → s.val (dkey 0x5035 1) ≤ q.reissues →
        exec (.requestTimer tag) s = .next ((s.requestDead tag q).fmEvent 0x05 q.dst 0 0))) ∧
    exec (.storedResponseExpiry source tag) s = .next { s with
      fab := { s.fab with stored := SMap.del s.fab.stored (source * 2 ^ 18 + tag) }
      twin := { s.twin with mirrored := SMap.del s.twin.mirrored (source * 2 ^ 18 + tag) } } ∧
    (s.fab.composed = true →
      let u := s.sendCtl source false true id
      (id = u.fab.id → exec (.takeoverNotice id source) s = .next u.fence) ∧
      (id ≠ u.fab.id → exec (.takeoverNotice id source) s = .next
        ((({ u with fab := { u.fab with rerouted := insertNat u.fab.rerouted id } } : State).dropPublisher id).resendHeld id)) ∧
      (let v := s.sendCtl source true true id
       exec (.releaseIdNotice id source) s = .next
        { v with fab := { v.fab with rerouted := v.fab.rerouted.filter (· ≠ id) } })) ∧
    (s.fab.composed = false → exec (.takeoverNotice id source) s = .next s ∧ exec (.releaseIdNotice id source) s = .next s) ∧
    (∀ release : Bool, ∃ t, exec (.noticeAck id source release) s = .next t ∧
      (∀ n ∈ t.fab.notices, ¬ (n.id = id ∧ n.destination = source ∧ n.release = release)) ∧
      (∀ n ∈ s.fab.notices, ¬ (n.id = id ∧ n.destination = source ∧ n.release = release) → n ∈ t.fab.notices) ∧
      t = { s with fab := { s.fab with notices := t.fab.notices } }) ∧
    (∀ n, (s.fab.notices.find? fun x => x.id = id && x.destination = dst) = some n →
      exec (.noticeRepeat id dst) s = .next (s.sendCtl dst n.release false id))

/-- 12 R344 to R346: ACOPY and ACOPY_FINAL move every line of their range and end; an ACOPY_FINAL waits for the earlier commands of
its group; after a failure there it writes nothing and ends with it. REMOTE_ATOMIC is done once, and RESULT is the old value.
COUNT 0 of a copy of bytes is the model's (log 36). -/
def Obligations.FabricCopiesAndAtomicsComplete : Prop :=
  ∀ (s t u : State) (n : Nat) (sl x : Slot) (v : Unit),
    let w := sl.who n 3
    let dst := sl.f 192 57
    let len := sl.f 256 40
    (∀ (p : Nat) (l : List (Nat × Nat)) (s1 s2 : State), s.ready n 0x80 sl → sl.f 300 1 = 0 → sl.f 301 1 = 0 → 1 ≤ len →
      sl.cursor = 0 → sl.marks = [] → (packageOf w sl.asid dst).go (s.dispatch n sl) = (.ok p, s1) →
      (rangePieces w sl.asid dst len true (len / 65536 + 2)).go s1 = (.ok l, s2) → onePackage l = true →
      (units w n (lineCount dst len) (copyLine w n (sl.run s.time))).go (s2.updSlot n fun y => { y with marks := [0, 0] }) =
        (.ok v, t) → t.slot? n = some x →
      exec (.acopy n) s = .next (t.finish n .ok 0 0)) ∧
    (s.ready n 0x81 sl → (s.dispatch n sl).groupClear (sl.run s.time) = false →
      exec (.acopyFinal n) s = .next ((s.dispatch n sl).updSlot n fun y => { y with stage := .waiting, waitSince := s.time })) ∧
    (s.ready n 0x81 sl → (s.dispatch n sl).groupClear (sl.run s.time) = true →
      (∀ st : Status, SMap.look (s.dispatch n sl).fe.groupFails sl.copyGroup = some st →
        let d := s.dispatch n sl
        exec (.acopyFinal n) s = .next (({ d with fe := { d.fe with
          groupFails := SMap.del d.fe.groupFails sl.copyGroup } } : State).rejectSlot n st)) ∧
      (∀ a b c, SMap.look (s.dispatch n sl).fe.groupFails sl.copyGroup = none →
        (copyBody true n (sl.run s.time)).go (s.dispatch n sl) = (.ok (a, b, c), t) →
        exec (.acopyFinal n) s = .next (t.finish n a b c))) ∧
    (∀ a b c, s.slot? n = some sl → sl.opcode = 0x81 → sl.stage = .waiting → s.groupClear sl = true →
      let y : Slot := { sl with stage := .running }
      (s.setSlot n y).dispatchable y = true → SMap.look s.fe.groupFails sl.copyGroup = none →
      (copyBody true n y).go (s.setSlot n y) = (.ok (a, b, c), t) →
      exec (.acopyFinalSend n) s = .next (t.finish n a b c)) ∧
    (∀ (ga old : Nat) (x : Slot), s.ready n 0x82 sl → sl.f 128 57 % atomicBytes (sl.f 189 2) = 0 →
      atomicAllowed (sl.f 185 4) (sl.f 189 2) = true → sl.f 189 2 ≠ 2 → sl.f 448 57 = 0 → sl.cursor = 0 →
      (translate (sl.who n 5) sl.asid (sl.f 128 57) true).go (s.dispatch n sl) = (.ok ga, t) →
      (atomicPhys (sl.who n 5) ga (sl.f 185 4) (sl.f 189 2) (sl.f 192 128) (sl.f 320 128)).go t = (.ok old, u) →
      let r := match u.placeOf ga with
        | .here la => u.checkRetire la
        | _ => u
      r.slot? n = some x →
      exec (.remoteAtomic n) s = .next
        ((r.updSlot n fun y => { y with cursor := 1, marks := [old], resp := [] }).finish n .ok 0 (old % 2 ^ 64)))

/-- 12 R325 to R327, R348, R349, R351, R354: a well-formed command of the fabric manager has its effect and is reported by
COMMAND_DONE: ASSIGN_ID sets the id of an UNCOMPOSED package, ROUTE_SET replaces rows, LINK_KEY gives a port its key, JOIN and
LEAVE compose and uncompose, TEARDOWN and RESTORE take an id out and back. ASSIGN_ID of a COMPOSED package answers STATE;
FM_EVENT_ACK lies between its value and the newest NUMBER + 1. -/
def Obligations.FabricManagerCommandsTakeEffect : Prop :=
  ∀ (s : State) (h : BitVec 128),
    let id := fmId h
    let port := fmPort h
    s.mgmtAnswers = true → s.pwr.bootOnly = false →
    (fld h 0 8 = 0x01 → fmShape h true false false = true →
      (s.fab.composed = true → exec (.assignId h) s = .next (State.answer (.state, s))) ∧
      (s.fab.composed = false → s.twin.pair ≠ .refused →
        exec (.assignId h) s = .next (State.answer (.ok, ({ s with fab := { s.fab with id } } : State).fmDone h)))) ∧
    (∀ row : BitVec 64, fld h 0 8 = 0x02 → fmShape h false false true = true → fmRows h = 1 → fld row 6 10 = 0 → fld row 50 14 = 0 →
      (s.rowPortsOk row = false → exec (.routeSet h [row]) s = .next (State.answer (.range, s))) ∧
      (s.rowPortsOk row = true → s.fab.torn.contains (fld row 0 6) = false →
        exec (.routeSet h [row]) s = .next (State.answer (.ok, ({ s with fab := { s.fab with
          routes := SMap.put s.fab.routes (fld row 0 6) { ports := BitVec.ofNat 32 (fld row 16 32), hops := fld row 48 2 } } } :
            State).fmDone h)))) ∧
    (∀ key : List Byte, fld h 0 8 = 0x03 → fmShape h false true false = true → key.length = 32 →
      (s.fabricPorts ≤ port → exec (.linkKey h key) s = .next (State.answer (.range, s))) ∧
      (port < s.fabricPorts → (s.port port).state ≠ .keyWait →
        exec (.linkKey h key) s = .next (State.answer (.ok, (s.setPort port
          { (s.port port).keyEvent with key := some key, keyId := fld h 32 8, salt := fld h 64 32, authFailed := false }).fmDone
            h)))) ∧
    (∀ key : List Byte, fld h 0 8 = 0x03 → key.length ≠ 32 →
      exec (.linkKey h key) s = .next (State.answer (.length, s))) ∧
    (fld h 0 8 = 0x04 → fmShape h false false false = true →
      exec (.join h) s = .next (State.answer (.ok, ({ s with fab := { s.fab with composed := true } } : State).fmDone h))) ∧
    (fld h 0 8 = 0x05 → fmShape h true false false = true → id = s.fab.id →
      exec (.teardown h) s = .next (State.answer (.range, s))) ∧
    (fld h 0 8 = 0x05 → fmShape h true false false = true → id ≠ s.fab.id → s.twin.answersFor ≠ some id →
      let t : State := { s with fab := { s.fab with
        routes := SMap.del s.fab.routes id, torn := insertNat s.fab.torn id, fresh := s.fab.fresh.filter (· ≠ id)
        rerouted := s.fab.rerouted.filter (· ≠ id), notices := s.fab.notices.filter (·.destination ≠ id) } }
      exec (.teardown h) s = .next (State.answer (.ok,
        ((((t.endRequests (·.dst = id)).dropLinesOf id).dropPublisher id).fmEvent 0x0A id 0 0).fmDone h))) ∧
    (fld h 0 8 = 0x06 → fmShape h true false false = true → id ≠ s.fab.id →
      (id ∉ s.fab.torn → exec (.restore h) s = .next (State.answer (.ok, s.fmDone h))) ∧
      (id ∈ s.fab.torn → id ∉ s.fab.fresh → exec (.restore h) s = .next (State.answer (.state, s))) ∧
      (id ∈ s.fab.torn → id ∈ s.fab.fresh → exec (.restore h) s = .next (State.answer (.ok,
        ({ s with fab := { s.fab with torn := s.fab.torn.filter (· ≠ id), fresh := s.fab.fresh.filter (· ≠ id) } } :
          State).fmDone h)))) ∧
    (fld h 0 8 = 0x07 → fmShape h false false false = true →
      let t := s.endRequests fun _ => true
      exec (.leave h) s = .next (State.answer (.ok, ({ t with fab := { t.fab with composed := false } } : State).fmDone h))) ∧
    (∀ v : BitVec 64,
      (s.val (dkey 0x5033 2) ≤ v.toNat → v.toNat ≤ s.fab.nextEvent →
        exec (.fmEventAck v) s = .next (State.answer (.ok, s.setVal (dkey 0x5033 2) v.toNat))) ∧
      (v.toNat < s.val (dkey 0x5033 2) ∨ s.fab.nextEvent < v.toNat →
        exec (.fmEventAck v) s = .next (State.answer (.range, s))))

/-! ### Twins (chapter 13) -/

/-- 13 R354 to R357, R362 to R365, R368: how a pair forms and is lost. A record that matches pairs or begins the copy, one that does
not match refuses; heartbeats are sent on TWHB and on UP twin ports; silence for TWIN_DEAD_US records the pair as degraded and
probes, or fences a package that no domain port reaches; an unanswered probe and an announced reset promote. When a record of
identity is taken is the model's (log 37). -/
def Obligations.PairsFormAndSurviveTheirTwin : Prop :=
  ∀ (s : State) (r : IdentityRecord),
    (s.pwr.device = .ready → s.twin.pair = .unpaired → s.twin.record = none →
      let t := s.exchangeRollback r
      (t.runningSvn < t.sec.rollback → exec (.identityRecord r) s = .next (t.refuse r)) ∧
      (t.sec.rollback ≤ t.runningSvn → (s.fab.id = 0xFF ∨ r.packageId = 0xFF) → exec (.identityRecord r) s = .next t) ∧
      (t.sec.rollback ≤ t.runningSvn → s.fab.id ≠ 0xFF → r.packageId ≠ 0xFF →
        ((r.packageId ≠ s.fab.id ^^^ 1 ∨ r.hbm ≠ s.asm.hbm ∨ r.flash ≠ s.asm.flash ∨ r.ports ≠ s.asm.ports) →
          exec (.identityRecord r) s = .next (t.refuse r) ∧ (t.refuse r).twin.pair = .refused) ∧
        (r.packageId = s.fab.id ^^^ 1 → r.hbm = s.asm.hbm → r.flash = s.asm.flash → r.ports = s.asm.ports →
          exec (.identityRecord r) s = .next (t.pairUp r)))) ∧
    (∃ t, exec .heartbeatSend s = .next t ∧ t.twin.heartbeats = (s.twin.heartbeats + 1) % 2 ^ 16 ∧
      (s.twin.pair = .refused → t.twin.sent = s.twin.sent) ∧
      (s.twin.pair ≠ .refused →
        t.twin.sent.length = s.twin.sent.length + (s.twinPorts.filter fun p => (s.port p).live).length)) ∧
    (∀ f : HeartbeatFrame,
      (f.crcOk = false ∨ f.packageId ≠ s.twin.twinId → exec (.heartbeat f) s = .next s) ∧
      (f.crcOk = true → f.packageId = s.twin.twinId → f.pairState ≠ 2 →
        exec (.heartbeat f) s = .next { s with twin := { s.twin with lastHeartbeat := s.time } })) ∧
    (s.watchesTwin = true →
      (s.time < s.twin.lastHeartbeat + usToTicks (s.val (dkey 0xA001 1)) → exec .twinLost s = .next s) ∧
      (s.twin.lastHeartbeat + usToTicks (s.val (dkey 0xA001 1)) ≤ s.time →
        let w := s.wake
        (w.domainUp = false → exec .twinLost s = .next w.fence) ∧
        (w.domainUp = true → w.twin.pair = .paired → exec .twinLost s = .next w.recordDegraded.probe))) ∧
    (s.twin.probing = true →
      let t : State := { s with fab := { s.fab with tags := SMap.only s.fab.tags fun _ q => q.purpose ≠ Purpose.probe } }
      exec .probeTimeout s = .next t.promote) ∧
    (s.twin.pair = .paired → s.twin.probing = false →
      let t : State := { s with twin := { s.twin with announced := true, lastHeartbeat := s.time } }
      exec .warmResetAnnounce s = .next t.promote)

/-- 13 R360, R361, R369, R371, 01 R22, R23: mirror records are applied in MSEQ order and an early one waits; an acknowledgement lets
go on what waited for it; the resilver sends its next chunk, and ends once the twin has acknowledged all; STEP_ADMIT marks a
step boundary and reports STEP; the handover gives the twin its rings back and ends the answering. The form of the metadata is
the model's (log 37). -/
def Obligations.TwinRecordsResilverAndAdmission : Prop :=
  ∀ s : State,
    (∀ r : MirrorRecord, s.takesRecords = true → fld r.header 0 8 ≠ 7 →
      let h : State := { s with twin := { s.twin with lastHeartbeat := s.time } }
      (mseqOf r < s.twin.appliedMseq → exec (.mirror r) s = .next h) ∧
      (s.twin.appliedMseq < mseqOf r → s.twin.received = [] →
        exec (.mirror r) s = .next { h with twin := { h.twin with received := [r] } }) ∧
      (mseqOf r = s.twin.appliedMseq → s.twin.received = [] →
        let t : State := { h with twin := { h.twin with received := [], appliedMseq := s.twin.appliedMseq + 1 } }
        exec (.mirror r) s = .next (t.applyRecord r))) ∧
    (∀ m : BitVec 64, s.takesRecords = true →
      let t : State := { s with twin := { s.twin with
        lastHeartbeat := s.time
        unacked := s.twin.unacked.filter fun x => !(decide (x.1 ≤ m.toNat))
        sent := s.twin.sent.filter fun x => !(decide (mseqOf x ≤ m.toNat)) } }
      exec (.mirrorAck m) s = .next t.flushAnswers.commitDone) ∧
    (s.twin.recordedDegraded = false → s.twin.resilvered = false → s.twin.pair ≠ .paired → s.mirrorsMeta = true →
      (∀ e l, s.copyList = e :: l → s.twin.resilverChunk + 1 < 256 →
        let t := s.sendChunk e s.twin.resilverChunk
        exec .resilverChunk s = .next { t with twin := { t.twin with
          resilverDone := t.twin.resilverDone + 2 ^ 22, resilverChunk := s.twin.resilverChunk + 1 } }) ∧
      (s.copyList = [] → (∀ x ∈ s.twin.unacked, x.2.1 ≠ metaLine) → exec .resilverChunk s = .next s.copyDone)) ∧
    (∀ (n : Nat) (sl : Slot), s.ready n 0x95 sl →
      exec (.stepAdmit n) s = .next ((s.dispatch n sl).stepBoundary.finish n .ok 0 (sl.f 320 48))) ∧
    (s.val (dkey 0xA003 1) ≠ 0 → exec .admitWaitExpiry s = .next s.stepBoundary) ∧
    (s.val (dkey 0xA003 1) = 0 → exec .admitWaitExpiry s = .next s) ∧
    (∀ x : Nat, s.twin.answersFor = some x → s.twin.admission = true → (∀ p ∈ s.fe.slots, p.2.ring < resumedRing) →
      let m := s.metaFor x true
      let k := s.keepContexts
      let t := (k.sendRecord 2 0 0 (2 ^ 64 - 1) metaLine none { header := 0, data := [], content := [m, k.metaOf] }).dropTwin
      let u : State := { t with twin := { t.twin with
        pair := .paired, answersFor := none, admission := false, resilvered := false, announced := false
        held := some { m with handover := false }, copied := [], resilverChunk := 0 } }
      exec .admissionHandover s = .next (((u.sendNotices x true).fmEvent 0x09 x 0 0).logFree 0x0014 13 0 x))

/-- 13 R374 to R380, R383: CONTEXT_OPEN zeroes the pages and makes the entry at epoch 1; an OFFER is checkpointed first, completes
OK once its context is GONE and OFFER_EXPIRED once the owner has it back, which the deadline does at epoch + 2; RELEASE removes
context and entry; CHECKPOINT sends the context to the twin. RESULT 0 of RELEASE is the model's (log 38). -/
def Obligations.ContextsOpenOfferAndRelease : Prop :=
  ∀ (s t : State) (n : Nat) (sl : Slot) (v : Unit),
    let k := sl.f 128 40
    (let d := s.dispatch n sl
     let len := sl.f 192 32
     let va := sl.f 256 57
     let pages := d.poolPages.take len
     let key := d.ownId * 2 ^ 34 + d.ctx.serial
     let e : Ledger := { tenant := sl.tenant, epoch := 1, state := .owned, owner := d.ownId, peer := 0, phaseDone := 0, ckptSeq := 0,
                         deadline := 0, asid := sl.asid, length := len, va, pool := pages, offerSlot := none }
     s.ready n 0x96 sl → 1 ≤ len → len ≤ 2048 → d.rangeOk sl.asid va 1 (len * 2 ^ 21) = true → pages.length = len →
     d.twinRoom len = true → d.ctx.ledger.length < 65536 →
     exec (.contextOpen n) s = .next ((((({ d with ctx := { d.ctx with serial := (d.ctx.serial + 1) % 2 ^ 34 } } :
       State).zeroPages pages).setEntry key e).mapContext e).mirrorMeta (some n) |>.finish n .ok 0 key)) ∧
    (∀ (p : Nat) (e : Ledger), sl.marks = [p] → s.answersTo p = true → s.entry? k = some e → e.tenant = sl.tenant →
      (s.begun n 0x90 sl → sl.cursor = 0 → e.state = .owned → sl.f 168 6 ≠ s.ownId → (settlePages e.pool).go s = (.ok v, t) →
        exec (.offer n) s = .next ((t.sendCheckpoint k e (some n)).updSlot n fun x => { x with cursor := 1 })) ∧
      (∀ epoch : Nat, s.begun n 0x90 sl → sl.cursor = 2 + epoch →
        (e.state = .gone → exec (.offer n) s = .next (s.finish n .ok 0 (epoch + 1))) ∧
        (e.state = .owned → e.epoch = epoch + 2 → exec (.offer n) s = .next (s.finish n .offerExpired 0 (epoch + 2)))) ∧
      (s.begun n 0x92 sl → e.state = .owned → (∀ r ∈ s.ctx.runs, r.2.context = k → r.2.done.isSome = true) →
        exec (.release n) s = .next ((((s.leaveContext k e).delEntry k).mirrorMeta (some n)).finish n .ok 0 0)) ∧
      (s.begun n 0x94 sl → (sl.cursor ≠ 0 ∨ e.state ≠ .gone) → (e.state = .owned ∨ e.state = .offered) →
        (settlePages e.pool).go s = (.ok v, t) →
        exec (.checkpoint n) s = .next ((t.sendCheckpoint k e (some n)).finish n .ok 0 0))) ∧
    (∀ (c : Nat) (e : Ledger), s.entry? c = some e →
      (e.state = .offered → e.deadline ≤ s.time →
        let back : Ledger := { e with state := .owned, epoch := e.epoch + 2, peer := 0, deadline := 0, offerSlot := none }
        let t := (((s.setEntry c back).protectContext e false).mirrorMeta none).bump (dkey 0xA010 3) 1
        (e.offerSlot = none → exec (.offerDeadline c) s = .next t) ∧
        (∀ q, e.offerSlot = some q → exec (.offerDeadline c) s = .next (t.finishSeq q .offerExpired 0 (e.epoch + 2)))) ∧
      (e.state ≠ .offered ∨ s.time < e.deadline → exec (.offerDeadline c) s = .next s))

/-- 13 R379, R381: a TAKE of an INBOUND offer makes its entry TAKING at the next epoch; once the twin has that, its CAS at the
offerer wins the context, or loses it to what the word says; with no offer record in time it ends OFFER_EXPIRED. LEDGER_QUERY
writes the entries that it reads and counts them. How the CAS reaches the owner is the model's (log 38). -/
def Obligations.TakesAndLedgerQueriesComplete : Prop :=
  ∀ (s t u : State) (n : Nat) (sl : Slot) (v : Unit),
    let k := sl.f 128 40
    let w := sl.who n 5
    let d := s.dispatch n sl
    (∀ e : Ledger, s.ready n 0x91 sl → d.entry? k = some e → e.state = .inbound → e.peer = sl.f 168 6 → e.tenant = sl.tenant →
      sl.ring < resumedRing → (∃ a, d.asid? (e.asid % 2 ^ 16) = some a ∧ a.tenant = e.tenant) →
      d.mapped (e.asid % 2 ^ 16) e.va (e.length * 2 ^ 21) = false →
      exec (.take n) s = .next ((d.setEntry k
        { e with state := .taking, epoch := e.epoch + 1, asid := e.asid % 2 ^ 16 }).mirrorMeta (some n))) ∧
    (∀ (e : Ledger) (r : Resp), s.begun n 0x91 sl → s.entry? k = some e → e.state = .taking → e.tenant = sl.tenant →
      s.acked (some n) = true →
      let expected := ownershipWord (e.epoch - 1) 2 e.owner s.ownId
      let h : Head := { type := 0x03, dst := e.peer, tenant := e.tenant, addr := ledgerWordAddress, len := 8, aop := 9, asize := 1,
                        ctr := k }
      (askRaw w (globalOf e.peer ledgerWordAddress + atomicMark) h
        (leBytes 8 (ownershipWord e.epoch 5 s.ownId s.ownId) ++ leBytes 8 expected) (.slotAtomic n)).go s = (.ok r, t) →
      r.status < 0x40 → (noteTwin w r).go t = (.ok v, u) →
      (leNat (r.data.take 8) = expected →
        exec (.take n) s = .next ((u.winContext k e (some n)).finish n .ok 0 e.epoch)) ∧
      (leNat (r.data.take 8) ≠ expected →
        exec (.take n) s = .next ((u.loseContext k e (bitsOf (leNat (r.data.take 8)) 52 6) (some n)).finish n .offerExpired 0
          (bitsOf (leNat (r.data.take 8)) 0 48)))) ∧
    (s.slot? n = some sl → sl.opcode = 0x91 → sl.stage = .running → s.entry? k = none →
      (sl.dispatchTime + usToTicks (s.val (dkey 0xA010 2)) ≤ s.time →
        exec (.takeWaitExpiry n) s = .next (s.finish n .offerExpired 0 0)) ∧
      (s.time < sl.dispatchTime + usToTicks (s.val (dkey 0xA010 2)) → exec (.takeWaitExpiry n) s = .next s)) ∧
    (∀ l : List (Option Nat), s.ready n 0x93 sl → (readLedgers w (sl.run s.time) k (d.queryPackages k)).go d = (.ok l, t) →
      ((newestEntry l).all fun x => x = 0 || bitsOf x 48 12 = sl.tenant) = true →
      (writeVa w sl.asid (sl.f 256 57) (l.flatMap fun x => leBytes 64 (x.getD 0))).go t = (.ok v, u) →
      (∀ e, d.entry? k = some e → e.state ≠ .taking) →
      exec (.ledgerQuery n) s = .next (u.finish n .ok (l.filter (·.isSome)).length
        (((newestEntry l).map entryOwner).getD 0)))

/-- 13 R383, R388, R390: CONTEXT_RUN records its run and starts the first phase; a phase that has succeeded, is saved and
acknowledged is followed by the next or ends the run, and one that failed ends it with its status. Idle cores start known-answer
tests; one that fails is marked unavailable, counted and logged. A silent firmware restarts. Which cores a period tests is the
model's (log 42). -/
def Obligations.PhasesTestsAndTheFirmwareWatchdog : Prop :=
  ∀ (s : State) (n : Nat) (sl : Slot),
    (∀ (p : Nat) (e : Ledger), let k := sl.f 128 40
      let first := sl.f 192 32
      let count := sl.f 224 32
      sl.marks = [p] → s.answersTo p = true → s.entry? k = some e → e.tenant = sl.tenant → s.begun n 0x97 sl →
      SMap.look s.ctx.runs sl.seq = none → e.state = .owned → 1 ≤ count → count ≤ 65536 → e.va ≤ sl.f 256 57 →
      sl.f 256 57 % 64 = 0 → sl.f 256 57 + 64 * (first + count) ≤ e.va + e.length * 2 ^ 21 →
      let r : Running := { context := k, phase := first, first, last := first + count, table := sl.f 256 57
                           driver := ((s.ring? sl.ring).map (·.driver)).getD false
                           child := none, saved := false, done := none }
      exec (.contextRun n) s = .next (((s.setRun sl.seq r).mirrorMeta none).beginPhase sl.seq r)) ∧
    (∀ (key : Nat) (r : Running), s.slot? n = some sl → s.runOf n = some (key, r) → sl.stage = .finished →
      (r.saved = true → sl.status = .ok → s.acked (some n) = true →
        exec (.phaseComplete n) s = .next ((s.freeSlot n sl).nextPhase key r)) ∧
      (s.slotSettled n = true → sl.status = .badDescriptor →
        exec (.phaseComplete n) s = .next ((s.freeSlot n sl).endRun key r .badDescriptor))) ∧
    (s.awake = true → s.pwr.served = true →
      exec .katPeriod s = .next
        (((List.range 25600).filter s.katDue).foldl (fun s n => s.updCore n fun c => { c with testing := true }) s)) ∧
    ((s.awake = false ∨ s.pwr.served = false) → exec .katPeriod s = .next s) ∧
    ((s.core n).testing = true →
      (exec (.katDone n true) s = .next (s.updCore n fun c => { c with testing := false, available := c.available && true })) ∧
      (∃ t, exec (.katDone n false) s = .next t ∧ (t.core n).available = false ∧ (t.core n).testing = false)) ∧
    (s.pwr.mgmtUp = true → s.pwr.bootOnly = false → s.mgmt.restarting = false →
      exec .mgmtWatchdogExpiry s = .next s.restartFirmware ∧ s.restartFirmware.mgmt.restarting = true ∧
        s.restartFirmware.mgmt.sources = []) ∧
    (s.mgmt.restarting = true → s.pwr.bootOnly = false →
      let t : State := { s with mgmt := { s.mgmt with restarting := false } }
      exec .firmwareRestartDone s = .next (t.extendMr 1 t.running.digest).writeMgmtBlock)

/-! ### Scheduling, debug and security (chapters 14 to 16) -/

/-- 14 R400 to R406: a port's arbitration lets the requests of the previous cycle enter, raises credits, counts the tenants that a
limiter holds back, and sends the oldest request of the queue chosen among those that may go; a sample adds every queue's depth
and delay to its row; a clear removes a tenant's rows, or all, and refuses other values. 14 R394, R402, R403, 18 R463: the
operator's rows take effect and are kept in the profile; reserved bits are refused before ranges, ranges before a full limiter
table, and a refused write has no effect. What one arbitration is, is the model's (log 39). -/
def Obligations.SchedulerServesSamplesAndChecks : Prop :=
  (∀ s : State,
    (∀ (port : BitVec 16) (arrivals : List PortArrival), portExists port.toNat = true →
      let n := port.toNat
      let t := s.enterAll n arrivals
      let p := t.riseCredits n { t.schedPort n with cclk := (t.schedPort n).cclk + 1 }
      (p.queues = [] → exec (.portArbitration port arrivals) s = .next ((t.countLimited []).setSchedPort n p)) ∧
      (∀ (q : Nat) (w : Waiting) (rest : List Waiting), p.queues = [(q, w :: rest)] → t.governing n q = [] →
        let x := t.stats n q
        let u := t.countLimited []
        exec (.portArbitration port arrivals) s = .next ((u.setSchedPort n (u.afterSend n p q w.size rest)).setStats n q
          { x with bytes := x.bytes + w.size, requests := x.requests + 1 })) ∧
      (∀ (q : Nat) (w : Waiting) (rest : List Waiting), p.queues = [(q, w :: rest)] → t.allowed n p q w.size = false →
        exec (.portArbitration port arrivals) s = .next ((t.countLimited [q]).setSchedPort n p))) ∧
    (∀ (port : BitVec 16) (arrivals : List PortArrival), portExists port.toNat = false →
      exec (.portArbitration port arrivals) s = .next s) ∧
    (∃ t, exec .queueSample s = .next t ∧ t.sched.totalSamples = s.sched.totalSamples + 1 ∧ t.mem = s.mem ∧
      ∀ k x, SMap.look s.sched.stats k = some x → s.sched.ports = [] →
        SMap.look t.sched.stats k = some (x.sample 0 0 s.time)) ∧
    (∀ v : BitVec 16, s.managed →
      (v.toNat = 0xFFFF → exec (.schedStatsClear v) s = .next (State.answer (.ok, s.clearStats (List.range 4096)))) ∧
      (v.toNat < 4096 → exec (.schedStatsClear v) s = .next (State.answer (.ok, s.clearStats [v.toNat])) ∧
        ∀ p ∈ (s.clearStats [v.toNat]).sched.stats, p.1 % 32768 / 8 ≠ v.toNat) ∧
      (4096 ≤ v.toNat → v.toNat ≠ 0xFFFF → exec (.schedStatsClear v) s = .next (State.answer (.range, s))))) ∧
  (∀ s : State, s.managed →
    (∀ (tenant : Nat) (row : BitVec 256),
      (tenantRowClean row = false → exec (.tenantTable tenant row) s = .next (State.answer (.format, s))) ∧
      (tenantRowClean row = true →
        (tenantRowInRange row = false ∨ 4096 ≤ tenant ∨ 65536 < (s.putTenants tenant [row]).reserveTotal) →
        exec (.tenantTable tenant row) s = .next (State.answer (.range, s))) ∧
      (tenantRowClean row = true → tenantRowInRange row = true → tenant < 4096 →
        (s.putTenants tenant [row]).reserveTotal ≤ 65536 →
        exec (.tenantTable tenant row) s = .next (State.answer (.ok,
          (s.putTenants tenant [row]).inProfile fun p => { p with tenants := putRows tenant [row] p.tenants })))) ∧
    (∀ row : BitVec 128,
      ((fld row 20 12 ≠ 0 ∨ fld row 96 32 ≠ 0) → exec (.limitTable row) s = .next (State.answer (.format, s))) ∧
      (fld row 20 12 = 0 → fld row 96 32 = 0 →
        (limitInRange row = false → exec (.limitTable row) s = .next (State.answer (.range, s))) ∧
        (limitInRange row = true →
          (s.putLimit row = none → exec (.limitTable row) s = .next (State.answer (.state, s))) ∧
          (∀ t, s.putLimit row = some t → exec (.limitTable row) s = .next (State.answer (.ok,
            t.inProfile fun p => { p with limits := putLimitRow p.limits row }))))) ∧
      (fld row 19 1 = 1 → SMap.has s.sched.limits (limitRowKey row) = false → 8192 ≤ s.sched.limits.length →
        s.putLimit row = none)))

/-- 15 R421, R422: every request to the debug entry is answered OK and leaves its result, which says first what it found: malformed,
not permitted, no kernel, or not halted, and then nothing else changes. One that acts arms or disarms BRK, halts, steps or
resumes the core, or reads and writes its registers and reads its scratchpad; STATUS changes nothing. The order of the checks is
the model's (log 43). -/
def Obligations.DebugRequestsActOnTheirCore : Prop :=
  ∀ (s : State) (r : BitVec 128), s.managed →
    let n := dbgCore r
    let done := fun (f : Core → Core) (data : List Byte) => State.answer (MStatus.ok, (s.updCore n f).dbgResult n 0 data)
    let found := fun (good kernel halted : Bool) => s.dbgCheck r good kernel halted
    (fld r 0 8 = 1 → found true false false = 0 → exec (.arm r) s = .next (done (fun c => { c with armed := true }) [])) ∧
    (fld r 0 8 = 2 → found true false false = 0 → exec (.disarm r) s = .next (done (fun c => { c with armed := false }) [])) ∧
    (fld r 0 8 = 3 → found true true false = 0 →
      exec (.coreDebugHalt r) s = .next (done (fun c => { c with dbg := .halted, wait := none, blocked := 0 }) [])) ∧
    (fld r 0 8 = 4 → found true true true = 0 → exec (.coreDebugStep r) s = .next (done (fun c =>
      { c with dbg := .stepping, pc := if c.atBrk then c.nextPc else c.pc, atBrk := false }) [])) ∧
    (fld r 0 8 = 5 → found true true true = 0 → exec (.resume r) s = .next (done (fun c =>
      { c with dbg := .running, pc := if c.atBrk then c.nextPc else c.pc, atBrk := false }) [])) ∧
    (fld r 0 8 = 6 → found (s.dbgNames r) true true = 0 →
      (dbgFile r = 0 → exec (.readReg r) s = .next (done id (leBytes 8 ((s.core n).getS (dbgReg r)).toNat))) ∧
      (dbgFile r = 1 → exec (.readReg r) s = .next (done id (leBytes 128 ((s.core n).getV (dbgReg r)).toNat))) ∧
      (dbgFile r = 2 → exec (.readReg r) s = .next (done id (leBytes 256 ((s.core n).getA (dbgReg r)).toNat))) ∧
      (dbgFile r = 3 → exec (.readReg r) s = .next (done id (leBytes 16 ((s.core n).getP (dbgReg r)).toNat))) ∧
      (dbgFile r = 4 → exec (.readReg r) s = .next (done id (leBytes 8 (s.core n).pc.toNat)))) ∧
    (∀ value : List Byte, fld r 0 8 = 7 → value.length = dbgSize (dbgFile r) → (dbgFile r ≠ 4 ∨ leNat value % 4 = 0) →
      found (s.dbgNames r) true true = 0 →
      exec (.writeReg r value) s = .next (done (fun c => c.dbgSet r (leNat value)) [])) ∧
    (fld r 0 8 = 8 → found (spadRangeOk r) true true = 0 →
      exec (.readSpad r) s = .next (done id (s.peek (scratchBase n + fld r 64 32) (fld r 96 16)))) ∧
    (fld r 0 8 = 9 → found true true false = 0 → exec (.status r) s = .next (done id [])) ∧
    (fld r 0 8 = 3 → ∀ code, code ≠ 0 → found true true false = code →
      exec (.coreDebugHalt r) s = .next (State.answer (.ok, s.dbgResult n code []))) ∧
    (∀ good kernel halted : Bool,
      (dbgShape r = false ∨ good = false → found good kernel halted = 4) ∧
      (dbgShape r = true → good = true → s.dbgPermits n = false → found good kernel halted = 2) ∧
      (dbgShape r = true → good = true → s.dbgPermits n = true → kernel = true → (s.core n).run = .idle →
        found good kernel halted = 3))

/-- 16 R431 to R434: image chunks go into the slot that is not active, unless a commit waits; FW_COMMIT of an image that passes its
checks switches the active slot and restarts the firmware, and with value 1 raises ROLLBACK_SVN first; any other is refused;
revocation bits are set and never cleared, and the active image's key cannot be; the operator extends MR5 to MR7 only. The
status of a refused FW_COMMIT and the order of checks are the model's (log 40). -/
def Obligations.FirmwareIsStagedCommittedAndMeasured : Prop :=
  ∀ s : State, s.mgmtAnswers = true →
    (∀ (offset : BitVec 32) (chunk : List Byte), s.pwr.bootOnly = false →
      (s.sec.commit.isSome = true → exec (.fwStage offset chunk) s = .next (State.answer (.state, s))) ∧
      (s.sec.commit = none → 4096 < chunk.length → exec (.fwStage offset chunk) s = .next (State.answer (.length, s))) ∧
      (s.sec.commit = none → chunk.length ≤ 4096 → imageLimit < offset.toNat + chunk.length →
        exec (.fwStage offset chunk) s = .next (State.answer (.range, s))) ∧
      (s.sec.commit = none → chunk.length ≤ 4096 → offset.toNat + chunk.length ≤ imageLimit →
        exec (.fwStage offset chunk) s = .next (State.answer (.ok, s.setStaged { s.staged with
          image := memWrite s.staged.image offset.toNat chunk, length := max s.staged.length (offset.toNat + chunk.length)
          accepted := false })))) ∧
    (let x := s.staged.check
     let t := s.setStaged x
     (s.sec.commit.isSome = true ∨ s.bootable x = false →
       exec .fwCommit s = .next (State.answer (.state, s)) ∧ exec .fwCommitAdvance s = .next (State.answer (.state, s))) ∧
     (s.sec.commit = none → s.bootable x = true →
       exec .fwCommit s = .next (State.answer (.ok, { t with sec := { t.sec with activeB := !s.sec.activeB } })).restartFirmware ∧
       (s.twin.pair ≠ .paired → exec .fwCommitAdvance s = .next (State.answer (.ok,
         { t with sec := { t.sec with activeB := !s.sec.activeB, rollback := max s.sec.rollback x.svn } })).restartFirmware))) ∧
    (∀ mask : BitVec 8, s.pwr.bootOnly = false →
      (16 ≤ mask.toNat → exec (.keyRevoke mask) s = .next (State.answer (.range, s))) ∧
      (mask.toNat < 16 → bitOf mask.toNat s.running.keyIndex = true →
        exec (.keyRevoke mask) s = .next (State.answer (.state, s))) ∧
      (mask.toNat < 16 → bitOf mask.toNat s.running.keyIndex = false →
        exec (.keyRevoke mask) s = .next (State.answer (.ok,
          { s with sec := { s.sec with revoked := s.sec.revoked ||| BitVec.ofNat 4 mask.toNat } })))) ∧
    (∀ (index : BitVec 8) (digest : List Byte), s.pwr.bootOnly = false →
      (digest.length ≠ 64 → exec (.mrExtend index digest) s = .next (State.answer (.length, s))) ∧
      (digest.length = 64 → (index.toNat < 5 ∨ 7 < index.toNat) →
        exec (.mrExtend index digest) s = .next (State.answer (.range, s))) ∧
      (digest.length = 64 → 5 ≤ index.toNat → index.toNat ≤ 7 →
        exec (.mrExtend index digest) s = .next (State.answer (.ok, s.extendMr index.toNat digest))))

/-- 16 R436 to R439: ATTEST of an aligned request writes the report over the nonce with its signature and counts it; with too small
a buffer it reports the size it needs. A tenant that owns nothing stored gets a key once, and its destruction brings the derived
key back; a stored extent refuses both. The order of the checks, and destroying no key, are the model's (log 40). -/
def Obligations.ReportsAreWrittenAndKeysChange : Prop :=
  ∀ (s t u : State) (n : Nat) (sl : Slot) (v : Unit),
    let w := sl.who n 5
    let d := s.dispatch n sl
    let tenant := sl.f 132 12
    (s.ready n 0xA0 sl → sl.f 192 57 % 64 = 0 → sl.f 256 57 % 64 = 0 → d.sec.identityOk = true →
      (sl.f 320 32 < 3840 → exec (.attest n) s = .next ((d.updSlot n fun x => { x with count := 3840 }).rejectSlot n .resource)) ∧
      (∀ nonce : List Byte, 3840 ≤ sl.f 320 32 → (readVa w sl.asid (sl.f 192 57) 64).go d = (.ok nonce, t) →
        let body := t.report (sl.f 128 12) nonce (t.sec.attests + 1)
        (writeVa w sl.asid (sl.f 256 57) (body ++ padTo 1280
          (Config.falconSign Config.deviceSeed (shake256 64 body) t.sec.signs))).go t = (.ok v, u) →
        exec (.attest n) s = .next (({ u with sec := { u.sec with attests := u.sec.attests + 1, signs := u.sec.signs + 1 } } :
          State).finish n .ok 3840 0))) ∧
    (s.ready n 0xA0 sl → sl.f 192 57 % 64 = 0 → sl.f 256 57 % 64 = 0 → d.sec.identityOk = false →
      exec (.attest n) s = .next (d.rejectSlot n .notPermitted)) ∧
    (s.ready n 0xA1 sl → sl.f 192 57 % 64 = 0 → d.sec.identityOk = true →
      (d.ownsStored tenant = true →
        (sl.f 128 2 = 0 → exec (.keyInstall n) s = .next (d.rejectSlot n .notPermitted)) ∧
        (sl.f 128 2 = 1 → exec (.keyDestroy n) s = .next (d.rejectSlot n .notPermitted))) ∧
      (d.ownsStored tenant = false →
        (∀ (bs : List Byte) (x : Slot), sl.f 128 2 = 0 → (d.tenantKey tenant).installed = false → sl.cursor = 0 → sl.f 256 1 = 0 →
          (readVa w sl.asid (sl.f 192 57) 64).go d = (.ok bs, t) → bs.take 32 ≠ bs.drop 32 → t.slot? n = some x →
          let r := t.updSlot n fun y => { y with cursor := 1, marks := bs.map (·.toNat) }
          exec (.keyInstall n) s = .next ((r.setKey n tenant
            { installed := true, key := bs, generation := (r.tenantKey tenant).generation + 1, changed := r.time }).finish n .ok 0
              0)) ∧
        (sl.f 128 2 = 1 → (d.tenantKey tenant).installed = true →
          exec (.keyDestroy n) s = .next ((d.setKey n tenant
            { installed := false, key := [], generation := (d.tenantKey tenant).generation, changed := d.time }).finish n .ok 0 0)) ∧
        (sl.f 128 2 = 1 → (d.tenantKey tenant).installed = false →
          exec (.keyDestroy n) s = .next (d.finish n .ok 0 0))))

/-! ### Power and management (chapters 17 to 19) -/

/-- 17 R442, R444, R446, 19 R484, R487, R488, R491, R494: input power raises the rails; a rail that fails to regulate is FAILED with
its number; power-good starts stage 1 at time 0 and samples the profile pins; a stage that fails names its unit, and the next
one begins where it does not; loss of input and a thermal trip run the hold-up, which flushes the buffered pages and ends with
the rails off, or FAILED after a trip; a lost reference is recorded. What the stages report, and when boot runs, are the model's
(log 44). -/
def Obligations.PowerComesUpAndGoesDown : Prop :=
  ∀ s : State,
    (s.pwr.supply = .off → exec .inputPowerUp s = .next { s with pwr := { s.pwr with
      input := true, supply := .rising, cause := 0, device := .boot } }) ∧
    (∀ rail : Nat, s.pwr.supply = .rising → ∃ t, exec (.railTimeout rail) s = .next t ∧ t.pwr.supply = .railFailed ∧
      t.pwr.device = .failed ∧ t.pwr.mgmtUp = true ∧
      SMap.look t.pwr.stages 1 = some { start := s.pwr.startTime, finish := s.time, ok := false, unit := rail }) ∧
    (∀ pins : BitVec 2, s.pwr.input = true → s.pwr.resetPin = true →
      (s.pwr.supply = .rising ∨ (s.pwr.supply = .good ∧ s.pwr.device = .resetting)) →
      exec (.powerGood pins) s = .next { s with
        time := 0
        prof := { s.prof with pins := pins.toNat }
        pwr := { s.pwr with supply := .good, tripped := false, device := .boot, cold := true, startTime := 0, stages := [] } }) ∧
    (∀ r : StageResult, s.pwr.device.stage ≠ 0 → s.pwr.supply = .good → s.pwr.resetPin = true → s.pwr.bootOnly = false →
      (∀ u, r.failedUnit = some u → ∃ t, exec (.stageEnd r) s = .next t ∧ t.pwr.device = .failed ∧ t.mem = s.mem ∧
        ∃ row, SMap.look t.pwr.stages s.pwr.device.stage = some row ∧ row.ok = false ∧ row.unit = u ∧ row.finish = s.time) ∧
      (r.failedUnit = none → s.pwr.device = .boot → exec (.stageEnd r) s = .next (s.endBoot r)) ∧
      (r.failedUnit = none → s.pwr.device = .calibrating →
        exec (.stageEnd r) s = .next (r.expanders.foldl State.addExpander (s.endCalibration r)) ∧
        (s.endCalibration r).pwr.device = .initialising) ∧
      (r.failedUnit = none → s.pwr.device = .initialising →
        exec (.stageEnd r) s = .next (r.expanders.foldl State.addExpander (s.endMemory r))) ∧
      (r.failedUnit = none → s.pwr.device = .selfTest →
        exec (.stageEnd r) s = .next (r.expanders.foldl State.addExpander (s.chooseSpares r.failingCores).goReady))) ∧
    (s.pwr.supply = .good →
      exec .lossOfInput s = .next ({ s with pwr := { s.pwr with input := false } } : State).holdUp ∧
      (∀ sensor : Nat, ∃ t, exec (.thermalTrip sensor) s = .next t ∧ t.pwr.supply = .holdup ∧ t.pwr.tripped = true)) ∧
    (∀ blocks : List Nat, s.pwr.supply = .holdup →
      (∀ p ∈ s.flash.flashStacks, p.2.buffer = []) → s.pwr.input = false →
      exec (.holdupFlushDone blocks) s = .next { s with pwr := { s.pwr with
        supply := .off, tripped := false, mgmtUp := false, device := .boot, cause := 0 } }) ∧
    (∀ blocks : List Nat, s.pwr.supply = .holdup →
      (∀ p ∈ s.flash.flashStacks, p.2.buffer = []) → s.pwr.input = true → s.pwr.tripped = true →
      exec (.holdupFlushDone blocks) s = .next { s with pwr := { s.pwr with supply := .tripped, device := .failed, mgmtUp := true } }) ∧
    (s.pwr.refclk = true → s.pwr.refLost = none →
      exec .refclkLoss s = .next { s with pwr := { s.pwr with refLost := some s.time } }) ∧
    (∀ site module : Nat, site < 2 → module < 8 → exec (.moduleLoss site module) s = .next
      { s with pwr := { s.pwr with retired := insertNat s.pwr.retired (site * 8 + module) } })

/-- 17 R448, R450, R455, 19 R484, R487: RESET_N low strikes a cold reset; a cold or warm reset that is requested is answered OK and
strikes at once on an awake package, refused while one waits, and announced to a PAIRED twin before a warm one, which strikes
when the takeover has come or 4 ms have passed; a package asleep wakes first. 17 R451, R452: a tenant reset is refused before
the data path answers and while one runs, and completes when no command and no core of the tenant is left; a core reset clears a
core that is available. The announcement, and resets before READY, are the model's (log 44). -/
def Obligations.ResetsOfThePackageTenantsAndCores : Prop :=
  (∀ s : State,
    (∀ hot : List Nat, s.pwr.resetPin = true → s.pwr.supply = .good →
      let t := ({ s with pwr := { s.pwr with resetPin := false } } : State).coldReset 1
      exec (.resetN false hot) s = .next { t with pwr := { t.pwr with supply := .good } }) ∧
    (∀ hot : List Nat, s.pwr.resetPin = false → s.pwr.supply = .good →
      exec (.resetN true hot) s = .next { s with pwr := { s.pwr with resetPin := true } }) ∧
    (∀ hot : List Nat, s.mgmtAnswers = true → s.pwr.bootOnly = false →
      (s.mayReset hot = false →
        exec (.coldResetRequest hot) s = .next (State.answer (.state, s)) ∧
        exec (.warmResetRequest hot) s = .next (State.answer (.state, s))) ∧
      (s.mayReset hot = true →
        (s.awake = false → exec (.warmResetRequest hot) s = .next (State.answer (.ok,
          ({ s with pwr := { s.pwr with pendingReset := some (false, 3) } } : State).wake))) ∧
        (s.awake = true →
          exec (.coldResetRequest hot) s = .next (State.answer (.ok, s.coldReset 2)) ∧
          (s.pwr.supply = .good → s.twin.pair = .paired → exec (.warmResetRequest hot) s = .next (State.answer (.ok, { s with
            pwr := { s.pwr with pendingReset := some (false, 3) }, twin := { s.twin with awaitingTakeover := some s.time } }))) ∧
          (s.pwr.supply = .good → s.twin.pair ≠ .paired →
            exec (.warmResetRequest hot) s = .next (State.answer (.ok, s.warmReset 3)))))) ∧
    (∀ (t : Nat) (cold : Bool) (cause : Nat), s.twin.awaitingTakeover = some t → s.pwr.pendingReset = some (cold, cause) →
      (s.twin.pair ≠ .fenced → s.time < t + usToTicks 4000 → exec .announceWaitEnd s = .next s) ∧
      ((s.twin.pair = .fenced ∨ t + usToTicks 4000 ≤ s.time) →
        let f := s.fence
        exec .announceWaitEnd s = .next (({ f with twin := { f.twin with
          awaitingTakeover := none, announcedAbsence := true } } : State).resetNow cold cause))) ∧
    (∀ cause : Nat, (s.coldReset cause).pwr.device = .resetting ∧ (s.coldReset cause).time = 0 ∧ (s.coldReset cause).vals = [] ∧
      (∀ a, durable a = false → SMap.look (s.coldReset cause).mem a = none))) ∧
  (∀ s : State, s.mgmtAnswers = true → s.pwr.bootOnly = false →
    (∀ tenant : BitVec 16,
      ((s.dataPath = false ∨ s.pwr.tenantBusy.isSome = true) →
        exec (.tenantReset tenant) s = .next (State.answer (.state, s))) ∧
      (s.dataPath = true → s.pwr.tenantBusy = none → 4096 ≤ tenant.toNat →
        exec (.tenantReset tenant) s = .next (State.answer (.range, s))) ∧
      (s.dataPath = true → s.pwr.tenantBusy = none → tenant.toNat < 4096 →
        ∃ t, exec (.tenantReset tenant) s = .next (State.answer (.ok, t)) ∧ t.pwr.tenantBusy = some tenant.toNat)) ∧
    (∀ t : Nat, s.pwr.tenantBusy = some t → (∀ p ∈ s.fe.slots, p.2.tenant = t → p.2.stage = .finished) →
      (∀ p ∈ s.grid.cores, p.2.tenant = t → p.2.run = .idle) →
      let u := s.releasePins t
      exec .tenantResetComplete s = .next { u with
        fe := { u.fe with rings := SMap.each u.fe.rings fun _ r => if r.tenant = t then { r with mode := .normal } else r }
        pwr := { u.pwr with tenantBusy := none } }) ∧
    (∀ core : BitVec 16,
      (s.dataPath = false → exec (.coreReset core) s = .next (State.answer (.state, s))) ∧
      (s.dataPath = true → 25600 ≤ core.toNat → exec (.coreReset core) s = .next (State.answer (.range, s))) ∧
      (s.dataPath = true → core.toNat < 25600 → (s.core core.toNat).available = false →
        exec (.coreReset core) s = .next (State.answer (.ok, s))) ∧
      (s.dataPath = true → core.toNat < 25600 → (s.core core.toNat).available = true → (s.core core.toNat).run = .idle →
        ∃ t, exec (.coreReset core) s = .next (State.answer (.ok, t)) ∧ (t.core core.toNat).s = [] ∧ (t.core core.toNat).fflags = 0 ∧
          (t.core core.toNat).dcache = [] ∧ (t.core core.toNat).holder = none ∧
          (∀ a, scratchBase core.toNat ≤ a → a < scratchBase core.toNat + 0x2_0000 → t.peek a 1 = [0]))))

/-- 17 R445, R447, R453 to R455, 12 R352: a profile is selected, with or without a reset, or copied, within its ranges; the
requested power state is kept and applied; the armed state is entered when nothing runs, with every UP port at the low rate in
Dormant; a completed wake returns to Active, restarts the leases and runs a reset that waited. When an armed state ends is the
model's (log 44). -/
def Obligations.ProfilesAndPowerStates : Prop :=
  ∀ s : State,
    (s.mgmtAnswers = true → s.pwr.bootOnly = false →
      (∀ p : BitVec 8,
        (p.toNat < 4 → exec (.profileSelect p) s = .next (State.answer (.ok, s.selectProfile p.toNat))) ∧
        (4 ≤ p.toNat → (p.toNat < 0x80 ∨ 0x84 ≤ p.toNat) → exec (.profileSelect p) s = .next (State.answer (.range, s))) ∧
        (∀ hot : List Nat, 0x80 ≤ p.toNat → p.toNat < 0x84 →
          (s.mayReset hot = false → exec (.profileSelectReset p hot) s = .next (State.answer (.state, s))) ∧
          (s.mayReset hot = true → exec (.profileSelectReset p hot) s = .next
            (State.answer (.ok, (s.selectProfile (p.toNat - 0x80)).startReset false 4))))) ∧
      (∀ v : BitVec 16,
        ((4 ≤ v.toNat % 256 ∨ 3 ≤ v.toNat / 256) → exec (.profileCopy v) s = .next (State.answer (.range, s))) ∧
        (v.toNat % 256 < 4 → v.toNat / 256 < 3 → v.toNat / 256 ≠ s.prof.active →
          exec (.profileCopy v) s = .next (State.answer (.ok, s.setProfile (v.toNat / 256) (s.profile (v.toNat % 256)))))) ∧
      exec .powerRequestActive s = .next (State.answer (.ok, (s.storeVal (dkey 0x2010 1) 0).setLive (dkey 0x2010 1) 0)) ∧
      exec .powerRequestDrowsy s = .next (State.answer (.ok, (s.storeVal (dkey 0x2010 1) 1).setLive (dkey 0x2010 1) 1)) ∧
      exec .powerRequestDormant s = .next (State.answer (.ok, (s.storeVal (dkey 0x2010 1) 2).setLive (dkey 0x2010 1) 2))) ∧
    (s.val (dkey 0x2010 2) ≠ 0 → s.fe.slots = [] → s.pwr.armed = 0 →
      exec .drowsyIdleExpiry s = .next { s with pwr := { s.pwr with armed := 1 } }) ∧
    (s.maySleep = true → s.pwr.armed ≠ 2 →
      exec .powerStateEntry s = .next { s with pwr := { s.pwr with state := s.pwr.armed, waking := none } }) ∧
    (s.maySleep = true → s.pwr.armed = 2 →
      exec .powerStateEntry s = .next ((List.range s.fabricPorts).foldl State.enterLow
        { s with pwr := { s.pwr with state := s.pwr.armed, waking := none } })) ∧
    (s.maySleep = false → exec .powerStateEntry s = .next s) ∧
    (∀ t : Nat, s.pwr.waking = some t → s.pwr.state = 1 → s.pwr.pendingReset = none →
      let u := (s.bump (dkey 0x2010 3) 1).setVal (dkey 0x2010 4) (min 2000 (s.usSince t))
      exec .wakeComplete s = .next { u with
        fe := { u.fe with leases := SMap.each u.fe.leases fun _ _ => u.time }
        pwr := { u.pwr with state := 0, waking := none, pendingReset := none, armed := u.val (dkey 0x2010 1) } })

/-- 18 R457 to R463: a READ of a readable entry answers its value and changes nothing; unknown names, closed accesses, a table read
or written as a value, wrong lengths and values out of range are answered in that order and leave every other field as it was; a
WRITE of a stored number takes effect, into the active profile or at once by its access; rows are read as many as there are. The
layout of rows, and the order of the checks, are the model's (log 45). -/
def Obligations.EntriesAreReadWrittenAndDescribed : Prop :=
  ∀ (s : State) (entry : BitVec 16) (sub : BitVec 8) (value : List Byte),
    let e := entry.toNat
    let b := sub.toNat
    let told := fun (st : MStatus) => State.answer (st, s)
    let reply := fun (v : List Byte) (rows : Nat) =>
      ({ s with mgmt := { s.mgmt with reply := some { status := .ok, value := v, rows } } } : State)
    s.mgmtAnswers = true → s.pwr.bootOnly = false →
    (s.entryOf e b = none →
      exec (.read entry sub) s = .next (told .noEntry) ∧ exec (.write entry sub value) s = .next (told .noEntry) ∧
      exec (.describe entry sub) s = .next (told .noEntry) ∧
      (∀ first rows, first < 2 ^ 32 → rows < 2 ^ 32 → exec (.readRows entry sub first rows) s = .next (told .noEntry) ∧
        exec (.writeRows entry sub first rows value) s = .next (told .noEntry))) ∧
    (∀ r : DictRow, s.entryOf e b = some r →
      ((r.access = .wo ∨ r.type = .table) → exec (.read entry sub) s = .next (told .access)) ∧
      (r.access ≠ .wo → r.type ≠ .table → exec (.read entry sub) s = .next (reply (s.encode r b) 0)) ∧
      ((r.access = .ro ∨ r.type = .table) → exec (.write entry sub value) s = .next (told .access)) ∧
      (r.access ≠ .ro → r.type ≠ .table → s.refusesWrite r b = true → exec (.write entry sub value) s = .next (told .state)) ∧
      (∀ k, r.access ≠ .ro → r.type ≠ .table → s.refusesWrite r b = false → r.type.size = some k → value.length ≠ k →
        exec (.write entry sub value) s = .next (told .length)) ∧
      (∀ (k : Nat) (t : State), r.access ≠ .ro → r.type ≠ .table → s.refusesWrite r b = false → r.type.size = some k →
        value.length = k → s.writeNumber r b (leNat value) = (.ok, t) → e ≠ 0xC001 →
        exec (.write entry sub value) s = .next (State.answer (.ok, t))) ∧
      (∀ first rows, first < 2 ^ 32 → rows < 2 ^ 32 → e ≠ 0xA050 → r.access ≠ .wo → r.type = .table → s.shows e = true →
        (first = 0 ∨ first < (s.rowsOf r b).length) →
        let l := ((s.rowsOf r b).drop first).take (min rows (8192 / r.size))
        exec (.readRows entry sub first rows) s = .next (reply l.flatten l.length)) ∧
      (∀ first rows, first < 2 ^ 32 → rows < 2 ^ 32 → r.access ≠ .ro → r.type = .table → s.refusesWrite r b = false →
        (value.length ≠ rows * r.size → exec (.writeRows entry sub first rows value) s = .next (told .length)) ∧
        (∀ t, e = 0x9000 → value.length = rows * r.size →
          s.writeTenants first ((chunksOf r.size (rows + 1) value).map fun x => BitVec.ofNat 256 (leNat x)) = (.ok, t) →
          exec (.writeRows entry sub first rows value) s = .next { State.answer (.ok, t) with
            mgmt := { t.mgmt with reply := some { status := .ok, value := [], rows } } }))) ∧
    (∃ d : Reply, exec (.describe entry sub) s = .next { s with mgmt := { s.mgmt with reply := some d } } ∧ d = s.describe e b) ∧
    exec (.nextEntry entry sub) s = .next { s with mgmt := { s.mgmt with reply := some (s.nextName e b) } }

/-- 18 R463: every request is answered with one of the management status codes; one that is answered with any status other than OK
has no effect, and every entry keeps its value. -/
def Obligations.RefusedRequestsHaveNoEffect : Prop :=
  ∀ (s : State) (entry : BitVec 16) (sub : BitVec 8) (value : List Byte) (first rows : Nat),
    first < 2 ^ 32 → rows < 2 ^ 32 → s.mgmtAnswers = true →
    let e := entry.toNat
    let b := sub.toNat
    let told := fun (i : Instr) (h : BitVec 128) (v : List Byte) =>
      opClean h = true ∧
      ((s.perform h v).1.status ≠ .ok →
        exec i s = .next { s with mgmt := { s.mgmt with reply := some (s.perform h v).1 } }) ∧
      ((s.perform h v).1.status = .ok → isCommit h (s.perform h v).1 = false →
        exec i s = .next { (s.perform h v).2 with mgmt := { (s.perform h v).2.mgmt with reply := some (s.perform h v).1 } })
    told (.read entry sub) (opHeader 1 e b 0 0) [] ∧ told (.write entry sub value) (opHeader 2 e b 0 0) value ∧
    told (.readRows entry sub first rows) (opHeader 3 e b first rows) [] ∧
    told (.writeRows entry sub first rows value) (opHeader 4 e b first rows) value ∧
    told (.describe entry sub) (opHeader 5 e b 0 0) [] ∧ told (.nextEntry entry sub) (opHeader 6 e b 0 0) []

/-- 18 R465 to R471: a bad frame is counted; a DISCOVER is answered; a partial message is discarded in time; a presented tail is
taken, or is an ERROR outside its range; a presented head is taken within its range; the next request of the ring is read,
performed and answered. -/
def Obligations.FramesAndTheManagementRing : Prop :=
  ∀ s : State,
    (∀ f : MgmtFrame, s.mgmtAnswers = true → s.portOn = true →
      (f.fcsOk = false → exec (.mgmtFrame f) s = .next (s.bump (dkey 0x1100 5) 1)) ∧
      (f.fcsOk = true → f.addressed = false → exec (.mgmtFrame f) s = .next s) ∧
      (f.fcsOk = true → f.addressed = true →
        let t := s.bump (dkey 0x1100 3) 1
        let head := BitVec.ofNat 128 (leNat (f.payload.take 16))
        headClean head = true → 46 ≤ f.payload.length → f.payload.length ≤ 1500 →
        (fld head 24 3 = 0 →
          exec (.mgmtFrame f) s = .next ((t.hear f.source).takeFragment f.source head (f.payload.drop 16))) ∧
        (fld head 24 3 = 2 → exec (.mgmtFrame f) s = .next (t.discovered f.source (fld head 32 16))))) ∧
    (∀ (source : Nat) (x : MgmtSource), SMap.look s.mgmt.sources source = some x →
      (x.frag ≠ 0 → exec (.reassemblyTimeout source) s = .next
        ((s.updSource source fun x => { x with frag := 0, message := [] }).bump (dkey 0x1100 5) 1)) ∧
      (x.frag = 0 → exec (.reassemblyTimeout source) s = .next s)) ∧
    (∀ (source : Nat) (req : BitVec 16), s.mgmtAnswers = true → s.portOn = true →
      exec (.discover source req) s = .next ((s.bump (dkey 0x1100 3) 1).discovered source req.toNat)) ∧
    (∀ v : BitVec 64, s.mgmt.ring ≠ .absent → flag v 63 = false →
      let tail := fld v 0 63
      let u := s.wake
      u.mgmt.ring = .active →
      (u.mgmt.tailSeen ≤ tail → tail ≤ u.mgmt.fetched + 16 → exec (.mgmtTailPresented v) s = .next
        ({ u with mgmt := { u.mgmt with ring := .active, tailSeen := tail } } : State).writeMgmtBlock) ∧
      ((tail < u.mgmt.tailSeen ∨ u.mgmt.fetched + 16 < tail) → exec (.mgmtTailPresented v) s = .next
        ({ u with mgmt := { u.mgmt with ring := .error, tailSeen := u.mgmt.tailSeen } } : State).writeMgmtBlock)) ∧
    (∀ v : BitVec 64, s.mgmt.ring ≠ .absent →
      (s.mgmt.headSeen ≤ v.toNat → v.toNat ≤ s.mgmt.written → exec (.mgmtHeadPresented v) s = .next
        ({ s with mgmt := { s.mgmt with headSeen := v.toNat } } : State).writeMgmtBlock) ∧
      ((v.toNat < s.mgmt.headSeen ∨ s.mgmt.written < v.toNat) → exec (.mgmtHeadPresented v) s = .next s)) ∧
    (∀ (head : BitVec 128) (msg : List Byte) (t : State), s.mgmt.owed = none → s.mayTakeRequest = true →
      takeRequest.go s = (.ok (head, msg), t) → exec .mgmtRequestTake s = .next (t.ringRequest head msg)) ∧
    (s.mgmt.owed = none → s.mayTakeRequest = false → exec .mgmtRequestTake s = .next s)
end

