-- ==== Sys2Proof/Laws/SMap.lean ====
section
/-!
SUPPORT. Laws of the sparse maps: what a look-up finds after a change, and that every change keeps the keys rising.
-/

namespace Sys2Proof

variable {α β : Type}

@[simp] theorem SMap.look_nil (k : Nat) : SMap.look ([] : SMap α) k = none := rfl
@[simp] theorem SMap.get_nil (k : Nat) (d : α) : SMap.get ([] : SMap α) k d = d := rfl
@[simp] theorem SMap.has_nil (k : Nat) : SMap.has ([] : SMap α) k = false := rfl

theorem SMap.look_put (m : SMap α) (k j : Nat) (v : α) :
    SMap.look (SMap.put m k v) j = if j = k then some v else SMap.look m j := by
  induction m with
  | nil => by_cases h : j = k <;> simp [SMap.put, SMap.look, h]
  | cons p rest ih =>
    obtain ⟨a, b⟩ := p
    simp only [SMap.put]
    split
    · by_cases h : j = k <;> simp [SMap.look, h]
    · split
      · rename_i h1 h2; subst h2
        by_cases h : j = k <;> simp [SMap.look, h]
      · rename_i h1 h2
        by_cases h : j = a
        · have : j ≠ k := by omega
          simp [SMap.look, h, show ¬ a = k by omega]
        · simp [SMap.look, h, ih]

@[simp] theorem SMap.look_put_same (m : SMap α) (k : Nat) (v : α) : SMap.look (SMap.put m k v) k = some v := by
  simp [SMap.look_put]

theorem SMap.look_put_other (m : SMap α) (k j : Nat) (v : α) (h : j ≠ k) :
    SMap.look (SMap.put m k v) j = SMap.look m j := by
  simp [SMap.look_put, h]

@[simp] theorem SMap.get_put_same (m : SMap α) (k : Nat) (v d : α) : SMap.get (SMap.put m k v) k d = v := by
  simp [SMap.get]

theorem SMap.get_put_other (m : SMap α) (k j : Nat) (v d : α) (h : j ≠ k) :
    SMap.get (SMap.put m k v) j d = SMap.get m j d := by
  simp [SMap.get, SMap.look_put, h]

@[simp] theorem SMap.has_put_same (m : SMap α) (k : Nat) (v : α) : SMap.has (SMap.put m k v) k = true := by
  simp [SMap.has]

theorem SMap.look_upd (m : SMap α) (k j : Nat) (f : α → α) :
    SMap.look (SMap.upd m k f) j = if j = k then (SMap.look m k).map f else SMap.look m j := by
  induction m with
  | nil => by_cases h : j = k <;> simp [SMap.upd, SMap.look]
  | cons p rest ih =>
    obtain ⟨a, b⟩ := p
    simp only [SMap.upd]
    split
    · rename_i h; subst h
      by_cases h : j = k <;> simp [SMap.look, h]
    · rename_i h1
      by_cases h : j = a
      · have : j ≠ k := by omega
        simp [SMap.look, h, show ¬ a = k by omega]
      · by_cases h2 : j = k
        · subst h2; simp [SMap.look, h, ih]
        · simp [SMap.look, h, ih, h2]

@[simp] theorem SMap.look_upd_same (m : SMap α) (k : Nat) (f : α → α) :
    SMap.look (SMap.upd m k f) k = (SMap.look m k).map f := by
  simp [SMap.look_upd]

theorem SMap.look_upd_other (m : SMap α) (k j : Nat) (f : α → α) (h : j ≠ k) :
    SMap.look (SMap.upd m k f) j = SMap.look m j := by
  simp [SMap.look_upd, h]

theorem SMap.look_of_below (m : SMap α) (k : Nat) (h : ∀ p ∈ m, k < p.1) : SMap.look m k = none := by
  induction m with
  | nil => rfl
  | cons p rest ih =>
    obtain ⟨a, b⟩ := p
    have ha : k < a := h (a, b) (by simp)
    have := ih fun q hq => h q (by simp [hq])
    simp [SMap.look, show ¬ k = a by omega, this]

theorem SMap.look_del (m : SMap α) (k j : Nat) (hs : SMap.Sorted m) :
    SMap.look (SMap.del m k) j = if j = k then none else SMap.look m j := by
  induction m with
  | nil => by_cases h : j = k <;> simp [SMap.del, SMap.look]
  | cons p rest ih =>
    obtain ⟨a, b⟩ := p
    rw [SMap.Sorted, List.pairwise_cons] at hs
    simp only [SMap.del]
    split
    · rename_i h; subst h
      by_cases h : j = k
      · subst h; simp [SMap.look_of_below rest j hs.1]
      · simp [SMap.look, h]
    · rename_i h1
      by_cases h : j = a
      · simp [SMap.look, h, show ¬ a = k by omega]
      · simp [SMap.look, h, ih hs.2]

theorem SMap.look_del_other (m : SMap α) (k j : Nat) (h : j ≠ k) : SMap.look (SMap.del m k) j = SMap.look m j := by
  induction m with
  | nil => rfl
  | cons p rest ih =>
    obtain ⟨a, b⟩ := p
    simp only [SMap.del]
    split
    · rename_i h1; subst h1; simp [SMap.look, h]
    · simp [SMap.look, ih]

theorem SMap.mem_put (m : SMap α) (k : Nat) (v : α) (p : Nat × α) (h : p ∈ SMap.put m k v) : p = (k, v) ∨ p ∈ m := by
  induction m with
  | nil => simpa [SMap.put] using h
  | cons q rest ih =>
    obtain ⟨a, b⟩ := q
    simp only [SMap.put] at h
    split at h
    · simpa using h
    · split at h
      · simp only [List.mem_cons] at h ⊢; tauto
      · simp only [List.mem_cons] at h ⊢
        rcases h with h | h
        · tauto
        · rcases ih h with h | h <;> tauto

theorem SMap.mem_del (m : SMap α) (k : Nat) (p : Nat × α) (h : p ∈ SMap.del m k) : p ∈ m := by
  induction m with
  | nil => simp [SMap.del] at h
  | cons q rest ih =>
    obtain ⟨a, b⟩ := q
    simp only [SMap.del] at h
    split at h
    · simp [h]
    · simp only [List.mem_cons] at h ⊢
      rcases h with h | h
      · exact .inl h
      · exact .inr (ih h)

theorem SMap.sorted_put (m : SMap α) (k : Nat) (v : α) (h : SMap.Sorted m) : SMap.Sorted (SMap.put m k v) := by
  induction m with
  | nil => simp [SMap.put, SMap.Sorted]
  | cons q rest ih =>
    obtain ⟨a, b⟩ := q
    simp only [SMap.Sorted, List.pairwise_cons] at h ⊢
    simp only [SMap.put]
    split
    · rename_i hk
      simp only [List.pairwise_cons, List.mem_cons]
      refine ⟨?_, h⟩
      rintro p (rfl | hp)
      · exact hk
      · exact Nat.lt_trans hk (h.1 p hp)
    · split
      · rename_i h1 h2; subst h2; simpa [List.pairwise_cons] using h
      · rename_i h1 h2
        simp only [List.pairwise_cons]
        refine ⟨fun p hp => ?_, ih h.2⟩
        rcases SMap.mem_put rest k v p hp with rfl | hp
        · simp only; omega
        · exact h.1 p hp

theorem SMap.sorted_del (m : SMap α) (k : Nat) (h : SMap.Sorted m) : SMap.Sorted (SMap.del m k) := by
  induction m with
  | nil => simp [SMap.del, SMap.Sorted]
  | cons q rest ih =>
    obtain ⟨a, b⟩ := q
    simp only [SMap.Sorted, List.pairwise_cons] at h
    simp only [SMap.del]
    split
    · exact h.2
    · simp only [SMap.Sorted, List.pairwise_cons]
      exact ⟨fun p hp => h.1 p (SMap.mem_del rest k p hp), ih h.2⟩

theorem SMap.sorted_upd (m : SMap α) (k : Nat) (f : α → α) (h : SMap.Sorted m) : SMap.Sorted (SMap.upd m k f) := by
  have hk : ∀ l : SMap α, (SMap.upd l k f).map (·.1) = l.map (·.1) := by
    intro l
    induction l with
    | nil => rfl
    | cons q rest ih =>
      obtain ⟨a, b⟩ := q
      simp only [SMap.upd]
      split <;> simp_all
  have : ∀ l : SMap α, SMap.Sorted l ↔ (l.map (·.1)).Pairwise (· < ·) := by
    intro l; simp [SMap.Sorted, List.pairwise_map]
  rw [this] at h ⊢
  rw [hk]; exact h

theorem SMap.sorted_putD [DecidableEq α] (m : SMap α) (k : Nat) (v d : α) (h : SMap.Sorted m) :
    SMap.Sorted (SMap.putD m k v d) := by
  unfold SMap.putD
  split
  · exact SMap.sorted_del m k h
  · exact SMap.sorted_put m k v h

theorem SMap.get_putD [DecidableEq α] (m : SMap α) (k j : Nat) (v d : α) (hs : SMap.Sorted m) :
    SMap.get (SMap.putD m k v d) j d = if j = k then v else SMap.get m j d := by
  unfold SMap.putD SMap.get
  split
  · rename_i h; subst h
    rw [SMap.look_del m k j hs]
    by_cases h : j = k <;> simp [h]
  · rw [SMap.look_put]
    by_cases h : j = k <;> simp [h]

theorem SMap.get_putD_other [DecidableEq α] (m : SMap α) (k j : Nat) (v d : α) (h : j ≠ k) :
    SMap.get (SMap.putD m k v d) j d = SMap.get m j d := by
  unfold SMap.putD SMap.get
  split
  · rw [SMap.look_del_other m k j h]
  · rw [SMap.look_put_other m k j v h]

theorem SMap.sorted_filter (m : SMap α) (p : Nat × α → Bool) (h : SMap.Sorted m) : SMap.Sorted (m.filter p) :=
  List.Pairwise.sublist List.filter_sublist h

end Sys2Proof
end

