-- ==== Sys2Proof/Laws/State.lean ====
section
/-!
SUPPORT. Laws of the named updates of State: which fields each leaves as they are, and what a read finds after it.
-/

namespace Sys2Proof.Machine

open Sys2Proof

/-! ### setSlot -/

@[simp] theorem State.setSlot_pending (s : State) (n : Nat) (x : Slot) : (s.setSlot n x).pending = s.pending := rfl
@[simp] theorem State.setSlot_asm (s : State) (n : Nat) (x : Slot) : (s.setSlot n x).asm = s.asm := rfl
@[simp] theorem State.setSlot_mem (s : State) (n : Nat) (x : Slot) : (s.setSlot n x).mem = s.mem := rfl
@[simp] theorem State.setSlot_poison (s : State) (n : Nat) (x : Slot) : (s.setSlot n x).poison = s.poison := rfl
@[simp] theorem State.setSlot_time (s : State) (n : Nat) (x : Slot) : (s.setSlot n x).time = s.time := rfl
@[simp] theorem State.setSlot_vals (s : State) (n : Nat) (x : Slot) : (s.setSlot n x).vals = s.vals := rfl
@[simp] theorem State.setSlot_free (s : State) (n : Nat) (x : Slot) : (s.setSlot n x).free = s.free := rfl
@[simp] theorem State.setSlot_stall (s : State) (n : Nat) (x : Slot) : (s.setSlot n x).stall = s.stall := rfl
@[simp] theorem State.setSlot_tr (s : State) (n : Nat) (x : Slot) : (s.setSlot n x).tr = s.tr := rfl
@[simp] theorem State.setSlot_ext (s : State) (n : Nat) (x : Slot) : (s.setSlot n x).ext = s.ext := rfl
@[simp] theorem State.setSlot_coh (s : State) (n : Nat) (x : Slot) : (s.setSlot n x).coh = s.coh := rfl
@[simp] theorem State.setSlot_rlc (s : State) (n : Nat) (x : Slot) : (s.setSlot n x).rlc = s.rlc := rfl
@[simp] theorem State.setSlot_flash (s : State) (n : Nat) (x : Slot) : (s.setSlot n x).flash = s.flash := rfl
@[simp] theorem State.setSlot_models (s : State) (n : Nat) (x : Slot) : (s.setSlot n x).models = s.models := rfl
@[simp] theorem State.setSlot_grid (s : State) (n : Nat) (x : Slot) : (s.setSlot n x).grid = s.grid := rfl
@[simp] theorem State.setSlot_idx (s : State) (n : Nat) (x : Slot) : (s.setSlot n x).idx = s.idx := rfl
@[simp] theorem State.setSlot_emb (s : State) (n : Nat) (x : Slot) : (s.setSlot n x).emb = s.emb := rfl
@[simp] theorem State.setSlot_fab (s : State) (n : Nat) (x : Slot) : (s.setSlot n x).fab = s.fab := rfl
@[simp] theorem State.setSlot_twin (s : State) (n : Nat) (x : Slot) : (s.setSlot n x).twin = s.twin := rfl
@[simp] theorem State.setSlot_ctx (s : State) (n : Nat) (x : Slot) : (s.setSlot n x).ctx = s.ctx := rfl
@[simp] theorem State.setSlot_log (s : State) (n : Nat) (x : Slot) : (s.setSlot n x).log = s.log := rfl
@[simp] theorem State.setSlot_sched (s : State) (n : Nat) (x : Slot) : (s.setSlot n x).sched = s.sched := rfl
@[simp] theorem State.setSlot_cnt (s : State) (n : Nat) (x : Slot) : (s.setSlot n x).cnt = s.cnt := rfl
@[simp] theorem State.setSlot_sec (s : State) (n : Nat) (x : Slot) : (s.setSlot n x).sec = s.sec := rfl
@[simp] theorem State.setSlot_mgmt (s : State) (n : Nat) (x : Slot) : (s.setSlot n x).mgmt = s.mgmt := rfl
@[simp] theorem State.setSlot_prof (s : State) (n : Nat) (x : Slot) : (s.setSlot n x).prof = s.prof := rfl
@[simp] theorem State.setSlot_pwr (s : State) (n : Nat) (x : Slot) : (s.setSlot n x).pwr = s.pwr := rfl

/-! ### delSlot -/

@[simp] theorem State.delSlot_pending (s : State) (n : Nat) : (s.delSlot n).pending = s.pending := rfl
@[simp] theorem State.delSlot_asm (s : State) (n : Nat) : (s.delSlot n).asm = s.asm := rfl
@[simp] theorem State.delSlot_mem (s : State) (n : Nat) : (s.delSlot n).mem = s.mem := rfl
@[simp] theorem State.delSlot_poison (s : State) (n : Nat) : (s.delSlot n).poison = s.poison := rfl
@[simp] theorem State.delSlot_time (s : State) (n : Nat) : (s.delSlot n).time = s.time := rfl
@[simp] theorem State.delSlot_vals (s : State) (n : Nat) : (s.delSlot n).vals = s.vals := rfl
@[simp] theorem State.delSlot_free (s : State) (n : Nat) : (s.delSlot n).free = s.free := rfl
@[simp] theorem State.delSlot_stall (s : State) (n : Nat) : (s.delSlot n).stall = s.stall := rfl
@[simp] theorem State.delSlot_tr (s : State) (n : Nat) : (s.delSlot n).tr = s.tr := rfl
@[simp] theorem State.delSlot_ext (s : State) (n : Nat) : (s.delSlot n).ext = s.ext := rfl
@[simp] theorem State.delSlot_coh (s : State) (n : Nat) : (s.delSlot n).coh = s.coh := rfl
@[simp] theorem State.delSlot_rlc (s : State) (n : Nat) : (s.delSlot n).rlc = s.rlc := rfl
@[simp] theorem State.delSlot_flash (s : State) (n : Nat) : (s.delSlot n).flash = s.flash := rfl
@[simp] theorem State.delSlot_models (s : State) (n : Nat) : (s.delSlot n).models = s.models := rfl
@[simp] theorem State.delSlot_grid (s : State) (n : Nat) : (s.delSlot n).grid = s.grid := rfl
@[simp] theorem State.delSlot_idx (s : State) (n : Nat) : (s.delSlot n).idx = s.idx := rfl
@[simp] theorem State.delSlot_emb (s : State) (n : Nat) : (s.delSlot n).emb = s.emb := rfl
@[simp] theorem State.delSlot_fab (s : State) (n : Nat) : (s.delSlot n).fab = s.fab := rfl
@[simp] theorem State.delSlot_twin (s : State) (n : Nat) : (s.delSlot n).twin = s.twin := rfl
@[simp] theorem State.delSlot_ctx (s : State) (n : Nat) : (s.delSlot n).ctx = s.ctx := rfl
@[simp] theorem State.delSlot_log (s : State) (n : Nat) : (s.delSlot n).log = s.log := rfl
@[simp] theorem State.delSlot_sched (s : State) (n : Nat) : (s.delSlot n).sched = s.sched := rfl
@[simp] theorem State.delSlot_cnt (s : State) (n : Nat) : (s.delSlot n).cnt = s.cnt := rfl
@[simp] theorem State.delSlot_sec (s : State) (n : Nat) : (s.delSlot n).sec = s.sec := rfl
@[simp] theorem State.delSlot_mgmt (s : State) (n : Nat) : (s.delSlot n).mgmt = s.mgmt := rfl
@[simp] theorem State.delSlot_prof (s : State) (n : Nat) : (s.delSlot n).prof = s.prof := rfl
@[simp] theorem State.delSlot_pwr (s : State) (n : Nat) : (s.delSlot n).pwr = s.pwr := rfl

/-! ### updSlot -/

@[simp] theorem State.updSlot_pending (s : State) (n : Nat) (f : Slot → Slot) : (s.updSlot n f).pending = s.pending := rfl
@[simp] theorem State.updSlot_asm (s : State) (n : Nat) (f : Slot → Slot) : (s.updSlot n f).asm = s.asm := rfl
@[simp] theorem State.updSlot_mem (s : State) (n : Nat) (f : Slot → Slot) : (s.updSlot n f).mem = s.mem := rfl
@[simp] theorem State.updSlot_poison (s : State) (n : Nat) (f : Slot → Slot) : (s.updSlot n f).poison = s.poison := rfl
@[simp] theorem State.updSlot_time (s : State) (n : Nat) (f : Slot → Slot) : (s.updSlot n f).time = s.time := rfl
@[simp] theorem State.updSlot_vals (s : State) (n : Nat) (f : Slot → Slot) : (s.updSlot n f).vals = s.vals := rfl
@[simp] theorem State.updSlot_free (s : State) (n : Nat) (f : Slot → Slot) : (s.updSlot n f).free = s.free := rfl
@[simp] theorem State.updSlot_stall (s : State) (n : Nat) (f : Slot → Slot) : (s.updSlot n f).stall = s.stall := rfl
@[simp] theorem State.updSlot_tr (s : State) (n : Nat) (f : Slot → Slot) : (s.updSlot n f).tr = s.tr := rfl
@[simp] theorem State.updSlot_ext (s : State) (n : Nat) (f : Slot → Slot) : (s.updSlot n f).ext = s.ext := rfl
@[simp] theorem State.updSlot_coh (s : State) (n : Nat) (f : Slot → Slot) : (s.updSlot n f).coh = s.coh := rfl
@[simp] theorem State.updSlot_rlc (s : State) (n : Nat) (f : Slot → Slot) : (s.updSlot n f).rlc = s.rlc := rfl
@[simp] theorem State.updSlot_flash (s : State) (n : Nat) (f : Slot → Slot) : (s.updSlot n f).flash = s.flash := rfl
@[simp] theorem State.updSlot_models (s : State) (n : Nat) (f : Slot → Slot) : (s.updSlot n f).models = s.models := rfl
@[simp] theorem State.updSlot_grid (s : State) (n : Nat) (f : Slot → Slot) : (s.updSlot n f).grid = s.grid := rfl
@[simp] theorem State.updSlot_idx (s : State) (n : Nat) (f : Slot → Slot) : (s.updSlot n f).idx = s.idx := rfl
@[simp] theorem State.updSlot_emb (s : State) (n : Nat) (f : Slot → Slot) : (s.updSlot n f).emb = s.emb := rfl
@[simp] theorem State.updSlot_fab (s : State) (n : Nat) (f : Slot → Slot) : (s.updSlot n f).fab = s.fab := rfl
@[simp] theorem State.updSlot_twin (s : State) (n : Nat) (f : Slot → Slot) : (s.updSlot n f).twin = s.twin := rfl
@[simp] theorem State.updSlot_ctx (s : State) (n : Nat) (f : Slot → Slot) : (s.updSlot n f).ctx = s.ctx := rfl
@[simp] theorem State.updSlot_log (s : State) (n : Nat) (f : Slot → Slot) : (s.updSlot n f).log = s.log := rfl
@[simp] theorem State.updSlot_sched (s : State) (n : Nat) (f : Slot → Slot) : (s.updSlot n f).sched = s.sched := rfl
@[simp] theorem State.updSlot_cnt (s : State) (n : Nat) (f : Slot → Slot) : (s.updSlot n f).cnt = s.cnt := rfl
@[simp] theorem State.updSlot_sec (s : State) (n : Nat) (f : Slot → Slot) : (s.updSlot n f).sec = s.sec := rfl
@[simp] theorem State.updSlot_mgmt (s : State) (n : Nat) (f : Slot → Slot) : (s.updSlot n f).mgmt = s.mgmt := rfl
@[simp] theorem State.updSlot_prof (s : State) (n : Nat) (f : Slot → Slot) : (s.updSlot n f).prof = s.prof := rfl
@[simp] theorem State.updSlot_pwr (s : State) (n : Nat) (f : Slot → Slot) : (s.updSlot n f).pwr = s.pwr := rfl

/-! ### setRing -/

@[simp] theorem State.setRing_pending (s : State) (n : Nat) (x : Ring) : (s.setRing n x).pending = s.pending := rfl
@[simp] theorem State.setRing_asm (s : State) (n : Nat) (x : Ring) : (s.setRing n x).asm = s.asm := rfl
@[simp] theorem State.setRing_mem (s : State) (n : Nat) (x : Ring) : (s.setRing n x).mem = s.mem := rfl
@[simp] theorem State.setRing_poison (s : State) (n : Nat) (x : Ring) : (s.setRing n x).poison = s.poison := rfl
@[simp] theorem State.setRing_time (s : State) (n : Nat) (x : Ring) : (s.setRing n x).time = s.time := rfl
@[simp] theorem State.setRing_vals (s : State) (n : Nat) (x : Ring) : (s.setRing n x).vals = s.vals := rfl
@[simp] theorem State.setRing_free (s : State) (n : Nat) (x : Ring) : (s.setRing n x).free = s.free := rfl
@[simp] theorem State.setRing_stall (s : State) (n : Nat) (x : Ring) : (s.setRing n x).stall = s.stall := rfl
@[simp] theorem State.setRing_tr (s : State) (n : Nat) (x : Ring) : (s.setRing n x).tr = s.tr := rfl
@[simp] theorem State.setRing_ext (s : State) (n : Nat) (x : Ring) : (s.setRing n x).ext = s.ext := rfl
@[simp] theorem State.setRing_coh (s : State) (n : Nat) (x : Ring) : (s.setRing n x).coh = s.coh := rfl
@[simp] theorem State.setRing_rlc (s : State) (n : Nat) (x : Ring) : (s.setRing n x).rlc = s.rlc := rfl
@[simp] theorem State.setRing_flash (s : State) (n : Nat) (x : Ring) : (s.setRing n x).flash = s.flash := rfl
@[simp] theorem State.setRing_models (s : State) (n : Nat) (x : Ring) : (s.setRing n x).models = s.models := rfl
@[simp] theorem State.setRing_grid (s : State) (n : Nat) (x : Ring) : (s.setRing n x).grid = s.grid := rfl
@[simp] theorem State.setRing_idx (s : State) (n : Nat) (x : Ring) : (s.setRing n x).idx = s.idx := rfl
@[simp] theorem State.setRing_emb (s : State) (n : Nat) (x : Ring) : (s.setRing n x).emb = s.emb := rfl
@[simp] theorem State.setRing_fab (s : State) (n : Nat) (x : Ring) : (s.setRing n x).fab = s.fab := rfl
@[simp] theorem State.setRing_twin (s : State) (n : Nat) (x : Ring) : (s.setRing n x).twin = s.twin := rfl
@[simp] theorem State.setRing_ctx (s : State) (n : Nat) (x : Ring) : (s.setRing n x).ctx = s.ctx := rfl
@[simp] theorem State.setRing_log (s : State) (n : Nat) (x : Ring) : (s.setRing n x).log = s.log := rfl
@[simp] theorem State.setRing_sched (s : State) (n : Nat) (x : Ring) : (s.setRing n x).sched = s.sched := rfl
@[simp] theorem State.setRing_cnt (s : State) (n : Nat) (x : Ring) : (s.setRing n x).cnt = s.cnt := rfl
@[simp] theorem State.setRing_sec (s : State) (n : Nat) (x : Ring) : (s.setRing n x).sec = s.sec := rfl
@[simp] theorem State.setRing_mgmt (s : State) (n : Nat) (x : Ring) : (s.setRing n x).mgmt = s.mgmt := rfl
@[simp] theorem State.setRing_prof (s : State) (n : Nat) (x : Ring) : (s.setRing n x).prof = s.prof := rfl
@[simp] theorem State.setRing_pwr (s : State) (n : Nat) (x : Ring) : (s.setRing n x).pwr = s.pwr := rfl

/-! ### updRing -/

@[simp] theorem State.updRing_pending (s : State) (n : Nat) (f : Ring → Ring) : (s.updRing n f).pending = s.pending := rfl
@[simp] theorem State.updRing_asm (s : State) (n : Nat) (f : Ring → Ring) : (s.updRing n f).asm = s.asm := rfl
@[simp] theorem State.updRing_mem (s : State) (n : Nat) (f : Ring → Ring) : (s.updRing n f).mem = s.mem := rfl
@[simp] theorem State.updRing_poison (s : State) (n : Nat) (f : Ring → Ring) : (s.updRing n f).poison = s.poison := rfl
@[simp] theorem State.updRing_time (s : State) (n : Nat) (f : Ring → Ring) : (s.updRing n f).time = s.time := rfl
@[simp] theorem State.updRing_vals (s : State) (n : Nat) (f : Ring → Ring) : (s.updRing n f).vals = s.vals := rfl
@[simp] theorem State.updRing_free (s : State) (n : Nat) (f : Ring → Ring) : (s.updRing n f).free = s.free := rfl
@[simp] theorem State.updRing_stall (s : State) (n : Nat) (f : Ring → Ring) : (s.updRing n f).stall = s.stall := rfl
@[simp] theorem State.updRing_tr (s : State) (n : Nat) (f : Ring → Ring) : (s.updRing n f).tr = s.tr := rfl
@[simp] theorem State.updRing_ext (s : State) (n : Nat) (f : Ring → Ring) : (s.updRing n f).ext = s.ext := rfl
@[simp] theorem State.updRing_coh (s : State) (n : Nat) (f : Ring → Ring) : (s.updRing n f).coh = s.coh := rfl
@[simp] theorem State.updRing_rlc (s : State) (n : Nat) (f : Ring → Ring) : (s.updRing n f).rlc = s.rlc := rfl
@[simp] theorem State.updRing_flash (s : State) (n : Nat) (f : Ring → Ring) : (s.updRing n f).flash = s.flash := rfl
@[simp] theorem State.updRing_models (s : State) (n : Nat) (f : Ring → Ring) : (s.updRing n f).models = s.models := rfl
@[simp] theorem State.updRing_grid (s : State) (n : Nat) (f : Ring → Ring) : (s.updRing n f).grid = s.grid := rfl
@[simp] theorem State.updRing_idx (s : State) (n : Nat) (f : Ring → Ring) : (s.updRing n f).idx = s.idx := rfl
@[simp] theorem State.updRing_emb (s : State) (n : Nat) (f : Ring → Ring) : (s.updRing n f).emb = s.emb := rfl
@[simp] theorem State.updRing_fab (s : State) (n : Nat) (f : Ring → Ring) : (s.updRing n f).fab = s.fab := rfl
@[simp] theorem State.updRing_twin (s : State) (n : Nat) (f : Ring → Ring) : (s.updRing n f).twin = s.twin := rfl
@[simp] theorem State.updRing_ctx (s : State) (n : Nat) (f : Ring → Ring) : (s.updRing n f).ctx = s.ctx := rfl
@[simp] theorem State.updRing_log (s : State) (n : Nat) (f : Ring → Ring) : (s.updRing n f).log = s.log := rfl
@[simp] theorem State.updRing_sched (s : State) (n : Nat) (f : Ring → Ring) : (s.updRing n f).sched = s.sched := rfl
@[simp] theorem State.updRing_cnt (s : State) (n : Nat) (f : Ring → Ring) : (s.updRing n f).cnt = s.cnt := rfl
@[simp] theorem State.updRing_sec (s : State) (n : Nat) (f : Ring → Ring) : (s.updRing n f).sec = s.sec := rfl
@[simp] theorem State.updRing_mgmt (s : State) (n : Nat) (f : Ring → Ring) : (s.updRing n f).mgmt = s.mgmt := rfl
@[simp] theorem State.updRing_prof (s : State) (n : Nat) (f : Ring → Ring) : (s.updRing n f).prof = s.prof := rfl
@[simp] theorem State.updRing_pwr (s : State) (n : Nat) (f : Ring → Ring) : (s.updRing n f).pwr = s.pwr := rfl

/-! ### setCq -/

@[simp] theorem State.setCq_pending (s : State) (n : Nat) (x : Cq) : (s.setCq n x).pending = s.pending := rfl
@[simp] theorem State.setCq_asm (s : State) (n : Nat) (x : Cq) : (s.setCq n x).asm = s.asm := rfl
@[simp] theorem State.setCq_mem (s : State) (n : Nat) (x : Cq) : (s.setCq n x).mem = s.mem := rfl
@[simp] theorem State.setCq_poison (s : State) (n : Nat) (x : Cq) : (s.setCq n x).poison = s.poison := rfl
@[simp] theorem State.setCq_time (s : State) (n : Nat) (x : Cq) : (s.setCq n x).time = s.time := rfl
@[simp] theorem State.setCq_vals (s : State) (n : Nat) (x : Cq) : (s.setCq n x).vals = s.vals := rfl
@[simp] theorem State.setCq_free (s : State) (n : Nat) (x : Cq) : (s.setCq n x).free = s.free := rfl
@[simp] theorem State.setCq_stall (s : State) (n : Nat) (x : Cq) : (s.setCq n x).stall = s.stall := rfl
@[simp] theorem State.setCq_tr (s : State) (n : Nat) (x : Cq) : (s.setCq n x).tr = s.tr := rfl
@[simp] theorem State.setCq_ext (s : State) (n : Nat) (x : Cq) : (s.setCq n x).ext = s.ext := rfl
@[simp] theorem State.setCq_coh (s : State) (n : Nat) (x : Cq) : (s.setCq n x).coh = s.coh := rfl
@[simp] theorem State.setCq_rlc (s : State) (n : Nat) (x : Cq) : (s.setCq n x).rlc = s.rlc := rfl
@[simp] theorem State.setCq_flash (s : State) (n : Nat) (x : Cq) : (s.setCq n x).flash = s.flash := rfl
@[simp] theorem State.setCq_models (s : State) (n : Nat) (x : Cq) : (s.setCq n x).models = s.models := rfl
@[simp] theorem State.setCq_grid (s : State) (n : Nat) (x : Cq) : (s.setCq n x).grid = s.grid := rfl
@[simp] theorem State.setCq_idx (s : State) (n : Nat) (x : Cq) : (s.setCq n x).idx = s.idx := rfl
@[simp] theorem State.setCq_emb (s : State) (n : Nat) (x : Cq) : (s.setCq n x).emb = s.emb := rfl
@[simp] theorem State.setCq_fab (s : State) (n : Nat) (x : Cq) : (s.setCq n x).fab = s.fab := rfl
@[simp] theorem State.setCq_twin (s : State) (n : Nat) (x : Cq) : (s.setCq n x).twin = s.twin := rfl
@[simp] theorem State.setCq_ctx (s : State) (n : Nat) (x : Cq) : (s.setCq n x).ctx = s.ctx := rfl
@[simp] theorem State.setCq_log (s : State) (n : Nat) (x : Cq) : (s.setCq n x).log = s.log := rfl
@[simp] theorem State.setCq_sched (s : State) (n : Nat) (x : Cq) : (s.setCq n x).sched = s.sched := rfl
@[simp] theorem State.setCq_cnt (s : State) (n : Nat) (x : Cq) : (s.setCq n x).cnt = s.cnt := rfl
@[simp] theorem State.setCq_sec (s : State) (n : Nat) (x : Cq) : (s.setCq n x).sec = s.sec := rfl
@[simp] theorem State.setCq_mgmt (s : State) (n : Nat) (x : Cq) : (s.setCq n x).mgmt = s.mgmt := rfl
@[simp] theorem State.setCq_prof (s : State) (n : Nat) (x : Cq) : (s.setCq n x).prof = s.prof := rfl
@[simp] theorem State.setCq_pwr (s : State) (n : Nat) (x : Cq) : (s.setCq n x).pwr = s.pwr := rfl

/-! ### setExtent -/

@[simp] theorem State.setExtent_pending (s : State) (n : Nat) (x : Extent) : (s.setExtent n x).pending = s.pending := rfl
@[simp] theorem State.setExtent_asm (s : State) (n : Nat) (x : Extent) : (s.setExtent n x).asm = s.asm := rfl
@[simp] theorem State.setExtent_mem (s : State) (n : Nat) (x : Extent) : (s.setExtent n x).mem = s.mem := rfl
@[simp] theorem State.setExtent_poison (s : State) (n : Nat) (x : Extent) : (s.setExtent n x).poison = s.poison := rfl
@[simp] theorem State.setExtent_time (s : State) (n : Nat) (x : Extent) : (s.setExtent n x).time = s.time := rfl
@[simp] theorem State.setExtent_vals (s : State) (n : Nat) (x : Extent) : (s.setExtent n x).vals = s.vals := rfl
@[simp] theorem State.setExtent_free (s : State) (n : Nat) (x : Extent) : (s.setExtent n x).free = s.free := rfl
@[simp] theorem State.setExtent_stall (s : State) (n : Nat) (x : Extent) : (s.setExtent n x).stall = s.stall := rfl
@[simp] theorem State.setExtent_fe (s : State) (n : Nat) (x : Extent) : (s.setExtent n x).fe = s.fe := rfl
@[simp] theorem State.setExtent_tr (s : State) (n : Nat) (x : Extent) : (s.setExtent n x).tr = s.tr := rfl
@[simp] theorem State.setExtent_coh (s : State) (n : Nat) (x : Extent) : (s.setExtent n x).coh = s.coh := rfl
@[simp] theorem State.setExtent_rlc (s : State) (n : Nat) (x : Extent) : (s.setExtent n x).rlc = s.rlc := rfl
@[simp] theorem State.setExtent_flash (s : State) (n : Nat) (x : Extent) : (s.setExtent n x).flash = s.flash := rfl
@[simp] theorem State.setExtent_models (s : State) (n : Nat) (x : Extent) : (s.setExtent n x).models = s.models := rfl
@[simp] theorem State.setExtent_grid (s : State) (n : Nat) (x : Extent) : (s.setExtent n x).grid = s.grid := rfl
@[simp] theorem State.setExtent_idx (s : State) (n : Nat) (x : Extent) : (s.setExtent n x).idx = s.idx := rfl
@[simp] theorem State.setExtent_emb (s : State) (n : Nat) (x : Extent) : (s.setExtent n x).emb = s.emb := rfl
@[simp] theorem State.setExtent_fab (s : State) (n : Nat) (x : Extent) : (s.setExtent n x).fab = s.fab := rfl
@[simp] theorem State.setExtent_twin (s : State) (n : Nat) (x : Extent) : (s.setExtent n x).twin = s.twin := rfl
@[simp] theorem State.setExtent_ctx (s : State) (n : Nat) (x : Extent) : (s.setExtent n x).ctx = s.ctx := rfl
@[simp] theorem State.setExtent_log (s : State) (n : Nat) (x : Extent) : (s.setExtent n x).log = s.log := rfl
@[simp] theorem State.setExtent_sched (s : State) (n : Nat) (x : Extent) : (s.setExtent n x).sched = s.sched := rfl
@[simp] theorem State.setExtent_cnt (s : State) (n : Nat) (x : Extent) : (s.setExtent n x).cnt = s.cnt := rfl
@[simp] theorem State.setExtent_sec (s : State) (n : Nat) (x : Extent) : (s.setExtent n x).sec = s.sec := rfl
@[simp] theorem State.setExtent_mgmt (s : State) (n : Nat) (x : Extent) : (s.setExtent n x).mgmt = s.mgmt := rfl
@[simp] theorem State.setExtent_prof (s : State) (n : Nat) (x : Extent) : (s.setExtent n x).prof = s.prof := rfl
@[simp] theorem State.setExtent_pwr (s : State) (n : Nat) (x : Extent) : (s.setExtent n x).pwr = s.pwr := rfl

/-! ### updExtent -/

@[simp] theorem State.updExtent_pending (s : State) (n : Nat) (f : Extent → Extent) : (s.updExtent n f).pending = s.pending := rfl
@[simp] theorem State.updExtent_asm (s : State) (n : Nat) (f : Extent → Extent) : (s.updExtent n f).asm = s.asm := rfl
@[simp] theorem State.updExtent_mem (s : State) (n : Nat) (f : Extent → Extent) : (s.updExtent n f).mem = s.mem := rfl
@[simp] theorem State.updExtent_poison (s : State) (n : Nat) (f : Extent → Extent) : (s.updExtent n f).poison = s.poison := rfl
@[simp] theorem State.updExtent_time (s : State) (n : Nat) (f : Extent → Extent) : (s.updExtent n f).time = s.time := rfl
@[simp] theorem State.updExtent_vals (s : State) (n : Nat) (f : Extent → Extent) : (s.updExtent n f).vals = s.vals := rfl
@[simp] theorem State.updExtent_free (s : State) (n : Nat) (f : Extent → Extent) : (s.updExtent n f).free = s.free := rfl
@[simp] theorem State.updExtent_stall (s : State) (n : Nat) (f : Extent → Extent) : (s.updExtent n f).stall = s.stall := rfl
@[simp] theorem State.updExtent_fe (s : State) (n : Nat) (f : Extent → Extent) : (s.updExtent n f).fe = s.fe := rfl
@[simp] theorem State.updExtent_tr (s : State) (n : Nat) (f : Extent → Extent) : (s.updExtent n f).tr = s.tr := rfl
@[simp] theorem State.updExtent_coh (s : State) (n : Nat) (f : Extent → Extent) : (s.updExtent n f).coh = s.coh := rfl
@[simp] theorem State.updExtent_rlc (s : State) (n : Nat) (f : Extent → Extent) : (s.updExtent n f).rlc = s.rlc := rfl
@[simp] theorem State.updExtent_flash (s : State) (n : Nat) (f : Extent → Extent) : (s.updExtent n f).flash = s.flash := rfl
@[simp] theorem State.updExtent_models (s : State) (n : Nat) (f : Extent → Extent) : (s.updExtent n f).models = s.models := rfl
@[simp] theorem State.updExtent_grid (s : State) (n : Nat) (f : Extent → Extent) : (s.updExtent n f).grid = s.grid := rfl
@[simp] theorem State.updExtent_idx (s : State) (n : Nat) (f : Extent → Extent) : (s.updExtent n f).idx = s.idx := rfl
@[simp] theorem State.updExtent_emb (s : State) (n : Nat) (f : Extent → Extent) : (s.updExtent n f).emb = s.emb := rfl
@[simp] theorem State.updExtent_fab (s : State) (n : Nat) (f : Extent → Extent) : (s.updExtent n f).fab = s.fab := rfl
@[simp] theorem State.updExtent_twin (s : State) (n : Nat) (f : Extent → Extent) : (s.updExtent n f).twin = s.twin := rfl
@[simp] theorem State.updExtent_ctx (s : State) (n : Nat) (f : Extent → Extent) : (s.updExtent n f).ctx = s.ctx := rfl
@[simp] theorem State.updExtent_log (s : State) (n : Nat) (f : Extent → Extent) : (s.updExtent n f).log = s.log := rfl
@[simp] theorem State.updExtent_sched (s : State) (n : Nat) (f : Extent → Extent) : (s.updExtent n f).sched = s.sched := rfl
@[simp] theorem State.updExtent_cnt (s : State) (n : Nat) (f : Extent → Extent) : (s.updExtent n f).cnt = s.cnt := rfl
@[simp] theorem State.updExtent_sec (s : State) (n : Nat) (f : Extent → Extent) : (s.updExtent n f).sec = s.sec := rfl
@[simp] theorem State.updExtent_mgmt (s : State) (n : Nat) (f : Extent → Extent) : (s.updExtent n f).mgmt = s.mgmt := rfl
@[simp] theorem State.updExtent_prof (s : State) (n : Nat) (f : Extent → Extent) : (s.updExtent n f).prof = s.prof := rfl
@[simp] theorem State.updExtent_pwr (s : State) (n : Nat) (f : Extent → Extent) : (s.updExtent n f).pwr = s.pwr := rfl

/-! ### setCore -/

@[simp] theorem State.setCore_pending (s : State) (n : Nat) (c : Core) : (s.setCore n c).pending = s.pending := rfl
@[simp] theorem State.setCore_asm (s : State) (n : Nat) (c : Core) : (s.setCore n c).asm = s.asm := rfl
@[simp] theorem State.setCore_mem (s : State) (n : Nat) (c : Core) : (s.setCore n c).mem = s.mem := rfl
@[simp] theorem State.setCore_poison (s : State) (n : Nat) (c : Core) : (s.setCore n c).poison = s.poison := rfl
@[simp] theorem State.setCore_time (s : State) (n : Nat) (c : Core) : (s.setCore n c).time = s.time := rfl
@[simp] theorem State.setCore_vals (s : State) (n : Nat) (c : Core) : (s.setCore n c).vals = s.vals := rfl
@[simp] theorem State.setCore_free (s : State) (n : Nat) (c : Core) : (s.setCore n c).free = s.free := rfl
@[simp] theorem State.setCore_stall (s : State) (n : Nat) (c : Core) : (s.setCore n c).stall = s.stall := rfl
@[simp] theorem State.setCore_fe (s : State) (n : Nat) (c : Core) : (s.setCore n c).fe = s.fe := rfl
@[simp] theorem State.setCore_tr (s : State) (n : Nat) (c : Core) : (s.setCore n c).tr = s.tr := rfl
@[simp] theorem State.setCore_ext (s : State) (n : Nat) (c : Core) : (s.setCore n c).ext = s.ext := rfl
@[simp] theorem State.setCore_coh (s : State) (n : Nat) (c : Core) : (s.setCore n c).coh = s.coh := rfl
@[simp] theorem State.setCore_rlc (s : State) (n : Nat) (c : Core) : (s.setCore n c).rlc = s.rlc := rfl
@[simp] theorem State.setCore_flash (s : State) (n : Nat) (c : Core) : (s.setCore n c).flash = s.flash := rfl
@[simp] theorem State.setCore_models (s : State) (n : Nat) (c : Core) : (s.setCore n c).models = s.models := rfl
@[simp] theorem State.setCore_idx (s : State) (n : Nat) (c : Core) : (s.setCore n c).idx = s.idx := rfl
@[simp] theorem State.setCore_emb (s : State) (n : Nat) (c : Core) : (s.setCore n c).emb = s.emb := rfl
@[simp] theorem State.setCore_fab (s : State) (n : Nat) (c : Core) : (s.setCore n c).fab = s.fab := rfl
@[simp] theorem State.setCore_twin (s : State) (n : Nat) (c : Core) : (s.setCore n c).twin = s.twin := rfl
@[simp] theorem State.setCore_ctx (s : State) (n : Nat) (c : Core) : (s.setCore n c).ctx = s.ctx := rfl
@[simp] theorem State.setCore_log (s : State) (n : Nat) (c : Core) : (s.setCore n c).log = s.log := rfl
@[simp] theorem State.setCore_sched (s : State) (n : Nat) (c : Core) : (s.setCore n c).sched = s.sched := rfl
@[simp] theorem State.setCore_cnt (s : State) (n : Nat) (c : Core) : (s.setCore n c).cnt = s.cnt := rfl
@[simp] theorem State.setCore_sec (s : State) (n : Nat) (c : Core) : (s.setCore n c).sec = s.sec := rfl
@[simp] theorem State.setCore_mgmt (s : State) (n : Nat) (c : Core) : (s.setCore n c).mgmt = s.mgmt := rfl
@[simp] theorem State.setCore_prof (s : State) (n : Nat) (c : Core) : (s.setCore n c).prof = s.prof := rfl
@[simp] theorem State.setCore_pwr (s : State) (n : Nat) (c : Core) : (s.setCore n c).pwr = s.pwr := rfl

/-! ### updCore -/

@[simp] theorem State.updCore_pending (s : State) (n : Nat) (f : Core → Core) : (s.updCore n f).pending = s.pending := rfl
@[simp] theorem State.updCore_asm (s : State) (n : Nat) (f : Core → Core) : (s.updCore n f).asm = s.asm := rfl
@[simp] theorem State.updCore_mem (s : State) (n : Nat) (f : Core → Core) : (s.updCore n f).mem = s.mem := rfl
@[simp] theorem State.updCore_poison (s : State) (n : Nat) (f : Core → Core) : (s.updCore n f).poison = s.poison := rfl
@[simp] theorem State.updCore_time (s : State) (n : Nat) (f : Core → Core) : (s.updCore n f).time = s.time := rfl
@[simp] theorem State.updCore_vals (s : State) (n : Nat) (f : Core → Core) : (s.updCore n f).vals = s.vals := rfl
@[simp] theorem State.updCore_free (s : State) (n : Nat) (f : Core → Core) : (s.updCore n f).free = s.free := rfl
@[simp] theorem State.updCore_stall (s : State) (n : Nat) (f : Core → Core) : (s.updCore n f).stall = s.stall := rfl
@[simp] theorem State.updCore_fe (s : State) (n : Nat) (f : Core → Core) : (s.updCore n f).fe = s.fe := rfl
@[simp] theorem State.updCore_tr (s : State) (n : Nat) (f : Core → Core) : (s.updCore n f).tr = s.tr := rfl
@[simp] theorem State.updCore_ext (s : State) (n : Nat) (f : Core → Core) : (s.updCore n f).ext = s.ext := rfl
@[simp] theorem State.updCore_coh (s : State) (n : Nat) (f : Core → Core) : (s.updCore n f).coh = s.coh := rfl
@[simp] theorem State.updCore_rlc (s : State) (n : Nat) (f : Core → Core) : (s.updCore n f).rlc = s.rlc := rfl
@[simp] theorem State.updCore_flash (s : State) (n : Nat) (f : Core → Core) : (s.updCore n f).flash = s.flash := rfl
@[simp] theorem State.updCore_models (s : State) (n : Nat) (f : Core → Core) : (s.updCore n f).models = s.models := rfl
@[simp] theorem State.updCore_idx (s : State) (n : Nat) (f : Core → Core) : (s.updCore n f).idx = s.idx := rfl
@[simp] theorem State.updCore_emb (s : State) (n : Nat) (f : Core → Core) : (s.updCore n f).emb = s.emb := rfl
@[simp] theorem State.updCore_fab (s : State) (n : Nat) (f : Core → Core) : (s.updCore n f).fab = s.fab := rfl
@[simp] theorem State.updCore_twin (s : State) (n : Nat) (f : Core → Core) : (s.updCore n f).twin = s.twin := rfl
@[simp] theorem State.updCore_ctx (s : State) (n : Nat) (f : Core → Core) : (s.updCore n f).ctx = s.ctx := rfl
@[simp] theorem State.updCore_log (s : State) (n : Nat) (f : Core → Core) : (s.updCore n f).log = s.log := rfl
@[simp] theorem State.updCore_sched (s : State) (n : Nat) (f : Core → Core) : (s.updCore n f).sched = s.sched := rfl
@[simp] theorem State.updCore_cnt (s : State) (n : Nat) (f : Core → Core) : (s.updCore n f).cnt = s.cnt := rfl
@[simp] theorem State.updCore_sec (s : State) (n : Nat) (f : Core → Core) : (s.updCore n f).sec = s.sec := rfl
@[simp] theorem State.updCore_mgmt (s : State) (n : Nat) (f : Core → Core) : (s.updCore n f).mgmt = s.mgmt := rfl
@[simp] theorem State.updCore_prof (s : State) (n : Nat) (f : Core → Core) : (s.updCore n f).prof = s.prof := rfl
@[simp] theorem State.updCore_pwr (s : State) (n : Nat) (f : Core → Core) : (s.updCore n f).pwr = s.pwr := rfl

/-! ### setVal -/

@[simp] theorem State.setVal_pending (s : State) (k v : Nat) : (s.setVal k v).pending = s.pending := rfl
@[simp] theorem State.setVal_asm (s : State) (k v : Nat) : (s.setVal k v).asm = s.asm := rfl
@[simp] theorem State.setVal_mem (s : State) (k v : Nat) : (s.setVal k v).mem = s.mem := rfl
@[simp] theorem State.setVal_poison (s : State) (k v : Nat) : (s.setVal k v).poison = s.poison := rfl
@[simp] theorem State.setVal_time (s : State) (k v : Nat) : (s.setVal k v).time = s.time := rfl
@[simp] theorem State.setVal_free (s : State) (k v : Nat) : (s.setVal k v).free = s.free := rfl
@[simp] theorem State.setVal_stall (s : State) (k v : Nat) : (s.setVal k v).stall = s.stall := rfl
@[simp] theorem State.setVal_fe (s : State) (k v : Nat) : (s.setVal k v).fe = s.fe := rfl
@[simp] theorem State.setVal_tr (s : State) (k v : Nat) : (s.setVal k v).tr = s.tr := rfl
@[simp] theorem State.setVal_ext (s : State) (k v : Nat) : (s.setVal k v).ext = s.ext := rfl
@[simp] theorem State.setVal_coh (s : State) (k v : Nat) : (s.setVal k v).coh = s.coh := rfl
@[simp] theorem State.setVal_rlc (s : State) (k v : Nat) : (s.setVal k v).rlc = s.rlc := rfl
@[simp] theorem State.setVal_flash (s : State) (k v : Nat) : (s.setVal k v).flash = s.flash := rfl
@[simp] theorem State.setVal_models (s : State) (k v : Nat) : (s.setVal k v).models = s.models := rfl
@[simp] theorem State.setVal_grid (s : State) (k v : Nat) : (s.setVal k v).grid = s.grid := rfl
@[simp] theorem State.setVal_idx (s : State) (k v : Nat) : (s.setVal k v).idx = s.idx := rfl
@[simp] theorem State.setVal_emb (s : State) (k v : Nat) : (s.setVal k v).emb = s.emb := rfl
@[simp] theorem State.setVal_fab (s : State) (k v : Nat) : (s.setVal k v).fab = s.fab := rfl
@[simp] theorem State.setVal_twin (s : State) (k v : Nat) : (s.setVal k v).twin = s.twin := rfl
@[simp] theorem State.setVal_ctx (s : State) (k v : Nat) : (s.setVal k v).ctx = s.ctx := rfl
@[simp] theorem State.setVal_log (s : State) (k v : Nat) : (s.setVal k v).log = s.log := rfl
@[simp] theorem State.setVal_sched (s : State) (k v : Nat) : (s.setVal k v).sched = s.sched := rfl
@[simp] theorem State.setVal_cnt (s : State) (k v : Nat) : (s.setVal k v).cnt = s.cnt := rfl
@[simp] theorem State.setVal_sec (s : State) (k v : Nat) : (s.setVal k v).sec = s.sec := rfl
@[simp] theorem State.setVal_mgmt (s : State) (k v : Nat) : (s.setVal k v).mgmt = s.mgmt := rfl
@[simp] theorem State.setVal_prof (s : State) (k v : Nat) : (s.setVal k v).prof = s.prof := rfl
@[simp] theorem State.setVal_pwr (s : State) (k v : Nat) : (s.setVal k v).pwr = s.pwr := rfl

/-! ### bump -/

@[simp] theorem State.bump_pending (s : State) (k v : Nat) : (s.bump k v).pending = s.pending := rfl
@[simp] theorem State.bump_asm (s : State) (k v : Nat) : (s.bump k v).asm = s.asm := rfl
@[simp] theorem State.bump_mem (s : State) (k v : Nat) : (s.bump k v).mem = s.mem := rfl
@[simp] theorem State.bump_poison (s : State) (k v : Nat) : (s.bump k v).poison = s.poison := rfl
@[simp] theorem State.bump_time (s : State) (k v : Nat) : (s.bump k v).time = s.time := rfl
@[simp] theorem State.bump_free (s : State) (k v : Nat) : (s.bump k v).free = s.free := rfl
@[simp] theorem State.bump_stall (s : State) (k v : Nat) : (s.bump k v).stall = s.stall := rfl
@[simp] theorem State.bump_fe (s : State) (k v : Nat) : (s.bump k v).fe = s.fe := rfl
@[simp] theorem State.bump_tr (s : State) (k v : Nat) : (s.bump k v).tr = s.tr := rfl
@[simp] theorem State.bump_ext (s : State) (k v : Nat) : (s.bump k v).ext = s.ext := rfl
@[simp] theorem State.bump_coh (s : State) (k v : Nat) : (s.bump k v).coh = s.coh := rfl
@[simp] theorem State.bump_rlc (s : State) (k v : Nat) : (s.bump k v).rlc = s.rlc := rfl
@[simp] theorem State.bump_flash (s : State) (k v : Nat) : (s.bump k v).flash = s.flash := rfl
@[simp] theorem State.bump_models (s : State) (k v : Nat) : (s.bump k v).models = s.models := rfl
@[simp] theorem State.bump_grid (s : State) (k v : Nat) : (s.bump k v).grid = s.grid := rfl
@[simp] theorem State.bump_idx (s : State) (k v : Nat) : (s.bump k v).idx = s.idx := rfl
@[simp] theorem State.bump_emb (s : State) (k v : Nat) : (s.bump k v).emb = s.emb := rfl
@[simp] theorem State.bump_fab (s : State) (k v : Nat) : (s.bump k v).fab = s.fab := rfl
@[simp] theorem State.bump_twin (s : State) (k v : Nat) : (s.bump k v).twin = s.twin := rfl
@[simp] theorem State.bump_ctx (s : State) (k v : Nat) : (s.bump k v).ctx = s.ctx := rfl
@[simp] theorem State.bump_log (s : State) (k v : Nat) : (s.bump k v).log = s.log := rfl
@[simp] theorem State.bump_sched (s : State) (k v : Nat) : (s.bump k v).sched = s.sched := rfl
@[simp] theorem State.bump_cnt (s : State) (k v : Nat) : (s.bump k v).cnt = s.cnt := rfl
@[simp] theorem State.bump_sec (s : State) (k v : Nat) : (s.bump k v).sec = s.sec := rfl
@[simp] theorem State.bump_mgmt (s : State) (k v : Nat) : (s.bump k v).mgmt = s.mgmt := rfl
@[simp] theorem State.bump_prof (s : State) (k v : Nat) : (s.bump k v).prof = s.prof := rfl
@[simp] theorem State.bump_pwr (s : State) (k v : Nat) : (s.bump k v).pwr = s.pwr := rfl

/-! ### finish -/

@[simp] theorem State.finish_pending (s : State) (n : Nat) (st : Status) (c r : Nat) : (s.finish n st c r).pending = s.pending := rfl
@[simp] theorem State.finish_asm (s : State) (n : Nat) (st : Status) (c r : Nat) : (s.finish n st c r).asm = s.asm := rfl
@[simp] theorem State.finish_mem (s : State) (n : Nat) (st : Status) (c r : Nat) : (s.finish n st c r).mem = s.mem := rfl
@[simp] theorem State.finish_poison (s : State) (n : Nat) (st : Status) (c r : Nat) : (s.finish n st c r).poison = s.poison := rfl
@[simp] theorem State.finish_time (s : State) (n : Nat) (st : Status) (c r : Nat) : (s.finish n st c r).time = s.time := rfl
@[simp] theorem State.finish_vals (s : State) (n : Nat) (st : Status) (c r : Nat) : (s.finish n st c r).vals = s.vals := rfl
@[simp] theorem State.finish_free (s : State) (n : Nat) (st : Status) (c r : Nat) : (s.finish n st c r).free = s.free := rfl
@[simp] theorem State.finish_stall (s : State) (n : Nat) (st : Status) (c r : Nat) : (s.finish n st c r).stall = s.stall := rfl
@[simp] theorem State.finish_tr (s : State) (n : Nat) (st : Status) (c r : Nat) : (s.finish n st c r).tr = s.tr := rfl
@[simp] theorem State.finish_ext (s : State) (n : Nat) (st : Status) (c r : Nat) : (s.finish n st c r).ext = s.ext := rfl
@[simp] theorem State.finish_coh (s : State) (n : Nat) (st : Status) (c r : Nat) : (s.finish n st c r).coh = s.coh := rfl
@[simp] theorem State.finish_rlc (s : State) (n : Nat) (st : Status) (c r : Nat) : (s.finish n st c r).rlc = s.rlc := rfl
@[simp] theorem State.finish_flash (s : State) (n : Nat) (st : Status) (c r : Nat) : (s.finish n st c r).flash = s.flash := rfl
@[simp] theorem State.finish_models (s : State) (n : Nat) (st : Status) (c r : Nat) : (s.finish n st c r).models = s.models := rfl
@[simp] theorem State.finish_grid (s : State) (n : Nat) (st : Status) (c r : Nat) : (s.finish n st c r).grid = s.grid := rfl
@[simp] theorem State.finish_idx (s : State) (n : Nat) (st : Status) (c r : Nat) : (s.finish n st c r).idx = s.idx := rfl
@[simp] theorem State.finish_emb (s : State) (n : Nat) (st : Status) (c r : Nat) : (s.finish n st c r).emb = s.emb := rfl
@[simp] theorem State.finish_fab (s : State) (n : Nat) (st : Status) (c r : Nat) : (s.finish n st c r).fab = s.fab := rfl
@[simp] theorem State.finish_twin (s : State) (n : Nat) (st : Status) (c r : Nat) : (s.finish n st c r).twin = s.twin := rfl
@[simp] theorem State.finish_ctx (s : State) (n : Nat) (st : Status) (c r : Nat) : (s.finish n st c r).ctx = s.ctx := rfl
@[simp] theorem State.finish_log (s : State) (n : Nat) (st : Status) (c r : Nat) : (s.finish n st c r).log = s.log := rfl
@[simp] theorem State.finish_sched (s : State) (n : Nat) (st : Status) (c r : Nat) : (s.finish n st c r).sched = s.sched := rfl
@[simp] theorem State.finish_cnt (s : State) (n : Nat) (st : Status) (c r : Nat) : (s.finish n st c r).cnt = s.cnt := rfl
@[simp] theorem State.finish_sec (s : State) (n : Nat) (st : Status) (c r : Nat) : (s.finish n st c r).sec = s.sec := rfl
@[simp] theorem State.finish_mgmt (s : State) (n : Nat) (st : Status) (c r : Nat) : (s.finish n st c r).mgmt = s.mgmt := rfl
@[simp] theorem State.finish_prof (s : State) (n : Nat) (st : Status) (c r : Nat) : (s.finish n st c r).prof = s.prof := rfl
@[simp] theorem State.finish_pwr (s : State) (n : Nat) (st : Status) (c r : Nat) : (s.finish n st c r).pwr = s.pwr := rfl

/-! ### failSlot -/

@[simp] theorem State.failSlot_pending (s : State) (n : Nat) (st : Status) : (s.failSlot n st).pending = s.pending := rfl
@[simp] theorem State.failSlot_asm (s : State) (n : Nat) (st : Status) : (s.failSlot n st).asm = s.asm := rfl
@[simp] theorem State.failSlot_mem (s : State) (n : Nat) (st : Status) : (s.failSlot n st).mem = s.mem := rfl
@[simp] theorem State.failSlot_poison (s : State) (n : Nat) (st : Status) : (s.failSlot n st).poison = s.poison := rfl
@[simp] theorem State.failSlot_time (s : State) (n : Nat) (st : Status) : (s.failSlot n st).time = s.time := rfl
@[simp] theorem State.failSlot_vals (s : State) (n : Nat) (st : Status) : (s.failSlot n st).vals = s.vals := rfl
@[simp] theorem State.failSlot_free (s : State) (n : Nat) (st : Status) : (s.failSlot n st).free = s.free := rfl
@[simp] theorem State.failSlot_stall (s : State) (n : Nat) (st : Status) : (s.failSlot n st).stall = s.stall := rfl
@[simp] theorem State.failSlot_tr (s : State) (n : Nat) (st : Status) : (s.failSlot n st).tr = s.tr := rfl
@[simp] theorem State.failSlot_ext (s : State) (n : Nat) (st : Status) : (s.failSlot n st).ext = s.ext := rfl
@[simp] theorem State.failSlot_coh (s : State) (n : Nat) (st : Status) : (s.failSlot n st).coh = s.coh := rfl
@[simp] theorem State.failSlot_rlc (s : State) (n : Nat) (st : Status) : (s.failSlot n st).rlc = s.rlc := rfl
@[simp] theorem State.failSlot_flash (s : State) (n : Nat) (st : Status) : (s.failSlot n st).flash = s.flash := rfl
@[simp] theorem State.failSlot_models (s : State) (n : Nat) (st : Status) : (s.failSlot n st).models = s.models := rfl
@[simp] theorem State.failSlot_grid (s : State) (n : Nat) (st : Status) : (s.failSlot n st).grid = s.grid := rfl
@[simp] theorem State.failSlot_idx (s : State) (n : Nat) (st : Status) : (s.failSlot n st).idx = s.idx := rfl
@[simp] theorem State.failSlot_emb (s : State) (n : Nat) (st : Status) : (s.failSlot n st).emb = s.emb := rfl
@[simp] theorem State.failSlot_fab (s : State) (n : Nat) (st : Status) : (s.failSlot n st).fab = s.fab := rfl
@[simp] theorem State.failSlot_twin (s : State) (n : Nat) (st : Status) : (s.failSlot n st).twin = s.twin := rfl
@[simp] theorem State.failSlot_ctx (s : State) (n : Nat) (st : Status) : (s.failSlot n st).ctx = s.ctx := rfl
@[simp] theorem State.failSlot_log (s : State) (n : Nat) (st : Status) : (s.failSlot n st).log = s.log := rfl
@[simp] theorem State.failSlot_sched (s : State) (n : Nat) (st : Status) : (s.failSlot n st).sched = s.sched := rfl
@[simp] theorem State.failSlot_cnt (s : State) (n : Nat) (st : Status) : (s.failSlot n st).cnt = s.cnt := rfl
@[simp] theorem State.failSlot_sec (s : State) (n : Nat) (st : Status) : (s.failSlot n st).sec = s.sec := rfl
@[simp] theorem State.failSlot_mgmt (s : State) (n : Nat) (st : Status) : (s.failSlot n st).mgmt = s.mgmt := rfl
@[simp] theorem State.failSlot_prof (s : State) (n : Nat) (st : Status) : (s.failSlot n st).prof = s.prof := rfl
@[simp] theorem State.failSlot_pwr (s : State) (n : Nat) (st : Status) : (s.failSlot n st).pwr = s.pwr := rfl

/-! ### watch -/

@[simp] theorem State.watch_pending (s : State) (l : Nat) (w : Watcher) : (s.watch l w).pending = s.pending := rfl
@[simp] theorem State.watch_asm (s : State) (l : Nat) (w : Watcher) : (s.watch l w).asm = s.asm := rfl
@[simp] theorem State.watch_mem (s : State) (l : Nat) (w : Watcher) : (s.watch l w).mem = s.mem := rfl
@[simp] theorem State.watch_poison (s : State) (l : Nat) (w : Watcher) : (s.watch l w).poison = s.poison := rfl
@[simp] theorem State.watch_time (s : State) (l : Nat) (w : Watcher) : (s.watch l w).time = s.time := rfl
@[simp] theorem State.watch_vals (s : State) (l : Nat) (w : Watcher) : (s.watch l w).vals = s.vals := rfl
@[simp] theorem State.watch_free (s : State) (l : Nat) (w : Watcher) : (s.watch l w).free = s.free := rfl
@[simp] theorem State.watch_stall (s : State) (l : Nat) (w : Watcher) : (s.watch l w).stall = s.stall := rfl
@[simp] theorem State.watch_fe (s : State) (l : Nat) (w : Watcher) : (s.watch l w).fe = s.fe := rfl
@[simp] theorem State.watch_tr (s : State) (l : Nat) (w : Watcher) : (s.watch l w).tr = s.tr := rfl
@[simp] theorem State.watch_ext (s : State) (l : Nat) (w : Watcher) : (s.watch l w).ext = s.ext := rfl
@[simp] theorem State.watch_rlc (s : State) (l : Nat) (w : Watcher) : (s.watch l w).rlc = s.rlc := rfl
@[simp] theorem State.watch_flash (s : State) (l : Nat) (w : Watcher) : (s.watch l w).flash = s.flash := rfl
@[simp] theorem State.watch_models (s : State) (l : Nat) (w : Watcher) : (s.watch l w).models = s.models := rfl
@[simp] theorem State.watch_grid (s : State) (l : Nat) (w : Watcher) : (s.watch l w).grid = s.grid := rfl
@[simp] theorem State.watch_idx (s : State) (l : Nat) (w : Watcher) : (s.watch l w).idx = s.idx := rfl
@[simp] theorem State.watch_emb (s : State) (l : Nat) (w : Watcher) : (s.watch l w).emb = s.emb := rfl
@[simp] theorem State.watch_fab (s : State) (l : Nat) (w : Watcher) : (s.watch l w).fab = s.fab := rfl
@[simp] theorem State.watch_twin (s : State) (l : Nat) (w : Watcher) : (s.watch l w).twin = s.twin := rfl
@[simp] theorem State.watch_ctx (s : State) (l : Nat) (w : Watcher) : (s.watch l w).ctx = s.ctx := rfl
@[simp] theorem State.watch_log (s : State) (l : Nat) (w : Watcher) : (s.watch l w).log = s.log := rfl
@[simp] theorem State.watch_sched (s : State) (l : Nat) (w : Watcher) : (s.watch l w).sched = s.sched := rfl
@[simp] theorem State.watch_cnt (s : State) (l : Nat) (w : Watcher) : (s.watch l w).cnt = s.cnt := rfl
@[simp] theorem State.watch_sec (s : State) (l : Nat) (w : Watcher) : (s.watch l w).sec = s.sec := rfl
@[simp] theorem State.watch_mgmt (s : State) (l : Nat) (w : Watcher) : (s.watch l w).mgmt = s.mgmt := rfl
@[simp] theorem State.watch_prof (s : State) (l : Nat) (w : Watcher) : (s.watch l w).prof = s.prof := rfl
@[simp] theorem State.watch_pwr (s : State) (l : Nat) (w : Watcher) : (s.watch l w).pwr = s.pwr := rfl

/-! ### unwatch -/

@[simp] theorem State.unwatch_pending (s : State) (l : Nat) : (s.unwatch l).pending = s.pending := rfl
@[simp] theorem State.unwatch_asm (s : State) (l : Nat) : (s.unwatch l).asm = s.asm := rfl
@[simp] theorem State.unwatch_mem (s : State) (l : Nat) : (s.unwatch l).mem = s.mem := rfl
@[simp] theorem State.unwatch_poison (s : State) (l : Nat) : (s.unwatch l).poison = s.poison := rfl
@[simp] theorem State.unwatch_time (s : State) (l : Nat) : (s.unwatch l).time = s.time := rfl
@[simp] theorem State.unwatch_vals (s : State) (l : Nat) : (s.unwatch l).vals = s.vals := rfl
@[simp] theorem State.unwatch_free (s : State) (l : Nat) : (s.unwatch l).free = s.free := rfl
@[simp] theorem State.unwatch_stall (s : State) (l : Nat) : (s.unwatch l).stall = s.stall := rfl
@[simp] theorem State.unwatch_fe (s : State) (l : Nat) : (s.unwatch l).fe = s.fe := rfl
@[simp] theorem State.unwatch_tr (s : State) (l : Nat) : (s.unwatch l).tr = s.tr := rfl
@[simp] theorem State.unwatch_ext (s : State) (l : Nat) : (s.unwatch l).ext = s.ext := rfl
@[simp] theorem State.unwatch_rlc (s : State) (l : Nat) : (s.unwatch l).rlc = s.rlc := rfl
@[simp] theorem State.unwatch_flash (s : State) (l : Nat) : (s.unwatch l).flash = s.flash := rfl
@[simp] theorem State.unwatch_models (s : State) (l : Nat) : (s.unwatch l).models = s.models := rfl
@[simp] theorem State.unwatch_grid (s : State) (l : Nat) : (s.unwatch l).grid = s.grid := rfl
@[simp] theorem State.unwatch_idx (s : State) (l : Nat) : (s.unwatch l).idx = s.idx := rfl
@[simp] theorem State.unwatch_emb (s : State) (l : Nat) : (s.unwatch l).emb = s.emb := rfl
@[simp] theorem State.unwatch_fab (s : State) (l : Nat) : (s.unwatch l).fab = s.fab := rfl
@[simp] theorem State.unwatch_twin (s : State) (l : Nat) : (s.unwatch l).twin = s.twin := rfl
@[simp] theorem State.unwatch_ctx (s : State) (l : Nat) : (s.unwatch l).ctx = s.ctx := rfl
@[simp] theorem State.unwatch_log (s : State) (l : Nat) : (s.unwatch l).log = s.log := rfl
@[simp] theorem State.unwatch_sched (s : State) (l : Nat) : (s.unwatch l).sched = s.sched := rfl
@[simp] theorem State.unwatch_cnt (s : State) (l : Nat) : (s.unwatch l).cnt = s.cnt := rfl
@[simp] theorem State.unwatch_sec (s : State) (l : Nat) : (s.unwatch l).sec = s.sec := rfl
@[simp] theorem State.unwatch_mgmt (s : State) (l : Nat) : (s.unwatch l).mgmt = s.mgmt := rfl
@[simp] theorem State.unwatch_prof (s : State) (l : Nat) : (s.unwatch l).prof = s.prof := rfl
@[simp] theorem State.unwatch_pwr (s : State) (l : Nat) : (s.unwatch l).pwr = s.pwr := rfl

/-! ### renewLease -/

@[simp] theorem State.renewLease_pending (s : State) (l : Nat) : (s.renewLease l).pending = s.pending := rfl
@[simp] theorem State.renewLease_asm (s : State) (l : Nat) : (s.renewLease l).asm = s.asm := rfl
@[simp] theorem State.renewLease_mem (s : State) (l : Nat) : (s.renewLease l).mem = s.mem := rfl
@[simp] theorem State.renewLease_poison (s : State) (l : Nat) : (s.renewLease l).poison = s.poison := rfl
@[simp] theorem State.renewLease_time (s : State) (l : Nat) : (s.renewLease l).time = s.time := rfl
@[simp] theorem State.renewLease_vals (s : State) (l : Nat) : (s.renewLease l).vals = s.vals := rfl
@[simp] theorem State.renewLease_free (s : State) (l : Nat) : (s.renewLease l).free = s.free := rfl
@[simp] theorem State.renewLease_stall (s : State) (l : Nat) : (s.renewLease l).stall = s.stall := rfl
@[simp] theorem State.renewLease_tr (s : State) (l : Nat) : (s.renewLease l).tr = s.tr := rfl
@[simp] theorem State.renewLease_ext (s : State) (l : Nat) : (s.renewLease l).ext = s.ext := rfl
@[simp] theorem State.renewLease_coh (s : State) (l : Nat) : (s.renewLease l).coh = s.coh := rfl
@[simp] theorem State.renewLease_rlc (s : State) (l : Nat) : (s.renewLease l).rlc = s.rlc := rfl
@[simp] theorem State.renewLease_flash (s : State) (l : Nat) : (s.renewLease l).flash = s.flash := rfl
@[simp] theorem State.renewLease_models (s : State) (l : Nat) : (s.renewLease l).models = s.models := rfl
@[simp] theorem State.renewLease_grid (s : State) (l : Nat) : (s.renewLease l).grid = s.grid := rfl
@[simp] theorem State.renewLease_idx (s : State) (l : Nat) : (s.renewLease l).idx = s.idx := rfl
@[simp] theorem State.renewLease_emb (s : State) (l : Nat) : (s.renewLease l).emb = s.emb := rfl
@[simp] theorem State.renewLease_fab (s : State) (l : Nat) : (s.renewLease l).fab = s.fab := rfl
@[simp] theorem State.renewLease_twin (s : State) (l : Nat) : (s.renewLease l).twin = s.twin := rfl
@[simp] theorem State.renewLease_ctx (s : State) (l : Nat) : (s.renewLease l).ctx = s.ctx := rfl
@[simp] theorem State.renewLease_log (s : State) (l : Nat) : (s.renewLease l).log = s.log := rfl
@[simp] theorem State.renewLease_sched (s : State) (l : Nat) : (s.renewLease l).sched = s.sched := rfl
@[simp] theorem State.renewLease_cnt (s : State) (l : Nat) : (s.renewLease l).cnt = s.cnt := rfl
@[simp] theorem State.renewLease_sec (s : State) (l : Nat) : (s.renewLease l).sec = s.sec := rfl
@[simp] theorem State.renewLease_mgmt (s : State) (l : Nat) : (s.renewLease l).mgmt = s.mgmt := rfl
@[simp] theorem State.renewLease_prof (s : State) (l : Nat) : (s.renewLease l).prof = s.prof := rfl
@[simp] theorem State.renewLease_pwr (s : State) (l : Nat) : (s.renewLease l).pwr = s.pwr := rfl

/-! ### setDir -/

@[simp] theorem State.setDir_pending (s : State) (l : Nat) (e : Option DirEntry) : (s.setDir l e).pending = s.pending := rfl
@[simp] theorem State.setDir_asm (s : State) (l : Nat) (e : Option DirEntry) : (s.setDir l e).asm = s.asm := rfl
@[simp] theorem State.setDir_mem (s : State) (l : Nat) (e : Option DirEntry) : (s.setDir l e).mem = s.mem := rfl
@[simp] theorem State.setDir_poison (s : State) (l : Nat) (e : Option DirEntry) : (s.setDir l e).poison = s.poison := rfl
@[simp] theorem State.setDir_time (s : State) (l : Nat) (e : Option DirEntry) : (s.setDir l e).time = s.time := rfl
@[simp] theorem State.setDir_vals (s : State) (l : Nat) (e : Option DirEntry) : (s.setDir l e).vals = s.vals := rfl
@[simp] theorem State.setDir_free (s : State) (l : Nat) (e : Option DirEntry) : (s.setDir l e).free = s.free := rfl
@[simp] theorem State.setDir_stall (s : State) (l : Nat) (e : Option DirEntry) : (s.setDir l e).stall = s.stall := rfl
@[simp] theorem State.setDir_fe (s : State) (l : Nat) (e : Option DirEntry) : (s.setDir l e).fe = s.fe := rfl
@[simp] theorem State.setDir_tr (s : State) (l : Nat) (e : Option DirEntry) : (s.setDir l e).tr = s.tr := rfl
@[simp] theorem State.setDir_ext (s : State) (l : Nat) (e : Option DirEntry) : (s.setDir l e).ext = s.ext := rfl
@[simp] theorem State.setDir_rlc (s : State) (l : Nat) (e : Option DirEntry) : (s.setDir l e).rlc = s.rlc := rfl
@[simp] theorem State.setDir_flash (s : State) (l : Nat) (e : Option DirEntry) : (s.setDir l e).flash = s.flash := rfl
@[simp] theorem State.setDir_models (s : State) (l : Nat) (e : Option DirEntry) : (s.setDir l e).models = s.models := rfl
@[simp] theorem State.setDir_grid (s : State) (l : Nat) (e : Option DirEntry) : (s.setDir l e).grid = s.grid := rfl
@[simp] theorem State.setDir_idx (s : State) (l : Nat) (e : Option DirEntry) : (s.setDir l e).idx = s.idx := rfl
@[simp] theorem State.setDir_emb (s : State) (l : Nat) (e : Option DirEntry) : (s.setDir l e).emb = s.emb := rfl
@[simp] theorem State.setDir_fab (s : State) (l : Nat) (e : Option DirEntry) : (s.setDir l e).fab = s.fab := rfl
@[simp] theorem State.setDir_twin (s : State) (l : Nat) (e : Option DirEntry) : (s.setDir l e).twin = s.twin := rfl
@[simp] theorem State.setDir_ctx (s : State) (l : Nat) (e : Option DirEntry) : (s.setDir l e).ctx = s.ctx := rfl
@[simp] theorem State.setDir_log (s : State) (l : Nat) (e : Option DirEntry) : (s.setDir l e).log = s.log := rfl
@[simp] theorem State.setDir_sched (s : State) (l : Nat) (e : Option DirEntry) : (s.setDir l e).sched = s.sched := rfl
@[simp] theorem State.setDir_cnt (s : State) (l : Nat) (e : Option DirEntry) : (s.setDir l e).cnt = s.cnt := rfl
@[simp] theorem State.setDir_sec (s : State) (l : Nat) (e : Option DirEntry) : (s.setDir l e).sec = s.sec := rfl
@[simp] theorem State.setDir_mgmt (s : State) (l : Nat) (e : Option DirEntry) : (s.setDir l e).mgmt = s.mgmt := rfl
@[simp] theorem State.setDir_prof (s : State) (l : Nat) (e : Option DirEntry) : (s.setDir l e).prof = s.prof := rfl
@[simp] theorem State.setDir_pwr (s : State) (l : Nat) (e : Option DirEntry) : (s.setDir l e).pwr = s.pwr := rfl

/-! ### Reads after updates -/

@[simp] theorem State.slot?_setSlot (s : State) (n : Nat) (x : Slot) : (s.setSlot n x).slot? n = some x := by
  simp [State.slot?, State.setSlot]

@[simp] theorem State.slot?_updSlot (s : State) (n : Nat) (f : Slot → Slot) : (s.updSlot n f).slot? n = (s.slot? n).map f := by
  simp [State.slot?, State.updSlot]

@[simp] theorem State.ring?_setRing (s : State) (n : Nat) (x : Ring) : (s.setRing n x).ring? n = some x := by
  simp [State.ring?, State.setRing]

@[simp] theorem State.ring?_updRing (s : State) (n : Nat) (f : Ring → Ring) : (s.updRing n f).ring? n = (s.ring? n).map f := by
  simp [State.ring?, State.updRing]

@[simp] theorem State.cq?_setCq (s : State) (n : Nat) (x : Cq) : (s.setCq n x).cq? n = some x := by
  simp [State.cq?, State.setCq]

@[simp] theorem State.extent?_setExtent (s : State) (n : Nat) (x : Extent) : (s.setExtent n x).extent? n = some x := by
  simp [State.extent?, State.setExtent]

@[simp] theorem State.core_setCore (s : State) (n : Nat) (c : Core) : (s.setCore n c).core n = c := by
  simp [State.core, State.setCore]

theorem State.core_setCore_other (s : State) (n m : Nat) (c : Core) (h : m ≠ n) : (s.setCore n c).core m = s.core m := by
  simp [State.core, State.setCore, SMap.get_put_other _ _ _ _ _ h]

@[simp] theorem State.core_updCore (s : State) (n : Nat) (f : Core → Core) : (s.updCore n f).core n = f (s.core n) := by
  simp [State.updCore]

@[simp] theorem State.slot?_setRing (s : State) (n m : Nat) (x : Ring) : (s.setRing n x).slot? m = s.slot? m := rfl
@[simp] theorem State.ring?_setSlot (s : State) (n m : Nat) (x : Slot) : (s.setSlot n x).ring? m = s.ring? m := rfl
@[simp] theorem State.cq?_setRing (s : State) (n m : Nat) (x : Ring) : (s.setRing n x).cq? m = s.cq? m := rfl

/-! ### Trace capture touches the staging buffer and TRACE_LOST only -/

@[simp] theorem State.trace_pending (s : State) (k d p t b : Nat) : (s.trace k d p t b).pending = s.pending := by
  unfold State.trace; split <;> [(simp only []; split <;> rfl); rfl]
@[simp] theorem State.trace_asm (s : State) (k d p t b : Nat) : (s.trace k d p t b).asm = s.asm := by
  unfold State.trace; split <;> [(simp only []; split <;> rfl); rfl]
@[simp] theorem State.trace_mem (s : State) (k d p t b : Nat) : (s.trace k d p t b).mem = s.mem := by
  unfold State.trace; split <;> [(simp only []; split <;> rfl); rfl]
@[simp] theorem State.trace_poison (s : State) (k d p t b : Nat) : (s.trace k d p t b).poison = s.poison := by
  unfold State.trace; split <;> [(simp only []; split <;> rfl); rfl]
@[simp] theorem State.trace_time (s : State) (k d p t b : Nat) : (s.trace k d p t b).time = s.time := by
  unfold State.trace; split <;> [(simp only []; split <;> rfl); rfl]
@[simp] theorem State.trace_free (s : State) (k d p t b : Nat) : (s.trace k d p t b).free = s.free := by
  unfold State.trace; split <;> [(simp only []; split <;> rfl); rfl]
@[simp] theorem State.trace_stall (s : State) (k d p t b : Nat) : (s.trace k d p t b).stall = s.stall := by
  unfold State.trace; split <;> [(simp only []; split <;> rfl); rfl]
@[simp] theorem State.trace_fe (s : State) (k d p t b : Nat) : (s.trace k d p t b).fe = s.fe := by
  unfold State.trace; split <;> [(simp only []; split <;> rfl); rfl]
@[simp] theorem State.trace_tr (s : State) (k d p t b : Nat) : (s.trace k d p t b).tr = s.tr := by
  unfold State.trace; split <;> [(simp only []; split <;> rfl); rfl]
@[simp] theorem State.trace_ext (s : State) (k d p t b : Nat) : (s.trace k d p t b).ext = s.ext := by
  unfold State.trace; split <;> [(simp only []; split <;> rfl); rfl]
@[simp] theorem State.trace_coh (s : State) (k d p t b : Nat) : (s.trace k d p t b).coh = s.coh := by
  unfold State.trace; split <;> [(simp only []; split <;> rfl); rfl]
@[simp] theorem State.trace_rlc (s : State) (k d p t b : Nat) : (s.trace k d p t b).rlc = s.rlc := by
  unfold State.trace; split <;> [(simp only []; split <;> rfl); rfl]
@[simp] theorem State.trace_flash (s : State) (k d p t b : Nat) : (s.trace k d p t b).flash = s.flash := by
  unfold State.trace; split <;> [(simp only []; split <;> rfl); rfl]
@[simp] theorem State.trace_models (s : State) (k d p t b : Nat) : (s.trace k d p t b).models = s.models := by
  unfold State.trace; split <;> [(simp only []; split <;> rfl); rfl]
@[simp] theorem State.trace_grid (s : State) (k d p t b : Nat) : (s.trace k d p t b).grid = s.grid := by
  unfold State.trace; split <;> [(simp only []; split <;> rfl); rfl]
@[simp] theorem State.trace_idx (s : State) (k d p t b : Nat) : (s.trace k d p t b).idx = s.idx := by
  unfold State.trace; split <;> [(simp only []; split <;> rfl); rfl]
@[simp] theorem State.trace_emb (s : State) (k d p t b : Nat) : (s.trace k d p t b).emb = s.emb := by
  unfold State.trace; split <;> [(simp only []; split <;> rfl); rfl]
@[simp] theorem State.trace_fab (s : State) (k d p t b : Nat) : (s.trace k d p t b).fab = s.fab := by
  unfold State.trace; split <;> [(simp only []; split <;> rfl); rfl]
@[simp] theorem State.trace_twin (s : State) (k d p t b : Nat) : (s.trace k d p t b).twin = s.twin := by
  unfold State.trace; split <;> [(simp only []; split <;> rfl); rfl]
@[simp] theorem State.trace_ctx (s : State) (k d p t b : Nat) : (s.trace k d p t b).ctx = s.ctx := by
  unfold State.trace; split <;> [(simp only []; split <;> rfl); rfl]
@[simp] theorem State.trace_log (s : State) (k d p t b : Nat) : (s.trace k d p t b).log = s.log := by
  unfold State.trace; split <;> [(simp only []; split <;> rfl); rfl]
@[simp] theorem State.trace_sched (s : State) (k d p t b : Nat) : (s.trace k d p t b).sched = s.sched := by
  unfold State.trace; split <;> [(simp only []; split <;> rfl); rfl]
@[simp] theorem State.trace_sec (s : State) (k d p t b : Nat) : (s.trace k d p t b).sec = s.sec := by
  unfold State.trace; split <;> [(simp only []; split <;> rfl); rfl]
@[simp] theorem State.trace_mgmt (s : State) (k d p t b : Nat) : (s.trace k d p t b).mgmt = s.mgmt := by
  unfold State.trace; split <;> [(simp only []; split <;> rfl); rfl]
@[simp] theorem State.trace_prof (s : State) (k d p t b : Nat) : (s.trace k d p t b).prof = s.prof := by
  unfold State.trace; split <;> [(simp only []; split <;> rfl); rfl]
@[simp] theorem State.trace_pwr (s : State) (k d p t b : Nat) : (s.trace k d p t b).pwr = s.pwr := by
  unfold State.trace; split <;> [(simp only []; split <;> rfl); rfl]

@[simp] theorem State.slot?_trace (s : State) (k d p t b n : Nat) : (s.trace k d p t b).slot? n = s.slot? n := by
  simp [State.slot?]

/-! ### The dispatch of a command -/

@[simp] theorem State.dispatch_pending (s : State) (n : Nat) (sl : Slot) : (s.dispatch n sl).pending = s.pending := by
  unfold State.dispatch; simp only [State.trace_pending]; split <;> [(split <;> rfl); rfl]
@[simp] theorem State.dispatch_asm (s : State) (n : Nat) (sl : Slot) : (s.dispatch n sl).asm = s.asm := by
  unfold State.dispatch; simp only [State.trace_asm]; split <;> [(split <;> rfl); rfl]
@[simp] theorem State.dispatch_mem (s : State) (n : Nat) (sl : Slot) : (s.dispatch n sl).mem = s.mem := by
  unfold State.dispatch; simp only [State.trace_mem]; split <;> [(split <;> rfl); rfl]
@[simp] theorem State.dispatch_poison (s : State) (n : Nat) (sl : Slot) : (s.dispatch n sl).poison = s.poison := by
  unfold State.dispatch; simp only [State.trace_poison]; split <;> [(split <;> rfl); rfl]
@[simp] theorem State.dispatch_time (s : State) (n : Nat) (sl : Slot) : (s.dispatch n sl).time = s.time := by
  unfold State.dispatch; simp only [State.trace_time]; split <;> [(split <;> rfl); rfl]
@[simp] theorem State.dispatch_free (s : State) (n : Nat) (sl : Slot) : (s.dispatch n sl).free = s.free := by
  unfold State.dispatch; simp only [State.trace_free]; split <;> [(split <;> rfl); rfl]
@[simp] theorem State.dispatch_stall (s : State) (n : Nat) (sl : Slot) : (s.dispatch n sl).stall = s.stall := by
  unfold State.dispatch; simp only [State.trace_stall]; split <;> [(split <;> rfl); rfl]
@[simp] theorem State.dispatch_tr (s : State) (n : Nat) (sl : Slot) : (s.dispatch n sl).tr = s.tr := by
  unfold State.dispatch; simp only [State.trace_tr]; split <;> [(split <;> rfl); rfl]
@[simp] theorem State.dispatch_ext (s : State) (n : Nat) (sl : Slot) : (s.dispatch n sl).ext = s.ext := by
  unfold State.dispatch; simp only [State.trace_ext]; split <;> [(split <;> rfl); rfl]
@[simp] theorem State.dispatch_coh (s : State) (n : Nat) (sl : Slot) : (s.dispatch n sl).coh = s.coh := by
  unfold State.dispatch; simp only [State.trace_coh]; split <;> [(split <;> rfl); rfl]
@[simp] theorem State.dispatch_rlc (s : State) (n : Nat) (sl : Slot) : (s.dispatch n sl).rlc = s.rlc := by
  unfold State.dispatch; simp only [State.trace_rlc]; split <;> [(split <;> rfl); rfl]
@[simp] theorem State.dispatch_flash (s : State) (n : Nat) (sl : Slot) : (s.dispatch n sl).flash = s.flash := by
  unfold State.dispatch; simp only [State.trace_flash]; split <;> [(split <;> rfl); rfl]
@[simp] theorem State.dispatch_models (s : State) (n : Nat) (sl : Slot) : (s.dispatch n sl).models = s.models := by
  unfold State.dispatch; simp only [State.trace_models]; split <;> [(split <;> rfl); rfl]
@[simp] theorem State.dispatch_grid (s : State) (n : Nat) (sl : Slot) : (s.dispatch n sl).grid = s.grid := by
  unfold State.dispatch; simp only [State.trace_grid]; split <;> [(split <;> rfl); rfl]
@[simp] theorem State.dispatch_idx (s : State) (n : Nat) (sl : Slot) : (s.dispatch n sl).idx = s.idx := by
  unfold State.dispatch; simp only [State.trace_idx]; split <;> [(split <;> rfl); rfl]
@[simp] theorem State.dispatch_emb (s : State) (n : Nat) (sl : Slot) : (s.dispatch n sl).emb = s.emb := by
  unfold State.dispatch; simp only [State.trace_emb]; split <;> [(split <;> rfl); rfl]
@[simp] theorem State.dispatch_fab (s : State) (n : Nat) (sl : Slot) : (s.dispatch n sl).fab = s.fab := by
  unfold State.dispatch; simp only [State.trace_fab]; split <;> [(split <;> rfl); rfl]
@[simp] theorem State.dispatch_twin (s : State) (n : Nat) (sl : Slot) : (s.dispatch n sl).twin = s.twin := by
  unfold State.dispatch; simp only [State.trace_twin]; split <;> [(split <;> rfl); rfl]
@[simp] theorem State.dispatch_ctx (s : State) (n : Nat) (sl : Slot) : (s.dispatch n sl).ctx = s.ctx := by
  unfold State.dispatch; simp only [State.trace_ctx]; split <;> [(split <;> rfl); rfl]
@[simp] theorem State.dispatch_log (s : State) (n : Nat) (sl : Slot) : (s.dispatch n sl).log = s.log := by
  unfold State.dispatch; simp only [State.trace_log]; split <;> [(split <;> rfl); rfl]
@[simp] theorem State.dispatch_sched (s : State) (n : Nat) (sl : Slot) : (s.dispatch n sl).sched = s.sched := by
  unfold State.dispatch; simp only [State.trace_sched]; split <;> [(split <;> rfl); rfl]
@[simp] theorem State.dispatch_sec (s : State) (n : Nat) (sl : Slot) : (s.dispatch n sl).sec = s.sec := by
  unfold State.dispatch; simp only [State.trace_sec]; split <;> [(split <;> rfl); rfl]
@[simp] theorem State.dispatch_mgmt (s : State) (n : Nat) (sl : Slot) : (s.dispatch n sl).mgmt = s.mgmt := by
  unfold State.dispatch; simp only [State.trace_mgmt]; split <;> [(split <;> rfl); rfl]
@[simp] theorem State.dispatch_prof (s : State) (n : Nat) (sl : Slot) : (s.dispatch n sl).prof = s.prof := by
  unfold State.dispatch; simp only [State.trace_prof]; split <;> [(split <;> rfl); rfl]
@[simp] theorem State.dispatch_pwr (s : State) (n : Nat) (sl : Slot) : (s.dispatch n sl).pwr = s.pwr := by
  unfold State.dispatch; simp only [State.trace_pwr]; split <;> [(split <;> rfl); rfl]

theorem State.dispatch_fe (s : State) (n : Nat) (sl : Slot) : (s.dispatch n sl).fe =
    { s.fe with slots := SMap.put s.fe.slots n { sl with stage := .running, dispatchTime := s.time } } := by
  unfold State.dispatch; simp only [State.trace_fe]; split <;> [(split <;> rfl); rfl]

@[simp] theorem State.slot?_dispatch (s : State) (n : Nat) (sl : Slot) :
    (s.dispatch n sl).slot? n = some (sl.run s.time) := by
  simp [State.slot?, State.dispatch_fe, Slot.run]

end Sys2Proof.Machine
end

