-- ==== Sys2Proof/Laws/Ops.lean ====
section
/-!
SUPPORT. Laws of the actions of engines and of the commands that hold slots: how an action's parts run, and what a run
of a command does.
-/

namespace Sys2Proof.Machine

open Sys2Proof

/-! ### Actions -/

variable {α β : Type}

@[simp] theorem Eng.go_pure (a : α) (s : State) : Eng.go (pure a) s = (.ok a, s) := rfl
@[simp] theorem Eng.go_waitE (s : State) : Eng.go (waitE : Eng α) s = (.error .wait, s) := rfl
@[simp] theorem Eng.go_failE (st : Status) (s : State) : Eng.go (failE st : Eng α) s = (.error (.fail st), s) := rfl
@[simp] theorem Eng.go_throw (e : Stop) (s : State) : Eng.go (throw e : Eng α) s = (.error e, s) := rfl
@[simp] theorem Eng.go_get (s : State) : Eng.go get s = (.ok s, s) := rfl
@[simp] theorem Eng.go_set (t s : State) : Eng.go (set t) s = (.ok ⟨⟩, t) := rfl
@[simp] theorem Eng.go_modify (f : State → State) (s : State) : Eng.go (modify f) s = (.ok ⟨⟩, f s) := rfl

theorem Eng.go_bind (x : Eng α) (f : α → Eng β) (s : State) :
    Eng.go (x >>= f) s = match x.go s with
      | (.ok a, t) => (f a).go t
      | (.error e, t) => (.error e, t) := by
  show (ExceptT.bindCont f (x.run s).1 : StateM State _).run (x.run s).2 = _
  unfold Eng.go
  rcases h : ExceptT.run x s with ⟨r, t⟩
  cases r <;> rfl

@[simp] theorem Eng.go_map (f : α → β) (x : Eng α) (s : State) :
    Eng.go (f <$> x) s = match x.go s with
      | (.ok a, t) => (.ok (f a), t)
      | (.error e, t) => (.error e, t) := by
  rw [← bind_pure_comp, Eng.go_bind]
  rcases x.go s with ⟨r, t⟩
  cases r <;> rfl

/-- The parts of an action run in turn. -/
theorem Eng.go_bind_ok (x : Eng α) (f : α → Eng β) (s t : State) (a : α) (h : x.go s = (.ok a, t)) :
    Eng.go (x >>= f) s = (f a).go t := by
  rw [Eng.go_bind, h]

@[simp] theorem Eng.go_needE (b : Bool) (st : Status) (s : State) :
    Eng.go (needE b st) s = if b then (.ok (), s) else (.error (.fail st), s) := by
  unfold needE; split <;> rfl

@[simp] theorem Eng.go_holdE (b : Bool) (s : State) :
    Eng.go (holdE b) s = if b then (.ok (), s) else (.error .wait, s) := by
  unfold holdE; split <;> rfl

@[simp] theorem Eng.go_ite (p : Prop) [Decidable p] (x y : Eng α) (s : State) :
    Eng.go (if p then x else y) s = if p then x.go s else y.go s := by
  split <;> rfl

theorem Eng.go_getSlot (n : Nat) (sl : Slot) (s : State) (h : s.slot? n = some sl) :
    Eng.go (getSlot n) s = (.ok sl, s) := by
  simp [getSlot, Eng.go_bind, h]

/-! ### Commands that hold slots -/

@[simp] theorem Slot.run_f (sl : Slot) (t lo w : Nat) : (sl.run t).f lo w = sl.f lo w := by cases sl; rfl
@[simp] theorem Slot.run_id (sl : Slot) (t lo w : Nat) : (sl.run t).id lo w = sl.id lo w := by cases sl; rfl
@[simp] theorem Slot.run_asid (sl : Slot) (t : Nat) : (sl.run t).asid = sl.asid := by cases sl; rfl
@[simp] theorem Slot.run_seq (sl : Slot) (t : Nat) : (sl.run t).seq = sl.seq := by cases sl; rfl
@[simp] theorem Slot.run_tenant (sl : Slot) (t : Nat) : (sl.run t).tenant = sl.tenant := by cases sl; rfl
@[simp] theorem Slot.run_ring (sl : Slot) (t : Nat) : (sl.run t).ring = sl.ring := by cases sl; rfl
@[simp] theorem Slot.run_pos (sl : Slot) (t : Nat) : (sl.run t).pos = sl.pos := by cases sl; rfl
@[simp] theorem Slot.run_opcode (sl : Slot) (t : Nat) : (sl.run t).opcode = sl.opcode := by cases sl; rfl
@[simp] theorem Slot.run_desc (sl : Slot) (t : Nat) : (sl.run t).desc = sl.desc := by cases sl; rfl
@[simp] theorem Slot.run_marks (sl : Slot) (t : Nat) : (sl.run t).marks = sl.marks := by cases sl; rfl
@[simp] theorem Slot.run_cursor (sl : Slot) (t : Nat) : (sl.run t).cursor = sl.cursor := by cases sl; rfl
@[simp] theorem Slot.run_count (sl : Slot) (t : Nat) : (sl.run t).count = sl.count := by cases sl; rfl
@[simp] theorem Slot.run_parts (sl : Slot) (t : Nat) : (sl.run t).parts = sl.parts := by cases sl; rfl
@[simp] theorem Slot.run_status (sl : Slot) (t : Nat) : (sl.run t).status = sl.status := by cases sl; rfl
@[simp] theorem Slot.run_who (sl : Slot) (t n u : Nat) : (sl.run t).who n u = sl.who n u := by cases sl; rfl

@[simp] theorem State.ring?_dispatch (s : State) (n m : Nat) (sl : Slot) : (s.dispatch n sl).ring? m = s.ring? m := by
  simp [State.ring?, State.dispatch_fe]

@[simp] theorem State.cq?_dispatch (s : State) (n m : Nat) (sl : Slot) : (s.dispatch n sl).cq? m = s.cq? m := by
  simp [State.cq?, State.dispatch_fe]

/-- A command that may be dispatched is dispatched and its action runs; the end of the action decides its state. -/
theorem runSlotIf_fetched (op n : Nat) (here : Slot → Bool) (body : Slot → Eng (Status × Nat × Nat)) (s : State) (sl : Slot)
    (h : s.slot? n = some sl) (ho : sl.opcode = op) (hh : here sl = true) (hs : sl.stage = .fetched)
    (hd : s.dispatchable sl = true) :
    runSlotIf op n here body s =
      endSlot n ((body (sl.run s.time)).go (s.dispatch n sl)) := by
  subst ho
  simp only [runSlotIf, h]
  rw [if_neg (by simp [hh, hs, hd]), if_pos hs, Eng.go_bind_ok _ _ _ _ _ (Eng.go_getSlot n _ _ (State.slot?_dispatch s n sl))]

theorem runSlot_fetched (op n : Nat) (body : Slot → Eng (Status × Nat × Nat)) (s : State) (sl : Slot)
    (h : s.slot? n = some sl) (ho : sl.opcode = op) (hs : sl.stage = .fetched) (hd : s.dispatchable sl = true) :
    runSlot op n body s = endSlot n ((body (sl.run s.time)).go (s.dispatch n sl)) :=
  runSlotIf_fetched op n _ body s sl h ho rfl hs hd

/-- A command that has begun runs on. -/
theorem runSlotIf_running (op n : Nat) (here : Slot → Bool) (body : Slot → Eng (Status × Nat × Nat)) (s : State) (sl : Slot)
    (h : s.slot? n = some sl) (ho : sl.opcode = op) (hh : here sl = true) (hs : sl.stage ≠ .fetched) (hf : sl.stage ≠ .finished)
    (hd : s.dispatchable sl = true) :
    runSlotIf op n here body s = endSlot n ((body sl).go s) := by
  subst ho
  simp only [runSlotIf, h]
  rw [if_neg (by simp [hh, hf, hd]), if_neg hs, Eng.go_bind_ok _ _ _ _ _ (Eng.go_getSlot n _ _ h)]

@[simp] theorem endSlot_ok (n : Nat) (st : Status) (c v : Nat) (s : State) :
    endSlot n (.ok (st, c, v), s) = s.finish n st c v := rfl
@[simp] theorem endSlot_wait (n : Nat) (s : State) : endSlot n (.error .wait, s) = s := rfl
@[simp] theorem endSlot_fail (n : Nat) (st : Status) (s : State) :
    endSlot n (.error (.fail st), s) = s.rejectSlot n st := rfl

/-! ### Management writes and requests of other packages -/

theorem manageData_ok (s t : State) (f : State → MStatus × State) (st : MStatus) (h : s.managed) (hf : f s = (st, t)) :
    s.manageData f = State.answer (st, t) := by
  obtain ⟨h1, h2, h3⟩ := h
  simp [State.manageData, State.manage, State.guarded, h1, h2, h3, hf]

/-- A request that is served now: its body's answer is its response. -/
theorem serve_ok (type : Nat) (k : Packet) (body : Head → Eng (Head × List Byte × List Nat)) (s t : State) (r : Head)
    (payload : List Byte) (lines : List Nat) (h : s.received type k)
    (hb : (body (packetHead k)).go (s.taken k) = (.ok (r, payload, lines), t)) :
    serve type k body s = t.reply k r payload lines := by
  obtain ⟨h1, h2, h3, h4, h5, h6⟩ := h
  have a2 : (s.takeIn k).isMine (packetHead k) = true := h2
  have a3 : (s.takeIn k).servesNone = false := h3
  have a4 : (s.takeIn k).awake = true := h4
  have a5 : ((s.takeIn k).held? (packetHead k).src (packetHead k).tag).bind (·.answer) = none := h5
  have a6 : (if storedType (packetHead k) && (packetHead k).reissue then
      (SMap.look (s.takeIn k).fab.stored (requestKey (packetHead k))).orElse fun _ =>
        SMap.look (s.takeIn k).twin.mirrored (requestKey (packetHead k)) else none) = none := by
    have e1 : (s.takeIn k).fab.stored = s.fab.stored := rfl
    have e2 : (s.takeIn k).twin = s.twin := rfl
    rcases h6 with h | h | ⟨h, g⟩ <;> simp [*]
  simp only [State.taken] at hb
  simp only [serve]
  rw [if_neg (by simp [h1, a2]), if_neg (by simp [a3]), if_neg (by simp [a4]), if_neg (by simp [a5]), a6]
  simp only [hb]

end Sys2Proof.Machine
end

