-- ==== Sys2Proof/Laws/Core.lean ====
section
/-!
SUPPORT. Laws of the instructions of silt cores: how an instruction's action runs, and what an instruction that issues does.
-/

namespace Sys2Proof.Machine

open Sys2Proof

variable {α β : Type}

@[simp] theorem CoreE.go_pure (a : α) (s : State) : CoreE.go (pure a) s = (.ok a, s) := rfl
@[simp] theorem CoreE.go_throw (e : CoreStop) (s : State) : CoreE.go (throw e : CoreE α) s = (.error e, s) := rfl
@[simp] theorem CoreE.go_excE (cause va : Nat) (s : State) :
    CoreE.go (excE cause va : CoreE α) s = (.error (.exc cause va false), s) := rfl
@[simp] theorem CoreE.go_get (s : State) : CoreE.go get s = (.ok s, s) := rfl
@[simp] theorem CoreE.go_set (t s : State) : CoreE.go (set t) s = (.ok ⟨⟩, t) := rfl
@[simp] theorem CoreE.go_modify (f : State → State) (s : State) : CoreE.go (modify f) s = (.ok ⟨⟩, f s) := rfl
@[simp] theorem CoreE.go_coreGet (n : Nat) (s : State) : CoreE.go (coreGet n) s = (.ok (s.core n), s) := rfl
@[simp] theorem CoreE.go_coreSet (n : Nat) (f : Core → Core) (s : State) : CoreE.go (coreSet n f) s = (.ok ⟨⟩, s.updCore n f) := rfl

theorem CoreE.go_bind (x : CoreE α) (f : α → CoreE β) (s : State) :
    CoreE.go (x >>= f) s = match x.go s with
      | (.ok a, t) => (f a).go t
      | (.error e, t) => (.error e, t) := by
  show (ExceptT.bindCont f (x.run s).1 : StateM State _).run (x.run s).2 = _
  unfold CoreE.go
  rcases h : ExceptT.run x s with ⟨r, t⟩
  cases r <;> rfl

/-- The parts of an instruction's action run in turn. -/
theorem CoreE.go_bind_ok (x : CoreE α) (f : α → CoreE β) (s t : State) (a : α) (h : x.go s = (.ok a, t)) :
    CoreE.go (x >>= f) s = (f a).go t := by
  rw [CoreE.go_bind, h]

@[simp] theorem CoreE.go_legalE (b : Bool) (s : State) :
    CoreE.go (legalE b) s = if b then (.ok (), s) else (.error (.exc 0x01 0 false), s) := by
  unfold legalE; split <;> rfl

@[simp] theorem CoreE.go_ite (p : Prop) [Decidable p] (x y : CoreE α) (s : State) :
    CoreE.go (if p then x else y) s = if p then x.go s else y.go s := by
  split <;> rfl

@[simp] theorem CoreE.go_putScalar (n rd : Nat) (v : Word) (s : State) :
    CoreE.go (putScalar n rd v) s = (.ok ((s.core n).pc + 4), s.updCore n fun c => c.putS rd v) := rfl

/-- An instruction that issues and whose action ends with a next PC retires there. -/
theorem instruction_ok (s t u : State) (n : Nat) (word : BitVec 32) (mine : Bool) (body : CoreE Word) (pc : Word)
    (h : s.issues n word t) (hm : mine = true) (hb : body.go t = (.ok pc, u)) : s.instruction n word mine body = u.retire n pc := by
  obtain ⟨h1, h2, h3⟩ := h
  subst hm
  simp only [State.instruction]
  rw [if_neg (by simp [h2]; omega)]
  simp only [h3]
  rw [if_neg (by simp)]
  simp only [if_true, hb]

/-- An instruction that issues and whose action raises an exception takes it. -/
theorem instruction_exc (s t u : State) (n : Nat) (word : BitVec 32) (mine : Bool) (body : CoreE Word) (cause va : Nat) (imp : Bool)
    (h : s.issues n word t) (hm : mine = true) (hb : body.go t = (.error (.exc cause va imp), u)) :
    s.instruction n word mine body = u.coreExc n cause va imp word := by
  obtain ⟨h1, h2, h3⟩ := h
  subst hm
  simp only [State.instruction]
  rw [if_neg (by simp [h2]; omega)]
  simp only [h3]
  rw [if_neg (by simp)]
  simp only [if_true, hb]

/-- A word of no row raises ILLEGAL, whichever row it is given to. -/
theorem instruction_illegal (s t : State) (n : Nat) (word : BitVec 32) (body : CoreE Word)
    (h : s.issues n word t) (hw : ownerless word = true) :
    s.instruction n word false body = t.coreExc n 0x01 0 false word := by
  obtain ⟨h1, h2, h3⟩ := h
  simp only [State.instruction]
  rw [if_neg (by simp [h2]; omega)]
  simp only [h3]
  rw [if_neg (by simp [hw])]
  simp

end Sys2Proof.Machine
end

