-- ==== Sys2Proof/Laws/Memory.lean ====
section
/-!
SUPPORT. Laws of the store: every memory operation keeps its canonical form, a byte written reads back, and no other byte
changes.
-/

namespace Sys2Proof.Machine

open Sys2Proof

theorem Memory.wf_nil : Memory.wf [] := by simp [Memory.wf, SMap.Sorted]

theorem Memory.wf_putD (m : SMap Byte) (a : Nat) (b : Byte) (h : Memory.wf m) : Memory.wf (SMap.putD m a b 0) := by
  refine ⟨SMap.sorted_putD m a b 0 h.1, fun p hp => ?_⟩
  unfold SMap.putD at hp
  split at hp
  · exact h.2 p (SMap.mem_del m a p hp)
  · rename_i hb
    rcases SMap.mem_put m a b p hp with rfl | hp
    · exact hb
    · exact h.2 p hp

theorem Memory.wf_filter (m : SMap Byte) (p : Nat × Byte → Bool) (h : Memory.wf m) : Memory.wf (m.filter p) :=
  ⟨SMap.sorted_filter m p h.1, fun q hq => h.2 q (List.mem_of_mem_filter hq)⟩

theorem Memory.wf_memWrite (bs : List Byte) (m : SMap Byte) (a : Nat) (h : Memory.wf m) : Memory.wf (memWrite m a bs) := by
  induction bs generalizing m a with
  | nil => exact h
  | cons b rest ih => exact ih _ _ (Memory.wf_putD m a b h)

theorem Memory.wf_memZero (m : SMap Byte) (a n : Nat) (h : Memory.wf m) : Memory.wf (memZero m a n) :=
  Memory.wf_filter m _ h

theorem memWrite_other (bs : List Byte) (m : SMap Byte) (a j : Nat) (h : j < a ∨ a + bs.length ≤ j) :
    SMap.get (memWrite m a bs) j 0 = SMap.get m j 0 := by
  induction bs generalizing m a with
  | nil => rfl
  | cons b rest ih =>
    have hj : j ≠ a := by simp at h; omega
    rw [memWrite, ih _ _ (by simp at h; omega), SMap.get_putD_other m a j b 0 hj]

theorem memWrite_get (bs : List Byte) (m : SMap Byte) (a i : Nat) (hw : SMap.Sorted m) (hi : i < bs.length) :
    SMap.get (memWrite m a bs) (a + i) 0 = bs.getD i 0 := by
  induction bs generalizing m a i with
  | nil => simp at hi
  | cons b rest ih =>
    cases i with
    | zero =>
      rw [memWrite, memWrite_other rest _ (a + 1) (a + 0) (by omega), Nat.add_zero, SMap.get_putD m a a b 0 hw]
      simp
    | succ k =>
      have := ih (SMap.putD m a b 0) (a + 1) k (SMap.sorted_putD m a b 0 hw) (by simpa using hi)
      rw [memWrite, show a + (k + 1) = a + 1 + k by omega, this]
      simp

theorem memRead_length (m : SMap Byte) (a n : Nat) : (memRead m a n).length = n := by
  induction n generalizing a with
  | zero => rfl
  | succ k ih => simp [memRead, ih]

theorem memRead_getD (m : SMap Byte) (a n i : Nat) (h : i < n) : (memRead m a n).getD i 0 = SMap.get m (a + i) 0 := by
  induction n generalizing a i with
  | zero => omega
  | succ k ih =>
    cases i with
    | zero => simp [memRead]
    | succ j => simpa [memRead, show a + 1 + j = a + (j + 1) by omega] using ih (a + 1) j (by omega)

/-- A read of the bytes just written returns them. -/
theorem memRead_memWrite (m : SMap Byte) (a : Nat) (bs : List Byte) (hw : SMap.Sorted m) :
    memRead (memWrite m a bs) a bs.length = bs := by
  apply List.ext_getElem
  · simp [memRead_length]
  · intro i h1 h2
    have h := memRead_getD (memWrite m a bs) a bs.length i h2
    rw [memWrite_get bs m a i hw h2] at h
    rwa [List.getD_eq_getElem _ _ h1, List.getD_eq_getElem _ _ h2] at h

/-- A read outside the bytes written returns what it returned before. -/
theorem memRead_memWrite_other (m : SMap Byte) (a b n : Nat) (bs : List Byte) (h : b + n ≤ a ∨ a + bs.length ≤ b) :
    memRead (memWrite m a bs) b n = memRead m b n := by
  induction n generalizing b with
  | zero => rfl
  | succ k ih => rw [memRead, memRead, ih (b + 1) (by omega), memWrite_other bs m a b (by omega)]

theorem State.poke_wf (s : State) (la : Nat) (bs : List Byte) (h : Memory.wf s.mem) : Memory.wf (s.poke la bs).mem :=
  Memory.wf_memWrite bs s.mem la h

theorem State.pokeMasked_wf (s : State) (line : Nat) (data : List Byte) (mask : BitVec 64) (h : Memory.wf s.mem) :
    Memory.wf (s.pokeMasked line data mask).mem :=
  Memory.wf_memWrite _ s.mem (line * 64) h

theorem State.zeroRange_wf (s : State) (la n : Nat) (h : Memory.wf s.mem) : Memory.wf (s.zeroRange la n).mem :=
  Memory.wf_memZero s.mem la n h

theorem State.peek_poke (s : State) (la : Nat) (bs : List Byte) (h : Memory.wf s.mem) :
    (s.poke la bs).peek la bs.length = bs :=
  memRead_memWrite s.mem la bs h.1

theorem State.peek_poke_other (s : State) (la lb n : Nat) (bs : List Byte) (h : lb + n ≤ la ∨ la + bs.length ≤ lb) :
    (s.poke la bs).peek lb n = s.peek lb n :=
  memRead_memWrite_other s.mem la lb n bs h

end Sys2Proof.Machine
end

