-- ==== Sys2Proof/Tests/Slice0.lean ====
section
/-!
SUPPORT. Tests: ill-formed commands are refused, each obligation's hypotheses are met by a concrete state, and a few results
that the manual's tables give.
-/

namespace Sys2Proof.Tests

open Sys2Proof Sys2Proof.Machine

set_option Elab.async false
set_option maxRecDepth 100000
set_option exponentiation.threshold 4096

/-! ### Small states -/

/-- The value of an action that ends well. -/
def okVal {ε α : Type} (r : Except ε α × State) : Option α :=
  match r.1 with
  | .ok a => some a
  | .error _ => none

/-- An action that ends with a given value. -/
theorem wentV {ε α : Type} {r : Except ε α × State} {a : α} (h : okVal r = some a) : r = (.ok a, r.2) := by
  unfold okVal at h
  obtain ⟨x, t⟩ := r
  cases x with
  | ok b => simp_all
  | error b => simp at h

/-- An action that ends with a given value and leaves the state. -/
theorem wentS {ε α : Type} {r : Except ε α × State} {s : State} {a : α} (h : okVal r = some a) (g : r.2 = s) : r = (.ok a, s) :=
  g ▸ wentV h

/-- An action that ends well, with its value and the state that it leaves. -/
theorem went {ε α : Type} {r : Except ε α × State} (h : (okVal r).isSome = true) : r = (.ok ((okVal r).get h), r.2) :=
  wentV (by simp)

theorem held {α : Type} {o : Option α} (h : o.isSome = true) : o = some (o.get h) := by simp

/-- The value of a result that is no failure. -/
def exVal {ε α : Type} (r : Except ε α) : Option α :=
  match r with
  | .ok a => some a
  | .error _ => none

theorem gave {ε α : Type} {r : Except ε α} (h : (exVal r).isSome = true) : r = .ok ((exVal r).get h) := by
  cases r with
  | ok b => rfl
  | error b => simp [exVal] at h

theorem gave2 {ε α β : Type} {r : Except ε (α × β)} (h : (exVal r).isSome = true) :
    r = .ok (((exVal r).get h).1, ((exVal r).get h).2) := gave h

theorem parts3 {α β γ : Type} (p : α × β × γ) : p = (p.1, p.2.1, p.2.2) := rfl

theorem all_of {α : Type} {l : List (Nat × α)} {p : Nat → α → Prop} [∀ k x, Decidable (p k x)]
    (h : l.all (fun q => decide (p q.1 q.2)) = true) : ∀ k x, (k, x) ∈ l → p k x := by
  intro k x hm
  exact of_decide_eq_true (List.all_eq_true.mp h (k, x) hm)

/-- A command that answers a next state. -/
def Goes (i : Instr) (s : State) : Prop := ∃ t, exec i s = .next t

theorem goes {i : Instr} {s t : State} (h : exec i s = .next t) : Goes i s := ⟨t, h⟩

theorem goes_of {i : Instr} {s : State} {p : State → Prop} (h : ∃ t, exec i s = .next t ∧ p t) : Goes i s :=
  let ⟨t, g, _⟩ := h
  ⟨t, g⟩

theorem ready_of {s : State} {n op : Nat} {sl : Slot}
    (h : s.slot? n = some sl ∧ sl.opcode = op ∧ sl.stage = .fetched ∧ s.dispatchable sl = true) : s.ready n op sl := h

theorem begun_of {s : State} {n op : Nat} {sl : Slot}
    (h : s.slot? n = some sl ∧ sl.opcode = op ∧ (sl.stage = .running ∨ sl.stage = .waiting) ∧ s.dispatchable sl = true) :
    s.begun n op sl := h

theorem received_of {s : State} {type : Nat} {k : Packet}
    (h : (packetHead k).type = type ∧ s.isMine (packetHead k) = true ∧ s.servesNone = false ∧ s.awake = true ∧
      ((s.held? (packetHead k).src (packetHead k).tag).bind (·.answer)) = none ∧
      (storedType (packetHead k) = false ∨ (packetHead k).reissue = false ∨
        SMap.look s.fab.stored (requestKey (packetHead k)) = none ∧ SMap.look s.twin.mirrored (requestKey (packetHead k)) = none)) :
    s.received type k := h

theorem issues_of {s : State} {n : Nat} {word : BitVec 32} (h : n < 25600 ∧ (s.core n).mayIssue = true)
    (f : okVal ((fetchWord n).go s) = some word) : s.issues n word ((fetchWord n).go s).2 :=
  ⟨h.1, h.2, wentV f⟩

theorem managed_of {s : State} (h : s.dataPath = true ∧ s.mgmtAnswers = true ∧ s.pwr.bootOnly = false) : s.managed := h

/-- Ring 1 of tenant 5 in ASID 1, with one descriptor to fetch. -/
def ring1 : Ring :=
  { driver := true, tenant := 5, asid := 1, cq := 1, lease := 1, baseVa := 0x10000, wordVa := 0x8000, statusVa := 0x8040, log2 := 4
    wordLine := 0x200, fetched := 0, tailSeen := 1, lastPresented := 1, state := .active, cause := 0, discarded := 0
    inFlightWritten := 0, statusDue := false, fetchWait := .idle, resp := [], mode := .normal, recAsid := 0, recVa := 0, recLog2 := 0
    stepRecords := 0, runOne := none, runGrant := false, stepEnter := none, dereg := none }

def cq1 : Cq :=
  { tenant := 5, asid := 1, baseVa := 0x20000, wordVa := 0x9000, statusVa := 0x9040, log2 := 4, wordLine := 0x240, msix := 0xFFFF
    irqAll := false, written := 2, headSeen := 1 }

/-- An extent of tenant 5. -/
def extent5 : Extent :=
  { state := .owned, owner := 5, shares := [], protect := false, hold := .none, mirror := none, scrub := false, drainUs := 0
    revokers := [], written := false }

/-- A package that is READY, with ring 1, the first GiB of HBM mapped in ASID 1 at VA 0, and core 0 held by tenant 5. -/
def base : State :=
  { State.reset with
    fe := { State.reset.fe with rings := [(1, ring1)], cqs := [(1, cq1)], leases := [(1, 0)] }
    tr := { State.reset.tr with
      asids := [(0, { tenant := 0, hostWin := 0, devWin := 0, winSize := 0 }), (1, { tenant := 5, hostWin := 0, devWin := 0, winSize := 0 })]
      maps := [{ asid := 1, va := 0, page := 2, package := none, address := 0, readOnly := false, kind := .host }] }
    ext := [(0, extent5), (1, .freed .freeClean)]
    coh := { State.reset.coh with
      watches := [(0x200, { watcher := .tail 1, last := 1, timer := false }), (0x240, { watcher := .head 1, last := 1, timer := false })] }
    grid := { State.reset.grid with cores := [(0, { State.reset.core 0 with holder := some 5, tenant := 5 })] }
    sec := { State.reset.sec with slotA := .empty }
    pwr := { State.reset.pwr with device := .ready, served := true, mgmtUp := true, supply := .good, input := true, refclk := true } }

/-- An address in the scratchpad of core 0, through the alias (07 R179). -/
def al (off : Nat) : Nat := (2 ^ 18 - 1) * 2 ^ 39 + off

/-- A command of tenant 5 in ring 1 and ASID 1, with some fields of its descriptor. -/
def cmd (op : Nat) (fields : List (Nat × Nat)) : Slot :=
  Slot.fetch 1 0 5 0 (BitVec.ofNat 512 ((fields.map fun (lo, v) => v * 2 ^ lo).sum + op + 2 ^ 16)) .fetched .ok

/-- The package with a command in slot 3. -/
def withCmd (op : Nat) (fields : List (Nat × Nat)) : State := base.setSlot 3 (cmd op fields)

/-- A command that has begun. -/
def begunCmd (op : Nat) (fields : List (Nat × Nat)) (cursor : Nat) (marks : List Nat) : Slot :=
  { cmd op fields with stage := .running, cursor, marks }

/-- The failure of an action. -/
def failVal {α : Type} (r : Except Stop α × State) : Option Status :=
  match r.1 with
  | .error (.fail st) => some st
  | _ => none

theorem failed {α : Type} {r : Except Stop α × State} {st : Status} (h : failVal r = some st) : r = (.error (.fail st), r.2) := by
  unfold failVal at h
  obtain ⟨x, t⟩ := r
  cases x with
  | ok b => simp at h
  | error b => cases b <;> simp_all

theorem opt_all {α : Type} {o : Option α} {p : α → Prop} [DecidablePred p] (h : o.all (fun z => decide (p z)) = true) :
    ∀ z, o = some z → p z := by
  intro z e
  subst e
  simpa using h

theorem not_scratch {a : Area} (h : a = .hbm) : ∀ n, a ≠ .scratch n := by simp [h]

/-- A management write that is answered OK. -/
theorem answered {p : MStatus × State} (h : p.1 = .ok) : p = (.ok, p.2) := by rw [← h]

/-! ### The hypotheses of the obligations are met

Each `test_witness_<Name>` applies the clauses of an obligation to concrete states and operands that meet all its hypotheses. -/

theorem test_witness_StepRunsFrontCommand : Obligations.StepRunsFrontCommand →
    step { base with pending := [.katPeriod, .heartbeatSend] } = exec .katPeriod { base with pending := [.heartbeatSend] } :=
  fun h => h .katPeriod [.heartbeatSend] { base with pending := [.katPeriod, .heartbeatSend] } rfl

theorem test_witness_EveryStepKeepsStoreForm : Obligations.EveryStepKeepsStoreForm →
    ∃ t, step State.reset = .next t ∧ t.storeOk :=
  fun h => ⟨_, rfl, h State.reset _ (by unfold State.storeOk; decide) rfl⟩

def vec1 : State := { base with fe := { base.fe with vectors := [(0, { holdoff := true, pending := true, sent := 0 })] } }

theorem test_witness_RingWordsTimersAndBootRing : Obligations.RingWordsTimersAndBootRing →
    (Goes (.tailPresented 1 16) base ∧ Goes (.tailPresented 1 0) base ∧ Goes (.headPresented 1 2) base ∧
      Goes (.headPresented 1 0) base ∧ Goes (.headPresented 1 3) base) ∧
    Goes (.irqHoldoffExpiry 0) vec1 ∧ Goes (.inFlightRefresh 1) (withCmd 0 []) ∧ Goes (.leaseLapse 1) base ∧
    Goes (.commandTimeout 3) (withCmd 0x10 [(64, 1)]) ∧ Goes (.bootRing (BitVec.ofNat 64 (2 ^ 30))) base :=
  fun h =>
    ⟨⟨goes_of ((h.1 base).1 1 16 ring1 (by decide +kernel) (by decide) (by decide) (by decide +kernel) (by decide +kernel)
        (by decide +kernel) (by decide +kernel) (by decide +kernel)),
      goes_of ((h.1 base).2.1 1 0 ring1 (by decide +kernel) (by decide) (by decide) (by decide +kernel) (by decide +kernel)
        (by decide +kernel) (by decide +kernel)),
      goes ((h.1 base).2.2.1 1 2 cq1 (by decide +kernel) (by decide +kernel) (by decide +kernel) (by decide +kernel)),
      goes_of ((h.1 base).2.2.2 1 0 cq1 (by decide +kernel) (by decide +kernel) (by decide +kernel)),
      goes_of ((h.1 base).2.2.2 1 3 cq1 (by decide +kernel) (by decide +kernel) (by decide +kernel))⟩,
    goes ((h.2 vec1).1 0 _ rfl),
    goes ((h.2 (withCmd 0 [])).2.1 1 ring1 _ _ (by decide +kernel) (by decide +kernel) (went (by decide +kernel))),
    goes ((h.2 base).2.2.1 1 1 ring1 _ _ (by decide +kernel) (by decide +kernel) (by decide +kernel) (by decide +kernel)
      (by decide +kernel) (went (by decide +kernel))),
    goes ((h.2 (withCmd 0x10 [(64, 1)])).2.2.2.1 3 _ rfl (by decide +kernel) (by decide +kernel) (by decide +kernel)
      (by decide +kernel) (by decide +kernel) (by decide +kernel)),
    goes ((h.2 base).2.2.2.2 _ (.freed .freeClean) (by decide +kernel) (by decide +kernel) (by decide +kernel)
      (by decide +kernel) (by decide +kernel)
      (by decide +kernel) (by decide +kernel) (by decide +kernel) (by decide +kernel) (by decide +kernel) (by decide +kernel))⟩

/-- A NOP stands in ring 1. -/
def nopRing : State := { base with mem := [(0x10002, 1)] }

/-- A command that has finished. -/
def withDone : State := base.setSlot 3 { cmd 0 [] with stage := .finished }

theorem test_witness_DescriptorsAreFetchedAndRecordsWritten : Obligations.DescriptorsAreFetchedAndRecordsWritten →
    Goes .descriptorFetch nopRing ∧ Goes .descriptorFetch base ∧ Goes (.completionWrite 3) withDone ∧
    (base.takeDescriptor 1 ring1 (cmd 0 [])).slot? 0 = some (cmd 0 []) :=
  fun h =>
    ⟨goes ((h nopRing).1 1 ring1 _ _ (BitVec.ofNat 512 0x10000) (by decide +kernel) (by decide) (went (by decide +kernel))
      (by decide +kernel)),
      goes ((h base).2.1 1 ring1 _ _ .notPermitted (by decide +kernel) (by decide) (went (by decide +kernel))
        (by decide +kernel)),
      goes ((h withDone).2.2.1 3 { cmd 0 [] with stage := .finished } ring1 cq1 _ _ (by decide +kernel) (by decide +kernel)
        (by decide +kernel) (by decide +kernel) (by decide +kernel) (by decide +kernel) (by decide +kernel) (by decide +kernel)
        (by decide +kernel) (went (by decide +kernel))),
      (h base).2.2.2 1 0 ring1 (cmd 0 []) (by decide +kernel) (by decide +kernel)⟩

def stepRing (tail : Nat) : Ring := { ring1 with state := .step, mode := .step, tailSeen := tail }

/-- Ring 2 is in STEP. -/
def withStep (tail : Nat) (op : Nat) (fields : List (Nat × Nat)) : State :=
  (withCmd op fields).setRing 2 (stepRing tail)

def withRing2 (op : Nat) (fields : List (Nat × Nat)) : State := (withCmd op fields).setRing 2 ring1

theorem test_witness_ControlAndStepCommandsComplete : Obligations.ControlAndStepCommandsComplete →
    (Goes (.nop 3) (withCmd 0 []) ∧ Goes (.fence 3) (withCmd 1 []) ∧ Goes (.leaseRenew 3) (withCmd 5 []) ∧
      Goes (.leaseRenew 3) (withCmd 5 [(128, 1)]) ∧ Goes (.leaseResume 3) (withCmd 6 [(128, 4), (224, 1)])) ∧
    Goes (.summary 3) (withCmd 2 [(128, al 0x100), (192, 2 ^ 64 - 1)]) ∧ Goes (.summary 3) (withCmd 2 [(128, al 0x100)]) ∧
    (Goes (.runOne 3) (withStep 0 3 [(128, 2)]) ∧ Goes (.runOne 3) (withStep 1 3 [(128, 2)]) ∧
      Goes (.enterStep 3) (withRing2 3 [(128, 2), (142, 1), (192, al 0x100), (256, 12)]) ∧
      Goes (.enterSerial 3) (withCmd 3 [(128, 1), (142, 2)]) ∧ Goes (.exitStep 3) (withStep 0 3 [(128, 2), (142, 3)])) :=
  fun h =>
    ⟨⟨goes ((h.1 _ 3 (cmd 0 [])).1 (ready_of (by decide +kernel))), goes ((h.1 _ 3 (cmd 1 [])).2.1
      (ready_of (by decide +kernel))),
      goes ((h.1 _ 3 (cmd 5 [])).2.2.1 (ready_of (by decide +kernel)) (by decide +kernel)), goes ((h.1 _ 3 (cmd 5 [(128,
        1)])).2.2.2.1 ring1 (ready_of (by decide +kernel)) (by decide +kernel) (by decide +kernel)),
      goes ((h.1 _ 3 (cmd 6 [(128, 4), (224, 1)])).2.2.2.2 (ready_of (by decide +kernel)) (by decide +kernel)
        (by decide +kernel))⟩,
    goes ((h.2.1 _ 3 (cmd 2 [(128, al 0x100), (192, 2 ^ 64 - 1)]) _ _ _ _ _ (ready_of (by decide +kernel)) (by decide +kernel)
      (parts3 _)).1 (by decide +kernel) (went (by decide +kernel))),
    goes ((h.2.1 _ 3 (cmd 2 [(128, al 0x100)]) _ _ _ _ _ (ready_of (by decide +kernel)) (by decide +kernel) (parts3 _)).2
      (by decide +kernel) (went (by decide +kernel))),
    ⟨goes ((h.2.2 _ 3 (cmd 3 [(128, 2)]) (stepRing 0) (ready_of (by decide +kernel)) (by decide +kernel)).1 (by decide +kernel)
      (by decide +kernel) (by decide +kernel) (by decide +kernel) (by decide +kernel)),
      goes ((h.2.2 _ 3 (cmd 3 [(128, 2)]) (stepRing 1) (ready_of (by decide +kernel)) (by decide +kernel)).2.1
        (by decide +kernel) (by decide +kernel) (by decide +kernel) (by decide +kernel) (by decide +kernel)),
      goes_of ((h.2.2 _ 3 (cmd 3 [(128, 2), (142, 1), (192, al 0x100), (256, 12)]) ring1 (ready_of (by decide +kernel))
        (by decide +kernel)).2.2.1 (by decide +kernel) (by decide +kernel) (by decide +kernel) (by decide +kernel)
        (by decide +kernel) (by decide +kernel) (all_of (by decide +kernel))),
      goes ((h.2.2 _ 3 (cmd 3 [(128, 1), (142, 2)]) ring1 (ready_of (by decide +kernel)) (by decide +kernel)).2.2.2.1
        (by decide +kernel) (by decide +kernel)),
      goes ((h.2.2 _ 3 (cmd 3 [(128, 2), (142, 3)]) (stepRing 0) (ready_of (by decide +kernel)) (by decide +kernel)).2.2.2.2
        (by decide +kernel) (by decide +kernel))⟩⟩

def regRing : List (Nat × Nat) :=
  [(132, 2), (148, 5), (160, 1), (176, 1), (192, 4), (224, 1), (256, al 0), (320, 0x8080), (384, al 0x2000)]

def regCq : List (Nat × Nat) :=
  [(128, 2), (132, 2), (148, 5), (160, 1), (192, 4), (208, 0xFFFF), (256, 0x200000), (320, 0x8080), (384, al 0x2000)]

def drainRing : Ring := { ring1 with state := .draining, dereg := some (cmd 6 []).seq }

def withDrain : State := (withCmd 6 [(128, 1), (132, 2), (148, 5)]).setRing 2 drainRing

/-- A second completion ring, which no ring uses. -/
def withCq2 : State := (withCmd 6 [(128, 3), (132, 2), (148, 5)]).setCq 2 cq1

theorem test_witness_RingsAreRegisteredAndDeregistered : Obligations.RingsAreRegisteredAndDeregistered →
    Goes (.commandRingRegister 3) (withCmd 6 regRing) ∧ Goes (.commandRingDeregister 3) (withRing2 6 [(128, 1), (132, 2), (148,
      5)]) ∧
    Goes (.completionRingRegister 3) (withCmd 6 regCq) ∧ Goes (.completionRingDeregister 3) withCq2 ∧
    Goes (.deregisterDrainDone 2) withDrain :=
  fun h =>
    ⟨goes ((h _ 3 (cmd 6 regRing)).1 _ _ (ready_of (by decide +kernel)) (by decide +kernel) (by decide +kernel)
      (by decide +kernel) (went (by decide +kernel))),
      goes ((h _ 3 (cmd 6 [(128, 1), (132, 2), (148, 5)])).2.1 ring1 (ready_of (by decide +kernel)) (by decide +kernel)
        (by decide +kernel) (by decide +kernel) (by decide +kernel) (by decide +kernel) (by decide +kernel) (by decide +kernel)),
      goes ((h _ 3 (cmd 6 regCq)).2.2.1 _ _ _ _ (ready_of (by decide +kernel)) (by decide +kernel) (by decide +kernel)
        (went (by decide +kernel)) (went (by decide +kernel))),
      goes ((h _ 3 (cmd 6 [(128, 3), (132, 2), (148, 5)])).2.2.2.1 cq1 (ready_of (by decide +kernel)) (by decide +kernel)
        (by decide +kernel) (by decide +kernel) (by decide +kernel)),
      goes ((h withDrain 3 (cmd 6 [])).2.2.2.2 2 drainRing _ 3 (cmd 6 [(128, 1), (132, 2), (148, 5)]) (by decide +kernel)
        (by decide +kernel) (by decide +kernel) rfl (by decide +kernel))⟩

def set1 : RingSet := { set := [], tag := none, since := 0, running := true }

def withSet : State :=
  { withCmd 4 [(128, 1), (144, 1), (192, al 0x100)] with cnt := { base.cnt with ringSets := [(1, set1)] } }

def page1 : CounterPage := { tenant := 5, va := 2 ^ 30, address := counterPageAt 1, refreshes := 0 }

def withPage : State := { withCmd 4 [(128, 4), (192, 2 ^ 30)] with cnt := { base.cnt with pages := [(1, page1)] } }

/-- A tile of zeros at VA 0x40000, and the block table entries at 0x48000 and 0x48020 in states 2 and 0. -/
def withTile (op : Nat) (fields : List (Nat × Nat)) : State :=
  ((withCmd op fields).poke 0x40000 (headerFor 0x1A5C3 1 false 0 [])).poke 0x48018 [2]

def tileFields : List (Nat × Nat) := [(128, 0x40000), (192, 0x50000), (256, 1)]

theorem test_witness_CounterSetsAndTileCommandsComplete : Obligations.CounterSetsAndTileCommandsComplete →
    (Goes (.sampleTenantSet 3) (withCmd 4 [(132, 5), (192, al 0x100)]) ∧ Goes (.sampleRingSet 3) withSet ∧
      Goes (.clearTenantSet 3) (withCmd 4 [(128, 2), (132, 5)]) ∧ Goes (.mapCounterPage 3) (withCmd 4 [(128, 3), (192, 2 ^ 30)]) ∧
      Goes (.unmapCounterPage 3) withPage ∧ Goes .counterPageRefresh withPage ∧ Goes (.counterClear 4095) base) ∧
    Goes (.tileMove 3) (withTile 0x20 tileFields) ∧ Goes (.kvSpill 3) (withTile 0x23 [(128, 0x48000), (224, 1)]) ∧
    Goes (.kvFetch 3) (withTile 0x24 [(128, 0x48000), (192, 1), (224, 1)]) ∧
    ∃ t, (landOnce ((cmd 0 []).tileWho 3) 3 7 1 false 0 (pure ())).go (withCmd 0 []) = (.ok (), t) := by
  intro h
  and_intros
  · exact goes ((h.1 _ 3 (cmd 4 [(132, 5), (192, al 0x100)])).1 _ _ (ready_of (by decide +kernel)) (by decide +kernel)
      (by decide +kernel) (went (by decide +kernel)))
  · exact goes ((h.1 withSet 3 (cmd 4 [(128, 1), (144, 1), (192, al 0x100)])).2.1 _ _ ring1 set1 (ready_of (by decide +kernel))
      (by decide +kernel) (by decide +kernel) (by decide +kernel) (by decide +kernel) (went (by decide +kernel)))
  · exact goes ((h.1 _ 3 (cmd 4 [(128, 2), (132, 5)])).2.2.1 (ready_of (by decide +kernel)) (by decide +kernel))
  · exact goes ((h.1 _ 3 (cmd 4 [(128, 3), (192, 2 ^ 30)])).2.2.2.1 _ rfl (ready_of (by decide +kernel)) (by decide +kernel)
      (by decide +kernel) (by decide +kernel) (by decide +kernel) (by decide +kernel))
  · exact goes_of ((h.1 withPage 3 (cmd 4 [(128, 4), (192, 2 ^ 30)])).2.2.2.2.1 page1 (ready_of (by decide +kernel))
      (by decide +kernel) (by decide +kernel) (by decide +kernel))
  · exact goes ((h.1 withPage 3 (cmd 4 [])).2.2.2.2.2.1 1 page1 (by decide +kernel)).1
  · exact goes ((h.1 base 3 (cmd 4 [])).2.2.2.2.2.2 4095 (by decide +kernel) (by decide +kernel) (by decide +kernel)
      (by decide +kernel)).1
  · exact goes ((h.2 _ 3 (cmd 0x20 tileFields) _ _ _).1 (ready_of (by decide +kernel)) (by decide +kernel) (by decide +kernel)
      (by decide +kernel) (by decide +kernel) (by decide +kernel) (by decide +kernel) (went (by decide +kernel))
      (held (by decide +kernel)))
  · exact goes ((h.2 _ 3 (cmd 0x23 [(128, 0x48000), (224, 1)]) _ _ _).2.1 (ready_of (by decide +kernel)) (by decide +kernel)
      (by decide +kernel) (by decide +kernel) (went (by decide +kernel)) (held (by decide +kernel)))
  · exact goes ((h.2 _ 3 (cmd 0x24 [(128, 0x48000), (192, 1), (224, 1)]) _ _ _).2.2.1 (ready_of (by decide +kernel))
      (by decide +kernel) (by decide +kernel) (by decide +kernel) (went (by decide +kernel)) (held (by decide +kernel)))
  · exact ⟨_, ((h.2 (withCmd 0 []) 3 (cmd 0 []) (cmd 0 []) base ()).2.2.2 7 1 0 false (pure ()) _ (by decide +kernel)
      (by decide +kernel) rfl).trans rfl⟩

/-- A model of one layer of no tiles, with two slots: its descriptor, with the layer table at 0x60000 and CTRL at 0x61000. -/
def modelDesc : Nat := 2 ^ 32 + 2 * 2 ^ 56 + 0x60000 * 2 ^ 64 + 2 * 2 ^ 224 + 0x61000 * 2 ^ 416

def model1 : Model :=
  { asid := 1, mdVa := 0x62000, tenant := 5, seq := 0, desc := BitVec.ofNat 512 modelDesc, layers := [(0, 0)], schedule := []
    nextSchedule := none, inFlight := [], issued := 0, landed := [], reload := [], ready := 0, stopped := false, loadSeq := none
    first := [], unload := false, resp := [] }

def withModel (m : Model) (fields : List (Nat × Nat)) (op : Nat) : State :=
  { withCmd op fields with models := [(0, m)] }

def stopped1 : Model := { model1 with stopped := true }
def scheduled1 : Model :=
  { model1 with schedule := [0], desc := BitVec.ofNat 512 (modelDesc + 2 ^ 48 - 2 ^ 224 + 0x63000 * 2 ^ 256) }
def flying1 : Model := { model1 with inFlight := [0], issued := 1 }

theorem test_witness_ModelsStreamTheirLayers : Obligations.ModelsStreamTheirLayers →
    Goes (.modelLoad 3) ((withCmd 0x21 [(128, 0x62000)]).poke 0x62000 (leBytes 64 modelDesc)) ∧
    Goes (.modelUnload 3) (withModel stopped1 [(128, 0x62000), (192, 1)] 0x21) ∧
    Goes (.modelSchedule 3) ((withModel scheduled1 [(128, 0x62000)] 0x22).poke 0x63004 [0xFF, 0xFF]) ∧
    Goes (.layerFetchStart 0 0) (withModel model1 [] 0) ∧ Goes (.layerLanded 0 0) (withModel flying1 [] 0) := by
  intro h
  and_intros
  · exact goes ((h _ 3 (cmd 0x21 [(128, 0x62000)])).1 _ 0 _ _ _ _ _ (ready_of (by decide +kernel)) (by decide +kernel)
      (by decide +kernel) (went (by decide +kernel)) (by decide +kernel) (by decide +kernel) (by decide +kernel)
      (by decide +kernel) (by decide +kernel) (by decide +kernel) (by decide +kernel) (by decide +kernel)
      (went (by decide +kernel)) (by decide +kernel) (went (by decide +kernel)) (by decide +kernel))
  · exact goes ((h _ 3 (cmd 0x21 [(128, 0x62000), (192, 1)])).2.1 0 stopped1 (ready_of (by decide +kernel)) (by decide +kernel)
      (by decide +kernel) (by decide +kernel) (by decide +kernel))
  · exact goes ((h _ 3 (cmd 0x22 [(128, 0x62000)])).2.2.1 0 scheduled1 _ _ (ready_of (by decide +kernel)) (by decide +kernel)
      (by decide +kernel) (by decide +kernel) (by decide +kernel) (by decide +kernel) (went (by decide +kernel))
      (by decide +kernel))
  · exact goes ((h _ 3 (cmd 0 [])).2.2.2.1 0 0 _ model1 _ (by decide +kernel) (by decide +kernel) (by decide +kernel)
      (went (by decide +kernel)) (by decide +kernel) (by decide +kernel))
  · exact goes ((h _ 3 (cmd 0 [])).2.2.2.2 0 0 0 flying1 _ _ _ () (by decide +kernel) (by decide +kernel) (by decide +kernel)
      (by decide +kernel) (by decide +kernel) (by decide +kernel) (wentV (by decide +kernel)) (wentV (by decide +kernel))
      (by decide +kernel) (wentV (by decide +kernel)))

def block (erases reads used stream : Nat) (valid : List Nat) : Block :=
  { erases, reads, used, valid, stream, relocate := false, retired := false }

/-- A stack with page 7 in block 0, block 1 erased and worn, and page 9 in the write buffer. -/
def stack1 (free reads : Nat) : Stack :=
  { Stack.fresh with
    free, blocks := [(0, block 0 reads 1 0 [7]), (1, block 100000 0 0 3 []), (2, block 0 0 4 0 [])], map := [(7, 0)]
    buffer := [(9, (16384, 1))] }

def withStack (x : Stack) : State := { base with flash := { base.flash with flashStacks := [(0, x)] } }

def decoder1 : Decoder :=
  { base := 0, size := 2 ^ 40, ways := 1, granule := 256, ports := [0], up := true }

def withDecoder : State := { base with flash := { base.flash with decoders := [(0, decoder1)] } }

def write1 : FtlWrite := { stack := 0, page := 5, bytes := 64, stream := 0, stalledUs := 3 }

theorem test_witness_FlashStacksAndExpanders : Obligations.FlashStacksAndExpanders →
    Goes (.ftlWriteAccept write1) (withStack (stack1 131072 0)) ∧ Goes (.ftlBufferFlush 0 9 3) (withStack (stack1 131072 0)) ∧
    Goes (.gcRelocation 0 0 1) (withStack (stack1 1 0)) ∧ Goes (.wearLevelMove 0 0 1) (withStack (stack1 131072 0)) ∧
    Goes (.readDisturbScan 0 0 4) (withStack (stack1 131072 1048576)) ∧ Goes (.patrolScan 0 0 1000) (withStack (stack1 1 0)) ∧
    Goes (.ftlReadDone 0 7 0 .corrected) (withStack (stack1 1 0)) ∧ Goes (.ftlReadDone 0 7 0 .retried) (withStack (stack1 1 0)) ∧
    Goes (.ftlReadDone 0 7 0 .lost) (withStack (stack1 1 0)) ∧ Goes (.blockRetire 0 2) (withStack (stack1 1 0)) ∧
    Goes (.expanderFailure 0) withDecoder := by
  intro h
  and_intros
  · exact goes ((h.1 _ 0 (stack1 131072 0) (by decide +kernel)).1 write1 (by decide +kernel) (by decide +kernel)
      (by decide +kernel))
  · exact goes ((h.1 _ 0 (stack1 131072 0) (by decide +kernel)).2.1 9 3 16384 1 (by decide +kernel) (by decide +kernel))
  · exact goes ((h.1 _ 0 (stack1 1 0) (by decide +kernel)).2.2.1 0 1 (by decide +kernel) (by decide +kernel) (by decide +kernel)
      (by decide +kernel) (by decide +kernel))
  · exact goes ((h.1 _ 0 (stack1 131072 0) (by decide +kernel)).2.2.2.1 0 1 (by decide +kernel) (by decide +kernel)
      (all_of (by decide +kernel)) (by decide +kernel) (by decide +kernel) (by decide +kernel))
  · exact goes ((h.1 _ 0 (stack1 131072 1048576) (by decide +kernel)).2.2.2.2.1 0 4 (by decide +kernel) (by decide +kernel))
  · exact goes ((h.1 _ 0 (stack1 1 0) (by decide +kernel)).2.2.2.2.2.1 0 1000 (by decide +kernel) (by decide +kernel)
      (by decide +kernel))
  · exact goes ((h.1 _ 0 (stack1 1 0) (by decide +kernel)).2.2.2.2.2.2.1 7 0 (by decide +kernel)).1
  · exact goes ((h.1 _ 0 (stack1 1 0) (by decide +kernel)).2.2.2.2.2.2.1 7 0 (by decide +kernel)).2.1
  · exact goes_of ((h.1 _ 0 (stack1 1 0) (by decide +kernel)).2.2.2.2.2.2.1 7 0 (by decide +kernel)).2.2
  · exact goes ((h.1 _ 0 (stack1 1 0) (by decide +kernel)).2.2.2.2.2.2.2 2 (by decide +kernel) (by decide +kernel)
      (by decide +kernel) (by decide +kernel) (by decide +kernel) (by decide +kernel))
  · exact goes_of (h.2 withDecoder 0 decoder1 (by decide +kernel) (by decide +kernel))

def asid1 : Asid := { tenant := 5, hostWin := 0, devWin := 0, winSize := 0 }

/-- Fields of an ALLOC of one GiB of HBM at VA 2^30 of ASID 1, without fallback. -/
def allocFields : List (Nat × Nat) := [(132, 2), (139, 1), (144, 1), (192, 2 ^ 30), (320, 2 ^ 14)]
def bindFields : List (Nat × Nat) := [(128, 1), (132, 2), (144, 1), (192, 2 ^ 30), (320, 2 ^ 14)]
def unmapFields : List (Nat × Nat) := [(128, 2), (144, 1), (320, 2 ^ 14)]

/-- Extent 2 of tenant 5, in a state of its revocation. -/
def going (state : ExtState) (scrub : Bool) : Extent := { extent5 with state, scrub }

def withGoing (state : ExtState) (scrub : Bool) : State := base.setExtent 2 (going state scrub)

/-- A line of extent 2 is still cached. -/
def withLine : State :=
  { withGoing .draining true with coh := { base.coh with dir := [(2 * 2 ^ 24, .shared [0])] } }

theorem test_witness_ExtentsAreMappedAndRevoked : Obligations.ExtentsAreMappedAndRevoked →
    Goes (.alloc 3 [1]) (withCmd 0x30 allocFields) ∧
    Goes (.alloc 3 [1]) { withCmd 0x30 allocFields with ext := [(0, extent5)] } ∧
    Goes (.bind 3) (withCmd 0x30 bindFields) ∧ Goes (.unmap 3) (withCmd 0x30 unmapFields) ∧
    Goes (.extentRevoke 3) (withCmd 0x31 []) ∧ Goes (.drainEnd 2) (withGoing .draining true) ∧
    Goes (.drainEnd 2) (withGoing .draining false) ∧ Goes (.drainLimit 2) withLine ∧
    Goes (.scrubDone 2) (withGoing .scrubbing true) := by
  intro h
  and_intros
  · exact goes ((h.1 _ 3 (cmd 0x30 allocFields) asid1 (ready_of (by decide +kernel)) (by decide +kernel) (by decide +kernel)).1
      [1] _ _ (by decide +kernel) (by decide +kernel) (by decide +kernel) (by decide +kernel) (gave2 (by decide +kernel)))
  · exact goes ((h.1 _ 3 (cmd 0x30 allocFields) asid1 (ready_of (by decide +kernel)) (by decide +kernel) (by decide +kernel)).2.1
      [1] (by decide +kernel) (by decide +kernel) (by decide +kernel) (by decide +kernel) (by decide +kernel) (by decide +kernel))
  · exact goes ((h.1 _ 3 (cmd 0x30 bindFields) asid1 (ready_of (by decide +kernel)) (by decide +kernel) (by decide +kernel)).2.2
      0 _ (by decide +kernel) (by decide +kernel) (by decide +kernel) (by decide +kernel) (gave (by decide +kernel)))
  · exact goes_of (h.2.1 _ 3 (cmd 0x30 unmapFields) asid1 (ready_of (by decide +kernel)) (by decide +kernel) (by decide +kernel)
      (by decide +kernel) (by decide +kernel))
  · exact goes ((h.2.2 _ 0 extent5).1 3 (cmd 0x31 []) (ready_of (by decide +kernel)) (by decide +kernel) (by decide +kernel)
      (by decide +kernel) (by decide +kernel) (by decide +kernel) (by decide +kernel) (by decide +kernel))
  · exact goes ((h.2.2 _ 2 (going .draining true)).2.1 (by decide +kernel) (by decide +kernel) (by decide +kernel)
      (by decide +kernel) (by decide +kernel))
  · exact goes ((h.2.2 _ 2 (going .draining false)).2.2.1 (by decide +kernel) (by decide +kernel) (by decide +kernel)
      (by decide +kernel) (by decide +kernel))
  · exact goes_of ((h.2.2 _ 2 (going .draining true)).2.2.2.1 (by decide +kernel) (by decide +kernel) (by decide +kernel)
      (by decide +kernel) (by decide +kernel))
  · exact goes ((h.2.2 _ 2 (going .scrubbing true)).2.2.2.2 (by decide +kernel) (by decide +kernel) (by decide +kernel)
      (by decide +kernel))

def withAsid7 (op : Nat) (fields : List (Nat × Nat)) : State :=
  { withCmd op fields with tr := { base.tr with asids := SMap.put base.tr.asids 7 asid1 } }

def window1 : Asid := { asid1 with winSize := 1 }

def withWindow : State :=
  { withCmd 0x34 [(128, al 0x100), (192, 1)] with tr := { base.tr with asids := SMap.put base.tr.asids 1 window1 } }

def batch1 : Batch := { number := 65535, records := [], written := true, resolved := false }
def waiting1 : Batch := { batch1 with written := false }

def withBatch (b : Batch) : State :=
  { withCmd 0x32 [(128, 65535)] with tr := { base.tr with batches := [b] } }

def fault1 : PendingFault :=
  { unit := 0, asid := 1, va := 2 ^ 40, cause := 0, write := false, reqCount := 1, tenant := 5, reqClass := 5, reqIndex := 0
    cmdSeq := 0, time := 0, batch := none, waiters := [] }

/-- One fault is pending, a batch holds one record, and the fault ring lies in ASID 1. -/
def withFault : State :=
  ((((({ base with tr := { base.tr with faults := [fault1] } } : State).setVal (dkey 0x4010 0) 1).setVal (dkey 0x4011 0)
    0x70000).setVal
    (dkey 0x4011 1) 0x60000).setVal (dkey 0x4011 2) 1)

theorem test_witness_TranslationCommandsComplete : Obligations.TranslationCommandsComplete →
    Goes (.asidCreate 3) (withCmd 0x35 [(128, 7), (144, 5)]) ∧ Goes (.asidSetWindow 3) (withCmd 0x35 [(128, 1), (144, 5), (156,
      1)]) ∧
    Goes (.asidDestroy 3) (withAsid7 0x35 [(128, 7), (144, 5), (156, 2)]) ∧ Goes (.convertPointers 3) withWindow ∧
    Goes (.resolveFaults 3) (withBatch batch1) ∧ Goes (.invalidateAsid 3) (withCmd 0x33 [(128, 1)]) ∧
    Goes .faultBatchClose withFault ∧ Goes .faultBatchRetry (withBatch waiting1) ∧
    Goes (.faultRingVa 0 (BitVec.ofNat 64 (2 ^ 57 - 2 ^ 16))) base := by
  intro h
  and_intros
  · exact goes ((h _ 3 (cmd 0x35 [(128, 7), (144, 5)])).1 (ready_of (by decide +kernel)) (by decide +kernel) (by decide +kernel)
      (by decide +kernel))
  · exact goes ((h _ 3 (cmd 0x35 [(128, 1), (144, 5), (156, 1)])).2.1 asid1 (ready_of (by decide +kernel)) (by decide +kernel)
      (by decide +kernel) (by decide +kernel) (by decide +kernel))
  · exact goes ((h _ 3 (cmd 0x35 [(128, 7), (144, 5), (156, 2)])).2.2.1 asid1 (ready_of (by decide +kernel)) (by decide +kernel)
      (by decide +kernel) (by decide +kernel) (by decide +kernel))
  · exact goes ((h withWindow 3 (cmd 0x34 [(128, al 0x100), (192, 1)])).2.2.2.1 window1 _ _ () (ready_of (by decide +kernel))
      (by decide +kernel) (by decide +kernel) (by decide +kernel) (by decide +kernel) (by decide +kernel)
      (wentV (by decide +kernel)) (held (by decide +kernel)))
  · exact goes ((h (withBatch batch1) 3 (cmd 0x32 [(128, 65535)])).2.2.2.2.1 batch1 (ready_of (by decide +kernel))
      (by decide +kernel) (by decide +kernel))
  · exact goes_of ((h _ 3 (cmd 0x33 [(128, 1)])).2.2.2.2.2.1 (ready_of (by decide +kernel)) (by decide +kernel)
      (by decide +kernel) (by decide +kernel))
  · exact goes ((h withFault 3 (cmd 0 [])).2.2.2.2.2.2.1 fault1 (by decide +kernel) (by decide +kernel) (by decide +kernel)
      (by decide +kernel))
  · exact goes ((h (withBatch waiting1) 3 (cmd 0 [])).2.2.2.2.2.2.2.1 waiting1 (by decide +kernel) (by decide +kernel))
  · exact goes ((h base 3 (cmd 0 [])).2.2.2.2.2.2.2.2 _ (by decide +kernel) (by decide +kernel) (by decide +kernel)
      (by decide +kernel) (by decide +kernel))

/-- Agent 3, with a window of 64 KiB at 0 onto VA 0 of ASID 1. -/
def agent3 : AgentRow :=
  { port := 1, index := 0, enable := true, tenant := 5, asid := 1, winBase := 0, winSize := 1, devBase := 0 }

def withAgent (dir : SMap DirEntry) (snoops : List Snoop) : State :=
  { base with coh := { base.coh with agents := [(3, agent3)], dir, snoops } }

/-- The line at VA 0xFFC0, the last of agent 3's window. -/
def lastLine : Nat := 0x3FF

def line64 : List Byte := (List.range 64).map (BitVec.ofNat 8)

theorem test_witness_AgentsReadReturnAndAreDropped : Obligations.AgentsReadReturnAndAreDropped →
    Goes (.agentReadShared 3 0xFFC0 0) (withAgent [] []) ∧ Goes (.agentReadOwnership 3 0xFFC0 0) (withAgent [] []) ∧
    Goes (.agentReadShared 3 0x10000 0) (withAgent [] []) ∧
    Goes (.agentWriteBack 3 lastLine line64) (withAgent [(lastLine, .exclusive 3)] []) ∧
    Goes (.agentWriteBack 3 lastLine line64) (withAgent [] []) ∧
    Goes (.snoopAnswer 3 lastLine (some line64) true)
      (withAgent [(lastLine, .exclusive 3)] [{ agent := 3, line := lastLine, kind := .data, recalled := false }]) ∧
    Goes (.snoopAnswer 3 lastLine none false)
      (withAgent [(lastLine, .shared [4])] [{ agent := 3, line := lastLine, kind := .invalidate, recalled := true }]) ∧
    Goes (.snoopTimeout 3) (withAgent [(lastLine, .shared [3, 4])] [{ agent := 3, line := 1, kind := .data, recalled := false }])
      := by
  intro h
  and_intros
  · exact goes (((h.1 (withAgent [] []) ((translate (agentWho 3 agent3) 1 0xFFC0 false).go (withAgent [] [])).2 3 0xFFC0 0 0xFFC0
      0xFFC0 0xFFC0 agent3 (by decide +kernel) (by decide +kernel) (by decide +kernel) (by decide +kernel)).1 (by decide +kernel)
        (by decide +kernel) (by decide +kernel) (by decide +kernel) (by decide +kernel) (by decide +kernel) (by decide +kernel)
        (by decide +kernel) (by decide +kernel)).1 (wentV (by decide +kernel)))
  · exact goes (((h.1 (withAgent [] []) ((translate (agentWho 3 agent3) 1 0xFFC0 true).go (withAgent [] [])).2 3 0xFFC0 0 0xFFC0
      0xFFC0 0xFFC0 agent3 (by decide +kernel) (by decide +kernel) (by decide +kernel) (by decide +kernel)).1 (by decide +kernel)
        (by decide +kernel) (by decide +kernel) (by decide +kernel) (by decide +kernel) (by decide +kernel) (by decide +kernel)
        (by decide +kernel) (by decide +kernel)).2 (wentV (by decide +kernel)) (by decide +kernel))
  · exact goes ((h.1 (withAgent [] []) base 3 0x10000 0 0 0 0 agent3 (by decide +kernel) (by decide +kernel) (by decide +kernel)
      (by decide +kernel)).2 (by decide +kernel)).1
  · exact goes ((h.2.1 _ 3 lastLine line64 (by decide +kernel) (by decide +kernel)).1 (by decide +kernel))
  · exact goes ((h.2.1 _ 3 lastLine line64 (by decide +kernel) (by decide +kernel)).2.1 (by decide +kernel))
  · exact goes ((h.2.1 _ 3 lastLine line64 (by decide +kernel) (by decide +kernel)).2.2.1 .data false true (by decide +kernel)
      (by decide +kernel))
  · exact goes ((h.2.1 _ 3 lastLine line64 (by decide +kernel) (by decide +kernel)).2.2.2 [4] true (by decide +kernel)
      (by decide +kernel) (by decide +kernel) (by decide +kernel))
  · exact goes_of (h.2.2 _ 3 agent3 (by decide +kernel) (by decide +kernel))

/-- An ADD of 1 to the 64-bit word at local address 0x10000. -/
def atomic1 : AtomicRequest := { tenant := 5, address := 0x10000, op := 0, size := 1, operand := 1, compare := 0 }

def dieOf (line : Nat) : Nat := sliceOf line

def albEntry : AlbEntry := { die := dieOf 0x400, line := 7, stamp := 0 }

/-- The atomic line buffer of the die of `atomic1` is full, and `atomic1` waits. -/
def withAlb : State :=
  { base with coh := { base.coh with alb := List.replicate 256 albEntry, albWaiting := [atomic1] } }

def withOneAlb : State := { base with coh := { base.coh with alb := [{ die := 2, line := 7, stamp := 0 }] } }

def withTimer : State :=
  { withAgent [(0x200, .exclusive 3)] [] with coh := { (withAgent [(0x200, .exclusive 3)] []).coh with
      watches := [(0x200, { watcher := .tail 1, last := 1, timer := true })] } }

theorem test_witness_HomesKeepAtomicsAndWatchedLines : Obligations.HomesKeepAtomicsAndWatchedLines →
    Goes (.agentTable 63 agent3) base ∧ Goes (.homeAtomic atomic1) base ∧ Goes (.albHoldExpiry 2 7) withOneAlb ∧
    Goes (.albEntryChoice (dieOf 0x400)) withAlb ∧ Goes (.watchRecallExpiry 0x200) withTimer := by
  intro h
  and_intros
  · exact goes ((h base).1 63 agent3 (managed_of (by decide +kernel)) (by decide +kernel) (by decide +kernel) (by decide +kernel)
      (by decide +kernel) (fun _ => ⟨asid1, (by decide +kernel), (by decide +kernel)⟩))
  · exact goes ((h base).2.1 atomic1 (by decide +kernel) (by decide +kernel) (by decide +kernel) (by decide +kernel)
      (by decide +kernel) (by decide +kernel) (by decide +kernel) (by decide +kernel))
  · exact goes ((h withOneAlb).2.2.1 2 7 (by decide +kernel) (by decide +kernel))
  · refine goes ((h withAlb).2.2.2.1 (dieOf 0x400) atomic1 albEntry ?_ ?_ ?_ (by decide +kernel))
    · simp [withAlb, sliceOf, lineOf, atomic1, dieOf]
    · simp [State.albFull, withAlb, albEntry, lineOf, atomic1, dieOf, sliceOf, -List.reduceReplicate]
    · simp [State.albOldest, withAlb, albEntry, -List.reduceReplicate]
  · exact goes ((h withTimer).2.2.2.2 0x200 3 _ rfl (by decide +kernel) (by decide +kernel) (by decide +kernel))

/-- A region of 64 KiB at 0x10000 whose version is the greatest that 64 bits hold less 1. -/
def region1 (current : Option Publish) : Region :=
  { pieces := [(0x10000, 0x10000)], length := 0x10000, tenant := 5, version := 6, current, waiting := [] }

def withRegion (current : Option Publish) (op : Nat) (fields : List (Nat × Nat)) : State :=
  { withCmd op fields with rlc := { base.rlc with regions := [(4095, region1 current)] } }

def publish1 : Publish :=
  { package := some 9, tag := 1, announced := 1, base := 6, granted := false, received := 0, staged := [] }

def pubSlot : Slot :=
  { begunCmd 0x41 [(128, 0x10000), (256, 6)] 1 [] with resp := [{ address := partMark, status := 0, data := [] }] }

def withStaging : State :=
  { withRegion (some publish1) 0 [] with rlc := { (withRegion (some publish1) 0 []).rlc with stagingOrder := [4095], stagingMib
    := 1 } }

/-- Package 2 of a composed rack, which holds the region. -/
def rack (current : Option Publish) : State :=
  { withRegion current 0 [] with fab := { base.fab with id := 2, composed := true } }

/-- A packet from package 9 to package 2. -/
def packet (type addr : Nat) (h : Head) (payload : List Byte) : Packet :=
  { port := 0, header := { h with type, dst := 2, src := 9, tenant := 5, tag := 1, addr }.bits, payload }

def head0 : Head := { type := 0, dst := 2 }

def granted1 : Publish := { publish1 with granted := true }
def full1 : Publish := { granted1 with received := 1, staged := [(0x401, line64, BitVec.allOnes 64)] }

def openPacket : Packet := packet 0x05 0x10000 head0 (leBytes 8 6 ++ leBytes 8 1)
def linePacket : Packet := packet 0x09 0x1FFC0 { head0 with ctr := 0x10000 } (line64 ++ leBytes 8 (2 ^ 64 - 1))
def endPacket : Packet := packet 0x0A 0x10000 head0 []

theorem test_witness_RegionsArePublishedAtTheirHome : Obligations.RegionsArePublishedAtTheirHome →
    Goes (.flush 3) (withCmd 0x40 [(192, 2 ^ 50)]) ∧ Goes (.publish 3) (withRegion none 0x41 [(128, 0x10000), (256, 6)]) ∧
    Goes (.publish 3) ((withRegion none 0 []).setSlot 3 pubSlot) ∧ Goes (.versionQuery 3) (withRegion none 0x42 [(128, 0x10000)])
      ∧
    Goes (.regionCreate 3) (withRegion none 0x43 [(128, 0x20000), (192, 2 ^ 16)]) ∧
    Goes (.regionDestroy 3) (withRegion none 0x43 [(128, 0x10000), (321, 1)]) ∧ Goes (.publishStagingGrant 4095) withStaging ∧
    (∃ id, SMap.look base.rlc.regions id = none) ∧ Goes (.pubOpen openPacket) (rack none) ∧
    Goes (.pubLine linePacket) (rack (some granted1)) ∧ Goes (.pubEnd endPacket) (rack (some full1)) := by
  intro h
  and_intros
  · exact goes ((h.1 _ 3 (cmd 0x40 [(192, 2 ^ 50)])).1 _ _ (ready_of (by decide +kernel)) (by decide +kernel) (by decide +kernel)
      (went (by decide +kernel)) (by decide +kernel) (by decide +kernel))
  · exact goes ((h.1 _ 3 (cmd 0x41 [(128, 0x10000), (256, 6)])).2.1 _ 0x10000 4095 _ (region1 none)
      (ready_of (by decide +kernel)) (by decide +kernel) (by decide +kernel) (went (by decide +kernel)) (by decide +kernel)
      (by decide +kernel))
  · exact goes ((h.1 _ 3 pubSlot).2.2.1 _ 0x10000 4095 _ (region1 none) { address := partMark, status := 0, data := [] }
      (begun_of (by decide +kernel)) (by decide +kernel) (by decide +kernel) (went (by decide +kernel))
      (by decide +kernel) (by decide +kernel) (by decide +kernel) (by decide +kernel))
  · exact goes ((h.1 _ 3 (cmd 0x42 [(128, 0x10000)])).2.2.2.1 _ 0x10000 4095 _ (region1 none) (ready_of (by decide +kernel))
      (by decide +kernel) (went (by decide +kernel)) (by decide +kernel) (by decide +kernel))
  · exact goes ((h.1 _ 3 (cmd 0x43 [(128, 0x20000), (192, 2 ^ 16)])).2.2.2.2.1 0x20000 0x20000 (2 ^ 16) _ _ _
      (ready_of (by decide +kernel)) (by decide +kernel) (by decide +kernel) (by decide +kernel) (by decide +kernel)
      (by decide +kernel) (wentV (by decide +kernel)) (by decide +kernel) (went (by decide +kernel)))
  · exact goes ((h.1 _ 3 (cmd 0x43 [(128, 0x10000), (321, 1)])).2.2.2.2.2.1 _ 0x10000 4095 _ (region1 none)
      (ready_of (by decide +kernel)) (by decide +kernel) (went (by decide +kernel)) (by decide +kernel) (by decide +kernel)
      (by decide +kernel))
  · exact goes ((h.1 withStaging 3 (cmd 0 [])).2.2.2.2.2.2 4095 (region1 (some publish1)) publish1 (by decide +kernel)
      (by decide +kernel) (by decide +kernel) (by decide +kernel) (by decide +kernel))
  · have ⟨id, g, _⟩ := h.2.1 base _ 5 0x10000 [(0x10000, 0x10000)] () (by unfold SMap.Sorted; decide) (by decide +kernel)
      (wentV (r := (createRegion 5 [(0x10000, 0x10000)] 0x10000 none).go base) (by decide +kernel))
    exact ⟨id, g⟩
  · exact goes ((h.2.2 (rack none) openPacket 0x10000 0 4095 (region1 none)).1 (received_of (by decide +kernel))
      (by decide +kernel) (wentV (by decide +kernel)) (by decide +kernel) (by decide +kernel) (by decide +kernel))
  · exact goes ((h.2.2 (rack (some granted1)) linePacket 0x1FFC0 0x10000 4095 (region1 (some granted1))).2.1 granted1
      (received_of (by decide +kernel)) (by decide +kernel) (by decide +kernel) (by decide +kernel) (by decide +kernel)
      (by decide +kernel) (by decide +kernel) (by decide +kernel) (by decide +kernel))
  · exact goes ((h.2.2 (rack (some full1)) endPacket 0 0x10000 4095 (region1 (some full1))).2.2 full1 _ ()
      (received_of (by decide +kernel)) (by decide +kernel) (by decide +kernel) (by decide +kernel) (by decide +kernel)
      (by decide +kernel) (by decide +kernel) (wentV (by decide +kernel)))

def fillFields : List (Nat × Nat) := [(192, al 0), (256, 1), (384, 0xAB)]
def copyFields : List (Nat × Nat) := [(128, al 0x100), (192, al 0), (256, 1)]
def compareFields : List (Nat × Nat) := [(128, al 0x100), (192, al 0), (256, 1)]

/-- A REDUCE of one source of one element at the alias. -/
def reduceFields : List (Nat × Nat) := [(128, al 0x100), (192, al 0), (256, 1), (288, 1)]

theorem test_witness_PoolOperationsWriteAndReport : Obligations.PoolOperationsWriteAndReport →
    Goes (.fill 3) (withCmd 0x10 fillFields) ∧ Goes (.copy 3) (withCmd 0x11 copyFields) ∧
    Goes (.compare 3) (withCmd 0x12 compareFields) ∧ Goes (.reduce 3) (withCmd 0x13 reduceFields) := by
  intro h
  and_intros
  · exact goes ((h.1 _ 3 (cmd 0x10 fillFields) _ _ () (by decide +kernel) (by decide +kernel) (held (by decide +kernel))).1
      (ready_of (by decide +kernel)) (by decide +kernel) (wentV (by decide +kernel)))
  · refine goes ((h.1 _ 3 (cmd 0x11 copyFields) _ _ () (by decide +kernel) (by decide +kernel) (held ?_)).2 _ _
      (ready_of (by decide +kernel)) (by decide +kernel) (went (by decide +kernel)) (by decide +kernel)
      (wentV (by decide +kernel)))
    decide +kernel
  · exact goes ((h.2 _ 3 (cmd 0x12 compareFields) _ _ () (held (by decide +kernel))).1 (ready_of (by decide +kernel))
      (by decide +kernel) (by decide +kernel) (wentV (by decide +kernel)))
  · refine goes ((h.2 _ 3 (cmd 0x13 reduceFields) _ _ () (held ?_)).2 _ _ _ _ _ (ready_of (by decide +kernel))
      (by decide +kernel) (by decide +kernel) (by decide +kernel) (by decide +kernel) (by decide +kernel) (by decide +kernel)
      (went (by decide +kernel)) (went (by decide +kernel)) (held (by decide +kernel)) (by decide +kernel)
      (wentV (by decide +kernel)))
    decide +kernel

/-- Core 0 runs a kernel of tenant 5, with an instruction word at its PC 0x40 and values in its registers. -/
def codeCore (w : BitVec 32) (s : SMap Word) : Core :=
  { base.core 0 with
    run := .running, asid := 1, pc := 0x40, s, icache := [(1, leBytes 64 w.toNat)], dcache := [], tracker := [], wait := none }

def onCore (w : BitVec 32) (s : SMap Word) : State := base.setCore 0 (codeCore w s)

/-- Words of formats A and I, and of BR (07 Table 7-4). -/
def wordA (m rd rs1 rs2 rs3 fn : Nat) : BitVec 32 :=
  BitVec.ofNat 32 (pack [(m, 6), (rd, 5), (rs1, 5), (rs2, 5), (rs3, 5), (fn, 6)])
def wordI (m rd rs1 imm : Nat) : BitVec 32 := BitVec.ofNat 32 (pack [(m, 6), (rd, 5), (rs1, 5), (imm, 16)])
def wordB (rs1 rs2 cond off : Nat) : BitVec 32 := BitVec.ofNat 32 (pack [(8, 6), (rs1, 5), (rs2, 5), (cond, 3), (off, 13)])

/-- The kernel's code stands in memory. -/
def uncached : State :=
  (base.setCore 0 { codeCore 0 [] with icache := [] }).poke 0x40 (leBytes 4 (wordA 1 3 4 5 0 0).toNat)

theorem test_witness_RegistersAndInstructionIssue : Obligations.RegistersAndInstructionIssue →
    (Core.initial.putS 31 7).getS 30 = 0 ∧ (onCore 0 []).issues 0 0 (onCore 0 []) ∧
    (∃ w t, uncached.issues 0 w t) ∧ Goes (.salu 0 0) (onCore 0 []) ∧ Goes (.halt 0 0) (onCore 0 []) := by
  intro h
  refine ⟨?_, ?_, ?_, ?_, ?_⟩
  · exact (h.1 Core.initial 7 0).2.2.2.2 31 30 (by decide) (by unfold SMap.Sorted; decide)
  · exact (h.2 (onCore 0 []) 0 0 (leBytes 64 0)).1 (by decide +kernel) (by decide +kernel) (by decide +kernel) (by decide +kernel)
  · exact ⟨_, _, (h.2 uncached 0 0 (leBytes 64 (wordA 1 3 4 5 0 0).toNat)).2.1 _ (by decide +kernel) (by decide +kernel)
      (by decide +kernel) (by decide +kernel) (wentV (by decide +kernel)) (by decide +kernel)⟩
  · exact goes ((h.2 (onCore 0 []) 0 0 []).2.2 _ (issues_of (by decide +kernel) (by decide +kernel)) (by decide +kernel)).1
  · exact goes ((h.2 (onCore 0 []) 0 0 []).2.2 _ (issues_of (by decide +kernel) (by decide +kernel)) (by decide +kernel)).2

/-- SALU of s4 and s5 into s3, with s5 zero; the counts of bits name no second source. -/
def saluWord (fn : Nat) : BitVec 32 := wordA 1 3 4 (if 18 ≤ fn ∧ fn ≤ 20 then 0 else 5) (if fn = 21 then 6 else 0) fn

def regs2 (a b : Word) : SMap Word := [(4, a), (5, b)]

theorem test_witness_ScalarUnitComputes : Obligations.ScalarUnitComputes →
    (∀ fn < 23, Goes (.salu 0 (saluWord fn)) (onCore (saluWord fn) (regs2 9 0))) ∧
    Goes (.addi 0 (wordI 2 3 4 0xFFFF)) (onCore (wordI 2 3 4 0xFFFF) (regs2 0 0)) ∧
    Goes (.andi 0 (wordI 3 3 4 0xFFFF)) (onCore (wordI 3 3 4 0xFFFF) (regs2 0 0)) ∧
    Goes (.ori 0 (wordI 4 3 4 0xFFFF)) (onCore (wordI 4 3 4 0xFFFF) (regs2 0 0)) ∧
    Goes (.xori 0 (wordI 5 3 4 0xFFFF)) (onCore (wordI 5 3 4 0xFFFF) (regs2 0 0)) ∧
    Goes (.lui 0 (wordI 6 0 0 0x8000)) (onCore (wordI 6 0 0 0x8000) []) ∧
    Goes (.lui 0 (wordI 6 3 4 0x8000)) (onCore (wordI 6 3 4 0x8000) []) ∧
    Goes (.shori 0 (wordI 7 31 31 0x8000)) (onCore (wordI 7 31 31 0x8000) []) := by
  intro h
  refine ⟨?_, ?_⟩
  · intro fn hf
    have q : ∀ fn < 23, okVal ((fetchWord 0).go (onCore (saluWord fn) (regs2 9 0))) = some (saluWord fn) ∧
        major (saluWord fn) = 1 ∧ saluFields (saluWord fn) = true ∧ fnA (saluWord fn) = fn := by decide +kernel
    have ⟨q1, q2, q3, e⟩ := q fn hf
    obtain ⟨a0, a1, a2, a3, a4, a5, a6, a7, a8, a9, a10, a11, a12, a13, a14, a15, a16, a17, a18, a19, a20, a21, a22⟩ :=
      h.1 (onCore (saluWord fn) (regs2 9 0)) _ 0 (saluWord fn) (issues_of ⟨by decide, rfl⟩ q1) q2 q3
    interval_cases fn
    · exact goes (a0 e)
    · exact goes (a1 e)
    · exact goes (a2 e)
    · exact goes (a3 e)
    · exact goes (a4 e)
    · exact goes (a5 e)
    · exact goes (a6 e)
    · exact goes (a7 e)
    · exact goes (a8 e)
    · exact goes (a9 e)
    · exact goes (a10 e)
    · exact goes (a11 e)
    · exact goes (a12 e)
    · exact goes (a13 e)
    · exact goes (a14 e)
    · exact goes (a15 e)
    · exact goes (a16 e)
    · exact goes (a17 e)
    · exact goes (a18 e)
    · exact goes (a19 e)
    · exact goes (a20 e)
    · exact goes (a21 e)
    · exact goes (a22 e)
  · and_intros
    · exact goes ((h.2 _ _ 0 _ (issues_of (by decide +kernel) (by decide +kernel))).1 (by decide +kernel))
    · exact goes ((h.2 _ _ 0 _ (issues_of (by decide +kernel) (by decide +kernel))).2.1 (by decide +kernel))
    · exact goes ((h.2 _ _ 0 _ (issues_of (by decide +kernel) (by decide +kernel))).2.2.1 (by decide +kernel))
    · exact goes ((h.2 _ _ 0 _ (issues_of (by decide +kernel) (by decide +kernel))).2.2.2.1 (by decide +kernel))
    · exact goes ((h.2 _ _ 0 _ (issues_of (by decide +kernel) (by decide +kernel))).2.2.2.2.1 (by decide +kernel)
        (by decide +kernel))
    · exact goes ((h.2 _ _ 0 _ (issues_of (by decide +kernel) (by decide +kernel))).2.2.2.2.2.1 (by decide +kernel)
        (by decide +kernel))
    · exact goes ((h.2 _ _ 0 _ (issues_of (by decide +kernel) (by decide +kernel))).2.2.2.2.2.2 (by decide +kernel))

/-- A BR of s4 and s5, backwards by 4096 instructions. -/
def brWord (cond : Nat) : BitVec 32 := wordB 4 5 cond 0x1000

theorem test_witness_BranchesAndJumpsSetThePc : Obligations.BranchesAndJumpsSetThePc →
    (∀ cond < 6, Goes (.br 0 (brWord cond)) (onCore (brWord cond) (regs2 7 7)) ∧
      Goes (.br 0 (brWord cond)) (onCore (brWord cond) (regs2 7 (BitVec.allOnes 64))) ∧
      Goes (.br 0 (brWord cond)) (onCore (brWord cond) (regs2 (BitVec.allOnes 64) 7))) ∧
    Goes (.jal 0 (wordI 9 0 0 0xFFFF)) (onCore (wordI 9 0 0 0xFFFF) []) ∧
    Goes (.jalr 0 (wordI 10 31 31 0xFFFF)) (onCore (wordI 10 31 31 0xFFFF) []) := by
  intro h
  refine ⟨?_, ?_, ?_⟩
  · intro cond hc
    interval_cases cond
    · exact ⟨goes (((h _ _ 0 _ (issues_of (by decide +kernel) (by decide +kernel))).1 (by decide +kernel) (by decide +kernel)).1
        (by decide +kernel)), goes (((h _ _ 0 _ (issues_of (by decide +kernel) (by decide +kernel))).1 (by decide +kernel)
        (by decide +kernel)).2 (by decide +kernel)), goes (((h _ _ 0 _ (issues_of (by decide +kernel) (by decide +kernel))).1
        (by decide +kernel) (by decide +kernel)).2 (by decide +kernel))⟩
    · exact ⟨goes (((h _ _ 0 _ (issues_of (by decide +kernel) (by decide +kernel))).2.1 (by decide +kernel)
        (by decide +kernel)).2 (by decide +kernel)), goes (((h _ _ 0 _ (issues_of (by decide +kernel) (by decide +kernel))).2.1
        (by decide +kernel) (by decide +kernel)).1 (by decide +kernel)), goes (((h _ _ 0 _ (issues_of (by decide +kernel)
        (by decide +kernel))).2.1 (by decide +kernel) (by decide +kernel)).1 (by decide +kernel))⟩
    · exact ⟨goes (((h _ _ 0 _ (issues_of (by decide +kernel) (by decide +kernel))).2.2.1 (by decide +kernel)
        (by decide +kernel)).2 (by decide +kernel)), goes (((h _ _ 0 _ (issues_of (by decide +kernel) (by decide +kernel))).2.2.1
        (by decide +kernel) (by decide +kernel)).2 (by decide +kernel)), goes (((h _ _ 0 _ (issues_of (by decide +kernel)
        (by decide +kernel))).2.2.1 (by decide +kernel) (by decide +kernel)).1 (by decide +kernel))⟩
    · exact ⟨goes (((h _ _ 0 _ (issues_of (by decide +kernel) (by decide +kernel))).2.2.2.1 (by decide +kernel)
        (by decide +kernel)).1 (by decide +kernel)), goes (((h _ _ 0 _ (issues_of (by decide +kernel)
        (by decide +kernel))).2.2.2.1 (by decide +kernel) (by decide +kernel)).1 (by decide +kernel)), goes (((h _ _ 0 _
        (issues_of (by decide +kernel) (by decide +kernel))).2.2.2.1 (by decide +kernel) (by decide +kernel)).2
        (by decide +kernel))⟩
    · exact ⟨goes (((h _ _ 0 _ (issues_of (by decide +kernel) (by decide +kernel))).2.2.2.2.1 (by decide +kernel)
        (by decide +kernel)).2 (by decide +kernel)), goes (((h _ _ 0 _ (issues_of (by decide +kernel)
        (by decide +kernel))).2.2.2.2.1 (by decide +kernel) (by decide +kernel)).1 (by decide +kernel)), goes (((h _ _ 0 _
        (issues_of (by decide +kernel) (by decide +kernel))).2.2.2.2.1 (by decide +kernel) (by decide +kernel)).2
        (by decide +kernel))⟩
    · exact ⟨goes (((h _ _ 0 _ (issues_of (by decide +kernel) (by decide +kernel))).2.2.2.2.2.1 (by decide +kernel)
        (by decide +kernel)).1 (by decide +kernel)), goes (((h _ _ 0 _ (issues_of (by decide +kernel)
        (by decide +kernel))).2.2.2.2.2.1 (by decide +kernel) (by decide +kernel)).2 (by decide +kernel)), goes (((h _ _ 0 _
        (issues_of (by decide +kernel) (by decide +kernel))).2.2.2.2.2.1 (by decide +kernel) (by decide +kernel)).1
        (by decide +kernel))⟩
  · exact goes ((h _ _ 0 _ (issues_of (by decide +kernel) (by decide +kernel))).2.2.2.2.2.2.1 (by decide +kernel))
  · exact goes ((h _ _ 0 _ (issues_of (by decide +kernel) (by decide +kernel))).2.2.2.2.2.2.2 (by decide +kernel))

def sysWord (fn : Nat) : BitVec 32 := wordA 0x0D 0 0 0 0 fn

def armedCore (w : BitVec 32) : State := base.setCore 0 { codeCore w [] with armed := true }

theorem test_witness_ControlAndSystemInstructions : Obligations.ControlAndSystemInstructions →
    Goes (.csrr 0 (wordI 0x0B 3 0 0)) (onCore (wordI 0x0B 3 0 0) []) ∧
    Goes (.csrw 0 (wordI 0x0C 0 4 0x10)) (onCore (wordI 0x0C 0 4 0x10) (regs2 15 0)) ∧
    Goes (.csrw 0 (wordI 0x0C 0 4 0)) (onCore (wordI 0x0C 0 4 0) (regs2 15 0)) ∧
    Goes (.csrr 0 (wordI 0x0B 3 0 0xFFFF)) (onCore (wordI 0x0B 3 0 0xFFFF) []) ∧
    Goes (.csrw 0 (wordI 0x0C 0 4 0xFFFF)) (onCore (wordI 0x0C 0 4 0xFFFF) []) ∧
    Goes (.halt 0 (sysWord 0)) (onCore (sysWord 0) []) ∧ Goes (.brk 0 (sysWord 1)) (armedCore (sysWord 1)) ∧
    Goes (.brk 0 (sysWord 1)) (onCore (sysWord 1) []) ∧ Goes (.drain 0 (sysWord 2)) (onCore (sysWord 2) []) ∧
    Goes (.dcwb 0 (sysWord 3)) (onCore (sysWord 3) []) ∧ Goes (.dcwbi 0 (sysWord 4)) (onCore (sysWord 4) []) ∧
    Goes (.icinv 0 (sysWord 5)) (onCore (sysWord 5) []) := by
  intro h
  and_intros
  · exact goes ((h.1 _ _ 0 _ (issues_of (by decide +kernel) (by decide +kernel))).1 _ (by decide +kernel) (by decide +kernel)
      (held (by decide +kernel)))
  · exact goes ((h.1 _ _ 0 _ (issues_of (by decide +kernel) (by decide +kernel))).2.1 (by decide +kernel) (by decide +kernel)
      (by decide +kernel))
  · exact goes ((h.1 _ _ 0 _ (issues_of (by decide +kernel) (by decide +kernel))).2.2.1 _ (by decide +kernel) (by decide +kernel)
      (by decide +kernel) (held (by decide +kernel)))
  · exact goes (((h.1 _ _ 0 _ (issues_of (by decide +kernel) (by decide +kernel))).2.2.2 (by decide +kernel)).1
      (by decide +kernel))
  · exact goes (((h.1 _ _ 0 _ (issues_of (by decide +kernel) (by decide +kernel))).2.2.2 (by decide +kernel)).2
      (by decide +kernel))
  · exact goes ((h.2 _ _ 0 _ (issues_of (by decide +kernel) (by decide +kernel)) (by decide +kernel) (by decide +kernel)).1
      (by decide +kernel) (by decide +kernel))
  · exact goes ((h.2 _ _ 0 _ (issues_of (by decide +kernel) (by decide +kernel)) (by decide +kernel) (by decide +kernel)).2.1
      (by decide +kernel) (by decide +kernel))
  · exact goes ((h.2 _ _ 0 _ (issues_of (by decide +kernel) (by decide +kernel)) (by decide +kernel) (by decide +kernel)).2.2.1
      (by decide +kernel) (by decide +kernel))
  · exact goes ((h.2 _ _ 0 _ (issues_of (by decide +kernel) (by decide +kernel)) (by decide +kernel) (by decide +kernel)).2.2.2.1
      (by decide +kernel) (by decide +kernel) (by decide +kernel))
  · exact goes (((h.2 _ _ 0 _ (issues_of (by decide +kernel) (by decide +kernel)) (by decide +kernel)
      (by decide +kernel)).2.2.2.2.1 (by decide +kernel) (by decide +kernel)).1 (by decide +kernel))
  · exact goes (((h.2 _ _ 0 _ (issues_of (by decide +kernel) (by decide +kernel)) (by decide +kernel)
      (by decide +kernel)).2.2.2.2.1 (by decide +kernel) (by decide +kernel)).2 (by decide +kernel))
  · exact goes ((h.2 _ _ 0 _ (issues_of (by decide +kernel) (by decide +kernel)) (by decide +kernel)
      (by decide +kernel)).2.2.2.2.2 (by decide +kernel))

/-- Words of formats M and VM (07 Table 7-4). -/
def wordM (m rd rs1 size sx form off : Nat) : BitVec 32 :=
  BitVec.ofNat 32 (pack [(m, 6), (rd, 5), (rs1, 5), (size, 2), (sx, 1), (form, 2), (off, 11)])
def wordVM (m vd rs1 rs2 seg form off : Nat) : BitVec 32 :=
  BitVec.ofNat 32 (pack [(m, 6), (vd, 5), (rs1, 5), (rs2, 5), (seg, 3), (form, 2), (off, 6)])

def spadRegs : SMap Word := [(4, BitVec.ofNat 64 (al 0x100)), (5, 0x8877665544332211)]

/-- The state that the fetch of the word leaves. -/
def issued (w : BitVec 32) (r : SMap Word) : State := ((fetchWord 0).go (onCore w r)).2

def ldWord : BitVec 32 := wordM 0x10 3 4 3 0 0 0
def stWord : BitVec 32 := wordM 0x11 5 4 3 0 0 0

/-- The state that the translation of its address leaves. -/
def placed (w : BitVec 32) (write : Bool) : State :=
  ((translate ((issued w spadRegs).coreWho 0) 1 (al 0x100) write).go (issued w spadRegs)).2

theorem test_witness_LoadsAndStoresMoveTheirBytes : Obligations.LoadsAndStoresMoveTheirBytes →
    Goes (.ld 0 (wordM 0x10 3 4 1 1 0 0) 0) (onCore (wordM 0x10 3 4 1 1 0 0) spadRegs) ∧
    Goes (.st 0 stWord 0) (onCore stWord spadRegs) ∧
    Goes (.vld 0 (wordVM 0x12 31 4 0 0 0 0) 0) (onCore (wordVM 0x12 31 4 0 0 0 0) spadRegs) ∧
    Goes (.vst 0 (wordVM 0x13 31 4 0 0 0 0) 0) (onCore (wordVM 0x13 31 4 0 0 0 0) spadRegs) ∧
    Goes (.ld 0 (wordM 0x10 3 31 1 1 1 0) 0) (onCore (wordM 0x10 3 31 1 1 1 0) [(31, 1)]) ∧
    Goes (.st 0 (wordM 0x11 3 31 3 0 1 0) 0) (onCore (wordM 0x11 3 31 3 0 1 0) [(31, 4)]) ∧
    Goes (.ld 0 ldWord 0) (onCore ldWord spadRegs) ∧ Goes (.st 0 stWord 0) (onCore stWord spadRegs) := by
  intro h
  and_intros
  · exact goes ((h.1 _ _ 0 0 _ (issues_of (by decide +kernel) (by decide +kernel))).1 _ _ (by decide +kernel) (by decide +kernel)
      (by decide +kernel) (went (by decide +kernel)))
  · exact goes ((h.1 _ _ 0 0 _ (issues_of (by decide +kernel) (by decide +kernel))).2.1 _ () (by decide +kernel)
      (by decide +kernel) (by decide +kernel) (by decide +kernel) (wentV (by decide +kernel)))
  · exact goes ((h.1 _ _ 0 0 _ (issues_of (by decide +kernel) (by decide +kernel))).2.2.1 _ _ (by decide +kernel)
      (by decide +kernel) (by decide +kernel) (went (by decide +kernel)))
  · exact goes ((h.1 _ _ 0 0 _ (issues_of (by decide +kernel) (by decide +kernel))).2.2.2.1 _ () (by decide +kernel)
      (by decide +kernel) (by decide +kernel) (wentV (by decide +kernel)))
  · exact goes (((h.1 _ _ 0 0 _ (issues_of (by decide +kernel) (by decide +kernel))).2.2.2.2 (by decide +kernel)
      (by decide +kernel)).1 (by decide +kernel))
  · exact goes (((h.1 _ _ 0 0 _ (issues_of (by decide +kernel) (by decide +kernel))).2.2.2.2 (by decide +kernel)
      (by decide +kernel)).2 (by decide +kernel) (by decide +kernel))
  · exact goes_of ((h.2 _ (issued ldWord spadRegs) (placed ldWord false) 0 0 0x4000_0000_0100 ldWord
      (issues_of (by decide +kernel) (by decide +kernel)) (by decide +kernel) (by decide +kernel)
      (by unfold State.storeOk; decide +kernel) (by decide +kernel) (by decide +kernel) (by decide +kernel) (by decide +kernel)
        (by decide +kernel) (by decide +kernel) (by decide +kernel) (by decide +kernel) (by decide +kernel) (by decide +kernel)
        (by decide +kernel) (by decide +kernel)).1 0 (by decide +kernel) (by decide +kernel) (wentV (by decide +kernel))
        (by decide +kernel) (by decide +kernel))
  · exact goes_of ((h.2 _ (issued stWord spadRegs) (placed stWord true) 0 0 0x4000_0000_0100 stWord
      (issues_of (by decide +kernel) (by decide +kernel)) (by decide +kernel) (by decide +kernel)
      (by unfold State.storeOk; decide +kernel) (by decide +kernel) (by decide +kernel) (by decide +kernel) (by decide +kernel)
        (by decide +kernel) (by decide +kernel) (by decide +kernel) (by decide +kernel) (by decide +kernel) (by decide +kernel)
        (by decide +kernel) (by decide +kernel)).2 (by decide +kernel) (by decide +kernel) (wentV (by decide +kernel)))

/-- A core whose address register holds `a` and whose second register holds `b`. -/
def onAddr (w : BitVec 32) (a b c : Nat) : State :=
  onCore w [(4, BitVec.ofNat 64 a), (5, BitVec.ofNat 64 b), (6, BitVec.ofNat 64 c)]

def amoWord : BitVec 32 := wordA 0x14 3 4 5 0 16
def copyWord : BitVec 32 := wordA 0x15 0 4 5 6 31
def sdfWord : BitVec 32 := wordA 0x16 0 4 5 0 15

def trackWrite1 : TrackWrite :=
  { address := 0x10000, va := 0x10000, length := 8, data := leBytes 8 77, mask := none, sources := [] }
def track1 : Track :=
  { kind := .store, pieces := [(0x10000, 8)], write := true, todo := [trackWrite1], partner := 0, group := none, final := false
    counter := none, order := 0, resp := [] }

def withTrack : State := base.setCore 0 { codeCore 0 [] with tracker := [(5, track1)] }

theorem test_witness_AtomicsCopiesAndTheTracker : Obligations.AtomicsCopiesAndTheTracker →
    Goes (.amo 0 amoWord) (onAddr amoWord 0x10000 1 0) ∧ Goes (.amo 0 amoWord) (onAddr amoWord 0x10004 1 0) ∧
    Goes (.xcopy 0 copyWord) (onAddr copyWord 0x10000 0x20000 0) ∧
    Goes (.xcopy 0 copyWord) (onAddr copyWord 0x10000 0x20000 16777217) ∧
    Goes (.xcopy 0 copyWord) (onAddr copyWord 0x10000 0x10001 2) ∧ Goes (.xcopy 0 copyWord) (onAddr copyWord 0x10000 0x20000 1) ∧
    Goes (.sdf 0 sdfWord) (onAddr sdfWord 0x10000 7 0) ∧ Goes (.trackerEntryFree 0 5) withTrack := by
  intro h
  and_intros
  · exact goes ((h.1 _ _ 0 _ (issues_of (by decide +kernel) (by decide +kernel))).1 0x10000 _ _ _ (by decide +kernel)
      (by decide +kernel) (by decide +kernel) (by decide +kernel) (by decide +kernel) (by decide +kernel) (by decide +kernel)
      (by decide +kernel) (wentV (by decide +kernel)) (by decide +kernel) (went (by decide +kernel)))
  · exact goes ((h.1 _ _ 0 _ (issues_of (by decide +kernel) (by decide +kernel))).2.1 (by decide +kernel) (by decide +kernel)
      (by decide +kernel))
  · exact goes (((h.1 _ _ 0 _ (issues_of (by decide +kernel) (by decide +kernel))).2.2.1 0 (by decide +kernel)
      (by decide +kernel) (by decide +kernel) (by decide +kernel)).1 (by decide +kernel))
  · exact goes (((h.1 _ _ 0 _ (issues_of (by decide +kernel) (by decide +kernel))).2.2.1 16777217 (by decide +kernel)
      (by decide +kernel) (by decide +kernel) (by decide +kernel)).1 (by decide +kernel))
  · exact goes ((((h.1 _ _ 0 _ (issues_of (by decide +kernel) (by decide +kernel))).2.2.1 2 (by decide +kernel)
      (by decide +kernel) (by decide +kernel) (by decide +kernel)).2 _ _ _ _ (by decide +kernel) (by decide +kernel)
      (by decide +kernel) (went (by decide +kernel)) (went (by decide +kernel))).1 (by decide +kernel))
  · exact goes_of ((((h.1 _ _ 0 _ (issues_of (by decide +kernel) (by decide +kernel))).2.2.1 1 (by decide +kernel)
      (by decide +kernel) (by decide +kernel) (by decide +kernel)).2 _ _ _ _ (by decide +kernel) (by decide +kernel)
      (by decide +kernel) (went (by decide +kernel)) (went (by decide +kernel))).2 (by decide +kernel) (by decide +kernel)
      (by decide +kernel) (by decide +kernel))
  · have ⟨t, _, g, _⟩ := (h.1 (onAddr sdfWord 0x10000 7 0) _ 0 sdfWord (issues_of (by decide +kernel) (by decide +kernel))).2.2.2
      0x10000 _ (by decide +kernel) (by decide +kernel) (by decide +kernel) (by decide +kernel) (by decide +kernel)
      (wentV (by decide +kernel)) (by decide +kernel) (by decide +kernel) (by decide +kernel)
    exact ⟨t, g⟩
  · exact goes_of (h.2 withTrack _ 0 5 track1 trackWrite1 () (by decide +kernel) (by decide +kernel) (by decide +kernel)
      (by decide +kernel) (by decide +kernel) (by decide +kernel) (by decide +kernel) (wentV (r := (landWrite 0 track1
      trackWrite1 true).go withTrack) (by decide +kernel)) (by decide +kernel))

def waitWord (fn : Nat) : BitVec 32 := wordA 0x17 3 4 5 6 fn

/-- A core that waits for the counter at 0x10000 with a time limit of 8 CCLK, at a time. -/
def waitingCore (target : Word) (limit time : Nat) : State :=
  { base.setCore 0 { codeCore 0 [] with wait := some (.counter true 0x10000 target limit 3 0) } with time }

/-- The states that the fetch and the read of a WAIT leave. -/
def fetched (s : State) : State := ((fetchWord 0).go s).2
def readAt (s : State) : State := ((waitRead 0 0x10000).go s).2

def channel1 (state : ChanState) : Channel :=
  { consumer := 1, queue := 0, granted := 16, credits := 16, held := 0, returning := 0, tag := 0, tenant := 5, state, notice :=
    false
    ack := false, closer := none, mesh := [], serial := 0 }

def msgWord (fn rs2 rs3 : Nat) : BitVec 32 := wordA 0x18 3 4 rs2 rs3 fn

def packet1 : CorePacket := { producer := 1, tag := 7, payload := leBytes 32 1, channel := 64, serial := 0 }
def queue1 (reset : Bool) (packets : List CorePacket) : Queue := { Queue.empty with resetPending := reset, packets }

/-- Core 0 at an MSG instruction, with a channel at handle 63 and a packet in its queue 3. -/
def onMsg (w : BitVec 32) (state : ChanState) (a b c : Nat) (q : Queue) : State :=
  ((onAddr w a b c).setChannel 63 (channel1 state)).setQueue 3 q

theorem test_witness_WaitsAndMessagesComplete : Obligations.WaitsAndMessagesComplete →
    Goes (.waitge 0 (waitWord 0)) (onAddr (waitWord 0) 0x10000 0 0) ∧ Goes (.waitne 0 (waitWord 1)) (onAddr (waitWord 1) 0x10000
      7 0) ∧
    Goes (.waitge 0 (waitWord 0)) (onAddr (waitWord 0) 0x10000 1 0) ∧ Goes (.waitPoll 0) (waitingCore 0 0 0) ∧
    Goes (.waitPoll 0) (waitingCore 1 0 0) ∧ Goes (.waitTimeLimit 0) (waitingCore 1 8 1) ∧
    Goes (.waitTimeLimit 0) (waitingCore 1 8 0) ∧
    Goes (.msend 0 (msgWord 0 5 6)) (onMsg (msgWord 0 5 6) .open (al 0x100) 63 16 (queue1 false [])) ∧
    Goes (.msend 0 (msgWord 0 5 6)) (onMsg (msgWord 0 5 6) .queueReset (al 0x100) 63 1 (queue1 false [])) ∧
    Goes (.msend 0 (msgWord 0 5 6)) (onMsg (msgWord 0 5 6) .open (al 0x100) 64 1 (queue1 false [])) ∧
    Goes (.mrecv 0 (msgWord 1 5 0)) (onMsg (msgWord 1 5 0) .open 3 (al 0x100) 0 (queue1 false [packet1])) ∧
    Goes (.mrecv 0 (msgWord 1 5 0)) (onMsg (msgWord 1 5 0) .open 3 (al 0x100) 0 (queue1 true [])) ∧
    Goes (.mpeek 0 (msgWord 2 0 0)) (onMsg (msgWord 2 0 0) .open 3 0 0 (queue1 false [packet1])) ∧
    Goes (.mpeek 0 (msgWord 2 0 0)) (onMsg (msgWord 2 0 0) .open 4 0 0 (queue1 false [])) := by
  intro h
  and_intros
  · exact goes (((h.1 (onAddr (waitWord 0) 0x10000 0 0) (fetched (onAddr (waitWord 0) 0x10000 0 0))
      (readAt (fetched (onAddr (waitWord 0) 0x10000 0 0))) 0 (waitWord 0) 0).1 (issues_of (by decide +kernel)
        (by decide +kernel)) (by decide +kernel) (by decide +kernel) (wentV (by decide +kernel))).1 (by decide +kernel)
        (by decide +kernel))
  · exact goes (((h.1 (onAddr (waitWord 1) 0x10000 7 0) (fetched (onAddr (waitWord 1) 0x10000 7 0))
      (readAt (fetched (onAddr (waitWord 1) 0x10000 7 0))) 0 (waitWord 1) 0).1 (issues_of (by decide +kernel)
        (by decide +kernel)) (by decide +kernel) (by decide +kernel) (wentV (by decide +kernel))).2.1 (by decide +kernel)
        (by decide +kernel))
  · exact goes_of (((h.1 (onAddr (waitWord 0) 0x10000 1 0) (fetched (onAddr (waitWord 0) 0x10000 1 0))
      (readAt (fetched (onAddr (waitWord 0) 0x10000 1 0))) 0 (waitWord 0) 0).1 (issues_of (by decide +kernel)
        (by decide +kernel)) (by decide +kernel) (by decide +kernel) (wentV (by decide +kernel))).2.2 (by decide +kernel)
        (by decide +kernel) (by decide +kernel))
  · exact goes (((h.1 _ base (readAt (waitingCore 0 0 0)) 0 0 0).2 true 0x10000 0 3 0 0 (by decide +kernel) (by decide +kernel)
      (by decide +kernel)).1 (wentV (by decide +kernel)) (by decide +kernel))
  · exact goes (((h.1 _ base (readAt (waitingCore 1 0 0)) 0 0 0).2 true 0x10000 0 3 1 0 (by decide +kernel) (by decide +kernel)
      (by decide +kernel)).2.1 (wentV (by decide +kernel)) (by decide +kernel))
  · exact goes (((h.1 _ base base 0 0 0).2 true 0x10000 8 3 1 0 (by decide +kernel) (by decide +kernel)
      (by decide +kernel)).2.2.1 (by decide +kernel) (by decide +kernel))
  · exact goes (((h.1 _ base base 0 0 0).2 true 0x10000 8 3 1 0 (by decide +kernel) (by decide +kernel)
      (by decide +kernel)).2.2.2 (by decide +kernel))
  · exact goes (((h.2 _ _ 0 _ (issues_of (by decide +kernel) (by decide +kernel)) (by decide +kernel)).1 (channel1 .open)
      (by decide +kernel) (by decide +kernel) (by decide +kernel) (by decide +kernel) (by decide +kernel) (by decide +kernel)).1
      _ (List.replicate 16 (List.replicate 32 0)) _ _ (by decide +kernel) (went (by decide +kernel)) (by decide +kernel)
      (wentV (by decide +kernel)))
  · exact goes (((h.2 _ _ 0 _ (issues_of (by decide +kernel) (by decide +kernel)) (by decide +kernel)).1 (channel1 .queueReset)
      (by decide +kernel) (by decide +kernel) (by decide +kernel) (by decide +kernel) (by decide +kernel) (by decide +kernel)).2
      (by decide +kernel))
  · exact goes ((h.2 _ _ 0 _ (issues_of (by decide +kernel) (by decide +kernel)) (by decide +kernel)).2.1 (by decide +kernel)
      (by decide +kernel))
  · exact goes ((h.2 _ _ 0 _ (issues_of (by decide +kernel) (by decide +kernel)) (by decide +kernel)).2.2.1 _ packet1 [] _ _ ()
      () (by decide +kernel) (by decide +kernel) (by decide +kernel) (by decide +kernel) (by decide +kernel)
      (went (by decide +kernel)) (wentS (by decide +kernel) (by decide +kernel)) (wentV (by decide +kernel)))
  · exact goes ((h.2 _ _ 0 _ (issues_of (by decide +kernel) (by decide +kernel)) (by decide +kernel)).2.2.2.1 (by decide +kernel)
      (by decide +kernel) (by decide +kernel) (by decide +kernel))
  · exact goes ((h.2 _ _ 0 _ (issues_of (by decide +kernel) (by decide +kernel)) (by decide +kernel)).2.2.2.2.1
      (by decide +kernel) (by decide +kernel) (by decide +kernel) (by decide +kernel) (by decide +kernel))
  · exact goes ((h.2 _ _ 0 _ (issues_of (by decide +kernel) (by decide +kernel)) (by decide +kernel)).2.2.2.2.2
      (by decide +kernel) (by decide +kernel) (by decide +kernel) (by decide +kernel))

/-- Words of formats V and X (07 Table 7-4). -/
def wordV (m vd vs1 vs2 pg ty fn : Nat) : BitVec 32 :=
  BitVec.ofNat 32 (pack [(m, 6), (vd, 5), (vs1, 5), (vs2, 5), (pg, 3), (ty, 3), (fn, 5)])
def wordX (m ad v1 v2 ss h fn : Nat) : BitVec 32 :=
  BitVec.ofNat 32 (pack [(m, 6), (ad, 3), (v1, 5), (v2, 5), (ss, 5), (h, 1), (0, 2), (fn, 5)])

def onV (w : BitVec 32) : State :=
  base.setCore 0 { codeCore w (regs2 1 2) with v := [(1, BitVec.ofNat 1024 (2 ^ 1024 - 1)), (2, 3)] }

theorem test_witness_VectorLanesComputeAndConvert : Obligations.VectorLanesComputeAndConvert →
    Goes (.valu 0 (wordV 0x20 3 1 2 0 6 2)) (onV (wordV 0x20 3 1 2 0 6 2)) ∧
    Goes (.valu 0 (wordV 0x20 3 1 0 0 0 15)) (onV (wordV 0x20 3 1 0 0 0 15)) ∧
    Goes (.valu 0 (wordV 0x20 3 1 2 0 3 0)) (onV (wordV 0x20 3 1 2 0 3 0)) ∧
    (∃ x, valuLane 5 9 0 1 31 = (x, 0)) ∧ (∃ x, (valuLane 0 14 0 1 0).1 = x) ∧
    Goes (.vcvt 0 (wordV 0x21 3 1 1 0 0 1)) (onV (wordV 0x21 3 1 1 0 0 1)) ∧
    Goes (.vcvt 0 (wordV 0x21 3 1 5 0 3 4)) (onV (wordV 0x21 3 1 5 0 3 4)) ∧
    Goes (.vcvt 0 (wordV 0x21 3 1 5 0 3 7)) (onV (wordV 0x21 3 1 5 0 3 7)) := by
  intro h
  refine ⟨?_, ?_, ?_, ?_, ?_, ?_, ?_, ?_⟩
  · exact goes ((h.1 _ _ 0 _ (issues_of (by decide +kernel) (by decide +kernel)) (by decide +kernel)).1 (by decide +kernel)
      (by decide +kernel))
  · exact goes ((h.1 _ _ 0 _ (issues_of (by decide +kernel) (by decide +kernel)) (by decide +kernel)).1 (by decide +kernel)
      (by decide +kernel))
  · exact goes ((h.1 _ _ 0 _ (issues_of (by decide +kernel) (by decide +kernel)) (by decide +kernel)).2 (by decide +kernel))
  · exact ⟨_, ((h.2.1 5 0 1 31).1 rfl).2.2.2.2.2.2.2.2.2.1⟩
  · exact ⟨_, ((h.2.1 0 0 1 0).2 _ rfl).2.2.2.2.2.2.2.2.2.1⟩
  · exact goes ((h.2.2 _ _ 0 _ (issues_of (by decide +kernel) (by decide +kernel)) (by decide +kernel)).1 (by decide +kernel)
      (by decide +kernel) (by decide +kernel))
  · exact goes ((h.2.2 _ _ 0 _ (issues_of (by decide +kernel) (by decide +kernel)) (by decide +kernel)).2.1 fmtE4m3 448 (.inl
      ⟨(by decide +kernel), rfl, rfl⟩) (by decide +kernel) (by decide +kernel) _ _ _ (parts3 _))
  · exact goes ((h.2.2 _ _ 0 _ (issues_of (by decide +kernel) (by decide +kernel)) (by decide +kernel)).2.2 fmtE2m1 (.inr
      ⟨(by decide +kernel), rfl⟩) (by decide +kernel) (by decide +kernel))

/-- A function of VRED, PRED or VPERM and its type, with register fields that it admits. -/
def redWord (fn ty : Nat) : BitVec 32 := wordV 0x22 (if fn < 3 then 7 else 3) 1 (if fn < 3 then 2 else 0) 0 ty fn
def predWord (fn : Nat) : BitVec 32 :=
  wordV 0x24 (if fn = 6 then 31 else 7) (if fn < 4 ∨ fn = 6 then 1 else 0) (if fn < 3 then 2 else if fn = 7 then 4 else 0) 0 7 fn
def permWord (fn : Nat) : BitVec 32 :=
  wordV 0x23 3 (if fn = 3 then 0 else 1) (if fn = 0 ∨ fn = 3 ∨ fn = 4 then 0 else 2) 0 5 fn

/-- No lane is active in predicate 1. -/
def noLane (w : BitVec 32) : State := base.setCore 0 { codeCore w [] with p := [(1, 0)] }

def noLaneWord : BitVec 32 := wordV 0x22 3 1 0 1 5 4

theorem test_witness_ReductionsPredicatesAndPermutes : Obligations.ReductionsPredicatesAndPermutes →
    (Goes (.vred 0 (redWord 0 0)) (onV (redWord 0 0)) ∧ Goes (.vred 0 (redWord 1 0)) (onV (redWord 1 0)) ∧
      Goes (.vred 0 (redWord 2 0)) (onV (redWord 2 0)) ∧ Goes (.vred 0 (redWord 3 0)) (onV (redWord 3 0)) ∧
      Goes (.vred 0 (redWord 3 5)) (onV (redWord 3 5)) ∧ Goes (.vred 0 (redWord 4 5)) (onV (redWord 4 5)) ∧
      Goes (.vred 0 (redWord 5 5)) (onV (redWord 5 5)) ∧ Goes (.vred 0 noLaneWord) (noLane noLaneWord) ∧
      Goes (.vred 0 (redWord 6 7)) (onV (redWord 6 7)) ∧ Goes (.vred 0 (redWord 7 7)) (onV (redWord 7 7))) ∧
    (Goes (.pred 0 (predWord 0)) (onV (predWord 0)) ∧ Goes (.pred 0 (predWord 1)) (onV (predWord 1)) ∧
      Goes (.pred 0 (predWord 2)) (onV (predWord 2)) ∧ Goes (.pred 0 (predWord 3)) (onV (predWord 3)) ∧
      Goes (.pred 0 (predWord 4)) (onV (predWord 4)) ∧ Goes (.pred 0 (predWord 5)) (onV (predWord 5)) ∧
      Goes (.pred 0 (wordV 0x24 7 1 0 0 7 6)) (onV (wordV 0x24 7 1 0 0 7 6)) ∧ Goes (.pred 0 (predWord 7)) (onV (predWord 7))) ∧
    Goes (.vperm 0 (permWord 0)) (onV (permWord 0)) ∧ Goes (.vperm 0 (permWord 1)) (onV (permWord 1)) ∧
    Goes (.vperm 0 (permWord 2)) (onV (permWord 2)) ∧ Goes (.vperm 0 (permWord 3)) (onV (permWord 3)) ∧
    Goes (.vperm 0 (permWord 4)) (onV (permWord 4)) ∧ Goes (.vperm 0 (permWord 5)) (onV (permWord 5)) := by
  intro h
  and_intros
  · exact goes (((h.1 _ _ 0 _ (issues_of (by decide +kernel) (by decide +kernel))).1 (by decide +kernel) (by decide +kernel)).1
      (by decide +kernel) (by decide +kernel))
  · exact goes (((h.1 _ _ 0 _ (issues_of (by decide +kernel) (by decide +kernel))).1 (by decide +kernel) (by decide +kernel)).2.1
      (by decide +kernel) (by decide +kernel))
  · exact goes (((h.1 _ _ 0 _ (issues_of (by decide +kernel) (by decide +kernel))).1 (by decide +kernel)
      (by decide +kernel)).2.2.1 (by decide +kernel) (by decide +kernel))
  · exact goes (((h.1 _ _ 0 _ (issues_of (by decide +kernel) (by decide +kernel))).1 (by decide +kernel)
      (by decide +kernel)).2.2.2.1 _ (by decide +kernel) (by decide +kernel) rfl)
  · exact goes (((h.1 _ _ 0 _ (issues_of (by decide +kernel) (by decide +kernel))).1 (by decide +kernel)
      (by decide +kernel)).2.2.2.2.1 (by decide +kernel) (by decide +kernel) (by decide +kernel))
  · exact goes (((h.1 _ _ 0 _ (issues_of (by decide +kernel) (by decide +kernel))).1 (by decide +kernel)
      (by decide +kernel)).2.2.2.2.2.1 _ (by decide +kernel) (by decide +kernel) (held (by decide +kernel)))
  · exact goes (((h.1 _ _ 0 _ (issues_of (by decide +kernel) (by decide +kernel))).1 (by decide +kernel)
      (by decide +kernel)).2.2.2.2.2.2.1 _ (by decide +kernel) (by decide +kernel) (held (by decide +kernel)))
  · exact goes (((h.1 _ _ 0 _ (issues_of (by decide +kernel) (by decide +kernel))).1 (by decide +kernel)
      (by decide +kernel)).2.2.2.2.2.2.2.1 (by decide +kernel) (by decide +kernel) (by decide +kernel))
  · exact goes (((h.1 _ _ 0 _ (issues_of (by decide +kernel) (by decide +kernel))).1 (by decide +kernel)
      (by decide +kernel)).2.2.2.2.2.2.2.2.1 (by decide +kernel) (by decide +kernel))
  · exact goes (((h.1 _ _ 0 _ (issues_of (by decide +kernel) (by decide +kernel))).1 (by decide +kernel)
      (by decide +kernel)).2.2.2.2.2.2.2.2.2 (by decide +kernel) (by decide +kernel) (by decide +kernel))
  · exact goes (((h.1 _ _ 0 _ (issues_of (by decide +kernel) (by decide +kernel))).2 (by decide +kernel) (by decide +kernel)
      (by decide +kernel) (by decide +kernel)).1 (by decide +kernel) (by decide +kernel))
  · exact goes (((h.1 _ _ 0 _ (issues_of (by decide +kernel) (by decide +kernel))).2 (by decide +kernel) (by decide +kernel)
      (by decide +kernel) (by decide +kernel)).2.1 (by decide +kernel) (by decide +kernel))
  · exact goes (((h.1 _ _ 0 _ (issues_of (by decide +kernel) (by decide +kernel))).2 (by decide +kernel) (by decide +kernel)
      (by decide +kernel) (by decide +kernel)).2.2.1 (by decide +kernel) (by decide +kernel))
  · exact goes (((h.1 _ _ 0 _ (issues_of (by decide +kernel) (by decide +kernel))).2 (by decide +kernel) (by decide +kernel)
      (by decide +kernel) (by decide +kernel)).2.2.2.1 (by decide +kernel) (by decide +kernel))
  · exact goes (((h.1 _ _ 0 _ (issues_of (by decide +kernel) (by decide +kernel))).2 (by decide +kernel) (by decide +kernel)
      (by decide +kernel) (by decide +kernel)).2.2.2.2.1 (by decide +kernel) (by decide +kernel) (by decide +kernel))
  · exact goes (((h.1 _ _ 0 _ (issues_of (by decide +kernel) (by decide +kernel))).2 (by decide +kernel) (by decide +kernel)
      (by decide +kernel) (by decide +kernel)).2.2.2.2.2.1 (by decide +kernel) (by decide +kernel) (by decide +kernel))
  · exact goes (((h.1 _ _ 0 _ (issues_of (by decide +kernel) (by decide +kernel))).2 (by decide +kernel) (by decide +kernel)
      (by decide +kernel) (by decide +kernel)).2.2.2.2.2.2.1 (by decide +kernel) (by decide +kernel) (by decide +kernel))
  · exact goes (((h.1 _ _ 0 _ (issues_of (by decide +kernel) (by decide +kernel))).2 (by decide +kernel) (by decide +kernel)
      (by decide +kernel) (by decide +kernel)).2.2.2.2.2.2.2 (by decide +kernel) (by decide +kernel) (by decide +kernel))
  · exact goes ((h.2 _ _ 0 _ (issues_of (by decide +kernel) (by decide +kernel)) (by decide +kernel)).1 (by decide +kernel)
      (by decide +kernel))
  · exact goes ((h.2 _ _ 0 _ (issues_of (by decide +kernel) (by decide +kernel)) (by decide +kernel)).2.1 (by decide +kernel)
      (by decide +kernel))
  · exact goes ((h.2 _ _ 0 _ (issues_of (by decide +kernel) (by decide +kernel)) (by decide +kernel)).2.2.1 (by decide +kernel))
  · exact goes ((h.2 _ _ 0 _ (issues_of (by decide +kernel) (by decide +kernel)) (by decide +kernel)).2.2.2.1 (by decide +kernel)
      (by decide +kernel) (by decide +kernel) (by decide +kernel))
  · exact goes ((h.2 _ _ 0 _ (issues_of (by decide +kernel) (by decide +kernel)) (by decide +kernel)).2.2.2.2.1
      (by decide +kernel) (by decide +kernel))
  · exact goes ((h.2 _ _ 0 _ (issues_of (by decide +kernel) (by decide +kernel)) (by decide +kernel)).2.2.2.2.2
      (by decide +kernel))

theorem test_witness_MatricesAndDistances : Obligations.MatricesAndDistances →
    Goes (.mma 0 (wordX 0x25 7 1 2 0 1 7)) (onV (wordX 0x25 7 1 2 0 1 7)) ∧
    Goes (.mma 0 (wordX 0x25 7 1 2 30 0 9)) (onV (wordX 0x25 7 1 2 30 0 9)) ∧
    Goes (.acc 0 (wordX 0x26 7 0 0 0 0 0)) (onV (wordX 0x26 7 0 0 0 0 0)) ∧
    Goes (.acc 0 (wordX 0x26 7 31 0 0 1 1)) (onV (wordX 0x26 7 31 0 0 1 1)) ∧
    Goes (.acc 0 (wordX 0x26 7 31 0 0 0 3)) (onV (wordX 0x26 7 31 0 0 0 3)) ∧
    Goes (.acc 0 (wordX 0x26 7 31 0 0 1 4)) (onV (wordX 0x26 7 31 0 0 1 4)) ∧
    Goes (.ham 0 (wordV 0x27 3 2 1 7 4 0)) (onV (wordV 0x27 3 2 1 7 4 0)) := by
  intro h
  and_intros
  · exact goes ((h _ _ 0 _ (issues_of (by decide +kernel) (by decide +kernel))).1 (by decide +kernel) (by decide +kernel)
      (by decide +kernel) (by decide +kernel))
  · exact goes ((h _ _ 0 _ (issues_of (by decide +kernel) (by decide +kernel))).2.1 _ _ _ (by decide +kernel) rfl
      (by decide +kernel) (by decide +kernel) (by decide +kernel))
  · exact goes (((h _ _ 0 _ (issues_of (by decide +kernel) (by decide +kernel))).2.2.1 (by decide +kernel) (by decide +kernel)
      (by decide +kernel) (by decide +kernel)).1 (by decide +kernel) (by decide +kernel))
  · exact goes (((h _ _ 0 _ (issues_of (by decide +kernel) (by decide +kernel))).2.2.1 (by decide +kernel) (by decide +kernel)
      (by decide +kernel) (by decide +kernel)).2.1 (by decide +kernel))
  · exact goes (((h _ _ 0 _ (issues_of (by decide +kernel) (by decide +kernel))).2.2.1 (by decide +kernel) (by decide +kernel)
      (by decide +kernel) (by decide +kernel)).2.2.1 binary16 (.inr ⟨(by decide +kernel), rfl⟩))
  · exact goes (((h _ _ 0 _ (issues_of (by decide +kernel) (by decide +kernel))).2.2.1 (by decide +kernel) (by decide +kernel)
      (by decide +kernel) (by decide +kernel)).2.2.2 (by decide +kernel))
  · exact goes ((h _ _ 0 _ (issues_of (by decide +kernel) (by decide +kernel))).2.2.2 _ _ (by decide +kernel) (by decide +kernel)
      rfl rfl (by decide +kernel) (by decide +kernel) (by decide +kernel))

/-- A kernel image of one instruction at VA 0x30000. -/
def imageCode : List Byte := leBytes 4 0x0D
def imageBits : Nat := 0x151C0 + 4 * 2 ^ 32 + 64 * 2 ^ 64 + crc32c imageCode * 2 ^ 128
def imageHead : List Byte := leBytes 60 imageBits ++ leBytes 4 (crc32c (leBytes 60 imageBits))

/-- A LAUNCH of the last core alone. -/
def launchFields : List (Nat × Nat) := [(128, 0x30000), (256, 159), (264, 159), (272, 1), (280, 1)]

def withImage : State :=
  ((withCmd 0x50 launchFields).poke 0x30000 (imageHead ++ imageCode)).setCore 25599 { Core.initial with available := true }

def launch1 (claimed : Bool) (ended : List Nat) : Launch :=
  { x0 := 159, y0 := 159, w := 1, h := 1, order := 0, claimed, entry := 64, startTime := 0, ended, excs := [], status := .ok
    compare := false }

def launchSlot : Slot := { cmd 0x50 launchFields with stage := .running }

def withLaunch (claimed : Bool) (ended : List Nat) (time : Nat) : State :=
  { base.setSlot 3 launchSlot with grid := { base.grid with launches := [(3, launch1 claimed ended)] }, time }

theorem test_witness_KernelsAreLaunchedAndEnd : Obligations.KernelsAreLaunchedAndEnd →
    Goes (.launch 3) withImage ∧ Goes (.launch 3) (withLaunch true [25599] 0) ∧ Goes (.launchClaim 3) (withLaunch false [] 0) ∧
    Goes (.kernelWatchdog 3) (withLaunch true [] (2 ^ 50)) ∧ Goes (.haltGrid 3) (withCmd 0x51 [(128, 9)]) ∧
    ((base.prepareCore launchSlot 3 64 25599).core 25599).run = .running := by
  intro h
  refine ⟨?_, ?_, ?_, ?_, ?_, ?_⟩
  · exact goes ((h.1 _ 3 (cmd 0x50 launchFields)).1 _ _ _ _ (ready_of (by decide +kernel)) (by decide +kernel)
      (by decide +kernel) (went (by decide +kernel)) (by decide +kernel) (went (by decide +kernel)) (by decide +kernel)
      (by decide +kernel) (by decide +kernel))
  · exact goes ((h.1 _ 3 launchSlot).2.1 (launch1 true [25599]) (by decide +kernel) (by decide +kernel) (by decide +kernel)
      (by decide +kernel) (by decide +kernel) (by decide +kernel) (by decide +kernel) (by decide +kernel))
  · exact goes ((h.1 _ 3 launchSlot).2.2.1 (launch1 false []) (by decide +kernel) (by decide +kernel) (by decide +kernel)
      (by decide +kernel) (by decide +kernel))
  · exact goes ((h.1 _ 3 launchSlot).2.2.2.1 (launch1 true []) (by decide +kernel) (by decide +kernel) (by decide +kernel)
      (by decide +kernel))
  · exact goes ((h.1 _ 3 (cmd 0x51 [(128, 9)])).2.2.2.2 (ready_of (by decide +kernel)) (by decide +kernel))
  · exact (h.2 base launchSlot 3 64 25599).1

/-- An entry of a channel list: producer 0, handle 63, queue 3 of core 1, one credit. -/
def chanEntry : Nat := 63 * 2 ^ 16 + 1 * 2 ^ 24 + 3 * 2 ^ 40 + 1 * 2 ^ 48

def chanFields : List (Nat × Nat) := [(128, 0x48000), (192, 1)]

def withEntry (op : Nat) : State :=
  ((((withCmd op chanFields).poke 0x48000 (leBytes 16 chanEntry)).setCore 1 { Core.initial with available := true }).setCore 0
    { base.core 0 with available := true })

def closing1 : Channel := { channel1 .closing with closer := some (cmd 0x53 chanFields).seq }

def closeSlot : Slot := begunCmd 0x53 chanFields 1 [7]

/-- The sideband of a flit of that channel, with its LAST and ABORT bits, and its CRC or another value. -/
def sideLow (last abort : Nat) : Nat := last * 2 ^ 19 + abort * 2 ^ 20 + 63 * 2 ^ 48
def sideband (last abort : Nat) (good : Bool) : BitVec 96 :=
  BitVec.ofNat 96 (sideLow last abort +
    (if good then crc32c (leBytes 32 5 ++ leBytes 8 (sideLow last abort)) else 0) * 2 ^ 64)

def sent1 (last abort : Nat) (good : Bool) : MeshSent := { sideband := sideband last abort good, payload := leBytes 32 5, after
  := 0 }
def flit1 (last abort : Nat) (good mismatch : Bool) : MeshFlit :=
  { sideband := sideband last abort good, payload := leBytes 32 5, mismatch }

def carrying (last abort : Nat) (good : Bool) : Channel := { channel1 .open with mesh := [sent1 last abort good] }
def withChannel (c : Channel) : State := base.setChannel 63 c

def notice1 : MeshSent := { sideband := BitVec.ofNat 96 (2 ^ 25), payload := [], after := 0 }
def noticed : Channel := { channel1 .open with mesh := [notice1], ack := true }
def inReset (s : State) : State := s.setQueue 4 { Queue.empty with state := .reset }

theorem test_witness_ChannelsCarryFlitsAndRecover : Obligations.ChannelsCarryFlitsAndRecover →
    Goes (.channelOpen 3) (withEntry 0x52) ∧ Goes (.channelOpen 3) (withCmd 0x52 chanFields) ∧
    Goes (.channelClose 3) (base.setSlot 3 closeSlot) ∧ Goes (.channelClose 3) ((withEntry 0x53).setChannel 63 (channel1 .open)) ∧
    Goes (.channelClosed 0 63) (withChannel (channel1 .closing)) ∧
    Goes (.flitArrive (flit1 1 0 true true)) (withChannel (carrying 1 0 true)) ∧
    Goes (.flitArrive (flit1 1 0 false false)) (withChannel (carrying 1 0 false)) ∧
    Goes (.flitArrive (flit1 1 1 true false)) (withChannel (carrying 1 1 true)) ∧
    Goes (.flitArrive (flit1 1 0 true false)) (withChannel (carrying 1 0 true)) ∧
    Goes (.flitArrive (flit1 0 0 true false)) (withChannel (carrying 0 0 true)) ∧
    Goes (.creditReturn 0 63) (withChannel (channel1 .open)) ∧
    Goes (.resetNotice 0 63) (withChannel { channel1 .open with notice := true }) ∧
    Goes (.resetAcknowledgement 0 63) (inReset (withChannel noticed)) ∧ Goes (.resetAcknowledgement 0 63) (withChannel noticed)
      := by
  intro h
  and_intros
  · exact goes ((h.1 _ 3 (cmd 0x52 chanFields)).1 _ _ _ (ready_of (by decide +kernel)) (by decide +kernel)
      (went (by decide +kernel)) (gave (by decide +kernel)))
  · exact goes ((h.1 _ 3 (cmd 0x52 chanFields)).2.1 _ _ .badDescriptor 0 (ready_of (by decide +kernel)) (by decide +kernel)
      (went (by decide +kernel)) (by decide +kernel))
  · exact goes ((h.1 _ 3 closeSlot).2.2.1 (begun_of (by decide +kernel)) (by decide +kernel) (by decide +kernel)
      (by decide +kernel) (by decide +kernel))
  · exact goes ((h.1 _ 3 (cmd 0x53 chanFields)).2.2.2.1 _ _ (ready_of (by decide +kernel)) (by decide +kernel)
      (by decide +kernel) (went (by decide +kernel)) ⟨_, (63, closing1), held (by decide +kernel), (by decide +kernel),
      (by decide +kernel)⟩)
  · exact goes ((h.1 (withChannel (channel1 .closing)) 3 closeSlot).2.2.2.2 0 63 (channel1 .closing) (by decide +kernel)
      (by decide +kernel) (by decide +kernel) (by decide +kernel) (by decide +kernel) (by decide +kernel) (by decide +kernel))
  · exact goes (((h.2 _ 0 63 (carrying 1 0 true) (by decide +kernel) (by decide +kernel)).1 (flit1 1 0 true true) (sent1 1 0
      true) [] (by decide +kernel) (by decide +kernel) (by decide +kernel) (by decide +kernel) (by decide +kernel)
      (by decide +kernel) (by decide +kernel) (by decide +kernel) (by decide +kernel) (by decide +kernel) (by decide +kernel)).1
      (by decide +kernel))
  · exact goes (((h.2 _ 0 63 (carrying 1 0 false) (by decide +kernel) (by decide +kernel)).1 (flit1 1 0 false false) (sent1 1 0
      false) [] (by decide +kernel) (by decide +kernel) (by decide +kernel) (by decide +kernel) (by decide +kernel)
      (by decide +kernel) (by decide +kernel) (by decide +kernel) (by decide +kernel) (by decide +kernel)
      (by decide +kernel)).2.1 (by decide +kernel) (by decide +kernel))
  · exact goes (((h.2 _ 0 63 (carrying 1 1 true) (by decide +kernel) (by decide +kernel)).1 (flit1 1 1 true false) (sent1 1 1
      true) [] (by decide +kernel) (by decide +kernel) (by decide +kernel) (by decide +kernel) (by decide +kernel)
      (by decide +kernel) (by decide +kernel) (by decide +kernel) (by decide +kernel) (by decide +kernel)
      (by decide +kernel)).2.2.1 (by decide +kernel) (by decide +kernel) (by decide +kernel))
  · exact goes (((h.2 _ 0 63 (carrying 1 0 true) (by decide +kernel) (by decide +kernel)).1 (flit1 1 0 true false) (sent1 1 0
      true) [] (by decide +kernel) (by decide +kernel) (by decide +kernel) (by decide +kernel) (by decide +kernel)
      (by decide +kernel) (by decide +kernel) (by decide +kernel) (by decide +kernel) (by decide +kernel)
      (by decide +kernel)).2.2.2.1
      (by decide +kernel) (by decide +kernel) (by decide +kernel) (by decide +kernel))
  · exact goes (((h.2 _ 0 63 (carrying 0 0 true) (by decide +kernel) (by decide +kernel)).1 (flit1 0 0 true false) (sent1 0 0
      true) [] (by decide +kernel) (by decide +kernel) (by decide +kernel) (by decide +kernel) (by decide +kernel)
      (by decide +kernel) (by decide +kernel) (by decide +kernel) (by decide +kernel) (by decide +kernel)
      (by decide +kernel)).2.2.2.2
      (by decide +kernel) (by decide +kernel) (by decide +kernel) (by decide +kernel))
  · exact goes (h.2 _ 0 63 (channel1 .open) (by decide +kernel) (by decide +kernel)).2.1
  · have ⟨t, _, g, _⟩ := (h.2 (withChannel { channel1 .open with notice := true }) 0 63 { channel1 .open with notice := true }
      (by decide +kernel) (by decide +kernel)).2.2.1 (by decide +kernel)
    exact ⟨t, g⟩
  · exact goes (((h.2 _ 0 63 noticed (by decide +kernel) (by decide +kernel)).2.2.2 notice1 [] (by decide +kernel)
      (by decide +kernel) (by decide +kernel)).1 (by decide +kernel) (by decide +kernel))
  · exact goes (((h.2 _ 0 63 noticed (by decide +kernel) (by decide +kernel)).2.2.2 notice1 [] (by decide +kernel)
      (by decide +kernel) (by decide +kernel)).2 (by decide +kernel))

/-- An index of one table of 64-bit codes: areas at 0x100000 and 0x200000, codes at 0x70000, side list at 0x7C000. -/
def indexBits (log2 : Nat) : Nat :=
  0x1D5A + 1 * 2 ^ 16 + 1 * 2 ^ 24 + 1 * 2 ^ 32 + log2 * 2 ^ 48 + 1 * 2 ^ 60 + 100 * 2 ^ 96 + 0x70000 * 2 ^ 192 + 0x78000 * 2 ^
    448 +
    0x7C000 * 2 ^ 512 + 10 * 2 ^ 576 + 0x1000000 * 2 ^ 640 + 0x2000000 * 2 ^ 704 + 64 * 2 ^ 768
def indexBytes : List Byte := leBytes 124 (indexBits 8) ++ leBytes 4 (crc32c (leBytes 124 (indexBits 8)))
def index1 : Index := Index.fresh 5 1 (BitVec.ofNat 1024 (indexBits 8))
def withIndex (x : Index) (s : State) : State := s.setIndex 7 x

def createFields : List (Nat × Nat) := [(128, 7), (160, 1), (192, 0x60000)]
def insertFields : List (Nat × Nat) := [(128, 7), (192, 0x61000), (256, 1)]
def withRecord : State := (withIndex index1 (withCmd 0x61 insertFields)).poke 0x61000 (leBytes 32 3)
def waitingInsert : State := (withIndex index1 (base.setSlot 3 { cmd 0x61 insertFields with stage := .waiting })).poke 0x61000
  (leBytes 32 3)
def withDelete : State := (withIndex index1 (withCmd 0x62 insertFields)).poke 0x61000 (leBytes 8 3)

theorem test_witness_IndexesTakeAndLoseRecords : Obligations.IndexesTakeAndLoseRecords →
    Goes (.indexCreate 3) ((withCmd 0x65 createFields).poke 0x60000 indexBytes) ∧
    Goes (.indexDestroy 3) (withIndex index1 (withCmd 0x65 [(128, 7), (138, 1)])) ∧
    Goes (.insert 3) withRecord ∧ Goes (.sideListAppend 3) waitingInsert ∧ Goes (.delete 3) withDelete ∧
    (SMap.look ((insertRecord ((cmd 0x61 insertFields).who 3 5) 3 (cmd 0x61 insertFields) 0).go withRecord).2.idx.indexes
      7).isSome =
      true := by
  intro h
  and_intros
  · exact goes ((h.1 _ 3 (cmd 0x65 createFields)).1 { tenant := 5, hostWin := 0, devWin := 0, winSize := 0 } indexBytes _ _ _
      (ready_of (by decide +kernel)) (by decide +kernel) (by decide +kernel) (by decide +kernel) (by decide +kernel)
        (by decide +kernel) (wentV (by decide +kernel)) (by decide +kernel) (by decide +kernel) (by decide +kernel)
        (went (by decide +kernel))).1
  · exact goes ((h.1 _ 3 (cmd 0x65 [(128, 7), (138, 1)])).2 index1 (ready_of (by decide +kernel)) (by decide +kernel)
      (by decide +kernel) (by decide +kernel))
  · exact goes ((h.2.1 _ _ 3 (cmd 0x61 insertFields) _ index1 () (by decide +kernel) (by decide +kernel) (by decide +kernel)
      (held (by decide +kernel))).1 (ready_of (by decide +kernel)) (by decide +kernel) (wentV (by decide +kernel)))
  · exact goes ((h.2.1 _ _ 3 { cmd 0x61 insertFields with stage := .waiting } _ index1 () (by decide +kernel) (by decide +kernel)
      (by decide +kernel) (held (by decide +kernel))).2.1 (by decide +kernel) (by decide +kernel) (by decide +kernel)
      (by decide +kernel) (by decide +kernel) (by decide +kernel) (by decide +kernel) (wentV (by decide +kernel)))
  · exact goes ((h.2.1 _ _ 3 (cmd 0x62 insertFields) _ index1 () (by decide +kernel) (by decide +kernel) (by decide +kernel)
      (held (by decide +kernel))).2.2 (ready_of (by decide +kernel)) (by decide +kernel) (wentV (by decide +kernel)))
  · have ⟨y, g, _⟩ := h.2.2 withRecord _ ((cmd 0x61 insertFields).who 3 5) 3 (cmd 0x61 insertFields) 0 index1 ()
      (by decide +kernel) (wentV (by decide +kernel))
    exact g ▸ rfl

def merging1 (m : MergeState) (started commit : Bool) (failure : Option Status) : Index :=
  { index1 with merge := m, buildStarted := started, commit, failure }

/-- An index of one bucket, so that its build is short. -/
def small1 : Index := { Index.fresh 5 1 (BitVec.ofNat 1024 (0x2000000 * 2 ^ 704 + 64 * 2 ^ 768 + 0x1000000 * 2 ^ 640)) with
  merge := .building }
def withSmall : State := (withIndex small1 base).poke 0x1000000 (bucketBytes 1 0 0 [] 0)

theorem test_witness_MergesBuildCommitAndDiscard : Obligations.MergesBuildCommitAndDiscard →
    Goes (.merge 3) (withIndex index1 (withCmd 0x63 [(128, 7)])) ∧
    Goes (.mergeDiscard 3) (withIndex (merging1 .built true false none) (withCmd 0x63 [(128, 7), (257, 1)])) ∧
    Goes (.mergeBuildStart 7) withSmall ∧
    Goes (.buildDone 7) (withIndex (merging1 .building true true none) base) ∧
    Goes (.buildDone 7) (withIndex (merging1 .building true false none) base) ∧
    Goes (.buildDone 7) (withIndex (merging1 .building true true (some .resource)) base) ∧
    Goes (.indexCommit 3) (withIndex (merging1 .built true false none) (withCmd 0x64 [(128, 7)])) := by
  intro h
  and_intros
  · exact goes ((h _ 3 7 (cmd 0x63 [(128, 7)]) index1 (by decide +kernel)).1 (ready_of (by decide +kernel)) (by decide +kernel)
      (by decide +kernel) (by decide +kernel) (by decide +kernel))
  · exact goes ((h _ 3 7 (cmd 0x63 [(128, 7), (257, 1)]) (merging1 .built true false none) (by decide +kernel)).2.1
      (ready_of (by decide +kernel)) (by decide +kernel) (by decide +kernel) (by decide +kernel))
  · exact goes ((h withSmall 3 7 (cmd 0x63 [(128, 7)]) small1 (by decide +kernel)).2.2.1 _ () (by decide +kernel)
      (by decide +kernel) (by decide +kernel) (wentV (by decide +kernel)))
  · exact goes (((h _ 3 7 (cmd 0x63 []) (merging1 .building true true none) (by decide +kernel)).2.2.2.1 (by decide +kernel)
      (by decide +kernel) (by decide +kernel)).1 (by decide +kernel) (by decide +kernel))
  · exact goes (((h _ 3 7 (cmd 0x63 []) (merging1 .building true false none) (by decide +kernel)).2.2.2.1 (by decide +kernel)
      (by decide +kernel) (by decide +kernel)).2.1 (by decide +kernel) (by decide +kernel))
  · exact goes (((h _ 3 7 (cmd 0x63 []) (merging1 .building true true (some .resource)) (by decide +kernel)).2.2.2.1
      (by decide +kernel) (by decide +kernel) (by decide +kernel)).2.2 .resource (by decide +kernel))
  · exact goes ((h _ 3 7 (cmd 0x64 [(128, 7)]) (merging1 .built true false none) (by decide +kernel)).2.2.2.2
      (ready_of (by decide +kernel)) (by decide +kernel) (by decide +kernel))

/-- A query for the nearest of one id, 3, without re-rank. -/
def queryBits : Nat := 0x9E41 + 2 ^ 16 + 1 * 2 ^ 32 + 1 * 2 ^ 62 + 3 * 2 ^ 288 + 1 * 2 ^ 352
def queryBytes : List Byte := leBytes 192 queryBits
def searchFields : List (Nat × Nat) := [(128, 7), (192, 0x60000), (256, 0x62000)]
def withQuery (sl : Slot) : State := (withIndex index1 (base.setSlot 3 sl)).poke 0x60000 queryBytes
def searchSlot : Slot := cmd 0x60 searchFields
def noPlace : State :=
  { withQuery searchSlot with idx := { (withQuery searchSlot).idx with searchUnits := List.replicate 1024 1 } }

def legPacket : Packet := packet 0x04 0 head0 (partPayload 0x60 1 (searchSlot.seq) searchSlot.desc queryBytes)

/-- Package 2 of a rack, with a part of slot 3 that package 9 serves. -/
def asked (sl : Slot) (kind : Nat) (inputs : List Byte) : State :=
  { base.setSlot 3 sl with
    fab := { (rack none).fab with tags := [(1,
      { dst := 9, type := 0x04, packet := packet 0x04 0 head0 (partPayload sl.opcode kind sl.seq sl.desc inputs), reissues := 0
        held := false, since := 0, purpose := .slotPart 3 })] } }

def merging2 : Merging := { awaited := [9], failed := [], twin := false, hits := [], counts := .zero }
def withShard : State :=
  { asked searchSlot 1 queryBytes with idx := { base.idx with merging := [(3, merging2)] } }
def shardAnswer : Packet := packet 0x0E 0 head0 (partPayload 0x60 1 searchSlot.seq searchSlot.desc (resultHeader 0 0 .zero))

theorem test_witness_SearchesRunAndMergeTheirShards : Obligations.SearchesRunAndMergeTheirShards →
    Goes (.search 3) (withQuery searchSlot) ∧ Goes (.search 3) noPlace ∧
    Goes (.searchStart 3) (withQuery { searchSlot with stage := .waiting }) ∧
    Goes (.searchLeg legPacket) (withIndex index1 (rack none)) ∧ Goes (.shardResult shardAnswer) withShard := by
  intro h
  and_intros
  · exact goes ((h _ base 3 searchSlot).1 index1 _ _ _ _ _ _ (ready_of (by decide +kernel)) (by decide +kernel)
      (by decide +kernel) (by decide +kernel) (by decide +kernel) (by decide +kernel) (by decide +kernel)
      (went (by decide +kernel)) (went (by decide +kernel)) (went (by decide +kernel)))
  · exact goes ((h noPlace base 3 searchSlot).2.1 (ready_of (by decide +kernel)) (by decide +kernel) (by decide +kernel))
  · exact goes ((h _ _ 3 { searchSlot with stage := .waiting }).2.2.1 _ (by decide +kernel) (by decide +kernel)
      (by decide +kernel) (by decide +kernel) (by decide +kernel) (went (by decide +kernel)))
  · exact goes ((h _ _ 3 searchSlot).2.2.2.1 legPacket index1 _ (received_of (by decide +kernel)) (by decide +kernel)
      (by decide +kernel) (by decide +kernel) (by decide +kernel) (by decide +kernel) (went (by decide +kernel)))
  · exact goes ((h withShard base 3 searchSlot).2.2.2.2 shardAnswer _ merging2 (held (by decide +kernel)) (by decide +kernel)
      (by decide +kernel) (by decide +kernel) (by decide +kernel) (by decide +kernel) (by decide +kernel) (by decide +kernel)
      (by decide +kernel))

/-- A table of 4 rows of 8 INT8 elements at 0x70000, with shadow rows and tags, held by this package alone. -/
def tableBits : Nat :=
  0xE3B7 + 2 ^ 16 + 7 * 2 ^ 24 + 8 * 2 ^ 32 + 4 * 2 ^ 64 + 0x70000 * 2 ^ 128 + 0x71000 * 2 ^ 192 + 0x72000 * 2 ^ 256 + 1 * 2 ^
    320 +
    1 * 2 ^ 384
def tableBytes : List Byte := leBytes 60 tableBits ++ leBytes 4 (crc32c (leBytes 60 tableBits))
def table1 : Table := Table.fresh 5 1 (BitVec.ofNat 512 tableBits) (2 ^ 40)
def withTable (x : Table) (s : State) : State := s.setTable 6 x

def gatherFields : List (Nat × Nat) := [(128, 6), (142, 7), (160, 0xFFFF), (176, 1), (192, 0x60000), (256, 0x62000)]
def gatherSlot : Slot := cmd 0x70 gatherFields
def withBag (sl : Slot) : State :=
  ((withTable table1 (base.setSlot 3 sl)).poke 0x60000 (leBytes 8 (2 ^ 32))).poke 0x60040 (leBytes 8 2)
def gatherBusy : State := { withBag gatherSlot with idx := { base.idx with gatherUnits := List.replicate 16 1 } }

def scatterSlot : Slot := cmd 0x71 [(128, 6), (141, 7), (160, 1), (192, 0x60000), (256, 0x61000)]
def withUpdates : State := ((withTable table1 (base.setSlot 3 scatterSlot)).poke 0x60000 (leBytes 8 2)).poke 0x61000 (leBytes 8 5)
def lastWriter : Slot := cmd 0x71 [(128, 6), (140, 1), (141, 7), (320, 3)]
def withTag : State := (withTable table1 base).poke 0x72010 (leBytes 8 (2 ^ 63 + 5))

theorem test_witness_GathersAndScattersRun : Obligations.GathersAndScattersRun →
    Goes (.gather 3) (withBag gatherSlot) ∧ Goes (.gather 3) gatherBusy ∧
    Goes (.gatherStart 3) (withBag { gatherSlot with stage := .waiting }) ∧ Goes (.scatter 3) withUpdates ∧
    ((applyRow (lastWriter.who 3 2) none 0 lastWriter.desc table1 2 [7]).go withTag).1 = .ok none := by
  intro h
  and_intros
  · exact goes ((h.1 _ _ _ 3 gatherSlot _ _ () (by decide +kernel) (by decide +kernel) (held (by decide +kernel))
      (wentV (by decide +kernel)) (held (by decide +kernel))).1 _ (ready_of (by decide +kernel)) (by decide +kernel) rfl
      (wentV (by decide +kernel)))
  · exact goes ((h.1 gatherBusy gatherBusy _ 3 gatherSlot gatherSlot _ () (by decide +kernel) (by decide +kernel)
      (by decide +kernel) (wentV (by decide +kernel)) (held (by decide +kernel))).2.1 (ready_of (by decide +kernel))
      (by decide +kernel))
  · exact goes ((h.1 _ _ _ 3 { gatherSlot with stage := .waiting } _ _ () (by decide +kernel) (by decide +kernel)
      (held (by decide +kernel)) (wentV (by decide +kernel)) (held (by decide +kernel))).2.2 _ (by decide +kernel)
      (by decide +kernel) (by decide +kernel) (by decide +kernel) rfl (by decide +kernel) (wentV (by decide +kernel)))
  · exact goes (h.2.1 _ _ _ _ 3 _ scatterSlot _ _ () (ready_of (by decide +kernel)) (by decide +kernel)
      (wentV (by decide +kernel)) (held (by decide +kernel)) (by decide +kernel) (held (by decide +kernel))
      (went (by decide +kernel)) (wentV (by decide +kernel)) (opt_all (by decide +kernel)))
  · exact congrArg Prod.fst (h.2.2 withTag _ (lastWriter.who 3 2) none 0 2 _ lastWriter.desc table1 [7] (by decide +kernel)
      (went (by decide +kernel)) (by decide +kernel) (by decide +kernel))

def replaceSlot : Slot := cmd 0x72 [(128, 6), (160, 1), (208, 1), (256, 0x63000)]
def replacing : Slot := { replaceSlot with stage := .running }
def replace1 (cursor : Nat) : Replace :=
  { slot := some replaceSlot.seq, first := 1, count := 1, srcVa := 0x63000, asid := 1, cursor, status := .ok }
def pinned (version : Nat) (stale : Bool) (s : State) : State :=
  { s with emb := { s.emb with pins := [(9, { table := 6, tenant := 5, version, stale })] } }
def tableCreateSlot : Slot := cmd 0x75 [(128, 6), (160, 1), (192, 0x60000)]
def withTableBytes : State := (base.setSlot 3 tableCreateSlot).poke 0x60000 tableBytes

theorem test_witness_TablesVersionsAndPins : Obligations.TablesVersionsAndPins →
    Goes (.tableReplace 3) (withTable table1 (base.setSlot 3 replaceSlot)) ∧
    Goes (.replaceStart 6) (withTable { table1 with running := [replacing.seq] } (base.setSlot 3 replacing)) ∧
    Goes (.replaceDone 6) (withTable { table1 with replacing := some (replace1 2) } (base.setSlot 3 replacing)) ∧
    Goes (.tablePin 3) (withTable table1 (withCmd 0x73 [(128, 6)])) ∧
    Goes (.tableUnpin 3) (pinned 1 true (withTable table1 (withCmd 0x74 [(160, 9)]))) ∧
    Goes (.pinStale 9) { pinned 1 false (withTable { table1 with version := 2 } base) with time := 2 ^ 50 } ∧
    Goes (.tableCreate 3) withTableBytes ∧ Goes (.tableDestroy 3) (withTable table1 (withCmd 0x75 [(128, 6), (140, 1)])) := by
  intro h
  and_intros
  · exact goes ((h.1 _ 3 6 replaceSlot table1 (by decide +kernel) (by decide +kernel)).1 (ready_of (by decide +kernel))
      (by decide +kernel) (by decide +kernel) (by decide +kernel))
  · exact goes ((h.1 _ 3 6 replacing { table1 with running := [replacing.seq] } (by decide +kernel) (by decide +kernel)).2.1 _ ()
      (by decide +kernel) (by decide +kernel) (by decide +kernel) (by decide +kernel) (wentV (by decide +kernel)))
  · exact goes ((h.1 _ 3 6 replacing { table1 with replacing := some (replace1 2) } (by decide +kernel) (by decide +kernel)).2.2
      (replace1 2) 3 replacing (by decide +kernel) (by decide +kernel) (by decide +kernel) (by decide +kernel))
  · exact goes ((h.2.1 _ 3 (cmd 0x73 [(128, 6)]) table1).1 (ready_of (by decide +kernel)) (by decide +kernel) (by decide +kernel)
      (by decide +kernel) (by decide +kernel))
  · exact goes ((h.2.1 _ 3 (cmd 0x74 [(160, 9)]) table1).2.1 { table := 6, tenant := 5, version := 1, stale := true }
      (ready_of (by decide +kernel)) (by decide +kernel) (by decide +kernel) (by decide +kernel) (by decide +kernel))
  · exact goes ((h.2.1 _ 3 (cmd 0x73 []) { table1 with version := 2 }).2.2 9 { table := 6, tenant := 5, version := 1, stale :=
      false }
      (by decide +kernel) (by decide +kernel) (by decide +kernel) (by decide +kernel) (by decide +kernel) (by decide +kernel)
        (by decide +kernel))
  · exact goes ((h.2.2 withTableBytes 3 tableCreateSlot _).1 { tenant := 5, hostWin := 0, devWin := 0, winSize := 0 } tableBytes _
      (ready_of (by decide +kernel)) (by decide +kernel) (by decide +kernel) (by decide +kernel) (by decide +kernel)
        (by decide +kernel) (by decide +kernel) (wentV (by decide +kernel)) (by decide +kernel) (by decide +kernel)
        (held (by decide +kernel)) (by decide +kernel) (by decide +kernel) (by decide +kernel) (by decide +kernel)
        (by decide +kernel) (by decide +kernel) (by decide +kernel) (by decide +kernel) (by decide +kernel) (by decide +kernel)
        (by decide +kernel)).1
  · exact goes ((h.2.2 _ 3 (cmd 0x75 [(128, 6), (140, 1)]) replaceSlot).2 table1 (ready_of (by decide +kernel))
      (by decide +kernel) (by decide +kernel) (by decide +kernel) (by decide +kernel))

def withPort (p : Port) (s : State) : State := s.setPort 1 p
def cabled : Port := { Port.down with cable := true }
def trains : Port := { Port.down with state := .training }
def keyed : Port := { Port.down with state := .keyWait, key := some [], keyId := 9 }
def upPort : Port := { Port.down with state := .up, lanes := 4, key := some [] }
def retrains (fails : Nat) : Port := { upPort with state := .retrain, retrainFails := fails }
def rackBase : State := { base with fab := { base.fab with id := 2, composed := true } }

theorem test_witness_PortsTrainComeUpAndRetrain : Obligations.PortsTrainComeUpAndRetrain →
    Goes (.portTraining 1) (withPort cabled base) ∧ Goes (.trainingRetry 1) (withPort cabled base) ∧
    Goes (.trainingDone 1 [0, 1, 2, 3]) (withPort trains rackBase) ∧ Goes (.trainingDone 1 [0]) (withPort trains base) ∧
    Goes (.trainingTimeout 1) (withPort trains base) ∧ Goes (.keyCheck 1 9) (withPort keyed base) ∧
    Goes (.lockLost 1) (withPort upPort base) ∧ Goes (.retrainRequest 1) (withPort upPort base) ∧
    Goes (.enterLowRate 1) (withPort upPort base) ∧ Goes (.exitLowRate 1) (withPort { upPort with state := .lowRate } base) ∧
    Goes (.retrainTimeout 1) (withPort (retrains 0) base) ∧ Goes (.retrainTimeout 1) (withPort (retrains 1000) base) ∧
    Goes (.cablePresent 1 2500) base ∧ Goes (.linkCtlResend 1) base := by
  intro h
  and_intros
  · exact goes ((h (withPort cabled base) 1).1 (by decide +kernel) (by decide +kernel) (by decide +kernel) (by decide +kernel)
      (by decide +kernel)).1
  · exact goes ((h (withPort cabled base) 1).1 (by decide +kernel) (by decide +kernel) (by decide +kernel) (by decide +kernel)
      (by decide +kernel)).2
  · exact goes ((h (withPort trains rackBase) 1).2.1 _ (by decide +kernel) (by decide +kernel) (by decide +kernel)
      (by decide +kernel))
  · exact goes ((h (withPort trains base) 1).2.2.1 [0] (by decide +kernel) (by decide +kernel) (by simp; omega)
      (by decide +kernel) (by decide +kernel) (by decide +kernel))
  · exact goes ((h (withPort trains base) 1).2.2.2.1 (by decide +kernel))
  · exact goes ((h (withPort keyed base) 1).2.2.2.2.1 9 (by decide +kernel) (by decide +kernel) (by decide +kernel)
      (by decide +kernel))
  · exact goes ((h (withPort upPort base) 1).2.2.2.2.2.1 (by decide +kernel)).1
  · exact goes ((h (withPort upPort base) 1).2.2.2.2.2.1 (by decide +kernel)).2.1
  · exact goes ((h (withPort upPort base) 1).2.2.2.2.2.1 (by decide +kernel)).2.2
  · exact goes ((h (withPort { upPort with state := .lowRate } base) 1).2.2.2.2.2.2.1 (by decide +kernel))
  · exact goes (((h (withPort (retrains 0) base) 1).2.2.2.2.2.2.2.1 (by decide +kernel)).1 (by decide +kernel))
  · exact goes (((h (withPort (retrains 1000) base) 1).2.2.2.2.2.2.2.1 (by decide +kernel)).2 (by decide +kernel)).1
  · exact goes ((h base 1).2.2.2.2.2.2.2.2.1 2500 (by decide +kernel))
  · exact goes (h base 1).2.2.2.2.2.2.2.2.2

def linkFlit (header : Nat) (crcOk tagOk : Bool) : LinkFlit :=
  { header := BitVec.ofNat 128 header, payload := List.replicate 224 0, crcOk, tagOk }

def unkeyed : Port := { Port.down with authFailed := true }

theorem test_witness_TrainingTakesTheWidestWidth : Obligations.TrainingTakesTheWidestWidth →
    Goes (.trainingDone 1 []) (withPort trains base) ∧ Goes (.trainingDone 1 [1, 3, 2]) (withPort trains base) := by
  intro h
  and_intros
  · exact goes ((h (withPort trains base) 1 [] (by decide +kernel)).1 (by decide +kernel)).1
  · exact goes ((h (withPort trains base) 1 [1, 3, 2] (by decide +kernel)).2 2 (by decide +kernel))

theorem test_witness_AuthenticationFailureTakesThePortDown : Obligations.AuthenticationFailureTakesThePortDown →
    Goes (.flitReceive 1 (linkFlit 0 true false)) (withPort upPort base) ∧ Goes (.portTraining 1) (withPort unkeyed base) ∧
    Goes (.linkKey (BitVec.ofNat 128 (3 + 2 ^ 24)) (List.replicate 32 7)) (withPort unkeyed base) := by
  intro h
  and_intros
  · exact goes ((h _ 1 (linkFlit 0 true false)).1 (by decide +kernel) (by decide +kernel) (.inl rfl)).1
  · exact goes ((h (withPort unkeyed base) 1 (linkFlit 0 true true)).2.1 (by decide +kernel) (by decide +kernel) [] 0 0 0).1
  · exact goes ((h _ 1 (linkFlit 0 true true)).2.2 (BitVec.ofNat 128 (3 + 2 ^ 24)) _ (by decide +kernel) (by decide +kernel)
      (by decide +kernel) (by decide +kernel) (by decide +kernel) (by decide +kernel) (by decide +kernel) (by decide +kernel))

def naked (seq count : Nat) : Port := { upPort with nakSeq := seq, nakCount := count }
theorem test_witness_FlitsAreCheckedReplayedAndRekeyed : Obligations.FlitsAreCheckedReplayedAndRekeyed →
    Goes (.flitReceive 1 (linkFlit 0 false true)) (withPort upPort base) ∧
    Goes (.flitReceive 1 (linkFlit (2 ^ 64) true true)) (withPort upPort base) ∧
    Goes (.flitReceive 1 (linkFlit 4095 true true)) (withPort upPort base) ∧
    Goes (.flitReceive 1 (linkFlit 0 true true)) (withPort upPort base) ∧
    Goes (.nak 1 4095) (withPort (naked 4 0) base) ∧ Goes (.nak 1 4) (withPort (naked 4 1000) base) ∧
    Goes (.rekey 1 0) (withPort upPort base) ∧ Goes (.rekeySend 1) (withPort { upPort with flitsSinceKey := 2 ^ 40 } base) := by
  intro h
  and_intros
  · exact goes ((h (withPort upPort base) 1 (linkFlit 0 false true) (by decide +kernel)).1 (by decide +kernel))
  · exact goes ((h (withPort upPort base) 1 (linkFlit (2 ^ 64) true true) (by decide +kernel)).2.1 (by decide +kernel)
      (by decide +kernel))
  · exact goes (((h (withPort upPort base) 1 (linkFlit 4095 true true) (by decide +kernel)).2.2.1 (by decide +kernel)
      (by decide +kernel) (by decide +kernel) (by decide +kernel) (by decide +kernel) (by decide +kernel)).1 (by decide +kernel))
  · exact goes (((h (withPort upPort base) 1 (linkFlit 0 true true) (by decide +kernel)).2.2.1 (by decide +kernel)
      (by decide +kernel) (by decide +kernel) (by decide +kernel) (by decide +kernel) (by decide +kernel)).2 (by decide +kernel))
  · exact goes (((h (withPort (naked 4 0) base) 1 (linkFlit 0 true true) (by decide +kernel)).2.2.2.1 4095).1 (by decide +kernel)
      (by decide +kernel))
  · exact goes (((h (withPort (naked 4 1000) base) 1 (linkFlit 0 true true) (by decide +kernel)).2.2.2.1 4).2 (by decide +kernel)
      (by decide +kernel) (by decide +kernel))
  · exact goes ((h (withPort upPort base) 1 (linkFlit 0 true true) (by decide +kernel)).2.2.2.2.1 0 (by decide +kernel))
  · exact goes ((h (withPort { upPort with flitsSinceKey := 2 ^ 40 } base) 1 (linkFlit 0 true true)
      (by decide +kernel)).2.2.2.2.2 (by decide +kernel) (by decide +kernel))

/-- A request of package 9 with an answer to nothing before it. -/
def request (type addr len : Nat) (payload : List Byte) : Packet := packet type addr { head0 with len } payload
def closed : Head := { head0 with len := 8, group := 3, unit := 4 }
def groupPacket (type prior : Nat) : Packet := packet type 0x10000 { closed with prior, ctr := 0x10100 } (leBytes 8 7)
def grouped (count : Nat) (failed : Option Nat) (held : List Packet) : State :=
  { rack none with fab := { (rack none).fab with groups := [(9 * 2 ^ 20 + 4 * 16 + 3, { count, failed, held })] } }

def atomicPacket : Packet := packet 0x03 0x10000 { head0 with asize := 1 } (leBytes 16 7)
def casPacket : Packet := packet 0x03 ledgerWordAddress { head0 with asize := 1 } (leBytes 16 7)
def partPacket : Packet := packet 0x04 0x10000 { head0 with len := 8 } (partPayload 0x42 0 1 0 [])

theorem test_witness_RequestsAreServedAtTheirHome : Obligations.RequestsAreServedAtTheirHome →
    Goes (.rd (request 0x01 0x10000 64 [])) (rack none) ∧ Goes (.rd (request 0x01 (2 ^ 30) 64 [])) (rack none) ∧
    Goes (.remoteFill (request 0x02 0x10000 64 [])) (rack none) ∧ Goes (.atomic atomicPacket) (rack none) ∧
    Goes (.atomic casPacket) (rack none) ∧ Goes (.cmd partPacket) (rack none) ∧ Goes (.atomic partPacket) (rack none) ∧
    Goes (.cmd casPacket) (rack none) := by
  intro h
  and_intros
  · exact goes ((h (rack none) _ _ (request 0x01 0x10000 64 [])).1 _ _ _ (received_of (by decide +kernel))
      (went (by decide +kernel)) (went (by decide +kernel)))
  · exact goes ((h (rack none) _ (rack none) (request 0x01 (2 ^ 30) 64 [])).2.1 .notPermitted (received_of (by decide +kernel))
      (failed (by decide +kernel)))
  · exact goes ((h (rack none) _ (rack none) (request 0x02 0x10000 64 [])).2.2.1 0x10000 _ _ (received_of (by decide +kernel))
      (not_scratch (by decide +kernel)) (wentS (by decide +kernel) (by decide +kernel)) (wentS (by decide +kernel)
      (by decide +kernel)) (went (by decide +kernel)))
  · exact goes ((h (rack none) _ (rack none) atomicPacket).2.2.2.1 0x10000 _ (received_of (by decide +kernel))
      (by decide +kernel) (by decide +kernel) (by decide +kernel) (wentS (by decide +kernel) (by decide +kernel))
      (wentS (by decide +kernel) (by decide +kernel)) (went (by decide +kernel)))
  · exact goes ((h (rack none) _ (rack none) casPacket).2.2.2.2.1 _ (received_of (by decide +kernel)) (by decide +kernel)
      (went (by decide +kernel)))
  · exact goes ((h (rack none) _ (rack none) partPacket).2.2.2.2.2.1 _ _ _ (received_of (by decide +kernel))
      (went (by decide +kernel)))
  · exact goes ((h (rack none) (rack none) (rack none) partPacket).2.2.2.2.2.2.1 (by decide +kernel))
  · exact goes ((h (rack none) (rack none) (rack none) casPacket).2.2.2.2.2.2.2 (by decide +kernel))

def writePacket (g : Bool) : Packet := packet 0x06 0x10000 { closed with grouped := g } (leBytes 8 7)
def drained : State := { rack none with ext := [(0, { extent5 with state := .draining })] }

theorem test_witness_GroupedWritesAreCountedAndClosed : Obligations.GroupedWritesAreCountedAndClosed →
    Goes (.wr (writePacket false)) (rack none) ∧ Goes (.wr (writePacket true)) (rack none) ∧
    Goes (.wr (writePacket true)) drained ∧ Goes (.groupEnd (groupPacket 0x08 2)) (grouped 1 none [groupPacket 0x08 2]) ∧
    Goes (.groupEnd (groupPacket 0x08 2)) (grouped 2 none []) ∧ Goes (.groupEnd (groupPacket 0x08 2)) (grouped 2 (some 0x44) []) ∧
    Goes (.wrFinal (groupPacket 0x07 2)) (grouped 2 none []) := by
  intro h
  and_intros
  · exact goes (((h (rack none) _ (writePacket false)).1 _ (received_of (by decide +kernel)) (went (by decide +kernel))).1
      (by decide +kernel))
  · exact goes (((h (rack none) _ (writePacket true)).1 _ (received_of (by decide +kernel)) (went (by decide +kernel))).2
      (by decide +kernel) (by decide +kernel))
  · exact goes ((h drained _ (writePacket true)).2.1 (received_of (by decide +kernel)) (by decide +kernel) (failed
      (by decide +kernel)) (by decide +kernel) (by decide +kernel))
  · exact goes (((h (grouped 1 none [groupPacket 0x08 2]) drained (groupPacket 0x08 2)).2.2.1 (received_of (by decide +kernel))
      (by decide +kernel)).1 (by decide +kernel) (by decide +kernel))
  · exact goes (((h (grouped 2 none []) drained (groupPacket 0x08 2)).2.2.1 (received_of (by decide +kernel))
      (by decide +kernel)).2.1 (by decide +kernel) (by decide +kernel))
  · exact goes (((h (grouped 2 (some 0x44) []) drained (groupPacket 0x08 2)).2.2.1 (received_of (by decide +kernel))
      (by decide +kernel)).2.2 (by decide +kernel) (by decide +kernel))
  · exact goes ((h (grouped 2 none []) _ (groupPacket 0x07 2)).2.2.2 _ _ _ _ _ 0x10100 _ _ (received_of (by decide +kernel))
      (by decide +kernel) (wentS (by decide +kernel) (by decide +kernel)) (by decide +kernel) (by decide +kernel)
      (went (by decide +kernel)) (wentV (by decide +kernel)) (wentS (by decide +kernel) (by decide +kernel))
      (wentS (by decide +kernel) (by decide +kernel)) (went (by decide +kernel)) rfl (went (by decide +kernel)))

/-- Package 2 of a rack, with a request in flight under tag 1. -/
def inFlight (type reissues since : Nat) (purpose : Purpose) : State :=
  { rack none with fab := { (rack none).fab with tags := [(1,
      { dst := 9, type, packet := packet type 0x10000 head0 [], reissues, held := false, since, purpose })] } }
def answer (type : Nat) (uncached : Bool) (payload : List Byte) : Packet := packet type 0x10000 { head0 with uncached } payload
def legInFlight : State :=
  { rack none with fab := { (rack none).fab with tags := [(1,
      { dst := 9, type := 0x04, packet := legPacket, reissues := 0, held := false, since := 0, purpose := .slotPart 3 })] } }

theorem test_witness_ResponsesEndTheirRequests : Obligations.ResponsesEndTheirRequests →
    Goes (.rdRsp (answer 0x0B false [])) (rack none) ∧ Goes (.fillRsp (answer 0x0C false [])) (rack none) ∧
    Goes (.atomicRsp (answer 0x0D false [])) (rack none) ∧ Goes (.cmdRsp (answer 0x0E false [])) (rack none) ∧
    Goes (.pubRsp (answer 0x0F false [])) (rack none) ∧ Goes (.wrAck (answer 0x10 false [])) (rack none) ∧
    Goes (.rdRsp (answer 0x0B false line64)) (inFlight 0x01 0 0 (.slotRead 3)) ∧
    Goes (.atomicRsp (answer 0x0D false (leBytes 8 1))) (inFlight 0x03 0 0 (.slotAtomic 3)) ∧
    Goes (.pubRsp (answer 0x0F false [])) (inFlight 0x05 0 0 (.publish 3)) ∧
    Goes (.wrAck (answer 0x10 false [])) (inFlight 0x06 0 0 (.writeBack 1)) ∧
    Goes (.cmdRsp (answer 0x0E false [])) (inFlight 0x04 0 0 (.slotPart 3)) ∧ Goes (.cmdRsp shardAnswer) legInFlight ∧
    Goes (.fillRsp (answer 0x0C false line64)) (inFlight 0x02 0 0 (.agentFill 3)) ∧
    Goes (.fillRsp (answer 0x0C true line64)) (inFlight 0x02 0 0 (.agentFill 3)) ∧
    Goes (.pending (answer 0x11 false [])) (inFlight 0x01 0 0 (.slotRead 3)) ∧
    Goes (.noRoute (answer 0x12 false [])) (inFlight 0x01 0 0 (.slotRead 3)) := by
  intro h
  and_intros
  · exact goes (((h (rack none) (answer 0x0B false [])).1 (by decide +kernel) (by decide +kernel)).1 (by decide +kernel))
  · exact goes (((h (rack none) (answer 0x0C false [])).1 (by decide +kernel) (by decide +kernel)).2.1 (by decide +kernel))
  · exact goes (((h (rack none) (answer 0x0D false [])).1 (by decide +kernel) (by decide +kernel)).2.2.1 (by decide +kernel))
  · exact goes (((h (rack none) (answer 0x0E false [])).1 (by decide +kernel) (by decide +kernel)).2.2.2.1 (by decide +kernel))
  · exact goes (((h (rack none) (answer 0x0F false [])).1 (by decide +kernel) (by decide +kernel)).2.2.2.2.1 (by decide +kernel))
  · exact goes (((h (rack none) (answer 0x10 false [])).1 (by decide +kernel) (by decide +kernel)).2.2.2.2.2 (by decide +kernel))
  · exact goes (((h (inFlight 0x01 0 0 (.slotRead 3)) (answer 0x0B false line64)).2.1 _ (by decide +kernel)
      (held (by decide +kernel))).1 (by decide +kernel))
  · exact goes (((h (inFlight 0x03 0 0 (.slotAtomic 3)) (answer 0x0D false (leBytes 8 1))).2.1 _ (by decide +kernel)
      (held (by decide +kernel))).2.1 (by decide +kernel))
  · exact goes (((h (inFlight 0x05 0 0 (.publish 3)) (answer 0x0F false [])).2.1 _ (by decide +kernel)
      (held (by decide +kernel))).2.2.1 (by decide +kernel))
  · exact goes (((h (inFlight 0x06 0 0 (.writeBack 1)) (answer 0x10 false [])).2.1 _ (by decide +kernel)
      (held (by decide +kernel))).2.2.2.1 (by decide +kernel))
  · exact goes (((h (inFlight 0x04 0 0 (.slotPart 3)) (answer 0x0E false [])).2.1 _ (by decide +kernel)
      (held (by decide +kernel))).2.2.2.2.1 (by decide +kernel) (by decide +kernel))
  · exact goes (((h legInFlight shardAnswer).2.1 _ (by decide +kernel) (held (by decide +kernel))).2.2.2.2.2.1
      (by decide +kernel) (by decide +kernel))
  · exact goes ((((h (inFlight 0x02 0 0 (.agentFill 3)) (answer 0x0C false line64)).2.1 _ (by decide +kernel)
      (held (by decide +kernel))).2.2.2.2.2.2 (by decide +kernel) (by decide +kernel)).1 (by decide +kernel))
  · exact goes ((((h (inFlight 0x02 0 0 (.agentFill 3)) (answer 0x0C true line64)).2.1 _ (by decide +kernel)
      (held (by decide +kernel))).2.2.2.2.2.2 (by decide +kernel) (by decide +kernel)).2 (by decide +kernel))
  · exact goes ((h (inFlight 0x01 0 0 (.slotRead 3)) (answer 0x11 false [])).2.2.1 (by decide +kernel) (by decide +kernel))
  · exact goes ((h (inFlight 0x01 0 0 (.slotRead 3)) (answer 0x12 false [])).2.2.2 (by decide +kernel) (by decide +kernel))

def holding1 : Holding :=
  { source := 9, tag := 1, packet := atomicPacket, stage := 0, resp := [], answer := none, lines := [] }
def noticing : State := { rack none with fab := { (rack none).fab with notices := [{ id := 4, destination := 9, release := true
  }] } }

theorem test_witness_RequestTimersAndNotices : Obligations.RequestTimersAndNotices →
    Goes (.pendingTimer 9 1) { rack none with fab := { (rack none).fab with holding := [holding1] } } ∧
    Goes (.requestTimer 1) (inFlight 0x01 0 1 (.slotRead 3)) ∧
    Goes (.requestTimer 1) { inFlight 0x01 0 1 (.slotRead 3) with time := 2 ^ 50 } ∧
    Goes (.requestTimer 1) { inFlight 0x01 1000 1 (.slotRead 3) with time := 2 ^ 50 } ∧
    Goes (.storedResponseExpiry 9 1) base ∧ Goes (.takeoverNotice 2 9) (rack none) ∧ Goes (.takeoverNotice 4 9) (rack none) ∧
    Goes (.releaseIdNotice 4 9) (rack none) ∧ Goes (.takeoverNotice 4 9) base ∧ Goes (.noticeAck 4 9 true) noticing ∧
    Goes (.noticeRepeat 4 9) noticing := by
  intro h
  and_intros
  · exact goes ((h { rack none with fab := { (rack none).fab with holding := [holding1] } } 9 1 0 0).1 holding1
      (by decide +kernel))
  · exact goes (((h (inFlight 0x01 0 1 (.slotRead 3)) 9 1 0 0).2.1 _ (held (by decide +kernel))).1 (by decide +kernel))
  · exact goes (((h { inFlight 0x01 0 1 (.slotRead 3) with time := 2 ^ 50 } 9 1 0 0).2.1 _ (held (by decide +kernel))).2.1
      (by decide +kernel) (by decide +kernel))
  · exact goes (((h { inFlight 0x01 1000 1 (.slotRead 3) with time := 2 ^ 50 } 9 1 0 0).2.1 _ (held (by decide +kernel))).2.2
      (by decide +kernel) (by decide +kernel))
  · exact goes (h base 9 1 0 0).2.2.1
  · exact goes (((h (rack none) 9 1 2 0).2.2.2.1 (by decide +kernel)).1 (by decide +kernel))
  · exact goes (((h (rack none) 9 1 4 0).2.2.2.1 (by decide +kernel)).2.1 (by decide +kernel))
  · exact goes ((h (rack none) 9 1 4 0).2.2.2.1 (by decide +kernel)).2.2
  · exact goes ((h base 9 1 4 0).2.2.2.2.1 (by decide +kernel)).1
  · exact goes_of ((h noticing 9 1 4 0).2.2.2.2.2.1 true)
  · exact goes ((h noticing 9 1 4 9).2.2.2.2.2.2 _ (held (by decide +kernel)))

def acopyFields : List (Nat × Nat) := [(128, 0x40000), (192, 0x50000), (256, 128)]
def acopySlot (op : Nat) : Slot := cmd op acopyFields
def laterSlot : Slot := { acopySlot 0x81 with pos := 4 }
def withLater : State := (base.setSlot 3 laterSlot).setSlot 4 (acopySlot 0x80)
def failedGroup : State :=
  let s := base.setSlot 3 (acopySlot 0x81)
  { s with fe := { s.fe with groupFails := [(16, .poisoned)] } }
def atomicSlot : Slot := cmd 0x82 [(128, 0x50000), (189, 1), (192, 7)]

theorem test_witness_FabricCopiesAndAtomicsComplete : Obligations.FabricCopiesAndAtomicsComplete →
    Goes (.acopy 3) (base.setSlot 3 (acopySlot 0x80)) ∧ Goes (.acopyFinal 3) withLater ∧ Goes (.acopyFinal 3) failedGroup ∧
    Goes (.acopyFinal 3) (base.setSlot 3 (acopySlot 0x81)) ∧
    Goes (.acopyFinalSend 3) (base.setSlot 3 { acopySlot 0x81 with stage := .waiting }) ∧
    Goes (.remoteAtomic 3) (base.setSlot 3 atomicSlot) := by
  intro h
  and_intros
  · exact goes ((h _ _ base 3 (acopySlot 0x80) _ ()).1 _ _ _ _ (ready_of (by decide +kernel)) (by decide +kernel)
      (by decide +kernel) (by decide +kernel) (by decide +kernel) (by decide +kernel) (went (by decide +kernel))
      (went (by decide +kernel)) (by decide +kernel) (wentV (by decide +kernel)) (held (by decide +kernel)))
  · exact goes ((h withLater base base 3 laterSlot laterSlot ()).2.1 (ready_of (by decide +kernel)) (by decide +kernel))
  · exact goes (((h failedGroup base base 3 (acopySlot 0x81) laterSlot ()).2.2.1 (ready_of (by decide +kernel))
      (by decide +kernel)).1 .poisoned (by decide +kernel))
  · exact goes (((h _ _ base 3 (acopySlot 0x81) laterSlot ()).2.2.1 (ready_of (by decide +kernel)) (by decide +kernel)).2 .ok 0 0
      (by decide +kernel) (wentV (by decide +kernel)))
  · exact goes ((h _ _ base 3 { acopySlot 0x81 with stage := .waiting } laterSlot ()).2.2.2.1 .ok 0 0 (by decide +kernel)
      (by decide +kernel) (by decide +kernel) (by decide +kernel) (by decide +kernel) (by decide +kernel)
      (wentV (by decide +kernel)))
  · exact goes ((h _ _ _ 3 atomicSlot laterSlot ()).2.2.2.2 _ _ _ (ready_of (by decide +kernel)) (by decide +kernel)
      (by decide +kernel) (by decide +kernel) (by decide +kernel) (by decide +kernel) (went (by decide +kernel))
      (went (by decide +kernel)) (held (by decide +kernel)))

def fm (code rest : Nat) : BitVec 128 := BitVec.ofNat 128 (code + rest)
/-- A ROUTE_SET row of id 9 by a port. -/
def route (port : Nat) : BitVec 64 := BitVec.ofNat 64 (9 + 2 ^ (16 + port) + 1 * 2 ^ 48)
/-- An assembly of 8 fabric ports. -/
def few : State := { base with asm := { base.asm with ports := 1 } }
def torn9 (fresh : List Nat) : State := { base with fab := { base.fab with torn := [9], fresh } }

theorem test_witness_FabricManagerCommandsTakeEffect : Obligations.FabricManagerCommandsTakeEffect →
    Goes (.assignId (fm 1 (9 * 2 ^ 16))) rackBase ∧ Goes (.assignId (fm 1 (9 * 2 ^ 16))) base ∧
    Goes (.routeSet (fm 2 (2 ^ 40)) [route 31]) few ∧ Goes (.routeSet (fm 2 (2 ^ 40)) [route 2]) base ∧
    Goes (.linkKey (fm 3 (31 * 2 ^ 24)) (List.replicate 32 1)) few ∧
    Goes (.linkKey (fm 3 (1 * 2 ^ 24)) (List.replicate 32 1)) base ∧ Goes (.linkKey (fm 3 0) []) base ∧
    Goes (.join (fm 4 0)) base ∧ Goes (.teardown (fm 5 (2 * 2 ^ 16))) rackBase ∧ Goes (.teardown (fm 5 (9 * 2 ^ 16))) rackBase ∧
    Goes (.restore (fm 6 (9 * 2 ^ 16))) base ∧ Goes (.restore (fm 6 (9 * 2 ^ 16))) (torn9 []) ∧
    Goes (.restore (fm 6 (9 * 2 ^ 16))) (torn9 [9]) ∧ Goes (.leave (fm 7 0)) rackBase ∧ Goes (.fmEventAck 0) base ∧
    Goes (.fmEventAck 1000) base := by
  intro h
  and_intros
  · exact goes (((h rackBase (fm 1 (9 * 2 ^ 16)) (by decide +kernel) (by decide +kernel)).1 (by decide +kernel)
      (by decide +kernel)).1 (by decide +kernel))
  · exact goes (((h base (fm 1 (9 * 2 ^ 16)) (by decide +kernel) (by decide +kernel)).1 (by decide +kernel)
      (by decide +kernel)).2 (by decide +kernel) (by decide +kernel))
  · exact goes (((h few (fm 2 (2 ^ 40)) (by decide +kernel) (by decide +kernel)).2.1 (route 31) (by decide +kernel)
      (by decide +kernel) (by decide +kernel) (by decide +kernel) (by decide +kernel)).1 (by decide +kernel))
  · exact goes (((h base (fm 2 (2 ^ 40)) (by decide +kernel) (by decide +kernel)).2.1 (route 2) (by decide +kernel)
      (by decide +kernel) (by decide +kernel) (by decide +kernel) (by decide +kernel)).2 (by decide +kernel) (by decide +kernel))
  · exact goes (((h few (fm 3 (31 * 2 ^ 24)) (by decide +kernel) (by decide +kernel)).2.2.1 (List.replicate 32 1)
      (by decide +kernel) (by decide +kernel) (by decide +kernel)).1 (by decide +kernel))
  · exact goes (((h base (fm 3 (1 * 2 ^ 24)) (by decide +kernel) (by decide +kernel)).2.2.1 (List.replicate 32 1)
      (by decide +kernel) (by decide +kernel) (by decide +kernel)).2 (by decide +kernel) (by decide +kernel))
  · exact goes ((h base (fm 3 0) (by decide +kernel) (by decide +kernel)).2.2.2.1 [] (by decide +kernel) (by decide +kernel))
  · exact goes ((h base (fm 4 0) (by decide +kernel) (by decide +kernel)).2.2.2.2.1 (by decide +kernel) (by decide +kernel))
  · exact goes ((h rackBase (fm 5 (2 * 2 ^ 16)) (by decide +kernel) (by decide +kernel)).2.2.2.2.2.1 (by decide +kernel)
      (by decide +kernel) (by decide +kernel))
  · exact goes ((h rackBase (fm 5 (9 * 2 ^ 16)) (by decide +kernel) (by decide +kernel)).2.2.2.2.2.2.1 (by decide +kernel)
      (by decide +kernel) (by decide +kernel) (by decide +kernel))
  · exact goes (((h base (fm 6 (9 * 2 ^ 16)) (by decide +kernel) (by decide +kernel)).2.2.2.2.2.2.2.1 (by decide +kernel)
      (by decide +kernel) (by decide +kernel)).1 (by decide +kernel))
  · exact goes (((h (torn9 []) (fm 6 (9 * 2 ^ 16)) (by decide +kernel) (by decide +kernel)).2.2.2.2.2.2.2.1 (by decide +kernel)
      (by decide +kernel) (by decide +kernel)).2.1 (by decide +kernel) (by decide +kernel))
  · exact goes (((h (torn9 [9]) (fm 6 (9 * 2 ^ 16)) (by decide +kernel) (by decide +kernel)).2.2.2.2.2.2.2.1 (by decide +kernel)
      (by decide +kernel) (by decide +kernel)).2.2 (by decide +kernel) (by decide +kernel))
  · exact goes ((h rackBase (fm 7 0) (by decide +kernel) (by decide +kernel)).2.2.2.2.2.2.2.2.1 (by decide +kernel)
      (by decide +kernel))
  · exact goes (((h base (fm 7 0) (by decide +kernel) (by decide +kernel)).2.2.2.2.2.2.2.2.2 0).1 (by decide +kernel)
      (by decide +kernel))
  · exact goes (((h base (fm 7 0) (by decide +kernel) (by decide +kernel)).2.2.2.2.2.2.2.2.2 1000).2 (.inr (by decide +kernel)))

def record1 (id hbm : Nat) (witness : Option Nat) : IdentityRecord :=
  { packageId := id, hbm, flash := base.asm.flash, ports := base.asm.ports, stepping := 0, firmware := 0, answersForUs := false
    rollbackSvn := 0, witnessForUs := witness }
def inPair (pair : PairState) (s : State) : State := { s with twin := { s.twin with pair, twinId := 3 } }
def beat (crcOk : Bool) (id : Nat) : HeartbeatFrame := { onTwhb := true, packageId := id, pairState := 0, sequence := 0, crcOk }
def probing : State := { inPair .paired base with twin := { base.twin with probing := true } }
def late (s : State) : State := { s with time := 2 ^ 50 }

theorem test_witness_PairsFormAndSurviveTheirTwin : Obligations.PairsFormAndSurviveTheirTwin →
    Goes (.identityRecord (record1 3 base.asm.hbm (some 1000))) rackBase ∧
    Goes (.identityRecord (record1 0xFF base.asm.hbm none)) rackBase ∧ Goes (.identityRecord (record1 9 base.asm.hbm none))
      rackBase ∧
    Goes (.identityRecord (record1 3 base.asm.hbm none)) rackBase ∧ Goes .heartbeatSend rackBase ∧
    Goes (.heartbeat (beat false 3)) (inPair .paired rackBase) ∧ Goes (.heartbeat (beat true 3)) (inPair .paired rackBase) ∧
    Goes .twinLost (inPair .paired rackBase) ∧ Goes .twinLost (late (inPair .paired rackBase)) ∧
    Goes .twinLost (late (inPair .paired (rackBase.setPort 4 upPort))) ∧ Goes .probeTimeout probing ∧
    Goes .warmResetAnnounce (inPair .paired rackBase) := by
  intro h
  and_intros
  · exact goes (((h rackBase (record1 3 base.asm.hbm (some 1000))).1 (by decide +kernel) (by decide +kernel)
      (by decide +kernel)).1 (by decide +kernel))
  · exact goes (((h rackBase (record1 0xFF base.asm.hbm none)).1 (by decide +kernel) (by decide +kernel) (by decide +kernel)).2.1
      (by decide +kernel) (.inr rfl))
  · exact goes ((((h rackBase (record1 9 base.asm.hbm none)).1 (by decide +kernel) (by decide +kernel) (by decide +kernel)).2.2
      (by decide +kernel) (by decide +kernel) (by decide +kernel)).1 (.inl (by decide +kernel))).1
  · exact goes ((((h rackBase (record1 3 base.asm.hbm none)).1 (by decide +kernel) (by decide +kernel) (by decide +kernel)).2.2
      (by decide +kernel) (by decide +kernel) (by decide +kernel)).2 (by decide +kernel) (by decide +kernel) (by decide +kernel)
      (by decide +kernel))
  · exact goes_of (h rackBase (record1 9 0 none)).2.1
  · exact goes (((h (inPair .paired rackBase) (record1 9 0 none)).2.2.1 (beat false 3)).1 (.inl rfl))
  · exact goes (((h (inPair .paired rackBase) (record1 9 0 none)).2.2.1 (beat true 3)).2 (by decide +kernel) (by decide +kernel)
      (by decide +kernel))
  · exact goes (((h (inPair .paired rackBase) (record1 9 0 none)).2.2.2.1 (by decide +kernel)).1 (by decide +kernel))
  · exact goes ((((h (late (inPair .paired rackBase)) (record1 9 0 none)).2.2.2.1 (by decide +kernel)).2 (by decide +kernel)).1
      (by decide +kernel))
  · exact goes ((((h (late (inPair .paired (rackBase.setPort 4 upPort))) (record1 9 0 none)).2.2.2.1 (by decide +kernel)).2
      (by decide +kernel)).2 (by decide +kernel) (by decide +kernel))
  · exact goes ((h probing (record1 9 0 none)).2.2.2.2.1 (by decide +kernel))
  · exact goes ((h (inPair .paired rackBase) (record1 9 0 none)).2.2.2.2.2 (by decide +kernel) (by decide +kernel))

def mirrorRecord (mseq : Nat) : MirrorRecord := { header := BitVec.ofNat 256 (2 + mseq * 2 ^ 64), data := [] }
def applied (n : Nat) : State := { inPair .paired rackBase with twin := { (inPair .paired rackBase).twin with appliedMseq := n } }
def resilvering (ext : List (Nat × Extent)) : State := { inPair .resilvering rackBase with ext }
def admitting (s : State) : State := s.setVal (dkey 0xA003 1) 1
def handing : State := { rackBase with twin := { rackBase.twin with answersFor := some 3, admission := true } }

theorem test_witness_TwinRecordsResilverAndAdmission : Obligations.TwinRecordsResilverAndAdmission →
    Goes (.mirror (mirrorRecord 4)) (applied 5) ∧ Goes (.mirror (mirrorRecord 6)) (applied 5) ∧
    Goes (.mirror (mirrorRecord 5)) (applied 5) ∧ Goes (.mirrorAck 4) (applied 5) ∧
    Goes .resilverChunk (resilvering [(0, { extent5 with protect := true, mirror := some 0 })]) ∧ Goes .resilverChunk
      (resilvering []) ∧
    Goes (.stepAdmit 3) (withCmd 0x95 [(320, 9)]) ∧ Goes .admitWaitExpiry (admitting base) ∧ Goes .admitWaitExpiry base ∧
    Goes .admissionHandover handing := by
  intro h
  and_intros
  · exact goes (((h (applied 5)).1 (mirrorRecord 4) (by decide +kernel) (by decide +kernel)).1 (by decide +kernel))
  · exact goes (((h (applied 5)).1 (mirrorRecord 6) (by decide +kernel) (by decide +kernel)).2.1 (by decide +kernel)
      (by decide +kernel))
  · exact goes (((h (applied 5)).1 (mirrorRecord 5) (by decide +kernel) (by decide +kernel)).2.2 (by decide +kernel)
      (by decide +kernel))
  · exact goes ((h (applied 5)).2.1 4 (by decide +kernel))
  · exact goes (((h (resilvering [(0, { extent5 with protect := true, mirror := some 0 })])).2.2.1 (by decide +kernel)
      (by decide +kernel) (by decide +kernel) (by decide +kernel)).1 0 [] (by decide +kernel) (by decide +kernel))
  · exact goes (((h (resilvering [])).2.2.1 (by decide +kernel) (by decide +kernel) (by decide +kernel) (by decide +kernel)).2
      (by decide +kernel) (by decide +kernel))
  · exact goes ((h (withCmd 0x95 [(320, 9)])).2.2.2.1 3 (cmd 0x95 [(320, 9)]) (ready_of (by decide +kernel)))
  · exact goes ((h (admitting base)).2.2.2.2.1 (by decide +kernel))
  · exact goes ((h base).2.2.2.2.2.1 (by decide +kernel))
  · exact goes ((h handing).2.2.2.2.2.2 3 (by decide +kernel) (by decide +kernel) (by decide +kernel))

/-- A context of tenant 5 with one page of the pool at VA 1 GiB. -/
def ledger1 (state : LedgerState) : Ledger :=
  { tenant := 5, epoch := 3, state, owner := 2, peer := 9, phaseDone := 0, ckptSeq := 0, deadline := 7, asid := 1, length := 1
    va := 2 ^ 30, pool := [512], offerSlot := none }
def withLedger (e : Ledger) (sl : Slot) : State :=
  let s := rackBase.setSlot 3 sl
  { s with ctx := { s.ctx with ledger := [(4, e)], poolExtents := [1] } }
def ctxSlot (op cursor : Nat) : Slot := begunCmd op [(128, 4), (168, 9)] cursor [2]
def openSlot : Slot := cmd 0x96 [(192, 1), (256, 2 ^ 30)]
def withPool : State := let s := base.setSlot 3 openSlot; { s with ctx := { s.ctx with poolExtents := [1] } }
def offered (slot : Option Nat) : Ledger := { ledger1 .offered with offerSlot := slot }

theorem test_witness_ContextsOpenOfferAndRelease : Obligations.ContextsOpenOfferAndRelease →
    Goes (.contextOpen 3) withPool ∧ Goes (.offer 3) (withLedger (ledger1 .owned) (ctxSlot 0x90 0)) ∧
    Goes (.offer 3) (withLedger (ledger1 .gone) (ctxSlot 0x90 3)) ∧ Goes (.offer 3) (withLedger (ledger1 .owned) (ctxSlot 0x90
      3)) ∧
    Goes (.release 3) (withLedger (ledger1 .owned) (ctxSlot 0x92 0)) ∧
    Goes (.checkpoint 3) (withLedger (ledger1 .owned) (ctxSlot 0x94 0)) ∧
    Goes (.offerDeadline 4) (late (withLedger (offered none) openSlot)) ∧
    Goes (.offerDeadline 4) (late (withLedger (offered (some 8)) openSlot)) ∧
    Goes (.offerDeadline 4) (withLedger (offered none) openSlot) := by
  intro h
  and_intros
  · exact goes ((h withPool base 3 openSlot ()).1 (ready_of (by decide +kernel)) (by decide +kernel) (by decide +kernel)
      (by decide +kernel) (by decide +kernel) (by decide +kernel) (by decide +kernel))
  · exact goes (((h _ _ 3 (ctxSlot 0x90 0) ()).2.1 2 (ledger1 .owned) (by decide +kernel) (by decide +kernel) (by decide +kernel)
      (by decide +kernel)).1 (begun_of (by decide +kernel)) (by decide +kernel) (by decide +kernel) (by decide +kernel)
      (wentV (by decide +kernel)))
  · exact goes ((((h (withLedger (ledger1 .gone) (ctxSlot 0x90 3)) base 3 (ctxSlot 0x90 3) ()).2.1 2 (ledger1 .gone)
      (by decide +kernel) (by decide +kernel) (by decide +kernel) (by decide +kernel)).2.1 1
      (begun_of (by decide +kernel)) (by decide +kernel)).1 (by decide +kernel))
  · exact goes ((((h (withLedger (ledger1 .owned) (ctxSlot 0x90 3)) base 3 (ctxSlot 0x90 3) ()).2.1 2 (ledger1 .owned)
      (by decide +kernel) (by decide +kernel) (by decide +kernel) (by decide +kernel)).2.1 1
      (begun_of (by decide +kernel)) (by decide +kernel)).2 (by decide +kernel) (by decide +kernel))
  · exact goes (((h (withLedger (ledger1 .owned) (ctxSlot 0x92 0)) base 3 (ctxSlot 0x92 0) ()).2.1 2 (ledger1 .owned)
      (by decide +kernel) (by decide +kernel) (by decide +kernel) (by decide +kernel)).2.2.1
      (begun_of (by decide +kernel)) (by decide +kernel) (by decide +kernel))
  · exact goes (((h _ _ 3 (ctxSlot 0x94 0) ()).2.1 2 (ledger1 .owned) (by decide +kernel) (by decide +kernel) (by decide +kernel)
      (by decide +kernel)).2.2.2 (begun_of (by decide +kernel)) (.inr (by decide +kernel)) (.inl rfl) (wentV (by decide +kernel)))
  · exact goes ((((h (late (withLedger (offered none) openSlot)) base 3 openSlot ()).2.2 4 (offered none) (by decide +kernel)).1
      (by decide +kernel) (by decide +kernel)).1 (by decide +kernel))
  · exact goes ((((h (late (withLedger (offered (some 8)) openSlot)) base 3 openSlot ()).2.2 4 (offered (some 8))
      (by decide +kernel)).1 (by decide +kernel) (by decide +kernel)).2 8 (by decide +kernel))
  · exact goes (((h (withLedger (offered none) openSlot) base 3 openSlot ()).2.2 4 (offered none) (by decide +kernel)).2 (.inr
      (by decide +kernel)))

def takeSlot : Slot := cmd 0x91 [(128, 4), (168, 9)]
/-- A TAKE that has the answer of the offerer's word. -/
def wonSlot (word : Nat) : Slot :=
  { takeSlot with
    stage := .running
    resp := [{ address := globalOf 9 ledgerWordAddress + atomicMark, status := 0, data := leBytes 8 word }] }
def querySlot : Slot := cmd 0x93 [(128, 4), (256, 0x62000)]
def withQueryTorn : State :=
  let s := withLedger (ledger1 .owned) querySlot
  { s with fab := { s.fab with torn := [3] } }

theorem test_witness_TakesAndLedgerQueriesComplete : Obligations.TakesAndLedgerQueriesComplete →
    Goes (.take 3) (withLedger (ledger1 .inbound) takeSlot) ∧
    Goes (.take 3) (withLedger (ledger1 .taking) (wonSlot (ownershipWord 2 2 2 2))) ∧
    Goes (.take 3) (withLedger (ledger1 .taking) (wonSlot (ownershipWord 2 1 2 2))) ∧
    Goes (.takeWaitExpiry 3) (late (base.setSlot 3 { takeSlot with stage := .running })) ∧
    Goes (.takeWaitExpiry 3) (base.setSlot 3 { takeSlot with stage := .running }) ∧ Goes (.ledgerQuery 3) withQueryTorn := by
  intro h
  and_intros
  · exact goes ((h _ base base 3 takeSlot ()).1 (ledger1 .inbound) (ready_of (by decide +kernel)) (by decide +kernel)
      (by decide +kernel) (by decide +kernel) (by decide +kernel) (by decide +kernel) ⟨_, held (by decide +kernel),
      (by decide +kernel)⟩ (by decide +kernel))
  · exact goes (((h _ _ _ 3 (wonSlot (ownershipWord 2 2 2 2)) ()).2.1 (ledger1 .taking) _ (begun_of (by decide +kernel))
      (by decide +kernel) (by decide +kernel) (by decide +kernel) (by decide +kernel) (went (by decide +kernel))
      (by decide +kernel) (wentV (by decide +kernel))).1 (by decide +kernel))
  · exact goes (((h _ _ _ 3 (wonSlot (ownershipWord 2 1 2 2)) ()).2.1 (ledger1 .taking) _ (begun_of (by decide +kernel))
      (by decide +kernel) (by decide +kernel) (by decide +kernel) (by decide +kernel) (went (by decide +kernel))
      (by decide +kernel) (wentV (by decide +kernel))).2 (by decide +kernel))
  · exact goes (((h (late (base.setSlot 3 { takeSlot with stage := .running })) base base 3 { takeSlot with stage := .running }
      ()).2.2.1 (by decide +kernel) (by decide +kernel) (by decide +kernel) (by decide +kernel)).1 (by decide +kernel))
  · exact goes (((h (base.setSlot 3 { takeSlot with stage := .running }) base base 3 { takeSlot with stage := .running }
      ()).2.2.1 (by decide +kernel) (by decide +kernel) (by decide +kernel) (by decide +kernel)).2 (by decide +kernel))
  · exact goes ((h _ _ _ 3 querySlot ()).2.2.2 _ (ready_of (by decide +kernel)) (went (by decide +kernel)) (by decide +kernel)
      (wentV (by decide +kernel)) (opt_all (by decide +kernel)))

def runSlot1 : Slot := begunCmd 0x97 [(128, 4), (192, 0), (224, 1), (256, 2 ^ 30)] 0 [2]
def running1 (saved : Bool) : Running :=
  { context := 4, phase := 0, first := 0, last := 1, table := 2 ^ 30, driver := true, child := some 3, saved, done := none }
def childSlot (st : Status) : Slot := { cmd 0x50 [] with stage := .finished, status := st }
def withChild (saved : Bool) (st : Status) : State :=
  let s := withLedger (ledger1 .owned) (childSlot st)
  { s with ctx := { s.ctx with runs := [(77, running1 saved)] } }
def testing : State := base.setCore 7 { Core.initial with testing := true, available := true }
def restarting : State := { base with mgmt := { base.mgmt with restarting := true } }

theorem test_witness_PhasesTestsAndTheFirmwareWatchdog : Obligations.PhasesTestsAndTheFirmwareWatchdog →
    Goes (.contextRun 3) (withLedger (ledger1 .owned) runSlot1) ∧ Goes (.phaseComplete 3) (withChild true .ok) ∧
    Goes (.phaseComplete 3) (withChild false .badDescriptor) ∧ Goes .katPeriod base ∧ Goes .katPeriod State.reset ∧
    Goes (.katDone 7 true) testing ∧ Goes (.katDone 7 false) testing ∧ Goes .mgmtWatchdogExpiry base ∧
    Goes .firmwareRestartDone restarting := by
  intro h
  and_intros
  · exact goes ((h (withLedger (ledger1 .owned) runSlot1) 3 runSlot1).1 2 (ledger1 .owned) (by decide +kernel)
      (by decide +kernel) (by decide +kernel) (by decide +kernel) (begun_of (by decide +kernel)) (by decide +kernel)
      (by decide +kernel) (by decide +kernel) (by decide +kernel) (by decide +kernel) (by decide +kernel) (by decide +kernel))
  · exact goes (((h (withChild true .ok) 3 (childSlot .ok)).2.1 77 (running1 true) (by decide +kernel) (by decide +kernel)
      (by decide +kernel)).1 (by decide +kernel) (by decide +kernel) (by decide +kernel))
  · exact goes (((h (withChild false .badDescriptor) 3 (childSlot .badDescriptor)).2.1 77 (running1 false) (by decide +kernel)
      (by decide +kernel) (by decide +kernel)).2 (by decide +kernel) (by decide +kernel))
  · exact goes ((h base 3 runSlot1).2.2.1 (by decide +kernel) (by decide +kernel))
  · exact goes ((h State.reset 3 runSlot1).2.2.2.1 (.inr (by decide +kernel)))
  · exact goes ((h testing 7 runSlot1).2.2.2.2.1 (by decide +kernel)).1
  · exact goes_of ((h testing 7 runSlot1).2.2.2.2.1 (by decide +kernel)).2
  · exact goes ((h base 3 runSlot1).2.2.2.2.2.1 (by decide +kernel) (by decide +kernel) (by decide +kernel)).1
  · exact goes ((h restarting 3 runSlot1).2.2.2.2.2.2 (by decide +kernel) (by decide +kernel))

/-- Port 0 with a request of tenant 5 in class 0. -/
def waitingPort : SchedPort := { SchedPort.initial with queues := [(40, [{ size := 64, arrival := 0 }])] }
def withWaiting (limits : SMap Limit) : State := { base with sched := { base.sched with ports := [(0, waitingPort)], limits } }
def limitedState : State := withWaiting [(limitKey 5 0 0, { rate := 0, burst := 0 })]
/-- A full limiter table. -/
def fullLimits : State :=
  { base with sched := { base.sched with limits := (List.range 8192).map fun i => (100000 + i, { rate := 0, burst := 0 }) } }
def tenantRow (n : Nat) : BitVec 256 := BitVec.ofNat 256 n
def limitRow (n : Nat) : BitVec 128 := BitVec.ofNat 128 n

def limiting : BitVec 128 := limitRow (7 + 2 ^ 19 + 1 * 2 ^ 32 + 4144 * 2 ^ 64)

theorem test_limited_port :
    let t := limitedState
    let p := t.riseCredits 0 { t.schedPort 0 with cclk := (t.schedPort 0).cclk + 1 }
    t.allowed 0 p 40 64 = false := by
  intro t p
  have e : t.allowed 0 p 40 64 =
      (decide (64 * creditUnit ≤ min (0 + 0 * creditUnit / 940) (0 * creditUnit)) && true) := rfl
  simp [e, creditUnit]

theorem test_witness_SchedulerServesSamplesAndChecks : Obligations.SchedulerServesSamplesAndChecks →
    Goes (.portArbitration 1 []) base ∧ Goes (.portArbitration 0 []) (withWaiting []) ∧ Goes (.portArbitration 0 []) limitedState
      ∧
    Goes (.portArbitration 0xFFFF []) base ∧ Goes .queueSample base ∧ Goes (.schedStatsClear 0xFFFF) base ∧
    Goes (.schedStatsClear 4095) base ∧ Goes (.schedStatsClear 4096) base ∧ Goes (.tenantTable 5 (tenantRow (2 ^ 256 - 1))) base ∧
    Goes (.tenantTable 4096 (tenantRow 0)) base ∧ Goes (.tenantTable 4095 (tenantRow (2 ^ 80))) base ∧
    Goes (.limitTable (limitRow (2 ^ 20))) base ∧ Goes (.limitTable (limitRow (9 * 2 ^ 12))) base ∧
    Goes (.limitTable limiting) base ∧ Goes (.limitTable limiting) fullLimits := by
  intro h
  and_intros
  · exact goes (((h.1 base).1 1 [] (by decide +kernel)).1 (by decide +kernel))
  · exact goes (((h.1 (withWaiting [])).1 0 [] (by decide +kernel)).2.1 40 { size := 64, arrival := 0 } [] (by decide +kernel)
      (by decide +kernel))
  · exact goes (((h.1 limitedState).1 0 [] (by decide +kernel)).2.2 40 { size := 64, arrival := 0 } [] rfl test_limited_port)
  · exact goes ((h.1 base).2.1 0xFFFF [] (by decide +kernel))
  · exact goes_of (h.1 base).2.2.1
  · exact goes (((h.1 base).2.2.2 0xFFFF (managed_of (by decide +kernel))).1 (by decide +kernel))
  · exact goes (((h.1 base).2.2.2 4095 (managed_of (by decide +kernel))).2.1 (by decide +kernel)).1
  · exact goes (((h.1 base).2.2.2 4096 (managed_of (by decide +kernel))).2.2 (by decide +kernel) (by decide +kernel))
  · exact goes (((h.2 base (managed_of (by decide +kernel))).1 5 (tenantRow (2 ^ 256 - 1))).1 (by decide +kernel))
  · exact goes (((h.2 base (managed_of (by decide +kernel))).1 4096 (tenantRow 0)).2.1 (by decide +kernel) (.inr (.inl
      (by decide +kernel))))
  · exact goes (((h.2 base (managed_of (by decide +kernel))).1 4095 (tenantRow (2 ^ 80))).2.2 (by decide +kernel)
      (by decide +kernel) (by decide +kernel) (by decide +kernel))
  · exact goes (((h.2 base (managed_of (by decide +kernel))).2 (limitRow (2 ^ 20))).1 (.inl (by decide +kernel)))
  · exact goes ((((h.2 base (managed_of (by decide +kernel))).2 (limitRow (9 * 2 ^ 12))).2.1 (by decide +kernel)
      (by decide +kernel)).1 (by decide +kernel))
  · exact goes (((((h.2 base (managed_of (by decide +kernel))).2 limiting).2.1 (by decide +kernel) (by decide +kernel)).2
      (by decide +kernel)).2 _ (held (by decide +kernel)))
  · exact goes (((((h.2 fullLimits (managed_of (by decide +kernel))).2 limiting).2.1 (by decide +kernel) (by decide +kernel)).2
      (by decide +kernel)).1 (((h.2 fullLimits (managed_of (by decide +kernel))).2 limiting).2.2 (by decide +kernel)
      (by decide +kernel) (by decide +kernel)))

def dbgState (run : CoreRun) (dbg : DebugState) : State :=
  (base.setVal (rowKey (dkey 0xB041 0) 5) 1).setCore 0 { base.core 0 with run, dbg }
def dbgReq (op rest : Nat) : BitVec 128 := BitVec.ofNat 128 (op + rest)
def haltedCore : State := dbgState .running .halted

theorem test_witness_DebugRequestsActOnTheirCore : Obligations.DebugRequestsActOnTheirCore →
    Goes (.arm (dbgReq 1 0)) haltedCore ∧ Goes (.disarm (dbgReq 2 0)) haltedCore ∧
    Goes (.coreDebugHalt (dbgReq 3 0)) (dbgState .running .running) ∧ Goes (.coreDebugStep (dbgReq 4 0)) haltedCore ∧
    Goes (.resume (dbgReq 5 0)) haltedCore ∧ Goes (.readReg (dbgReq 6 (31 * 2 ^ 32))) haltedCore ∧
    Goes (.readReg (dbgReq 6 (1 * 2 ^ 24 + 31 * 2 ^ 32))) haltedCore ∧ Goes (.readReg (dbgReq 6 (2 * 2 ^ 24 + 7 * 2 ^ 32)))
      haltedCore ∧
    Goes (.readReg (dbgReq 6 (3 * 2 ^ 24))) haltedCore ∧ Goes (.readReg (dbgReq 6 (4 * 2 ^ 24))) haltedCore ∧
    Goes (.writeReg (dbgReq 7 (4 * 2 ^ 24)) (leBytes 8 64)) haltedCore ∧
    Goes (.readSpad (dbgReq 8 (0x1F000 * 2 ^ 64 + 4096 * 2 ^ 96))) haltedCore ∧ Goes (.status (dbgReq 9 0)) haltedCore ∧
    Goes (.coreDebugHalt (dbgReq 3 0)) (dbgState .idle .running) ∧ base.dbgCheck (dbgReq 3 (2 ^ 27)) true true true = 4 ∧
    base.dbgCheck (dbgReq 3 0) true true true = 2 ∧ (dbgState .idle .running).dbgCheck (dbgReq 3 0) true true true = 3 := by
  intro h
  and_intros
  · exact goes ((h haltedCore (dbgReq 1 0) (managed_of (by decide +kernel))).1 (by decide +kernel) (by decide +kernel))
  · exact goes ((h haltedCore (dbgReq 2 0) (managed_of (by decide +kernel))).2.1 (by decide +kernel) (by decide +kernel))
  · exact goes ((h (dbgState .running .running) (dbgReq 3 0) (managed_of (by decide +kernel))).2.2.1 (by decide +kernel)
      (by decide +kernel))
  · exact goes ((h haltedCore (dbgReq 4 0) (managed_of (by decide +kernel))).2.2.2.1 (by decide +kernel) (by decide +kernel))
  · exact goes ((h haltedCore (dbgReq 5 0) (managed_of (by decide +kernel))).2.2.2.2.1 (by decide +kernel) (by decide +kernel))
  · exact goes (((h haltedCore (dbgReq 6 (31 * 2 ^ 32)) (managed_of (by decide +kernel))).2.2.2.2.2.1 (by decide +kernel)
      (by decide +kernel)).1 (by decide +kernel))
  · exact goes (((h haltedCore (dbgReq 6 (1 * 2 ^ 24 + 31 * 2 ^ 32)) (managed_of (by decide +kernel))).2.2.2.2.2.1
      (by decide +kernel) (by decide +kernel)).2.1 (by decide +kernel))
  · exact goes (((h haltedCore (dbgReq 6 (2 * 2 ^ 24 + 7 * 2 ^ 32)) (managed_of (by decide +kernel))).2.2.2.2.2.1
      (by decide +kernel) (by decide +kernel)).2.2.1 (by decide +kernel))
  · exact goes (((h haltedCore (dbgReq 6 (3 * 2 ^ 24)) (managed_of (by decide +kernel))).2.2.2.2.2.1 (by decide +kernel)
      (by decide +kernel)).2.2.2.1 (by decide +kernel))
  · exact goes (((h haltedCore (dbgReq 6 (4 * 2 ^ 24)) (managed_of (by decide +kernel))).2.2.2.2.2.1 (by decide +kernel)
      (by decide +kernel)).2.2.2.2 (by decide +kernel))
  · exact goes ((h haltedCore (dbgReq 7 (4 * 2 ^ 24)) (managed_of (by decide +kernel))).2.2.2.2.2.2.1 (leBytes 8 64)
      (by decide +kernel) (by decide +kernel) (by decide +kernel) (by decide +kernel))
  · exact goes ((h haltedCore (dbgReq 8 (0x1F000 * 2 ^ 64 + 4096 * 2 ^ 96)) (managed_of (by decide +kernel))).2.2.2.2.2.2.2.1
      (by decide +kernel) (by decide +kernel))
  · exact goes ((h haltedCore (dbgReq 9 0) (managed_of (by decide +kernel))).2.2.2.2.2.2.2.2.1 (by decide +kernel)
      (by decide +kernel))
  · exact goes ((h (dbgState .idle .running) (dbgReq 3 0) (managed_of (by decide +kernel))).2.2.2.2.2.2.2.2.2.1
      (by decide +kernel) 3 (by decide +kernel) (by decide +kernel))
  · exact ((h base (dbgReq 3 (2 ^ 27)) (managed_of (by decide +kernel))).2.2.2.2.2.2.2.2.2.2 true true true).1 (.inl
      (by decide +kernel))
  · exact ((h base (dbgReq 3 0) (managed_of (by decide +kernel))).2.2.2.2.2.2.2.2.2.2 true true true).2.1 (by decide +kernel)
      (by decide +kernel) (by decide +kernel)
  · exact ((h (dbgState .idle .running) (dbgReq 3 0) (managed_of (by decide +kernel))).2.2.2.2.2.2.2.2.2.2 true true true).2.2
      (by decide +kernel) (by decide +kernel) (by decide +kernel) (by decide +kernel) (by decide +kernel)

def committing : State := { base with sec := { base.sec with commit := some 1 } }

/-- An image of one word of code, staged in slot B: only its signature is left to the boot code's check. -/
def fwHeader : Nat := 0xF3A1 + 2 ^ 16 + 4 * 2 ^ 96 + leNat (shake256 64 (List.replicate 4 0)) * 2 ^ 128
def staged1 : State :=
  { base with sec := { base.sec with
    slotB := { base.sec.slotB with image := memWrite [] 0 (leBytes 128 fwHeader), length := 128 + 4 + 1280 } } }

theorem test_image_passes_but_for_its_signature (hv : ∀ k d g, Config.falconVerify k d g = true) :
    staged1.bootable staged1.staged.check = true := by
  unfold State.bootable FwSlot.check
  simp only [hv, Bool.and_true]
  decide +kernel

theorem test_witness_FirmwareIsStagedCommittedAndMeasured : Obligations.FirmwareIsStagedCommittedAndMeasured →
    Goes (.fwStage 0 []) committing ∧ Goes (.fwStage 0 (List.replicate 4097 0)) base ∧ Goes (.fwStage 0xFFFFFFFF [1]) base ∧
    Goes (.fwStage 0 [1]) base ∧ Goes .fwCommit committing ∧ Goes .fwCommitAdvance committing ∧
    (staged1.bootable staged1.staged.check = true → Goes .fwCommit staged1 ∧ Goes .fwCommitAdvance staged1) ∧
    Goes (.keyRevoke 16) base ∧ Goes (.keyRevoke 1) base ∧ Goes (.keyRevoke 8) base ∧
    Goes (.mrExtend 5 []) base ∧ Goes (.mrExtend 4 (List.replicate 64 0)) base ∧ Goes (.mrExtend 7 (List.replicate 64 0)) base :=
      by
  intro h
  and_intros
  · exact goes (((h committing (by decide +kernel)).1 0 [] (by decide +kernel)).1 (by decide +kernel))
  · exact goes (((h base (by decide +kernel)).1 0 (List.replicate 4097 0) (by decide +kernel)).2.1 (by decide +kernel)
      (by decide +kernel))
  · exact goes (((h base (by decide +kernel)).1 0xFFFFFFFF [1] (by decide +kernel)).2.2.1 (by decide +kernel) (by decide +kernel)
      (by decide +kernel))
  · exact goes (((h base (by decide +kernel)).1 0 [1] (by decide +kernel)).2.2.2 (by decide +kernel) (by decide +kernel)
      (by decide +kernel))
  · exact goes ((h committing (by decide +kernel)).2.1.1 (.inl (by decide +kernel))).1
  · exact goes ((h committing (by decide +kernel)).2.1.1 (.inl (by decide +kernel))).2
  · intro g
    exact ⟨goes (((h staged1 (by decide +kernel)).2.1.2 (by decide +kernel) g).1), goes (((h staged1 (by decide +kernel)).2.1.2
      (by decide +kernel) g).2 (by decide +kernel))⟩
  · exact goes (((h base (by decide +kernel)).2.2.1 16 (by decide +kernel)).1 (by decide +kernel))
  · exact goes (((h base (by decide +kernel)).2.2.1 1 (by decide +kernel)).2.1 (by decide +kernel) (by decide +kernel))
  · exact goes (((h base (by decide +kernel)).2.2.1 8 (by decide +kernel)).2.2 (by decide +kernel) (by decide +kernel))
  · exact goes (((h base (by decide +kernel)).2.2.2 5 [] (by decide +kernel)).1 (by decide +kernel))
  · exact goes (((h base (by decide +kernel)).2.2.2 4 (List.replicate 64 0) (by decide +kernel)).2.1 (by decide +kernel) (.inl
      (by decide +kernel)))
  · exact goes (((h base (by decide +kernel)).2.2.2 7 (List.replicate 64 0) (by decide +kernel)).2.2 (by decide +kernel)
      (by decide +kernel) (by decide +kernel))

theorem leBytes_len (n v : Nat) : (leBytes n v).length = n := by
  induction n generalizing v with
  | zero => rfl
  | succ k ih => simp [leBytes, ih]

theorem padTo_len (n : Nat) (bs : List Byte) : (padTo n bs).length = n := by
  simp [padTo]
  omega

theorem report_len (s : State) (t : Nat) (nonce : List Byte) (seq : Nat) : (s.report t nonce seq).length = 2560 := by
  simp [State.report, State.reportHead, State.reportTenant, padTo_len, leBytes_len, List.length_flatMap]

def attestSlot (len : Nat) : Slot := cmd 0xA0 [(128, 5), (192, 0x60000), (256, 0x62000), (320, len)]
def identity (good : Bool) (s : State) : State := { s with sec := { s.sec with identityOk := good } }
def attesting (len : Nat) (good : Bool) : State := identity good (base.setSlot 3 (attestSlot len))

theorem written (w : Who) (body sig : List Byte) (s : State) (hb : body.length = 2560)
    (h : okVal ((writePieces w 1 (piecesOf 0x62000 3840) (body ++ padTo 1280 sig) false).go s) = some ()) :
    okVal ((writeVa w 1 0x62000 (body ++ padTo 1280 sig)).go s) = some () := by
  unfold writeVa
  rw [List.length_append, hb, padTo_len]
  exact h

def keySlot (op tenant : Nat) : Slot := cmd 0xA1 [(128, op), (132, tenant), (192, 0x60000)]
def withKeyBytes (sl : Slot) : State := identity true ((base.setSlot 3 sl).poke 0x60000 (leBytes 64 7))
def stores (s : State) : State := { s with ext := [(0, extent5), (2 ^ 13, extent5)] }
def installed (s : State) : State :=
  { s with sec := { s.sec with keys := [(5, { installed := true, key := leBytes 64 9, generation := 1, changed := 0 })] } }

theorem test_witness_ReportsAreWrittenAndKeysChange : Obligations.ReportsAreWrittenAndKeysChange →
    Goes (.attest 3) (attesting 3839 true) ∧ Goes (.attest 3) (attesting 3840 true) ∧ Goes (.attest 3) (attesting 3840 false) ∧
    Goes (.keyInstall 3) (stores (withKeyBytes (keySlot 0 5))) ∧ Goes (.keyDestroy 3) (stores (withKeyBytes (keySlot 1 5))) ∧
    Goes (.keyInstall 3) (withKeyBytes (keySlot 0 5)) ∧ Goes (.keyDestroy 3) (installed (withKeyBytes (keySlot 1 5))) ∧
    Goes (.keyDestroy 3) (withKeyBytes (keySlot 1 5)) := by
  intro h
  and_intros
  · exact goes (((h (attesting 3839 true) base base 3 (attestSlot 3839) ()).1 (ready_of (by decide +kernel)) (by decide +kernel)
      (by decide +kernel) (by decide +kernel)).1 (by decide +kernel))
  · exact goes (((h _ _ _ 3 (attestSlot 3840) ()).1 (ready_of (by decide +kernel)) (by decide +kernel) (by decide +kernel)
      (by decide +kernel)).2 _ (by decide +kernel) (went (by decide +kernel)) (wentV (written _ _ _ _ (report_len _ _ _ _)
      (by decide +kernel))))
  · exact goes ((h (attesting 3840 false) base base 3 (attestSlot 3840) ()).2.1 (ready_of (by decide +kernel))
      (by decide +kernel) (by decide +kernel) (by decide +kernel))
  · exact goes ((((h (stores (withKeyBytes (keySlot 0 5))) base base 3 (keySlot 0 5) ()).2.2 (ready_of (by decide +kernel))
      (by decide +kernel) (by decide +kernel)).1 (by decide +kernel)).1 (by decide +kernel))
  · exact goes ((((h (stores (withKeyBytes (keySlot 1 5))) base base 3 (keySlot 1 5) ()).2.2 (ready_of (by decide +kernel))
      (by decide +kernel) (by decide +kernel)).1 (by decide +kernel)).2 (by decide +kernel))
  · exact goes ((((h _ _ base 3 (keySlot 0 5) ()).2.2 (ready_of (by decide +kernel)) (by decide +kernel) (by decide +kernel)).2
      (by decide +kernel)).1 _ _ (by decide +kernel) (by decide +kernel) (by decide +kernel) (by decide +kernel)
      (went (by decide +kernel)) (by decide +kernel) (held (by decide +kernel)))
  · exact goes ((((h (installed (withKeyBytes (keySlot 1 5))) base base 3 (keySlot 1 5) ()).2.2 (ready_of (by decide +kernel))
      (by decide +kernel) (by decide +kernel)).2 (by decide +kernel)).2.1 (by decide +kernel) (by decide +kernel))
  · exact goes ((((h (withKeyBytes (keySlot 1 5)) base base 3 (keySlot 1 5) ()).2.2 (ready_of (by decide +kernel))
      (by decide +kernel) (by decide +kernel)).2 (by decide +kernel)).2.2 (by decide +kernel) (by decide +kernel))

def supplied (supply : Supply) (device : DeviceState) : State :=
  { base with pwr := { base.pwr with supply, device, resetPin := true } }
def stage1 (bad : Option Nat) : StageResult :=
  { failedUnit := bad, imageA := true, imageB := true, identityOk := true, profileOk := true, refclkGood := true, modules := []
    expanders := [], twinAnswers := false, failingCores := [] }
def holding (input tripped : Bool) : State := { base with pwr := { base.pwr with supply := .holdup, input, tripped } }

theorem test_witness_PowerComesUpAndGoesDown : Obligations.PowerComesUpAndGoesDown →
    Goes .inputPowerUp (supplied .off .boot) ∧ Goes (.railTimeout 4) (supplied .rising .boot) ∧
    Goes (.powerGood 3) (supplied .rising .boot) ∧ Goes (.powerGood 3) (supplied .good .resetting) ∧
    Goes (.stageEnd (stage1 (some 7))) (supplied .good .calibrating) ∧ Goes (.stageEnd (stage1 none)) (supplied .good .boot) ∧
    Goes (.stageEnd (stage1 none)) (supplied .good .calibrating) ∧ Goes (.stageEnd (stage1 none)) (supplied .good .initialising) ∧
    Goes (.stageEnd (stage1 none)) (supplied .good .selfTest) ∧ Goes .lossOfInput base ∧ Goes (.thermalTrip 3) base ∧
    Goes (.holdupFlushDone []) (holding false false) ∧ Goes (.holdupFlushDone []) (holding true true) ∧ Goes .refclkLoss base ∧
    Goes (.moduleLoss 1 7) base := by
  intro h
  and_intros
  · exact goes ((h (supplied .off .boot)).1 (by decide +kernel))
  · exact goes_of ((h (supplied .rising .boot)).2.1 4 (by decide +kernel))
  · exact goes ((h (supplied .rising .boot)).2.2.1 3 (by decide +kernel) (by decide +kernel) (.inl (by decide +kernel)))
  · exact goes ((h (supplied .good .resetting)).2.2.1 3 (by decide +kernel) (by decide +kernel) (.inr (by decide +kernel)))
  · exact goes_of (((h (supplied .good .calibrating)).2.2.2.1 (stage1 (some 7)) (by decide +kernel) (by decide +kernel)
      (by decide +kernel) (by decide +kernel)).1 7 (by decide +kernel))
  · exact goes (((h (supplied .good .boot)).2.2.2.1 (stage1 none) (by decide +kernel) (by decide +kernel) (by decide +kernel)
      (by decide +kernel)).2.1 (by decide +kernel) (by decide +kernel))
  · exact goes (((h (supplied .good .calibrating)).2.2.2.1 (stage1 none) (by decide +kernel) (by decide +kernel)
      (by decide +kernel) (by decide +kernel)).2.2.1 (by decide +kernel) (by decide +kernel)).1
  · exact goes (((h (supplied .good .initialising)).2.2.2.1 (stage1 none) (by decide +kernel) (by decide +kernel)
      (by decide +kernel) (by decide +kernel)).2.2.2.1 (by decide +kernel) (by decide +kernel))
  · exact goes (((h (supplied .good .selfTest)).2.2.2.1 (stage1 none) (by decide +kernel) (by decide +kernel) (by decide +kernel)
      (by decide +kernel)).2.2.2.2 (by decide +kernel) (by decide +kernel))
  · exact goes ((h base).2.2.2.2.1 (by decide +kernel)).1
  · exact goes_of (((h base).2.2.2.2.1 (by decide +kernel)).2 3)
  · exact goes ((h (holding false false)).2.2.2.2.2.1 [] (by decide +kernel) (by decide +kernel) (by decide +kernel))
  · exact goes ((h (holding true true)).2.2.2.2.2.2.1 [] (by decide +kernel) (by decide +kernel) (by decide +kernel)
      (by decide +kernel))
  · exact goes ((h base).2.2.2.2.2.2.2.1 (by decide +kernel) (by decide +kernel))
  · exact goes ((h base).2.2.2.2.2.2.2.2 1 7 (by decide +kernel) (by decide +kernel))

def asleep (armed state : Nat) : State := { base with pwr := { base.pwr with armed, state } }
def announced (time : Nat) : State :=
  { base with time, pwr := { base.pwr with pendingReset := some (false, 3) }, twin := { base.twin with awaitingTakeover := some 0
    } }
def unserved : State := { base with pwr := { base.pwr with device := .calibrating, served := false } }
def busy (t : Nat) : State := { base with pwr := { base.pwr with tenantBusy := some t } }

theorem test_witness_ResetsOfThePackageTenantsAndCores : Obligations.ResetsOfThePackageTenantsAndCores →
    Goes (.resetN false []) (supplied .good .ready) ∧
    Goes (.resetN true []) { base with pwr := { base.pwr with resetPin := false } } ∧
    Goes (.coldResetRequest []) (announced 0) ∧ Goes (.warmResetRequest []) (announced 0) ∧
    Goes (.warmResetRequest []) (asleep 1 1) ∧ Goes (.coldResetRequest []) base ∧
    Goes (.warmResetRequest []) (inPair .paired base) ∧ Goes (.warmResetRequest []) base ∧ Goes .announceWaitEnd (announced 0) ∧
    Goes .announceWaitEnd (announced (2 ^ 40)) ∧ (base.coldReset 1).pwr.device = .resetting ∧
    Goes (.tenantReset 5) (busy 5) ∧ Goes (.tenantReset 4096) base ∧ Goes (.tenantReset 4095) base ∧
    Goes .tenantResetComplete (busy 5) ∧ Goes (.coreReset 0) unserved ∧ Goes (.coreReset 25600) base ∧
    Goes (.coreReset 25599) (base.setCore 25599 { Core.initial with available := false }) ∧
    Goes (.coreReset 25599) (base.setCore 25599 { Core.initial with available := true }) := by
  intro h
  and_intros
  · exact goes ((h.1 (supplied .good .ready)).1 [] (by decide +kernel) (by decide +kernel))
  · exact goes ((h.1 { base with pwr := { base.pwr with resetPin := false } }).2.1 [] (by decide +kernel) (by decide +kernel))
  · exact goes (((h.1 (announced 0)).2.2.1 [] (by decide +kernel) (by decide +kernel)).1 (by decide +kernel)).1
  · exact goes (((h.1 (announced 0)).2.2.1 [] (by decide +kernel) (by decide +kernel)).1 (by decide +kernel)).2
  · exact goes ((((h.1 (asleep 1 1)).2.2.1 [] (by decide +kernel) (by decide +kernel)).2 (by decide +kernel)).1
      (by decide +kernel))
  · exact goes ((((h.1 base).2.2.1 [] (by decide +kernel) (by decide +kernel)).2 (by decide +kernel)).2 (by decide +kernel)).1
  · exact goes (((((h.1 (inPair .paired base)).2.2.1 [] (by decide +kernel) (by decide +kernel)).2 (by decide +kernel)).2
      (by decide +kernel)).2.1 (by decide +kernel) (by decide +kernel))
  · exact goes (((((h.1 base).2.2.1 [] (by decide +kernel) (by decide +kernel)).2 (by decide +kernel)).2 (by decide +kernel)).2.2
      (by decide +kernel) (by decide +kernel))
  · exact goes (((h.1 (announced 0)).2.2.2.1 0 false 3 (by decide +kernel) (by decide +kernel)).1 (by decide +kernel)
      (by decide +kernel))
  · exact goes (((h.1 (announced (2 ^ 40))).2.2.2.1 0 false 3 (by decide +kernel) (by decide +kernel)).2 (.inr
      (by decide +kernel)))
  · exact ((h.1 base).2.2.2.2 1).1
  · exact goes (((h.2 (busy 5) (by decide +kernel) (by decide +kernel)).1 5).1 (.inr (by decide +kernel)))
  · exact goes (((h.2 base (by decide +kernel) (by decide +kernel)).1 4096).2.1 (by decide +kernel) (by decide +kernel)
      (by decide +kernel))
  · have ⟨t, g, _⟩ := ((h.2 base (by decide +kernel) (by decide +kernel)).1 4095).2.2 (by decide +kernel) (by decide +kernel)
      (by decide +kernel)
    exact goes g
  · exact goes ((h.2 (busy 5) (by decide +kernel) (by decide +kernel)).2.1 5 (by decide +kernel) (by decide +kernel)
      (by decide +kernel))
  · exact goes (((h.2 unserved (by decide +kernel) (by decide +kernel)).2.2 0).1 (by decide +kernel))
  · exact goes (((h.2 base (by decide +kernel) (by decide +kernel)).2.2 25600).2.1 (by decide +kernel) (by decide +kernel))
  · exact goes (((h.2 (base.setCore 25599 { Core.initial with available := false }) (by decide +kernel) (by decide +kernel)).2.2
      25599).2.2.1 (by decide +kernel) (by decide +kernel) (by decide +kernel))
  · have ⟨t, g, _⟩ := ((h.2 (base.setCore 25599 { Core.initial with available := true }) (by decide +kernel)
      (by decide +kernel)).2.2 25599).2.2.2 (by decide +kernel) (by decide +kernel) (by decide +kernel) (by decide +kernel)
    exact goes g

def drowsy : State := { (base.setVal (dkey 0x2010 2) 9) with pwr := { base.pwr with armed := 0 } }
def waking : State := { asleep 1 1 with pwr := { (asleep 1 1).pwr with waking := some 0 } }

theorem test_witness_ProfilesAndPowerStates : Obligations.ProfilesAndPowerStates →
    Goes (.profileSelect 3) base ∧ Goes (.profileSelect 4) base ∧ Goes (.profileSelectReset 0x80 []) (announced 0) ∧
    Goes (.profileSelectReset 0x83 []) base ∧ Goes (.profileCopy 4) base ∧ Goes (.profileCopy 0x0200) base ∧
    Goes .powerRequestActive base ∧ Goes .powerRequestDrowsy base ∧ Goes .powerRequestDormant base ∧ Goes .drowsyIdleExpiry
      drowsy ∧
    Goes .powerStateEntry (asleep 1 0) ∧ Goes .powerStateEntry (asleep 2 0) ∧ Goes .powerStateEntry base ∧
    Goes .wakeComplete waking := by
  intro h
  and_intros
  · exact goes (((h base).1 (by decide +kernel) (by decide +kernel)).1 3 |>.1 (by decide +kernel))
  · exact goes ((((h base).1 (by decide +kernel) (by decide +kernel)).1 4).2.1 (by decide +kernel) (.inl (by decide +kernel)))
  · exact goes (((((h (announced 0)).1 (by decide +kernel) (by decide +kernel)).1 0x80).2.2 [] (by decide +kernel)
      (by decide +kernel)).1 (by decide +kernel))
  · exact goes (((((h base).1 (by decide +kernel) (by decide +kernel)).1 0x83).2.2 [] (by decide +kernel) (by decide +kernel)).2
      (by decide +kernel))
  · exact goes ((((h base).1 (by decide +kernel) (by decide +kernel)).2.1 4).1 (.inl (by decide +kernel)))
  · exact goes ((((h base).1 (by decide +kernel) (by decide +kernel)).2.1 0x0200).2 (by decide +kernel) (by decide +kernel)
      (by decide +kernel))
  · exact goes ((h base).1 (by decide +kernel) (by decide +kernel)).2.2.1
  · exact goes ((h base).1 (by decide +kernel) (by decide +kernel)).2.2.2.1
  · exact goes ((h base).1 (by decide +kernel) (by decide +kernel)).2.2.2.2
  · exact goes ((h drowsy).2.1 (by decide +kernel) (by decide +kernel) (by decide +kernel))
  · exact goes ((h (asleep 1 0)).2.2.1 (by decide +kernel) (by decide +kernel))
  · exact goes ((h (asleep 2 0)).2.2.2.1 (by decide +kernel) (by decide +kernel))
  · exact goes ((h base).2.2.2.2.1 (by decide +kernel))
  · exact goes ((h waking).2.2.2.2.2 0 (by decide +kernel) (by decide +kernel) (by decide +kernel))

def ultra : State := { base with prof := { base.prof with active := 3 } }

theorem test_witness_EntriesAreReadWrittenAndDescribed : Obligations.EntriesAreReadWrittenAndDescribed →
    Goes (.read 0x0001 0) base ∧ Goes (.write 0x0001 0 []) base ∧ Goes (.describe 0x0001 0) base ∧ Goes (.readRows 0x0001 0 0 0)
      base ∧
    Goes (.writeRows 0x0001 0 0 0 []) base ∧ Goes (.read 0x1002 0) base ∧ Goes (.read 0x1000 3) base ∧ Goes (.write 0x1000 3 [1])
      base ∧
    Goes (.write 0x1100 1 [7]) ultra ∧ Goes (.write 0x1100 1 []) base ∧ Goes (.write 0x1100 1 [7]) base ∧
    Goes (.readRows 0x1001 1 0 9) base ∧ Goes (.writeRows 0x9000 0 0 1 []) base ∧ Goes (.writeRows 0x9000 0 0 0 []) base ∧
    Goes (.describe 0x1000 3) base ∧ Goes (.nextEntry 0x1000 3) base := by
  intro h
  and_intros
  · exact goes ((h base 0x0001 0 [] (by decide +kernel) (by decide +kernel)).1 (by decide +kernel)).1
  · exact goes ((h base 0x0001 0 [] (by decide +kernel) (by decide +kernel)).1 (by decide +kernel)).2.1
  · exact goes ((h base 0x0001 0 [] (by decide +kernel) (by decide +kernel)).1 (by decide +kernel)).2.2.1
  · exact goes (((h base 0x0001 0 [] (by decide +kernel) (by decide +kernel)).1 (by decide +kernel)).2.2.2 0 0
      (by decide +kernel) (by decide +kernel)).1
  · exact goes (((h base 0x0001 0 [] (by decide +kernel) (by decide +kernel)).1 (by decide +kernel)).2.2.2 0 0
      (by decide +kernel) (by decide +kernel)).2
  · exact goes (((h base 0x1002 0 [] (by decide +kernel) (by decide +kernel)).2.1 _ (held (by decide +kernel))).1 (.inl
      (by decide +kernel)))
  · exact goes (((h base 0x1000 3 [] (by decide +kernel) (by decide +kernel)).2.1 _ (held (by decide +kernel))).2.1
      (by decide +kernel) (by decide +kernel))
  · exact goes (((h base 0x1000 3 [1] (by decide +kernel) (by decide +kernel)).2.1 _ (held (by decide +kernel))).2.2.1 (.inl
      (by decide +kernel)))
  · exact goes (((h ultra 0x1100 1 [7] (by decide +kernel) (by decide +kernel)).2.1 _ (held (by decide +kernel))).2.2.2.1
      (by decide +kernel) (by decide +kernel) (by decide +kernel))
  · exact goes (((h base 0x1100 1 [] (by decide +kernel) (by decide +kernel)).2.1 _ (held (by decide +kernel))).2.2.2.2.1 1
      (by decide +kernel) (by decide +kernel) (by decide +kernel) (by decide +kernel) (by decide +kernel))
  · exact goes (((h base 0x1100 1 [7] (by decide +kernel) (by decide +kernel)).2.1 _ (held (by decide +kernel))).2.2.2.2.2.1 1 _
      (by decide +kernel) (by decide +kernel) (by decide +kernel) (by decide +kernel) (by decide +kernel) (answered
      (by decide +kernel)) (by decide +kernel))
  · exact goes (((h base 0x1001 1 [] (by decide +kernel) (by decide +kernel)).2.1 _ (held (by decide +kernel))).2.2.2.2.2.2.1 0 9
      (by decide +kernel) (by decide +kernel) (by decide +kernel) (by decide +kernel) (by decide +kernel) (by decide +kernel)
      (.inl rfl))
  · exact goes ((((h base 0x9000 0 [] (by decide +kernel) (by decide +kernel)).2.1 _ (held (by decide +kernel))).2.2.2.2.2.2.2 0
      1 (by decide +kernel) (by decide +kernel) (by decide +kernel) (by decide +kernel) (by decide +kernel)).1
      (by decide +kernel))
  · exact goes ((((h base 0x9000 0 [] (by decide +kernel) (by decide +kernel)).2.1 _ (held (by decide +kernel))).2.2.2.2.2.2.2 0
      0 (by decide +kernel) (by decide +kernel) (by decide +kernel) (by decide +kernel) (by decide +kernel)).2 _
      (by decide +kernel) (by decide +kernel) (answered (by decide +kernel)))
  · have ⟨d, g, _⟩ := (h base 0x1000 3 [] (by decide +kernel) (by decide +kernel)).2.2.1
    exact goes g
  · exact goes (h base 0x1000 3 [] (by decide +kernel) (by decide +kernel)).2.2.2

theorem test_witness_RefusedRequestsHaveNoEffect : Obligations.RefusedRequestsHaveNoEffect →
    Goes (.read 0x0001 0) base ∧ Goes (.write 0x1000 3 [1]) base ∧ Goes (.readRows 0x1001 1 0 9) base := by
  intro h
  and_intros
  · exact goes ((h base 0x0001 0 [] 0 0 (by decide +kernel) (by decide +kernel) (by decide +kernel)).1.2.1 (by decide +kernel))
  · exact goes ((h base 0x1000 3 [1] 0 0 (by decide +kernel) (by decide +kernel) (by decide +kernel)).2.1.2.1 (by decide +kernel))
  · exact goes ((h base 0x1001 1 [] 0 9 (by decide +kernel) (by decide +kernel) (by decide +kernel)).2.2.1.2.2
      (by decide +kernel) (by decide +kernel))

def frame (ok addressed : Bool) (header : Nat) : MgmtFrame :=
  { source := 4, addressed, fcsOk := ok, payload := leBytes 16 header ++ List.replicate 30 0 }
def heard (frag : Nat) : State := { base with mgmt := { base.mgmt with sources := [(4, { MgmtSource.fresh with frag })] } }
def ringUp (tailSeen : Nat) : State :=
  { base with mgmt := { base.mgmt with ring := .active, extent := some 0, tailSeen, written := 2, headSeen := 1 } }

theorem test_witness_FramesAndTheManagementRing : Obligations.FramesAndTheManagementRing →
    Goes (.mgmtFrame (frame false true 0)) base ∧ Goes (.mgmtFrame (frame true false 0)) base ∧
    Goes (.mgmtFrame (frame true true (0x6D47 + 2 ^ 16 + 16 * 2 ^ 48))) base ∧
    Goes (.mgmtFrame (frame true true (0x6D47 + 2 ^ 16 + 2 * 2 ^ 24))) base ∧ Goes (.reassemblyTimeout 4) (heard 1) ∧
    Goes (.reassemblyTimeout 4) (heard 0) ∧ Goes (.discover 4 9) base ∧ Goes (.mgmtTailPresented 16) (ringUp 1) ∧
    Goes (.mgmtTailPresented 17) (ringUp 1) ∧ Goes (.mgmtHeadPresented 2) (ringUp 1) ∧ Goes (.mgmtHeadPresented 3) (ringUp 1) ∧
    Goes .mgmtRequestTake (ringUp 2) ∧ Goes .mgmtRequestTake (ringUp 0) := by
  intro h
  and_intros
  · exact goes (((h base).1 (frame false true 0) (by decide +kernel) (by decide +kernel)).1 (by decide +kernel))
  · exact goes (((h base).1 (frame true false 0) (by decide +kernel) (by decide +kernel)).2.1 (by decide +kernel)
      (by decide +kernel))
  · exact goes ((((h base).1 (frame true true (0x6D47 + 2 ^ 16 + 16 * 2 ^ 48)) (by decide +kernel) (by decide +kernel)).2.2
      (by decide +kernel) (by decide +kernel) (by decide +kernel) (by decide +kernel) (by decide +kernel)).1 (by decide +kernel))
  · exact goes ((((h base).1 (frame true true (0x6D47 + 2 ^ 16 + 2 * 2 ^ 24)) (by decide +kernel) (by decide +kernel)).2.2
      (by decide +kernel) (by decide +kernel) (by decide +kernel) (by decide +kernel) (by decide +kernel)).2 (by decide +kernel))
  · exact goes (((h (heard 1)).2.1 4 _ (held (by decide +kernel))).1 (by decide +kernel))
  · exact goes (((h (heard 0)).2.1 4 _ (held (by decide +kernel))).2 (by decide +kernel))
  · exact goes ((h base).2.2.1 4 9 (by decide +kernel) (by decide +kernel))
  · exact goes (((h (ringUp 1)).2.2.2.1 16 (by decide +kernel) (by decide +kernel) (by decide +kernel)).1 (by decide +kernel)
      (by decide +kernel))
  · exact goes (((h (ringUp 1)).2.2.2.1 17 (by decide +kernel) (by decide +kernel) (by decide +kernel)).2 (.inr
      (by decide +kernel)))
  · exact goes (((h (ringUp 1)).2.2.2.2.1 2 (by decide +kernel)).1 (by decide +kernel) (by decide +kernel))
  · exact goes (((h (ringUp 1)).2.2.2.2.1 3 (by decide +kernel)).2 (.inr (by decide +kernel)))
  · exact goes ((h (ringUp 2)).2.2.2.2.2.1 _ _ _ (by decide +kernel) (by decide +kernel) (went (by decide +kernel)))
  · exact goes ((h (ringUp 0)).2.2.2.2.2.2 (by decide +kernel) (by decide +kernel))

theorem test_witness_CommandsThatStoreNothingKeepTheStore : Obligations.CommandsThatStoreNothingKeepTheStore →
    (∃ t, exec (.portTraining 1) (withPort cabled base) = .next t ∧ t.mem = (withPort cabled base).mem) ∧
    (∃ t, exec .katPeriod base = .next t ∧ t.mem = base.mem) := by
  intro h
  and_intros
  · exact ⟨_, rfl, (h (withPort cabled base) _ 1 0 0 0 0 0 [] 0 [] 0 0 0 true).1 rfl⟩
  · exact ⟨_, rfl, (h base _ 1 0 0 0 0 0 [] 0 [] 0 0 0
      true).2.2.2.2.2.2.2.2.2.2.2.2.2.2.2.2.2.2.2.2.2.2.2.2.2.2.2.2.2.2.2.2.2.2.2.2.2.2.2.2.2.2.1 rfl⟩

theorem test_witness_ScratchpadWindowsLieAsR16Says : Obligations.ScratchpadWindowsLieAsR16Says →
    base.areaOf (0x4000_0000_0000 + 159 * 0x200_0000 + 159 * 0x2_0000 + 0x1FFFF) = .scratch (159 * 160 + 159) ∧
    base.areaOf (0x4000_0000_0000 + 160 * 0x200_0000 + 0 * 0x2_0000 + 0) = .reservedSlot := by
  intro h
  exact ⟨((h base 159 159 0x1FFFF (by decide +kernel) (by decide +kernel) (by decide +kernel) (by decide +kernel)
    (by decide +kernel)).1 (by decide +kernel) (by decide +kernel)).1, (h base 0 160 0 (by decide +kernel) (by decide +kernel)
    (by decide +kernel) (by decide +kernel) (by decide +kernel)).2 (.inr (by decide +kernel))⟩

/-! ### Ill-formed commands are refused -/

def badPacket (port len : Nat) : Packet := { port, header := 0, payload := List.replicate len 0 }
def badRow (port index tenant asid : Nat) : AgentRow :=
  { port, index, enable := true, tenant, asid, winBase := 0, winSize := 0, devBase := 0 }
def badWrite (stack bytes stream : Nat) : FtlWrite := { stack, page := 0, bytes, stream, stalledUs := 0 }

theorem test_wf_numbers : [Instr.tailPresented 65536 0, .headPresented 65536 0, .completionWrite 65536, .irqHoldoffExpiry 2048,
    .leaseLapse 1024, .nop 65536, .ftlBufferFlush 8 0 0, .gcRelocation 8 0 0, .gcRelocation 7 64 0, .wearLevelMove 0 64 0,
    .readDisturbScan 8 0 0, .expanderFailure 32, .drainEnd 1048576, .faultRingVa 256 0, .snoopTimeout 64, .albEntryChoice 4,
    .albHoldExpiry 4 0, .albHoldExpiry 0 (2 ^ 62), .watchRecallExpiry (2 ^ 62), .publishStagingGrant 2097152, .salu 25600 0,
    .channelClosed 25600 0, .creditReturn 0 64, .mergeBuildStart 2048, .replaceStart 8192, .pinStale 131072, .portTraining 32,
    .requestTimer 262144, .pendingTimer 64 0, .pendingTimer 0 262144, .takeoverNotice 64 0, .takeoverNotice 0 64, .railTimeout 8,
    .reassemblyTimeout (2 ^ 48), .discover (2 ^ 48) 0, .thermalTrip 64, .moduleLoss 2 0, .moduleLoss 0 8].all (fun i => !wf i) =
      true := by
  decide +kernel

theorem test_wf_objects : [Instr.rd (badPacket 32 0), .agentTable 64 (badRow 0 0 0 0), .agentTable 0 (badRow 18 0 0 0),
    .agentTable 0 (badRow 0 32 0 0), .agentTable 0 (badRow 0 0 4096 0), .agentTable 0 (badRow 0 0 0 65536),
    .flitReceive 0 { header := 0, payload := [], crcOk := true, tagOk := true },
    .flitReceive 32 { header := 0, payload := List.replicate 224 0, crcOk := true, tagOk := true },
    .flitArrive { sideband := 0, payload := [], mismatch := false }, .ftlWriteAccept (badWrite 8 64 0),
    .ftlWriteAccept (badWrite 0 0 0), .ftlWriteAccept (badWrite 0 16385 0), .ftlWriteAccept (badWrite 0 64 2),
    .mirror { header := 0, data := [0] }, .agentReadShared 64 0 0, .agentReadShared 0 (2 ^ 50) 0, .agentWriteBack 0 0 [],
    .agentWriteBack 0 (2 ^ 62) (List.replicate 64 0), .snoopAnswer 0 0 (some []) false, .linkKey 0 [], .mrExtend 5 [],
    .fwStage 0 (List.replicate 4097 0)].all (fun i => !wf i) = true := by
  decide +kernel

theorem test_wf_long_packet : wf (.rd (badPacket 0 8193)) = false := by decide +kernel

theorem test_wf_accepts : [Instr.tailPresented 65535 0, .rd (badPacket 31 8192), .agentTable 63 (badRow 17 31 4095 65535),
    .salu 25599 0, .moduleLoss 1 7].all wf = true := by decide +kernel

/-! ### The table gives no word -/

theorem test_no_word : decodeTableWord 32 5 = none ∧ State.reset.withFetchWord 32 5 = State.reset := ⟨rfl, rfl⟩

/-! ### Results that the manual gives -/

/-- 01, "Example: the scratchpad window of one core": core (85, 3) of package 8. -/
theorem test_window_of_core_85_3 : globalOf 8 (scratchBase (3 * 160 + 85)) = 0x20_4000_06AA_0000 := by decide

/-- 03 Table 3-8, "Example: one key block in K8 and K4": 3.1, 1.7, 0.0123 and −0.00002 from binary32. -/
theorem test_key_block :
    let xs := [0x40466666, 0x3FD9999A, 0x3C4985F0, 0xB7A7C5AC].map binary32.read
    (mxWrite fmtE4m3 448 xs).1 = 0x78 ∧ (mxWrite fmtE4m3 448 xs).2.1 = [0x7C, 0x76, 0x3D, 0x81] ∧
      (mxWrite fmtE2m1 6 xs).1 = 0x7F ∧ (mxWrite fmtE2m1 6 xs).2.1 = [0x5, 0x3, 0x0, 0x8] := by decide +kernel

/-- The value of s3 after one command on core 0. -/
def s3After (i : Instr) (s : State) : Option Word :=
  match exec i s with
  | .next t => some ((t.core 0).getS 3)
  | _ => none

/-- 07 Table 7-5: ADDI sign-extends IMM16, ANDI zero-extends it. -/
theorem test_addi_sign_extends : s3After (.addi 0 (wordI 2 3 4 0xFFFF)) (onCore (wordI 2 3 4 0xFFFF) (regs2 0 0)) =
    some 0xFFFF_FFFF_FFFF_FFFF := by decide +kernel
theorem test_andi_zero_extends : s3After (.andi 0 (wordI 3 3 4 0xFFFF)) (onCore (wordI 3 3 4 0xFFFF) (regs2 0xFFFF_FFFF_FFFF_FFFF
  0)) =
    some 0xFFFF := by decide +kernel

/-- 07 Table 7-5: LUI sign-extends its immediate shifted left by 16. -/
theorem test_lui_sign_extends : s3After (.lui 0 (wordI 6 3 0 0x8000)) (onCore (wordI 6 3 0 0x8000) []) =
    some 0xFFFF_FFFF_8000_0000 := by decide +kernel

/-- The status of slot 3 after one command. -/
def statusAfter (i : Instr) (s : State) : Option Status :=
  match exec i s with
  | .next t => (t.slot? 3).map (·.status)
  | _ => none

/-- 11 R297: a TABLE_CREATE whose TABLE_ID is in use is BAD_DESCRIPTOR. -/
theorem test_create_of_a_table_in_use : statusAfter (.tableCreate 3) (withTable table1 withTableBytes) = some .badDescriptor := by
  decide +kernel

end Sys2Proof.Tests
end

namespace Sys2Proof.Machine

/-! ### The scratchpad area of the local window (01 R16) -/

/-- In an assembly of Table 0-1 HBM and flash end below the scratchpad area, so nothing hides a slot of it. -/
theorem State.areaOf_of_scratchpadArea {s : State} {la : Nat} (hhbm : s.asm.hbm ≤ 16) (hflash : s.asm.flash ≤ 8)
    (hlo : 0x4000_0000_0000 ≤ la) (hhi : la < 0x4002_0000_0000) :
    s.areaOf la =
      if (la - 0x4000_0000_0000) % 0x200_0000 / 0x2_0000 < 160 ∧ (la - 0x4000_0000_0000) / 0x200_0000 < 160 then
        .scratch ((la - 0x4000_0000_0000) / 0x200_0000 * 160 + (la - 0x4000_0000_0000) % 0x200_0000 / 0x2_0000)
      else .reservedSlot := by
  have hbmEnds : ¬ la < s.asm.hbmBytes := by simp only [Assembly.hbmBytes]; omega
  have flashEnds : ¬ la < 0x2000_0000_0000 + s.asm.flashBytes := by simp only [Assembly.flashBytes]; omega
  simp [State.areaOf, hbmEnds, flashEnds, hlo, hhi]

/-- The slot (x, y) of the scratchpad area: a window where both are below 160, reserved elsewhere. -/
theorem State.areaOf_slot {s : State} {x y off : Nat} (hhbm : s.asm.hbm ≤ 16) (hflash : s.asm.flash ≤ 8)
    (hx : x < 256) (hy : y < 256) (hoff : off < 0x2_0000) :
    s.areaOf (0x4000_0000_0000 + y * 0x200_0000 + x * 0x2_0000 + off) =
      if x < 160 ∧ y < 160 then .scratch (y * 160 + x) else .reservedSlot := by
  have row : (0x4000_0000_0000 + y * 0x200_0000 + x * 0x2_0000 + off - 0x4000_0000_0000) / 0x200_0000 = y := by omega
  have column :
      (0x4000_0000_0000 + y * 0x200_0000 + x * 0x2_0000 + off - 0x4000_0000_0000) % 0x200_0000 / 0x2_0000 = x := by omega
  rw [State.areaOf_of_scratchpadArea hhbm hflash (by omega) (by omega), row, column]

theorem scratchBase_core {x y : Nat} (hx : x < 160) :
    scratchBase (y * 160 + x) = 0x4000_0000_0000 + y * 0x200_0000 + x * 0x2_0000 := by
  have row : (y * 160 + x) / 160 = y := by omega
  have column : (y * 160 + x) % 160 = x := by omega
  rw [scratchBase, row, column]

/-- Settles O5: the slot of an address in the scratchpad area gives the area, and `scratchBase` is the begin of its slot. -/
theorem scratchpadWindowsLieAsR16Says : Obligations.ScratchpadWindowsLieAsR16Says := by
  intro s x y off hhbm hflash hx hy hoff
  have area := State.areaOf_slot hhbm hflash hx hy hoff
  constructor
  · intro hx hy
    exact ⟨area.trans (if_pos ⟨hx, hy⟩), by rw [scratchBase_core hx]⟩
  · intro reserved
    exact area.trans (if_neg (by omega))

end Sys2Proof.Machine

section
set_option Elab.async false

/-!
### The form of the store at every step (log 4)

Few functions of the model write the store, and each of them keeps its form; every other function leaves the store as it was. The
layer below says which, once for each function that a step can run and in the order of the model's files:

- `f_mem` and `Keeps R` for every `R`: `f` leaves the store as it was;
- `f_canonical` and `Keeps Memory.Canonical`: `f` may write the store, and keeps its form;
- `outKeeps_execF`: the same of a command's outcome.

A function that takes a computation as an argument has a rule with a premise about that argument (`runSlot_keeps`).
-/

namespace Sys2Proof.Machine

open Sys2Proof

/-- The form of the store as a predicate that `simp` does not take apart. -/
def Memory.Canonical (m : SMap Byte) : Prop := Memory.wf m

theorem State.storeOk_iff_canonical {s : State} : s.storeOk ↔ Memory.Canonical s.mem := .rfl

variable {ε α β γ : Type} {R : SMap Byte → Prop}

/-- A computation on the state leads a store with `R` to a store with `R`, whether it answers or stops. For every `R` at once, it
leaves the store as it was (`State.mem_eq_of_keeps`). -/
structure Keeps (R : SMap Byte → Prop) (x : ExceptT ε (StateM State) α) : Prop where
  run : ∀ s, R s.mem → R (x.run s).2.mem

/-- The state that a command leaves, if it is neither a fault nor refused, has a store with `R`. -/
structure OutKeeps (R : SMap Byte → Prop) (o : Out) : Prop where
  next : ∀ t, o = .next t → R t.mem

/-! #### Computations -/

theorem Keeps.pure (a : α) : Keeps R (pure a : ExceptT ε (StateM State) α) := ⟨fun _ h => h⟩

theorem Keeps.throw (e : ε) : Keeps R (throw e : ExceptT ε (StateM State) α) := ⟨fun _ h => h⟩

theorem Keeps.set {t : State} (h : R t.mem) : Keeps R (set t : ExceptT ε (StateM State) PUnit) := ⟨fun _ _ => h⟩

theorem Keeps.modify {f : State → State} (h : ∀ s, R s.mem → R (f s).mem) :
    Keeps R (modify f : ExceptT ε (StateM State) PUnit) := ⟨fun s hs => h s hs⟩

theorem Keeps.get : Keeps R (get : ExceptT ε (StateM State) State) := ⟨fun _ h => h⟩

/-- `x >>= f`, where `P` is what `x` says of its answer. -/
theorem Keeps.bindFrom {x : ExceptT ε (StateM State) α} {f : α → ExceptT ε (StateM State) β} {P : α → Prop}
    (hx : Keeps R x) (hp : ∀ s a t, R s.mem → x.run s = (.ok a, t) → P a) (hf : ∀ a, P a → Keeps R (f a)) :
    Keeps R (x >>= f) := by
  refine ⟨fun s hs => ?_⟩
  have h := hx.run s hs
  show R ((ExceptT.bindCont f (x.run s).1 : StateM State _).run (x.run s).2).2.mem
  rcases hr : x.run s with ⟨r, t⟩
  rw [hr] at h
  cases r with
  | ok a => exact (hf a (hp s a t hs hr)).run t h
  | error e => exact h

theorem Keeps.bind {x : ExceptT ε (StateM State) α} {f : α → ExceptT ε (StateM State) β}
    (hx : Keeps R x) (hf : ∀ a, Keeps R (f a)) : Keeps R (x >>= f) :=
  .bindFrom hx (fun _ _ _ _ _ => True.intro) fun a _ => hf a

/-- What is read of the state in a bind has `R` of its store as well. -/
theorem Keeps.bind_get {f : State → ExceptT ε (StateM State) β}
    (hf : ∀ s, R s.mem → Keeps R (f s)) : Keeps R (MonadState.get >>= f) :=
  .bindFrom .get (fun s a t hs h => by cases h; exact hs) hf

theorem Keeps.tryCatch {x : ExceptT ε (StateM State) α} {f : ε → ExceptT ε (StateM State) α}
    (hx : Keeps R x) (hf : ∀ e, Keeps R (f e)) : Keeps R (tryCatch x f) := by
  refine ⟨fun s hs => ?_⟩
  have h := hx.run s hs
  show R (StateT.run (match (x.run s).1 with
    | Except.ok a => (Pure.pure (Except.ok a) : StateM State (Except ε α))
    | Except.error e => (f e).run : StateM State (Except ε α)) (x.run s).2).2.mem
  rcases hr : x.run s with ⟨r, t⟩
  rw [hr] at h
  cases r with
  | ok a => exact h
  | error e => exact (hf e).run t h

theorem Keeps.throw_bind (e : ε) {f : α → ExceptT ε (StateM State) β} :
    Keeps R ((MonadExcept.throw e : ExceptT ε (StateM State) α) >>= f) := ⟨fun _ h => h⟩

theorem Keeps.waitE_bind {f : α → Eng β} : Keeps R ((waitE : Eng α) >>= f) := .throw_bind _

theorem Keeps.failE_bind {st : Status} {f : α → Eng β} : Keeps R ((failE st : Eng α) >>= f) := .throw_bind _

theorem Keeps.excE_bind {c v : Nat} {f : α → CoreE β} : Keeps R ((excE c v : CoreE α) >>= f) := .throw_bind _

@[simp] theorem Keeps.waitE : Keeps R (waitE : Eng α) := .throw _

@[simp] theorem Keeps.failE {st : Status} : Keeps R (failE st : Eng α) := .throw _

@[simp] theorem Keeps.excE {c v : Nat} : Keeps R (excE c v : CoreE α) := .throw _

/-! #### Outcomes and states -/

theorem OutKeeps.ofNext {t : State} (h : R t.mem) : OutKeeps R (.next t) := ⟨fun _ e => by cases e; exact h⟩

@[simp] theorem OutKeeps.ofFault (f : Fault) : OutKeeps R (.fault f) := ⟨fun _ e => by cases e⟩

@[simp] theorem OutKeeps.ofRefused (f : Refusal) : OutKeeps R (.refused f) := ⟨fun _ e => by cases e⟩

theorem Memory.canonical_memWrite {m a bs} (hm : Memory.Canonical m) : Memory.Canonical (memWrite m a bs) :=
  Memory.wf_memWrite bs m a hm

theorem State.mem_ite {p : Prop} [Decidable p] {s t : State} : (if p then s else t).mem = if p then s.mem else t.mem := by
  split <;> rfl

@[simp] theorem State.foldl_mem {f : State → β → State} {l : List β} {s : State} (hf : ∀ s b, (f s b).mem = s.mem) :
    (l.foldl f s).mem = s.mem := by
  induction l generalizing s with
  | nil => rfl
  | cons b l ih => exact ih.trans (hf s b)

theorem State.keeps_foldl {f : State → β → State} {l : List β} {s : State}
    (hs : R s.mem) (hf : ∀ s b, R s.mem → R (f s b).mem) : R (l.foldl f s).mem := by
  induction l generalizing s with
  | nil => exact hs
  | cons b l ih => exact ih (hf s b hs)

theorem State.keeps_ite_snd {c : Prop} [Decidable c] {p q : β × State} (hp : R p.2.mem) (hq : R q.2.mem) :
    R (if c then p else q).2.mem := by
  split
  · exact hp
  · exact hq

/-- The state of a pair that a `match` took apart. -/
theorem State.keeps_pair {p : β × State} {b : β} {t u : State} (h : p = (b, t)) (hp : R p.2.mem)
    (k : R t.mem → R u.mem) : R u.mem := k (by subst h; exact hp)

/-- To keep every property of the store is to leave it as it was. -/
theorem State.mem_eq_of_keeps {s t : State} (h : ∀ R : SMap Byte → Prop, R s.mem → R t.mem) : t.mem = s.mem :=
  h (· = s.mem) rfl

theorem Keeps.go {x : Eng α} (hx : Keeps R x) {s : State} (hs : R s.mem) : R (x.go s).2.mem := hx.run s hs

theorem Keeps.goCore {x : CoreE α} (hx : Keeps R x) {s : State} (hs : R s.mem) : R (CoreE.go x s).2.mem := hx.run s hs

theorem Keeps.state {x : Eng α} (hx : Keeps R x) {s : State} (hs : R s.mem) : R (x.state s).mem := hx.run s hs

theorem Keeps.map {f : α → β} {x : ExceptT ε (StateM State) α} (hx : Keeps R x) :
    Keeps R (f <$> x) :=
  .bind hx fun _ => .pure _

theorem keeps_foldlM {f : β → α → ExceptT ε (StateM State) β} {l : List α} {b : β} (hf : ∀ b a, Keeps R (f b a)) :
    Keeps R (l.foldlM f b) := by
  induction l generalizing b with
  | nil => exact .pure _
  | cons a l ih => rw [List.foldlM_cons]; exact .bind (hf b a) fun _ => ih

theorem keeps_mapM {f : α → ExceptT ε (StateM State) β} {l : List α} (hf : ∀ a, Keeps R (f a)) : Keeps R (l.mapM f) := by
  induction l with
  | nil => rw [List.mapM_nil]; exact .pure _
  | cons a l ih => rw [List.mapM_cons]; exact .bind (hf a) fun _ => .bind ih fun _ => .pure _

theorem keeps_forM {f : α → ExceptT ε (StateM State) PUnit} {l : List α} (hf : ∀ a, Keeps R (f a)) :
    Keeps R (List.forM l f) := by
  induction l with
  | nil => exact .pure _
  | cons a l ih => exact .bind (hf a) fun _ => ih

/-! #### Writes of one part of the state

The laws of these functions are proved by `rfl` alone, which `simp` cannot use where it proves a premise of another lemma: there it
takes these, which say the same and go before them. -/

@[simp high] theorem State.mem_setSlot {s n x} : (State.setSlot s n x).mem = s.mem := (rfl)
@[simp high] theorem State.mem_delSlot {s n} : (State.delSlot s n).mem = s.mem := (rfl)
@[simp high] theorem State.mem_updSlot {s n f} : (State.updSlot s n f).mem = s.mem := (rfl)
@[simp high] theorem State.mem_setRing {s n x} : (State.setRing s n x).mem = s.mem := (rfl)
@[simp high] theorem State.mem_updRing {s n f} : (State.updRing s n f).mem = s.mem := (rfl)
@[simp high] theorem State.mem_setCq {s n x} : (State.setCq s n x).mem = s.mem := (rfl)
@[simp high] theorem State.mem_setExtent {s n x} : (State.setExtent s n x).mem = s.mem := (rfl)
@[simp high] theorem State.mem_updExtent {s n f} : (State.updExtent s n f).mem = s.mem := (rfl)
@[simp high] theorem State.mem_setCore {s n c} : (State.setCore s n c).mem = s.mem := (rfl)
@[simp high] theorem State.mem_updCore {s n f} : (State.updCore s n f).mem = s.mem := (rfl)
@[simp high] theorem State.mem_setVal {s k v} : (State.setVal s k v).mem = s.mem := (rfl)
@[simp high] theorem State.mem_bump {s k n} : (State.bump s k n).mem = s.mem := (rfl)
@[simp high] theorem State.mem_finish {s n st c v} : (State.finish s n st c v).mem = s.mem := (rfl)
@[simp high] theorem State.mem_failSlot {s n st} : (State.failSlot s n st).mem = s.mem := (rfl)
@[simp high] theorem State.mem_watch {s l w} : (State.watch s l w).mem = s.mem := (rfl)
@[simp high] theorem State.mem_unwatch {s l} : (State.unwatch s l).mem = s.mem := (rfl)
@[simp high] theorem State.mem_renewLease {s l} : (State.renewLease s l).mem = s.mem := (rfl)
@[simp high] theorem State.mem_setDir {s l e} : (State.setDir s l e).mem = s.mem := (rfl)

/-! #### The search through a function's body

`byStoreRules` proves that a body keeps the store, or its form. It follows the body: a rule above for each bind, answer, read and write
of the state; for each call the lemma of the function called, by `simp` or, where that has a premise about a computation or a chosen
state, by name; and a case split at each branch. The names of the lemmas stand for those declared before the place of use. -/

theorem byStoreRules {P : Prop} (h : P := by
    repeat' (first
      | with_reducible assumption
      | with_reducible intro _
      -- a bind: its first computation stops, reads the state, or goes on with an answer
      | (with_reducible guard_target =~ Sys2Proof.Machine.Keeps _ (_ >>= _)
         with_reducible first
           | exact Sys2Proof.Machine.Keeps.throw_bind _
           | exact Sys2Proof.Machine.Keeps.waitE_bind
           | exact Sys2Proof.Machine.Keeps.failE_bind
           | exact Sys2Proof.Machine.Keeps.excE_bind
           | refine Sys2Proof.Machine.Keeps.bind_get ?_
           | refine Sys2Proof.Machine.Keeps.bind ?_ ?_)
      -- any other computation: a rule, a branch, or a call with a lemma of its own
      | (with_reducible guard_target =~ Sys2Proof.Machine.Keeps _ _
         first
           | with_reducible first
             | refine Sys2Proof.Machine.Keeps.map ?_
             | exact Sys2Proof.Machine.Keeps.pure _
             | exact Sys2Proof.Machine.Keeps.throw _
             | exact Sys2Proof.Machine.Keeps.get
             | refine Sys2Proof.Machine.Keeps.set ?_
             | refine Sys2Proof.Machine.Keeps.modify ?_
             | refine Sys2Proof.Machine.keeps_attempt ?_
             | refine Sys2Proof.Machine.keeps_liftC ?_
             | refine Sys2Proof.Machine.keeps_loopFrom ?_
             | refine Sys2Proof.Machine.keeps_units ?_
             | refine Sys2Proof.Machine.keeps_joinPieces ?_
             | refine Sys2Proof.Machine.keeps_eachPiece ?_
             | refine Sys2Proof.Machine.keeps_restoring ?_ ?_
             | refine Sys2Proof.Machine.keeps_landOnce ?_
             | refine Sys2Proof.Machine.keeps_foldlM ?_
             | refine Sys2Proof.Machine.keeps_mapM ?_
             | refine Sys2Proof.Machine.keeps_forM ?_
           | split
           | simp [*])
      -- the outcome of a command
      | (with_reducible guard_target =~ Sys2Proof.Machine.OutKeeps _ _
         first
           | with_reducible first
             | refine Sys2Proof.Machine.OutKeeps.ofNext ?_
             | refine Sys2Proof.Machine.outKeeps_fmOut ?_ ?_
             | refine Sys2Proof.Machine.outKeeps_dbgOut ?_ ?_
             | refine Sys2Proof.Machine.outKeeps_contextCommand ?_
           | simp
           | split)
      -- a state that a computation, or a function with a premise, leaves
      | with_reducible first
        | refine Sys2Proof.Machine.State.keeps_foldl ?_ ?_
        | refine Sys2Proof.Machine.Keeps.go ?_ ?_
        | refine Sys2Proof.Machine.Keeps.goCore ?_ ?_
        | refine Sys2Proof.Machine.Keeps.state ?_ ?_
        | refine Sys2Proof.Machine.runSlot_keeps ?_ ?_
        | refine Sys2Proof.Machine.runSlotIf_keeps ?_ ?_
        | refine Sys2Proof.Machine.ringConfig_keeps ?_ ?_
        | refine Sys2Proof.Machine.extentMap_keeps ?_ ?_
        | refine Sys2Proof.Machine.regionConfig_keeps ?_ ?_
        | refine Sys2Proof.Machine.stepOp_keeps ?_ ?_
        | refine Sys2Proof.Machine.sampleOp_keeps ?_ ?_
        | refine Sys2Proof.Machine.State.manage_keeps ?_ ?_
        | refine Sys2Proof.Machine.State.manageData_keeps ?_ ?_
        | refine Sys2Proof.Machine.orRefused_keeps ?_ ?_
        | refine Sys2Proof.Machine.serve_keeps ?_ ?_
        | refine Sys2Proof.Machine.streamRun_canonical ?_ ?_
        | refine Sys2Proof.Machine.State.runReplace_keeps ?_ ?_
        | refine Sys2Proof.Machine.takeResponse_keeps ?_ ?_
        | refine Sys2Proof.Machine.fmCommand_keeps ?_ ?_
        | refine Sys2Proof.Machine.State.instruction_canonical ?_ ?_
        | refine Sys2Proof.Machine.State.coreProgress_canonical ?_
        | refine Sys2Proof.Machine.State.applied_keeps ?_ ?_
        | refine Sys2Proof.Machine.State.applyNote_canonical ?_
        | refine Sys2Proof.Machine.State.probed_canonical ?_
        | refine Sys2Proof.Machine.State.dropMirrors_canonical ?_
        | refine Sys2Proof.Machine.State.settleRemote_canonical ?_
        | refine Sys2Proof.Machine.State.takeCommands_canonical ?_
        | refine Sys2Proof.Machine.State.dropUnacked_canonical ?_
        | refine Sys2Proof.Machine.State.releaseFaults_canonical ?_
        | refine Sys2Proof.Machine.State.endLong_canonical ?_
        | refine Sys2Proof.Machine.State.retryBatches_canonical ?_
        | refine Sys2Proof.Machine.State.startReset_canonical ?_
        | refine Sys2Proof.Machine.State.restartFirmware_canonical ?_
        | refine Sys2Proof.Machine.State.ringRespond_canonical ?_
        | refine Sys2Proof.Machine.State.writeMgmtBlock_canonical ?_
        | refine Sys2Proof.Machine.State.landCounter_canonical ?_
        | refine Sys2Proof.Machine.State.haltLaunch_canonical ?_
      -- a state of a pair that a branch took apart, or that `route` answered
      | (with_reducible rename _ = ((_, _) : _ × Sys2Proof.Machine.State) => h
         with_reducible refine Sys2Proof.Machine.State.keeps_pair h ?_ fun _ => ?_
         all_goals clear h)
      | (with_reducible rename Sys2Proof.Machine.State.route _ _ _ = some _ => h
         rw [Sys2Proof.Machine.State.route_mem h]
         clear h)
      -- a state after calls with lemmas of their own, else a branch
      | simp [*, Sys2Proof.Machine.State.mem_ite]
      | split)) : P := h

/-! #### The functions of Machine/Metadata.lean -/

@[simp] theorem State.setHeldExtent_mem {s e x} : (State.setHeldExtent s e x).mem = s.mem := by
  unfold State.setHeldExtent; exact State.mem_eq_of_keeps byStoreRules

/-! #### The functions of Machine/Ops.lean -/

@[simp] theorem keeps_needE {b st} : Keeps R (needE b st) := by
  unfold needE; exact byStoreRules

@[simp] theorem keeps_holdE {b} : Keeps R (holdE b) := by
  unfold holdE; exact byStoreRules

theorem keeps_attempt {x : Eng α} (hx : Keeps R x) : Keeps R (attempt x) := by
  unfold attempt
  refine .tryCatch (.bind hx fun _ => .pure _) fun e => ?_
  cases e <;> exact byStoreRules

@[simp] theorem State.draw_mem {s} : (State.draw s).2.mem = s.mem := by
  unfold State.draw; exact State.mem_eq_of_keeps byStoreRules

@[simp] theorem State.drawRun_mem {s n} : (State.drawRun s n).2.mem = s.mem := by
  unfold State.drawRun; exact State.mem_eq_of_keeps byStoreRules

@[simp] theorem State.drawBytes_mem {s n} : (State.drawBytes s n).2.mem = s.mem := by
  induction n generalizing s with
  | zero => rfl
  | succ n ih => simp [drawBytes, ih]

@[simp] theorem State.wake_mem {s} : (State.wake s).mem = s.mem := by
  unfold State.wake; exact State.mem_eq_of_keeps byStoreRules

@[simp] theorem State.countWork_mem {s tenant seq type col n} : (State.countWork s tenant seq type col n).mem = s.mem := by
  unfold State.countWork; exact State.mem_eq_of_keeps byStoreRules

@[simp] theorem State.logError_mem {s code sourceClass tenant sourceIndex detail} :
    (State.logError s code sourceClass tenant sourceIndex detail).mem = s.mem := by
  unfold State.logError; exact State.mem_eq_of_keeps byStoreRules

@[simp] theorem State.logFree_mem {s code sourceClass tenant sourceIndex} :
    (State.logFree s code sourceClass tenant sourceIndex).mem = s.mem := by
  unfold State.logFree; exact State.mem_eq_of_keeps byStoreRules

@[simp] theorem State.fmEvent_mem {s code id port detail} : (State.fmEvent s code id port detail).mem = s.mem := by
  unfold State.fmEvent; exact State.mem_eq_of_keeps byStoreRules

@[simp] theorem State.poisonLine_mem {s line} : (State.poisonLine s line).mem = s.mem := by
  unfold State.poisonLine; exact State.mem_eq_of_keeps byStoreRules

@[simp] theorem State.poisonLines_mem {s lines} : (State.poisonLines s lines).mem = s.mem := by
  unfold State.poisonLines; exact State.mem_eq_of_keeps byStoreRules

@[simp] theorem State.poke_canonical {s la bs} (hs : Memory.Canonical s.mem) : Memory.Canonical (State.poke s la bs).mem :=
  s.poke_wf la bs hs

@[simp] theorem State.pokeMasked_canonical {s line data mask} (hs : Memory.Canonical s.mem) :
    Memory.Canonical (State.pokeMasked s line data mask).mem :=
  s.pokeMasked_wf line data mask hs

@[simp] theorem State.zeroRange_canonical {s la n} (hs : Memory.Canonical s.mem) :
    Memory.Canonical (State.zeroRange s la n).mem :=
  s.zeroRange_wf la n hs

@[simp] theorem State.snoop_mem {s agent line kind} : (State.snoop s agent line kind).mem = s.mem := by
  unfold State.snoop; exact State.mem_eq_of_keeps byStoreRules

@[simp] theorem State.snoopAll_mem {s line} : (State.snoopAll s line).mem = s.mem := by
  unfold State.snoopAll; exact State.mem_eq_of_keeps byStoreRules

@[simp] theorem State.markWritten_mem {s la} : (State.markWritten s la).mem = s.mem := by
  unfold State.markWritten; exact State.mem_eq_of_keeps byStoreRules

@[simp] theorem State.sendRecord_mem {s kind count addr mask line slot r} :
    (State.sendRecord s kind count addr mask line slot r).mem = s.mem := by
  unfold State.sendRecord; exact State.mem_eq_of_keeps byStoreRules

@[simp] theorem State.mirrorLine_mem {s line mask slot} : (State.mirrorLine s line mask slot).mem = s.mem := by
  unfold State.mirrorLine; exact State.mem_eq_of_keeps byStoreRules

@[simp] theorem State.mirrorDir_mem {s line named} : (State.mirrorDir s line named).mem = s.mem := by
  unfold State.mirrorDir; exact State.mem_eq_of_keeps byStoreRules

@[simp] theorem State.mirrorMeta_mem {s slot} : (State.mirrorMeta s slot).mem = s.mem := by
  unfold State.mirrorMeta; exact State.mem_eq_of_keeps byStoreRules

@[simp] theorem State.sendNote_mem {s kind slot note} : (State.sendNote s kind slot note).mem = s.mem := by
  unfold State.sendNote; exact State.mem_eq_of_keeps byStoreRules

@[simp] theorem State.placeWrite_canonical {s la bs slot} (hs : Memory.Canonical s.mem) :
    Memory.Canonical (State.placeWrite s la bs slot).mem := by
  unfold State.placeWrite; exact byStoreRules

@[simp] theorem State.placePoison_canonical {s la bs slot} (hs : Memory.Canonical s.mem) :
    Memory.Canonical (State.placePoison s la bs slot).mem := by
  unfold State.placePoison; exact byStoreRules

@[simp] theorem keeps_homeReadP {tenant la n} : Keeps R (homeReadP tenant la n) := by
  unfold homeReadP; exact byStoreRules

@[simp] theorem keeps_homeRead {tenant la n} : Keeps R (homeRead tenant la n) := by
  unfold homeRead; exact byStoreRules

@[simp] theorem keeps_homeClaim {tenant la} : Keeps R (homeClaim tenant la) := by
  unfold homeClaim; exact byStoreRules

@[simp] theorem State.placeMasked_canonical {s line data mask slot bad} (hs : Memory.Canonical s.mem) :
    Memory.Canonical (State.placeMasked s line data mask slot bad).mem := by
  unfold State.placeMasked; exact byStoreRules

@[simp] theorem keeps_homeWrite {tenant la bs slot} : Keeps Memory.Canonical (homeWrite tenant la bs slot) := by
  unfold homeWrite; exact byStoreRules

@[simp] theorem keeps_homePoison {tenant la bs slot} : Keeps Memory.Canonical (homePoison tenant la bs slot) := by
  unfold homePoison; exact byStoreRules

@[simp] theorem State.unmapIf_mem {s p} : (State.unmapIf s p).mem = s.mem := by
  unfold State.unmapIf; exact State.mem_eq_of_keeps byStoreRules

@[simp] theorem State.touchPage_mem {s unit asid va} : (State.touchPage s unit asid va).mem = s.mem := by
  unfold State.touchPage; exact State.mem_eq_of_keeps byStoreRules

@[simp] theorem State.fault_mem {s w asid va cause write} : (State.fault s w asid va cause write).mem = s.mem := by
  unfold State.fault; exact State.mem_eq_of_keeps byStoreRules

@[simp] theorem keeps_translate {w asid va write} : Keeps R (translate w asid va write) := by
  unfold translate; exact byStoreRules

@[simp] theorem State.releaseUnits_mem {s key} : (State.releaseUnits s key).mem = s.mem := by
  unfold State.releaseUnits; exact State.mem_eq_of_keeps byStoreRules

@[simp] theorem State.finishSeq_mem {s seq st count result} : (State.finishSeq s seq st count result).mem = s.mem := by
  unfold State.finishSeq; exact State.mem_eq_of_keeps byStoreRules

@[simp] theorem State.failSeq_mem {s seq st} : (State.failSeq s seq st).mem = s.mem := by
  unfold State.failSeq; exact State.mem_eq_of_keeps byStoreRules

@[simp] theorem State.rejectSlot_mem {s n st} : (State.rejectSlot s n st).mem = s.mem := by
  unfold State.rejectSlot; exact State.mem_eq_of_keeps byStoreRules

@[simp] theorem keeps_getSlot {n} : Keeps R (getSlot n) := by
  unfold getSlot; exact byStoreRules

theorem endSlot_keeps {n r} (hr : R r.2.mem) : R (endSlot n r).mem := by
  unfold endSlot; exact byStoreRules

theorem runSlotIf_keeps {op n here body s} (hb : ∀ sl, Keeps R (body sl)) (hs : R s.mem) :
    R (runSlotIf op n here body s).mem := by
  unfold runSlotIf
  split
  · exact hs
  · split
    · exact hs
    · refine endSlot_keeps (Keeps.go (.bind (by simp) hb) ?_)
      exact byStoreRules

theorem runSlot_keeps {op n body s} (hb : ∀ sl, Keeps R (body sl)) (hs : R s.mem) : R (runSlot op n body s).mem := by
  unfold runSlot; exact runSlotIf_keeps hb hs

@[simp] theorem keeps_setCursor {n c} : Keeps R (setCursor n c) := by
  unfold setCursor; exact byStoreRules

@[simp] theorem keeps_setCount {n c} : Keeps R (setCount n c) := by
  unfold setCount; exact byStoreRules

@[simp] theorem keeps_noteStatus {n st} : Keeps R (noteStatus n st) := by
  unfold noteStatus; exact byStoreRules

@[simp] theorem keeps_countE {sl type col n} : Keeps R (countE sl type col n) := by
  unfold countE; exact byStoreRules

/-! #### The functions of Machine/Net.lean -/

@[simp] theorem State.setPort_mem {s n p} : (State.setPort s n p).mem = s.mem := by
  unfold State.setPort; exact State.mem_eq_of_keeps byStoreRules

@[simp] theorem State.updPort_mem {s n f} : (State.updPort s n f).mem = s.mem := by
  unfold State.updPort; exact State.mem_eq_of_keeps byStoreRules

@[simp] theorem State.pump_mem {s todo kept} : (State.pump s todo kept).mem = s.mem := by
  induction todo generalizing s kept with
  | nil => rw [State.pump]
  | cons _ _ ih => rw [State.pump]; exact State.mem_eq_of_keeps byStoreRules

@[simp] theorem State.emit_mem {s k} : (State.emit s k).mem = s.mem := by
  unfold State.emit; exact State.mem_eq_of_keeps byStoreRules

theorem State.route_mem {s h payload t} (ht : State.route s h payload = some t) : t.mem = s.mem := by
  unfold State.route at ht
  dsimp only at ht
  split at ht
  · cases ht; rfl
  · split at ht
    · cases ht; simp
    · cases ht

@[simp] theorem State.route_getD_mem {s h payload} : ((State.route s h payload).getD s).mem = s.mem := by
  cases ht : s.route h payload with
  | none => rfl
  | some t => exact State.route_mem ht

@[simp] theorem State.countDead_mem {s} : (State.countDead s).mem = s.mem := by
  unfold State.countDead; exact State.mem_eq_of_keeps byStoreRules

@[simp] theorem keeps_sendRequest {h payload purpose} : Keeps R (sendRequest h payload purpose) := by
  unfold sendRequest; exact byStoreRules

@[simp] theorem keeps_Resp.check {r} : Keeps R (Resp.check r) := by
  unfold Resp.check; exact byStoreRules

/-! #### The functions of Machine/Access.lean -/

@[simp] theorem State.setMail_mem {s w l} : (State.setMail s w l).mem = s.mem := by
  unfold State.setMail; exact State.mem_eq_of_keeps byStoreRules

@[simp] theorem keeps_clearMail {w} : Keeps R (clearMail w) := by
  unfold clearMail; exact byStoreRules

@[simp] theorem keeps_askRaw {w key h payload purpose} : Keeps R (askRaw w key h payload purpose) := by
  unfold askRaw; exact byStoreRules

@[simp] theorem keeps_noteTwin {w r} : Keeps R (noteTwin w r) := by
  unfold noteTwin; exact byStoreRules

@[simp] theorem keeps_askRemote {w key h payload purpose} : Keeps R (askRemote w key h payload purpose) := by
  unfold askRemote; exact byStoreRules

@[simp] theorem keeps_readPhys {w ga n} : Keeps R (readPhys w ga n) := by
  unfold readPhys; exact byStoreRules

@[simp] theorem keeps_writePhys {w ga bs poison} : Keeps Memory.Canonical (writePhys w ga bs poison) := by
  unfold writePhys; exact byStoreRules

@[simp] theorem keeps_readPieces {w asid l} : Keeps R (readPieces w asid l) := by
  induction l generalizing w asid with
  | nil => rw [readPieces]; exact byStoreRules
  | cons _ _ ih => rw [readPieces]; exact byStoreRules

@[simp] theorem keeps_readVaP {w asid va n} : Keeps R (readVaP w asid va n) := by
  unfold readVaP; exact byStoreRules

@[simp] theorem keeps_readVa {w asid va n} : Keeps R (readVa w asid va n) := by
  unfold readVa; exact byStoreRules

@[simp] theorem keeps_readNat {w asid va n} : Keeps R (readNat w asid va n) := by
  unfold readNat; exact byStoreRules

@[simp] theorem keeps_writePieces {w asid l bs poison} : Keeps Memory.Canonical (writePieces w asid l bs poison) := by
  induction l generalizing w asid bs poison with
  | nil => rw [writePieces]; exact byStoreRules
  | cons _ _ ih => rw [writePieces]; exact byStoreRules

@[simp] theorem keeps_writeVa {w asid va bs} : Keeps Memory.Canonical (writeVa w asid va bs) := by
  unfold writeVa; exact byStoreRules

@[simp] theorem keeps_rangePieces {w asid va n write fuel} : Keeps R (rangePieces w asid va n write fuel) := by
  induction fuel generalizing w asid va n write with
  | zero => rw [rangePieces]; exact byStoreRules
  | succ _ ih => rw [rangePieces]; exact byStoreRules

@[simp] theorem keeps_translateAll {w asid write l} : Keeps R (translateAll w asid write l) := by
  induction l generalizing w asid write with
  | nil => rw [translateAll]; exact byStoreRules
  | cons _ _ ih => rw [translateAll]; exact byStoreRules

theorem keeps_loopFrom {w n body fuel i} (hb : ∀ i, Keeps R (body i)) : Keeps R (loopFrom w n body fuel i) := by
  induction fuel generalizing i with
  | zero => exact .pure _
  | succ _ ih => exact .bind (hb _) fun _ => .bind (by simp) fun _ => .bind (by simp) fun _ => ih

theorem keeps_units {w n total body} (hb : ∀ i, Keeps R (body i)) : Keeps R (units w n total body) := by
  unfold units; exact .bind (by simp) fun _ => keeps_loopFrom hb

@[simp] theorem keeps_askPartOf {w opcode kind seq d package key inputs} :
    Keeps R (askPartOf w opcode kind seq d package key inputs) := by
  unfold askPartOf; exact byStoreRules

@[simp] theorem keeps_askPart {w sl kind package key inputs} : Keeps R (askPart w sl kind package key inputs) := by
  unfold askPart; exact byStoreRules

@[simp] theorem State.albTouch_mem {s line} : (State.albTouch s line).mem = s.mem := by
  unfold State.albTouch; exact State.mem_eq_of_keeps byStoreRules

@[simp] theorem State.albWait_mem {s tenant la op size operand compare} :
    (State.albWait s tenant la op size operand compare).mem = s.mem := by
  unfold State.albWait; exact State.mem_eq_of_keeps byStoreRules

@[simp] theorem State.albFree_mem {s line} : (State.albFree s line).mem = s.mem := by
  unfold State.albFree; exact State.mem_eq_of_keeps byStoreRules

@[simp] theorem State.albGive_mem {s die} : (State.albGive s die).mem = s.mem := by
  unfold State.albGive; exact State.mem_eq_of_keeps byStoreRules

@[simp] theorem keeps_atomicAtHome {tenant la op size operand compare slot}
    : Keeps Memory.Canonical (atomicAtHome tenant la op size operand compare slot) := by
  unfold atomicAtHome; exact byStoreRules

@[simp] theorem keeps_atomicPhys {w ga op size operand compare} :
    Keeps Memory.Canonical (atomicPhys w ga op size operand compare) := by
  unfold atomicPhys; exact byStoreRules

@[simp] theorem keeps_counterAdd {w asid va} : Keeps Memory.Canonical (counterAdd w asid va) := by
  unfold counterAdd; exact byStoreRules

/-! #### The functions of Machine/RemoteLines.lean -/

@[simp] theorem State.setRemote_mem {s gline x} : (State.setRemote s gline x).mem = s.mem := by
  unfold State.setRemote; exact State.mem_eq_of_keeps byStoreRules

@[simp] theorem State.dropRemote_mem {s gline} : (State.dropRemote s gline).mem = s.mem := by
  unfold State.dropRemote; exact State.mem_eq_of_keeps byStoreRules

@[simp] theorem keeps_sendWriteBack {tenant gline x} : Keeps R (sendWriteBack tenant gline x) := by
  unfold sendWriteBack; exact byStoreRules

@[simp] theorem State.rlcEvict_mem {s} : (State.rlcEvict s).mem = s.mem := by
  unfold State.rlcEvict; exact State.mem_eq_of_keeps byStoreRules

@[simp] theorem State.rlcInstall_mem {s gline data versioned poisoned} :
    (State.rlcInstall s gline data versioned poisoned).mem = s.mem := by
  unfold State.rlcInstall; exact State.mem_eq_of_keeps byStoreRules

@[simp] theorem keeps_remoteView {w p la} : Keeps R (remoteView w p la) := by
  unfold remoteView
  refine .bind_get fun s hs => ?_
  split
  · exact .pure _
  · refine .bind (by simp) fun r => ?_
    split
    · refine .bind ?_ fun _ => ?_
      · exact keeps_Resp.check
      · exact .pure _
    · refine .bind ?_ fun _ => ?_
      · exact keeps_Resp.check
      · exact byStoreRules

@[simp] theorem keeps_remoteRead {w p la n} : Keeps R (remoteRead w p la n) := by
  unfold remoteRead; exact byStoreRules

@[simp] theorem keeps_remoteStore {g x data mask} : Keeps R (remoteStore g x data mask) := by
  unfold remoteStore; exact byStoreRules

@[simp] theorem keeps_remoteMerge {w p la data mask} : Keeps R (remoteMerge w p la data mask) := by
  unfold remoteMerge; exact byStoreRules

/-! #### The functions of Machine/CoreOps.lean -/

@[simp] theorem keeps_legalE {b} : Keeps R (legalE b) := by
  unfold legalE; exact byStoreRules

theorem keeps_liftC {va : Nat} {x : Eng α} (hx : Keeps R x) : Keeps R (liftC va x) := by
  unfold liftC; exact byStoreRules

@[simp] theorem keeps_trackClear {n pieces write} : Keeps R (trackClear n pieces write) := by
  unfold trackClear; exact byStoreRules

@[simp] theorem keeps_trackRoom {n k} : Keeps R (trackRoom n k) := by
  unfold trackRoom; exact byStoreRules

@[simp] theorem State.instrAt_mem {s n} : (State.instrAt s n).2.mem = s.mem := by
  unfold State.instrAt; exact State.mem_eq_of_keeps byStoreRules

@[simp] theorem State.noteExc_mem {s n cause va imprecise instr} : (State.noteExc s n cause va imprecise instr).mem = s.mem := by
  unfold State.noteExc; exact State.mem_eq_of_keeps byStoreRules

@[simp] theorem State.groupEnds_mem {s n} : (State.groupEnds s n).mem = s.mem := by
  unfold State.groupEnds; exact State.mem_eq_of_keeps byStoreRules

@[simp] theorem keeps_writeExcs {w asid excVa l todo imageVa} :
    Keeps Memory.Canonical (writeExcs w asid excVa l todo imageVa) := by
  induction todo generalizing w asid excVa l imageVa with
  | nil => rw [writeExcs]; exact byStoreRules
  | cons _ _ ih => rw [writeExcs]; exact byStoreRules

@[simp] theorem State.compareEnd_mem {s slot sl l} : (State.compareEnd s slot sl l).mem = s.mem := by
  unfold State.compareEnd; exact State.mem_eq_of_keeps byStoreRules

@[simp] theorem State.launchEnd_canonical {s slot} (hs : Memory.Canonical s.mem) :
    Memory.Canonical (State.launchEnd s slot).mem := by
  unfold State.launchEnd; exact byStoreRules

@[simp] theorem State.coreEnded_canonical {s n} (hs : Memory.Canonical s.mem) : Memory.Canonical (State.coreEnded s n).mem := by
  unfold State.coreEnded; exact byStoreRules

@[simp] theorem State.coreProgress_canonical {s n} (hs : Memory.Canonical s.mem) :
    Memory.Canonical (State.coreProgress s n).mem := by
  unfold State.coreProgress; exact byStoreRules

@[simp] theorem State.haltLaunch_canonical {s slot cause} (hs : Memory.Canonical s.mem) :
    Memory.Canonical (State.haltLaunch s slot cause).mem := by
  unfold State.haltLaunch; exact byStoreRules

@[simp] theorem State.coreExc_canonical {s n cause va imprecise instr} (hs : Memory.Canonical s.mem) :
    Memory.Canonical (State.coreExc s n cause va imprecise instr).mem := by
  unfold State.coreExc; exact byStoreRules

@[simp] theorem State.coreFaulted_canonical {s n va} (hs : Memory.Canonical s.mem) :
    Memory.Canonical (State.coreFaulted s n va).mem := by
  unfold State.coreFaulted; exact byStoreRules

@[simp] theorem keeps_fetchWord {n} : Keeps R (fetchWord n) := by
  unfold fetchWord; exact byStoreRules

@[simp] theorem State.retire_mem {s n pc} : (State.retire s n pc).mem = s.mem := by
  unfold State.retire; exact State.mem_eq_of_keeps byStoreRules

theorem State.instruction_canonical {s n word mine body} (hb : Keeps Memory.Canonical body) (hs : Memory.Canonical s.mem) :
    Memory.Canonical (State.instruction s n word mine body).mem := by
  unfold State.instruction; exact byStoreRules

@[simp] theorem keeps_coreSet {n f} : Keeps R (coreSet n f) := by
  unfold coreSet; exact byStoreRules

@[simp] theorem keeps_coreGet {n} : Keeps R (coreGet n) := by
  unfold coreGet; exact byStoreRules

@[simp] theorem keeps_countC {n type col k} : Keeps R (countC n type col k) := by
  unfold countC; exact byStoreRules

/-! #### The functions of Machine/Records.lean -/

@[simp] theorem State.catchUp_mem {s old} : (State.catchUp s old).mem = s.mem := by
  unfold State.catchUp; exact State.mem_eq_of_keeps byStoreRules

@[simp] theorem State.ringError_mem {s n cause} : (State.ringError s n cause).mem = s.mem := by
  unfold State.ringError; exact State.mem_eq_of_keeps byStoreRules

@[simp] theorem State.cqError_mem {s cq} : (State.cqError s cq).mem = s.mem := by
  unfold State.cqError; exact State.mem_eq_of_keeps byStoreRules

@[simp] theorem State.writeStatus_canonical {s n} (hs : Memory.Canonical s.mem) :
    Memory.Canonical (State.writeStatus s n).mem := by
  unfold State.writeStatus; exact byStoreRules

@[simp] theorem State.tailError_canonical {s n cause} (hs : Memory.Canonical s.mem) :
    Memory.Canonical (State.tailError s n cause).mem := by
  unfold State.tailError; exact byStoreRules

@[simp] theorem State.resumeLease_canonical {s l} (hs : Memory.Canonical s.mem) :
    Memory.Canonical (State.resumeLease s l).mem := by
  unfold State.resumeLease; exact byStoreRules

@[simp] theorem State.raise_mem {s v} : (State.raise s v).mem = s.mem := by
  unfold State.raise; exact State.mem_eq_of_keeps byStoreRules

/-! #### The functions of Machine/Rings.lean -/

@[simp] theorem State.restart_canonical {s n tail r} (hs : Memory.Canonical s.mem) :
    Memory.Canonical (State.restart s n tail r).mem := by
  unfold State.restart; exact byStoreRules

@[simp] theorem State.newTail_canonical {s n tail r} (hs : Memory.Canonical s.mem) :
    Memory.Canonical (State.newTail s n tail r).mem := by
  unfold State.newTail; exact byStoreRules

theorem outKeeps_execTailPresented {ring value s} (hs : Memory.Canonical s.mem) :
    OutKeeps Memory.Canonical (execTailPresented ring value s) := by
  unfold execTailPresented; exact byStoreRules

theorem outKeeps_execHeadPresented {cq value s} (hs : R s.mem) : OutKeeps R (execHeadPresented cq value s) := by
  unfold execHeadPresented; exact byStoreRules

@[simp] theorem State.takeDescriptor_canonical {s n r slot} (hs : Memory.Canonical s.mem) :
    Memory.Canonical (State.takeDescriptor s n r slot).mem := by
  unfold State.takeDescriptor; exact byStoreRules

@[simp] theorem State.takeRead_canonical {s n r bs} (hs : Memory.Canonical s.mem) :
    Memory.Canonical (State.takeRead s n r bs).mem := by
  unfold State.takeRead; exact byStoreRules

@[simp] theorem State.takeUnread_canonical {s n r st} (hs : Memory.Canonical s.mem) :
    Memory.Canonical (State.takeUnread s n r st).mem := by
  unfold State.takeUnread; exact byStoreRules

theorem outKeeps_execDescriptorFetch {s} (hs : Memory.Canonical s.mem) : OutKeeps Memory.Canonical (execDescriptorFetch s) := by
  unfold execDescriptorFetch; exact byStoreRules

@[simp] theorem keeps_writeRecord {sl n c} : Keeps Memory.Canonical (writeRecord sl n c) := by
  unfold writeRecord; exact byStoreRules

@[simp] theorem keeps_writeStep {sl r} : Keeps Memory.Canonical (writeStep sl r) := by
  unfold writeStep; exact byStoreRules

@[simp] theorem State.freeSlot_mem {s n sl} : (State.freeSlot s n sl).mem = s.mem := by
  unfold State.freeSlot; exact State.mem_eq_of_keeps byStoreRules

@[simp] theorem State.stepDone_mem {s ring seq r res} : (State.stepDone s ring seq r res).mem = s.mem := by
  unfold State.stepDone; exact State.mem_eq_of_keeps byStoreRules

@[simp] theorem State.raiseCq_mem {s sl c} : (State.raiseCq s sl c).mem = s.mem := by
  unfold State.raiseCq; exact State.mem_eq_of_keeps byStoreRules

@[simp] theorem State.endCommand_canonical {s n sl r} (hs : Memory.Canonical s.mem) :
    Memory.Canonical (State.endCommand s n sl r).mem := by
  unfold State.endCommand; exact byStoreRules

theorem outKeeps_execCompletionWrite {slot s} (hs : Memory.Canonical s.mem) :
    OutKeeps Memory.Canonical (execCompletionWrite slot s) := by
  unfold execCompletionWrite; exact byStoreRules

theorem outKeeps_execIrqHoldoffExpiry {vector s} (hs : R s.mem) : OutKeeps R (execIrqHoldoffExpiry vector s) := by
  unfold execIrqHoldoffExpiry; exact byStoreRules

theorem outKeeps_execInFlightRefresh {ring s} (hs : Memory.Canonical s.mem) :
    OutKeeps Memory.Canonical (execInFlightRefresh ring s) := by
  unfold execInFlightRefresh; exact byStoreRules

@[simp] theorem State.quiesce_canonical {s n r} (hs : Memory.Canonical s.mem) : Memory.Canonical (State.quiesce s n r).mem := by
  unfold State.quiesce; exact byStoreRules

theorem outKeeps_execLeaseLapse {lease s} (hs : Memory.Canonical s.mem) : OutKeeps Memory.Canonical (execLeaseLapse lease s) := by
  unfold execLeaseLapse; exact byStoreRules

theorem outKeeps_execCommandTimeout {slot s} (hs : Memory.Canonical s.mem) :
    OutKeeps Memory.Canonical (execCommandTimeout slot s) := by
  unfold execCommandTimeout; exact byStoreRules

theorem outKeeps_execNop {slot s} (hs : R s.mem) : OutKeeps R (execNop slot s) := by
  unfold execNop; exact byStoreRules

theorem outKeeps_execFence {slot s} (hs : R s.mem) : OutKeeps R (execFence slot s) := by
  unfold execFence; exact byStoreRules

theorem outKeeps_execLeaseRenew {slot s} (hs : Memory.Canonical s.mem) : OutKeeps Memory.Canonical (execLeaseRenew slot s) := by
  unfold execLeaseRenew; exact byStoreRules

@[simp] theorem State.freeRecords_mem {s free l} : (State.freeRecords s free l).2.mem = s.mem := by
  induction l generalizing s with
  | nil => rw [State.freeRecords]
  | cons _ _ ih => rw [State.freeRecords]; exact State.mem_eq_of_keeps byStoreRules

@[simp] theorem State.sections_mem {s all tenant kinds offset} : (State.sections s all tenant kinds offset).2.2.mem = s.mem := by
  induction kinds generalizing s offset with
  | nil => rw [State.sections]
  | cons _ _ ih => rw [State.sections]; exact State.mem_eq_of_keeps byStoreRules

theorem outKeeps_execSummary {slot s} (hs : Memory.Canonical s.mem) : OutKeeps Memory.Canonical (execSummary slot s) := by
  unfold execSummary
  refine .ofNext (runSlot_keeps (fun sl => .bind (by simp) fun _ => .bind_get fun s hs => ?_) hs)
  extract_lets all kinds
  clear_value kinds
  split
  rename_i heq
  exact .bind (.set (State.keeps_pair (congrArg Prod.snd heq) (by simpa using hs) id)) fun _ => byStoreRules

@[simp] theorem keeps_wordLine {w asid va} : Keeps R (wordLine w asid va) := by
  unfold wordLine; exact byStoreRules

@[simp] theorem keeps_readsZero {w asid va n} : Keeps R (readsZero w asid va n) := by
  unfold readsZero; exact byStoreRules

@[simp] theorem keeps_checkRing {w sl ringBytes} : Keeps R (checkRing w sl ringBytes) := by
  unfold checkRing; exact byStoreRules

theorem ringConfig_keeps {op n body s} (hb : ∀ sl, Keeps R (body sl)) (hs : R s.mem) : R (ringConfig op n body s).mem := by
  unfold ringConfig; exact runSlotIf_keeps hb hs

theorem outKeeps_execCommandRingRegister {slot s} (hs : Memory.Canonical s.mem) :
    OutKeeps Memory.Canonical (execCommandRingRegister slot s) := by
  unfold execCommandRingRegister; exact byStoreRules

theorem outKeeps_execCommandRingDeregister {slot s} (hs : Memory.Canonical s.mem) :
    OutKeeps Memory.Canonical (execCommandRingDeregister slot s) := by
  unfold execCommandRingDeregister; exact byStoreRules

theorem outKeeps_execDeregisterDrainDone {ring s} (hs : R s.mem) : OutKeeps R (execDeregisterDrainDone ring s) := by
  unfold execDeregisterDrainDone; exact byStoreRules

theorem outKeeps_execCompletionRingRegister {slot s} (hs : Memory.Canonical s.mem) :
    OutKeeps Memory.Canonical (execCompletionRingRegister slot s) := by
  unfold execCompletionRingRegister; exact byStoreRules

theorem outKeeps_execCompletionRingDeregister {slot s} (hs : R s.mem) : OutKeeps R (execCompletionRingDeregister slot s) := by
  unfold execCompletionRingDeregister; exact byStoreRules

theorem outKeeps_execLeaseResume {slot s} (hs : Memory.Canonical s.mem) : OutKeeps Memory.Canonical (execLeaseResume slot s) := by
  unfold execLeaseResume; exact byStoreRules

@[simp] theorem State.bootRing_canonical {s e x} (hs : Memory.Canonical s.mem) : Memory.Canonical (State.bootRing s e x).mem := by
  unfold State.bootRing; exact byStoreRules

@[simp] theorem State.writeBootRing_canonical {s v} (hs : Memory.Canonical s.mem) :
    Memory.Canonical (State.writeBootRing s v).2.mem := by
  unfold State.writeBootRing; exact byStoreRules

@[simp] theorem State.answer_mem {r} : (State.answer r).mem = r.2.mem := (rfl)

theorem State.guarded_keeps {s r} (hs : R s.mem) (hr : R r.2.mem) : R (State.guarded s r).2.mem := by
  unfold State.guarded; exact byStoreRules

theorem State.manage_keeps {s boot f} (hf : ∀ s, R s.mem → R (f s).2.mem) (hs : R s.mem) : R (State.manage s boot f).mem := by
  unfold State.manage; exact byStoreRules

theorem State.manageData_keeps {s f} (hf : ∀ s, R s.mem → R (f s).2.mem) (hs : R s.mem) : R (State.manageData s f).mem := by
  unfold State.manageData; exact State.manage_keeps (fun s hs => State.guarded_keeps hs (hf s hs)) hs

theorem outKeeps_execBootRing {value s} (hs : Memory.Canonical s.mem) : OutKeeps Memory.Canonical (execBootRing value s) := by
  unfold execBootRing; exact byStoreRules

/-! #### The functions of Machine/Extents.lean -/

@[simp] theorem State.takeExtent_canonical {s t e protect mirror} (hs : Memory.Canonical s.mem) :
    Memory.Canonical (State.takeExtent s t e protect mirror).mem := by
  unfold State.takeExtent; exact byStoreRules

theorem State.takeUnits_canonical {s t tiers group protect twin n choice s' l} (hs : Memory.Canonical s.mem)
    (h : State.takeUnits s t tiers group protect twin n choice = .ok (s', l)) : Memory.Canonical s'.mem := by
  induction n generalizing s choice l with
  | zero => cases h; exact hs
  | succ n ih =>
    rw [State.takeUnits] at h
    dsimp only at h
    split at h
    · cases h
    · split at h
      · cases h
      · split at h
        all_goals
          split at h
          · cases h
          · split at h
            · rename_i hrest
              cases h
              exact ih byStoreRules hrest
            · cases h

theorem extentMap_keeps {op n body s} (hb : ∀ sl a, Keeps R (body sl a)) (hs : R s.mem) : R (extentMap op n body s).mem := by
  unfold extentMap; exact runSlotIf_keeps (fun _ => byStoreRules) hs

theorem outKeeps_execAlloc {slot choice s} (hs : Memory.Canonical s.mem) :
    OutKeeps Memory.Canonical (execAlloc slot choice s) := by
  unfold execAlloc
  refine .ofNext (extentMap_keeps (fun sl a => .bind_get fun s hs => .bind (by simp) fun _ => ?_) hs)
  dsimp only
  split
  · exact byStoreRules
  · exact byStoreRules
  · rename_i heq
    have h := State.takeUnits_canonical hs heq
    exact byStoreRules

theorem State.bindHere_mem {s lost tenant target root share page la bytes t}
    (h : State.bindHere s lost tenant target root share page la bytes = .ok t) : t.mem = s.mem := by
  unfold State.bindHere at h
  dsimp only at h
  split at h
  · cases h
  · cases h; simp

theorem outKeeps_execBind {slot s} (hs : R s.mem) : OutKeeps R (execBind slot s) := by
  unfold execBind
  refine .ofNext (extentMap_keeps (fun sl a => .bind_get fun s hs => ?_) hs)
  extract_lets page bytes pa root share jp
  refine .bind (by simp) fun _ => ?_
  have hjp : ∀ p, Keeps R (jp p) := fun p => .bind (.modify fun s hs => by simpa using hs) fun _ => .pure _
  clear_value jp
  split
  · split
    · rename_i heq
      have h := State.bindHere_mem heq
      exact byStoreRules
    · exact byStoreRules
  · exact byStoreRules
  · exact byStoreRules

theorem outKeeps_execUnmap {slot s} (hs : R s.mem) : OutKeeps R (execUnmap slot s) := by
  unfold execUnmap; exact byStoreRules

@[simp] theorem State.endWatch_canonical {s line w} (hs : Memory.Canonical s.mem) :
    Memory.Canonical (State.endWatch s line w).mem := by
  unfold State.endWatch; exact byStoreRules

@[simp] theorem State.startDrain_canonical {s e x scrub us seq} (hs : Memory.Canonical s.mem) :
    Memory.Canonical (State.startDrain s e x scrub us seq).mem := by
  unfold State.startDrain; exact byStoreRules

@[simp] theorem State.unmapExtent_mem {s package e} : (State.unmapExtent s package e).mem = s.mem := by
  unfold State.unmapExtent; exact State.mem_eq_of_keeps byStoreRules

@[simp] theorem State.revokeLost_mem {s e} : (State.revokeLost s e).mem = s.mem := by
  unfold State.revokeLost; exact State.mem_eq_of_keeps byStoreRules

theorem outKeeps_execExtentRevoke {slot s} (hs : Memory.Canonical s.mem) :
    OutKeeps Memory.Canonical (execExtentRevoke slot s) := by
  unfold execExtentRevoke; exact byStoreRules

@[simp] theorem State.freeExtent_mem {s e x st} : (State.freeExtent s e x st).mem = s.mem := by
  unfold State.freeExtent; exact State.mem_eq_of_keeps byStoreRules

@[simp] theorem State.endDrain_mem {s e x} : (State.endDrain s e x).mem = s.mem := by
  unfold State.endDrain; exact State.mem_eq_of_keeps byStoreRules

theorem outKeeps_execDrainEnd {extent s} (hs : R s.mem) : OutKeeps R (execDrainEnd extent s) := by
  unfold execDrainEnd; exact byStoreRules

theorem outKeeps_execDrainLimit {extent s} (hs : R s.mem) : OutKeeps R (execDrainLimit extent s) := by
  unfold execDrainLimit; exact byStoreRules

theorem outKeeps_execScrubDone {extent s} (hs : Memory.Canonical s.mem) : OutKeeps Memory.Canonical (execScrubDone extent s) := by
  unfold execScrubDone; exact byStoreRules

/-! #### The functions of Machine/Home.lean -/

@[simp] theorem State.sendAnswer_mem {s p} : (State.sendAnswer s p).mem = s.mem := by
  unfold State.sendAnswer; exact State.mem_eq_of_keeps byStoreRules

@[simp] theorem State.unhold_mem {s src tag} : (State.unhold s src tag).mem = s.mem := by
  unfold State.unhold; exact State.mem_eq_of_keeps byStoreRules

@[simp] theorem State.hold_mem {s k f} : (State.hold s k f).mem = s.mem := by
  unfold State.hold; exact State.mem_eq_of_keeps byStoreRules

@[simp] theorem State.mirrorResponse_mem {s key p line} : (State.mirrorResponse s key p line).mem = s.mem := by
  unfold State.mirrorResponse; exact State.mem_eq_of_keeps byStoreRules

@[simp] theorem State.reply_mem {s k r payload lines} : (State.reply s k r payload lines).mem = s.mem := by
  unfold State.reply; exact State.mem_eq_of_keeps byStoreRules

@[simp] theorem State.flushAnswers_mem {s} : (State.flushAnswers s).mem = s.mem := by
  unfold State.flushAnswers; exact State.mem_eq_of_keeps byStoreRules

@[simp] theorem State.freeTag_mem {s tag} : (State.freeTag s tag).mem = s.mem := by
  unfold State.freeTag; exact State.mem_eq_of_keeps byStoreRules

@[simp] theorem keeps_permitE {tenant la} : Keeps R (permitE tenant la) := by
  unfold permitE; exact byStoreRules

@[simp] theorem keeps_homeAddress {q a} : Keeps R (homeAddress q a) := by
  unfold homeAddress; exact byStoreRules

@[simp] theorem State.takeIn_mem {s k} : (State.takeIn s k).mem = s.mem := by
  unfold State.takeIn; exact State.mem_eq_of_keeps byStoreRules

theorem serve_keeps {type k body s} (hb : ∀ q, Keeps R (body q)) (hs : R s.mem) : R (serve type k body s).mem := by
  unfold serve; exact byStoreRules

@[simp] theorem keeps_stageOf {q} : Keeps R (stageOf q) := by
  unfold stageOf; exact byStoreRules

@[simp] theorem keeps_setStage {k n} : Keeps R (setStage k n) := by
  unfold setStage; exact byStoreRules

/-! #### The functions of Machine/ContextOps.lean -/

@[simp] theorem State.setEntry_mem {s k e} : (State.setEntry s k e).mem = s.mem := by
  unfold State.setEntry; exact State.mem_eq_of_keeps byStoreRules

@[simp] theorem State.delEntry_mem {s k} : (State.delEntry s k).mem = s.mem := by
  unfold State.delEntry; exact State.mem_eq_of_keeps byStoreRules

@[simp] theorem State.unmapContext_mem {s e} : (State.unmapContext s e).mem = s.mem := by
  unfold State.unmapContext; exact State.mem_eq_of_keeps byStoreRules

@[simp] theorem State.mapContext_mem {s e} : (State.mapContext s e).mem = s.mem := by
  unfold State.mapContext; exact State.mem_eq_of_keeps byStoreRules

@[simp] theorem State.protectContext_mem {s e ro} : (State.protectContext s e ro).mem = s.mem := by
  unfold State.protectContext; exact State.mem_eq_of_keeps byStoreRules

@[simp] theorem State.zeroPages_canonical {s pages} (hs : Memory.Canonical s.mem) :
    Memory.Canonical (State.zeroPages s pages).mem := by
  unfold State.zeroPages; exact byStoreRules

@[simp] theorem State.fillPages_canonical {s pages bytes bad} (hs : Memory.Canonical s.mem) :
    Memory.Canonical (State.fillPages s pages bytes bad).mem := by
  unfold State.fillPages
  simp only [State.poisonLines_mem]
  exact State.keeps_foldl (State.zeroPages_canonical hs) fun s b h => Memory.wf_putD s.mem _ b.2 h

@[simp] theorem State.leaveContext_mem {s k e} : (State.leaveContext s k e).mem = s.mem := by
  unfold State.leaveContext; exact State.mem_eq_of_keeps byStoreRules

@[simp] theorem keeps_settlePages {pages} : Keeps R (settlePages pages) := by
  unfold settlePages; exact byStoreRules

@[simp] theorem State.sendCheckpoint_mem {s k e slot} : (State.sendCheckpoint s k e slot).mem = s.mem := by
  unfold State.sendCheckpoint; exact State.mem_eq_of_keeps byStoreRules

@[simp] theorem keeps_ledgerCas {k operand expected} : Keeps R (ledgerCas k operand expected) := by
  unfold ledgerCas; exact byStoreRules

@[simp] theorem State.reclaim_mem {s k e} : (State.reclaim s k e).mem = s.mem := by
  unfold State.reclaim; exact State.mem_eq_of_keeps byStoreRules

@[simp] theorem keeps_offerLands {k data} : Keeps Memory.Canonical (offerLands k data) := by
  unfold offerLands; exact byStoreRules

@[simp] theorem State.setRun_mem {s key r} : (State.setRun s key r).mem = s.mem := by
  unfold State.setRun; exact State.mem_eq_of_keeps byStoreRules

@[simp] theorem State.endRun_mem {s key r st} : (State.endRun s key r st).mem = s.mem := by
  unfold State.endRun; exact State.mem_eq_of_keeps byStoreRules

@[simp] theorem keeps_startPhase {key r e} : Keeps R (startPhase key r e) := by
  unfold startPhase; exact byStoreRules

@[simp] theorem State.beginPhase_mem {s key r} : (State.beginPhase s key r).mem = s.mem := by
  refine State.mem_eq_of_keeps fun R hs => ?_
  unfold State.beginPhase
  obtain ⟨start, hstart⟩ : ∃ start, start = startPhase key r := ⟨_, rfl⟩
  have h : ∀ e, Keeps R (start e) := fun _ => hstart ▸ keeps_startPhase
  rw [← hstart]
  clear hstart
  exact byStoreRules

@[simp] theorem State.nextPhase_mem {s key r} : (State.nextPhase s key r).mem = s.mem := by
  unfold State.nextPhase; exact State.mem_eq_of_keeps byStoreRules

@[simp] theorem keeps_offerAct {a k d e} (ha : ∀ n, Keeps R (a.mark n)) : Keeps R (offerAct a k d e) := by
  unfold offerAct; exact byStoreRules

@[simp] theorem keeps_releaseAct {a k e} : Keeps R (releaseAct a k e) := by
  unfold releaseAct; exact byStoreRules

@[simp] theorem keeps_checkpointAct {a k e} : Keeps R (checkpointAct a k e) := by
  unfold checkpointAct; exact byStoreRules

@[simp] theorem keeps_runAct {a k d e} : Keeps R (runAct a k d e) := by
  unfold runAct; exact byStoreRules

@[simp] theorem keeps_contextAct {a op k d} (ha : ∀ n, Keeps R (a.mark n)) : Keeps R (contextAct a op k d) := by
  unfold contextAct; exact byStoreRules

@[simp] theorem keeps_contextPart {p q} : Keeps Memory.Canonical (contextPart p q) := by
  unfold contextPart; exact byStoreRules

@[simp] theorem keeps_readEntry {w sl k p} : Keeps R (readEntry w sl k p) := by
  unfold readEntry; exact byStoreRules

@[simp] theorem keeps_findOwner {w sl k fuel p passed} : Keeps R (findOwner w sl k fuel p passed) := by
  induction fuel generalizing w sl k p passed with
  | zero => rw [findOwner]; exact byStoreRules
  | succ _ ih => rw [findOwner]; exact byStoreRules

/-! #### The functions of Machine/Links.lean -/

@[simp] theorem State.rerouteFrom_mem {s port} : (State.rerouteFrom s port).mem = s.mem := by
  unfold State.rerouteFrom; exact State.mem_eq_of_keeps byStoreRules

@[simp] theorem State.portDown_mem {s n} : (State.portDown s n).mem = s.mem := by
  unfold State.portDown; exact State.mem_eq_of_keeps byStoreRules

@[simp] theorem State.linkDown_mem {s n} : (State.linkDown s n).mem = s.mem := by
  unfold State.linkDown; exact State.mem_eq_of_keeps byStoreRules

@[simp] theorem State.retrain_mem {s n} : (State.retrain s n).mem = s.mem := by
  unfold State.retrain; exact State.mem_eq_of_keeps byStoreRules

@[simp] theorem State.laneEvent_mem {s n lanes} : (State.laneEvent s n lanes).mem = s.mem := by
  unfold State.laneEvent; exact State.mem_eq_of_keeps byStoreRules

@[simp] theorem State.beginTraining_mem {s n} : (State.beginTraining s n).mem = s.mem := by
  unfold State.beginTraining; exact State.mem_eq_of_keeps byStoreRules

theorem outKeeps_execPortTraining {port s} (hs : R s.mem) : OutKeeps R (execPortTraining port s) := by
  unfold execPortTraining; exact byStoreRules

theorem outKeeps_execTrainingRetry {port s} (hs : R s.mem) : OutKeeps R (execTrainingRetry port s) := by
  unfold execTrainingRetry; exact byStoreRules

theorem outKeeps_execTrainingDone {port working s} (hs : R s.mem) : OutKeeps R (execTrainingDone port working s) := by
  unfold execTrainingDone; exact byStoreRules

theorem outKeeps_execTrainingTimeout {port s} (hs : R s.mem) : OutKeeps R (execTrainingTimeout port s) := by
  unfold execTrainingTimeout; exact byStoreRules

theorem outKeeps_execRetrainTimeout {port s} (hs : R s.mem) : OutKeeps R (execRetrainTimeout port s) := by
  unfold execRetrainTimeout; exact byStoreRules

theorem outKeeps_execLockLost {port s} (hs : R s.mem) : OutKeeps R (execLockLost port s) := by
  unfold execLockLost; exact byStoreRules

@[simp] theorem State.keyCheck_mem {s n keyId} : (State.keyCheck s n keyId).mem = s.mem := by
  unfold State.keyCheck; exact State.mem_eq_of_keeps byStoreRules

theorem outKeeps_execKeyCheck {port keyId s} (hs : R s.mem) : OutKeeps R (execKeyCheck port keyId s) := by
  unfold execKeyCheck; exact byStoreRules

theorem outKeeps_execRetrainRequest {port s} (hs : R s.mem) : OutKeeps R (execRetrainRequest port s) := by
  unfold execRetrainRequest; exact byStoreRules

@[simp] theorem State.enterLow_mem {s n} : (State.enterLow s n).mem = s.mem := by
  unfold State.enterLow; exact State.mem_eq_of_keeps byStoreRules

theorem outKeeps_execEnterLowRate {port s} (hs : R s.mem) : OutKeeps R (execEnterLowRate port s) := by
  unfold execEnterLowRate; exact byStoreRules

@[simp] theorem State.exitLow_mem {s n} : (State.exitLow s n).mem = s.mem := by
  unfold State.exitLow; exact State.mem_eq_of_keeps byStoreRules

theorem outKeeps_execExitLowRate {port s} (hs : R s.mem) : OutKeeps R (execExitLowRate port s) := by
  unfold execExitLowRate; exact byStoreRules

theorem outKeeps_execLinkCtlResend {port s} (hs : R s.mem) : OutKeeps R (execLinkCtlResend port s) := by
  unfold execLinkCtlResend; exact byStoreRules

theorem outKeeps_execCablePresent {port demandMw s} (hs : R s.mem) : OutKeeps R (execCablePresent port demandMw s) := by
  unfold execCablePresent; exact byStoreRules

@[simp] theorem State.nak_mem {s n ackSeq} : (State.nak s n ackSeq).mem = s.mem := by
  unfold State.nak; exact State.mem_eq_of_keeps byStoreRules

theorem outKeeps_execNak {port ackSeq s} (hs : R s.mem) : OutKeeps R (execNak port ackSeq s) := by
  unfold execNak; exact byStoreRules

theorem outKeeps_execRekeySend {port s} (hs : R s.mem) : OutKeeps R (execRekeySend port s) := by
  unfold execRekeySend; exact byStoreRules

@[simp] theorem State.takeRekey_mem {s n seq} : (State.takeRekey s n seq).mem = s.mem := by
  unfold State.takeRekey; exact State.mem_eq_of_keeps byStoreRules

theorem outKeeps_execRekey {port seq s} (hs : R s.mem) : OutKeeps R (execRekey port seq s) := by
  unfold execRekey; exact byStoreRules

@[simp] theorem State.sendNoRoute_mem {s h} : (State.sendNoRoute s h).mem = s.mem := by
  unfold State.sendNoRoute; exact State.mem_eq_of_keeps byStoreRules

@[simp] theorem State.forward_mem {s k} : (State.forward s k).mem = s.mem := by
  unfold State.forward; exact State.mem_eq_of_keeps byStoreRules

@[simp] theorem State.arrived_mem {s n bytes} : (State.arrived s n bytes).mem = s.mem := by
  unfold State.arrived; exact State.mem_eq_of_keeps byStoreRules

@[simp] theorem State.takeData_mem {s n h payload} : (State.takeData s n h payload).mem = s.mem := by
  unfold State.takeData; exact State.mem_eq_of_keeps byStoreRules

@[simp] theorem State.takeControl_mem {s n payload} : (State.takeControl s n payload).mem = s.mem := by
  unfold State.takeControl; exact State.mem_eq_of_keeps byStoreRules

@[simp] theorem State.authFail_mem {s n} : (State.authFail s n).mem = s.mem := by
  unfold State.authFail; exact State.mem_eq_of_keeps byStoreRules

theorem outKeeps_execFlitReceive {port flit s} (hs : R s.mem) : OutKeeps R (execFlitReceive port flit s) := by
  unfold execFlitReceive; exact byStoreRules

/-! #### The functions of Machine/TileEngine.lean -/

@[simp] theorem keeps_readHeader {w asid va} : Keeps R (readHeader w asid va) := by
  unfold readHeader; exact byStoreRules

@[simp] theorem keeps_readPayload {w asid va h} : Keeps R (readPayload w asid va h) := by
  unfold readPayload; exact byStoreRules

@[simp] theorem keeps_landType {w asid va} : Keeps R (landType w asid va) := by
  unfold landType; exact byStoreRules

@[simp] theorem keeps_landInline {w asid va h comp stored} : Keeps Memory.Canonical (landInline w asid va h comp stored) := by
  unfold landInline; exact byStoreRules

@[simp] theorem keeps_landSplit {w asid hdrVa payloadVa h comp stored} :
    Keeps Memory.Canonical (landSplit w asid hdrVa payloadVa h comp stored) := by
  unfold landSplit; exact byStoreRules

/-! #### The functions of Machine/Models.lean -/

@[simp] theorem State.setModel_mem {s k m} : (State.setModel s k m).mem = s.mem := by
  unfold State.setModel; exact State.mem_eq_of_keeps byStoreRules

@[simp] theorem keeps_stopModel {k m st failed} : Keeps Memory.Canonical (stopModel k m st failed) := by
  unfold stopModel; exact byStoreRules

@[simp] theorem keeps_readRetire {k m} : Keeps R (readRetire k m) := by
  unfold readRetire; exact byStoreRules

@[simp] theorem keeps_readTable {w asid va size n} : Keeps R (readTable w asid va size n) := by
  unfold readTable; exact byStoreRules

theorem outKeeps_execModelLoad {slot s} (hs : Memory.Canonical s.mem) : OutKeeps Memory.Canonical (execModelLoad slot s) := by
  unfold execModelLoad; exact byStoreRules

theorem outKeeps_execModelUnload {slot s} (hs : Memory.Canonical s.mem) : OutKeeps Memory.Canonical (execModelUnload slot s) := by
  unfold execModelUnload; exact byStoreRules

theorem outKeeps_execModelSchedule {slot s} (hs : R s.mem) : OutKeeps R (execModelSchedule slot s) := by
  unfold execModelSchedule; exact byStoreRules

@[simp] theorem State.switchTable_mem {s k n m} : (State.switchTable s k n m).1.mem = s.mem := by
  unfold State.switchTable; exact State.mem_eq_of_keeps byStoreRules

theorem streamRun_canonical {k layer x s} (hx : Keeps Memory.Canonical x) (hs : Memory.Canonical s.mem) :
    Memory.Canonical (streamRun k layer x s).mem := by
  unfold streamRun; exact byStoreRules

theorem outKeeps_execLayerFetchStart {model execution s} (hs : Memory.Canonical s.mem)
    : OutKeeps Memory.Canonical (execLayerFetchStart model execution s) := by
  unfold execLayerFetchStart; exact byStoreRules

@[simp] theorem keeps_loadTiles {w m hdr payload src n j} : Keeps Memory.Canonical (loadTiles w m hdr payload src n j) := by
  induction n generalizing w m hdr payload src j with
  | zero => rw [loadTiles]; exact byStoreRules
  | succ _ ih => rw [loadTiles]; exact byStoreRules

@[simp] theorem State.loadDone_mem {s k m} : (State.loadDone s k m).mem = s.mem := by
  unfold State.loadDone; exact State.mem_eq_of_keeps byStoreRules

theorem outKeeps_execLayerLanded {model execution s} (hs : Memory.Canonical s.mem) :
    OutKeeps Memory.Canonical (execLayerLanded model execution s) := by
  unfold execLayerLanded; exact byStoreRules

@[simp] theorem State.checkRetire_canonical {s la} (hs : Memory.Canonical s.mem) :
    Memory.Canonical (State.checkRetire s la).mem := by
  unfold State.checkRetire; exact byStoreRules

/-! #### The functions of Machine/PoolOps.lean -/

@[simp] theorem keeps_poolWrite {w sl va bs poison} : Keeps Memory.Canonical (poolWrite w sl va bs poison) := by
  unfold poolWrite; exact byStoreRules

@[simp] theorem keeps_poolLine {w n sl va len f i} : Keeps Memory.Canonical (poolLine w n sl va len f i) := by
  unfold poolLine; exact byStoreRules

@[simp] theorem keeps_poolEnd {n} : Keeps R (poolEnd n) := by
  unfold poolEnd; exact byStoreRules

theorem outKeeps_execFill {slot s} (hs : Memory.Canonical s.mem) : OutKeeps Memory.Canonical (execFill slot s) := by
  unfold execFill; exact byStoreRules

@[simp] theorem keeps_keepLines {w n l} : Keeps R (keepLines w n l) := by
  unfold keepLines; exact byStoreRules

@[simp] theorem keeps_readCopySource {w asid src va len fuel i} : Keeps R (readCopySource w asid src va len fuel i) := by
  induction fuel generalizing w asid src va len i with
  | zero => rw [readCopySource]; exact byStoreRules
  | succ _ ih => rw [readCopySource]; exact byStoreRules

@[simp] theorem keeps_writeKept {w n sl va len} : Keeps Memory.Canonical (writeKept w n sl va len) := by
  unfold writeKept; exact byStoreRules

theorem outKeeps_execCopy {slot s} (hs : Memory.Canonical s.mem) : OutKeeps Memory.Canonical (execCopy slot s) := by
  unfold execCopy; exact byStoreRules

@[simp] theorem keeps_compareLine {w sl a b} : Keeps R (compareLine w sl a b) := by
  unfold compareLine; exact byStoreRules

theorem outKeeps_execCompare {slot s} (hs : R s.mem) : OutKeeps R (execCompare slot s) := by
  unfold execCompare; exact byStoreRules

@[simp] theorem keeps_readTerms {w asid r j fuel k} : Keeps R (readTerms w asid r j fuel k) := by
  induction fuel generalizing w asid r j k with
  | zero => rw [readTerms]; exact byStoreRules
  | succ _ ih => rw [readTerms]; exact byStoreRules

@[simp] theorem keeps_physLines {w asid l} : Keeps R (physLines w asid l) := by
  induction l generalizing w asid with
  | nil => rw [physLines]; exact byStoreRules
  | cons _ _ ih => rw [physLines]; exact byStoreRules

@[simp] theorem keeps_sourceLines {w asid r fuel k} : Keeps R (sourceLines w asid r fuel k) := by
  induction fuel generalizing w asid r k with
  | zero => rw [sourceLines]; exact byStoreRules
  | succ _ ih => rw [sourceLines]; exact byStoreRules

@[simp] theorem keeps_reduceElems {w asid r srcs fuel j} : Keeps R (reduceElems w asid r srcs fuel j) := by
  induction fuel generalizing w asid r srcs j with
  | zero => rw [reduceElems]; exact byStoreRules
  | succ _ ih => rw [reduceElems]; exact byStoreRules

theorem outKeeps_execReduce {slot s} (hs : Memory.Canonical s.mem) : OutKeeps Memory.Canonical (execReduce slot s) := by
  unfold execReduce; exact byStoreRules

@[simp] theorem keeps_poolPart {q opcode la d inputs} : Keeps Memory.Canonical (poolPart q opcode la d inputs) := by
  unfold poolPart; exact byStoreRules

/-! #### The functions of Machine/Scalar.lean -/

@[simp] theorem keeps_putScalar {n rd v} : Keeps R (putScalar n rd v) := by
  unfold putScalar; exact byStoreRules

theorem outKeeps_execSalu {core word s} (hs : Memory.Canonical s.mem) : OutKeeps Memory.Canonical (execSalu core word s) := by
  unfold execSalu; exact byStoreRules

@[simp] theorem keeps_formatI {n word f} : Keeps R (formatI n word f) := by
  unfold formatI; exact byStoreRules

theorem outKeeps_execAddi {core word s} (hs : Memory.Canonical s.mem) : OutKeeps Memory.Canonical (execAddi core word s) := by
  unfold execAddi; exact byStoreRules

theorem outKeeps_execAndi {core word s} (hs : Memory.Canonical s.mem) : OutKeeps Memory.Canonical (execAndi core word s) := by
  unfold execAndi; exact byStoreRules

theorem outKeeps_execOri {core word s} (hs : Memory.Canonical s.mem) : OutKeeps Memory.Canonical (execOri core word s) := by
  unfold execOri; exact byStoreRules

theorem outKeeps_execXori {core word s} (hs : Memory.Canonical s.mem) : OutKeeps Memory.Canonical (execXori core word s) := by
  unfold execXori; exact byStoreRules

theorem outKeeps_execLui {core word s} (hs : Memory.Canonical s.mem) : OutKeeps Memory.Canonical (execLui core word s) := by
  unfold execLui; exact byStoreRules

theorem outKeeps_execShori {core word s} (hs : Memory.Canonical s.mem) : OutKeeps Memory.Canonical (execShori core word s) := by
  unfold execShori; exact byStoreRules

theorem outKeeps_execBr {core word s} (hs : Memory.Canonical s.mem) : OutKeeps Memory.Canonical (execBr core word s) := by
  unfold execBr; exact byStoreRules

theorem outKeeps_execJal {core word s} (hs : Memory.Canonical s.mem) : OutKeeps Memory.Canonical (execJal core word s) := by
  unfold execJal; exact byStoreRules

theorem outKeeps_execJalr {core word s} (hs : Memory.Canonical s.mem) : OutKeeps Memory.Canonical (execJalr core word s) := by
  unfold execJalr; exact byStoreRules

theorem outKeeps_execCsrr {core word s} (hs : Memory.Canonical s.mem) : OutKeeps Memory.Canonical (execCsrr core word s) := by
  unfold execCsrr; exact byStoreRules

theorem outKeeps_execCsrw {core word s} (hs : Memory.Canonical s.mem) : OutKeeps Memory.Canonical (execCsrw core word s) := by
  unfold execCsrw; exact byStoreRules

/-! #### The functions of Machine/CoreMemory.lean -/

@[simp] theorem keeps_translateC {n asid write l} : Keeps R (translateC n asid write l) := by
  induction l generalizing n asid write with
  | nil => rw [translateC]; exact byStoreRules
  | cons _ _ ih => rw [translateC]; exact byStoreRules

@[simp] theorem keeps_cacheAside {n pieces write} : Keeps R (cacheAside n pieces write) := by
  unfold cacheAside; exact byStoreRules

@[simp] theorem keeps_issueCheck {n va ga} : Keeps R (issueCheck n va ga) := by
  unfold issueCheck; exact byStoreRules

@[simp] theorem keeps_fillLine {w g} : Keeps R (fillLine w g) := by
  unfold fillLine; exact byStoreRules

@[simp] theorem keeps_evictLine {n victim need} : Keeps R (evictLine n victim need) := by
  unfold evictLine; exact byStoreRules

@[simp] theorem keeps_cacheLine {n victim need p} : Keeps R (cacheLine n victim need p) := by
  unfold cacheLine; exact byStoreRules

@[simp] theorem keeps_cachedRead {n p} : Keeps R (cachedRead n p) := by
  unfold cachedRead; exact byStoreRules

@[simp] theorem keeps_cachedWrite {n p bs} : Keeps R (cachedWrite n p bs) := by
  unfold cachedWrite; exact byStoreRules

theorem keeps_joinPieces {f l} (hf : ∀ p, Keeps R (f p)) : Keeps R (joinPieces f l) := by
  induction l with
  | nil => rw [joinPieces]; exact byStoreRules
  | cons _ _ ih => rw [joinPieces]; exact byStoreRules

theorem keeps_eachPiece {f l} (hf : ∀ p, Keeps R (f p)) : Keeps R (eachPiece f l) := by
  induction l with
  | nil => rw [eachPiece]; exact byStoreRules
  | cons _ _ ih => rw [eachPiece]; exact byStoreRules

@[simp] theorem keeps_homePiece {n p} : Keeps R (homePiece n p) := by
  unfold homePiece; exact byStoreRules

@[simp] theorem keeps_loadRanges {n form victim l} : Keeps R (loadRanges n form victim l) := by
  unfold loadRanges; exact byStoreRules

theorem outKeeps_execLd {core word victim s} (hs : Memory.Canonical s.mem) :
    OutKeeps Memory.Canonical (execLd core word victim s) := by
  unfold execLd; exact byStoreRules

theorem outKeeps_execVld {core word victim s} (hs : Memory.Canonical s.mem) :
    OutKeeps Memory.Canonical (execVld core word victim s) := by
  unfold execVld; exact byStoreRules

@[simp] theorem keeps_addTrack {n t} : Keeps R (addTrack n t) := by
  unfold addTrack; exact byStoreRules

@[simp] theorem keeps_storePieces {n form l} : Keeps Memory.Canonical (storePieces n form l) := by
  induction l generalizing n form with
  | nil => rw [storePieces]; exact byStoreRules
  | cons _ _ ih => rw [storePieces]; exact byStoreRules

@[simp] theorem keeps_storeRanges {n form victim l bs} : Keeps Memory.Canonical (storeRanges n form victim l bs) := by
  unfold storeRanges; exact byStoreRules

theorem outKeeps_execSt {core word victim s} (hs : Memory.Canonical s.mem) :
    OutKeeps Memory.Canonical (execSt core word victim s) := by
  unfold execSt; exact byStoreRules

theorem outKeeps_execVst {core word victim s} (hs : Memory.Canonical s.mem) :
    OutKeeps Memory.Canonical (execVst core word victim s) := by
  unfold execVst; exact byStoreRules

theorem outKeeps_execAmo {core word s} (hs : Memory.Canonical s.mem) : OutKeeps Memory.Canonical (execAmo core word s) := by
  unfold execAmo; exact byStoreRules

@[simp] theorem keeps_counterOf {n rd dst} : Keeps R (counterOf n rd dst) := by
  unfold counterOf; exact byStoreRules

theorem outKeeps_execXcopy {core word s} (hs : Memory.Canonical s.mem) : OutKeeps Memory.Canonical (execXcopy core word s) := by
  unfold execXcopy; exact byStoreRules

theorem outKeeps_execSdf {core word s} (hs : Memory.Canonical s.mem) : OutKeeps Memory.Canonical (execSdf core word s) := by
  unfold execSdf; exact byStoreRules

@[simp] theorem keeps_readSources {w l} : Keeps R (readSources w l) := by
  induction l generalizing w with
  | nil => rw [readSources]; exact byStoreRules
  | cons _ _ ih => rw [readSources]; exact byStoreRules

@[simp] theorem keeps_takeCredit {n p g} : Keeps R (takeCredit n p g) := by
  unfold takeCredit; exact byStoreRules

@[simp] theorem keeps_groupWrite {n t p la bs poison last g} : Keeps R (groupWrite n t p la bs poison last g) := by
  unfold groupWrite; exact byStoreRules

@[simp] theorem keeps_landWrite {n t x last} : Keeps Memory.Canonical (landWrite n t x last) := by
  unfold landWrite; exact byStoreRules

@[simp] theorem State.trackFailed_mem {s n e t x st} : (State.trackFailed s n e t x st).mem = s.mem := by
  unfold State.trackFailed; exact State.mem_eq_of_keeps byStoreRules

@[simp] theorem State.landSome_canonical {s n e k} (hs : Memory.Canonical s.mem) :
    Memory.Canonical (State.landSome s n e k).mem := by
  induction k generalizing s n e with
  | zero => rw [State.landSome]; exact byStoreRules
  | succ _ ih => rw [State.landSome]; exact byStoreRules

@[simp] theorem State.landCounter_canonical {s n e} (hs : Memory.Canonical s.mem) :
    Memory.Canonical (State.landCounter s n e).mem := by
  unfold State.landCounter; exact byStoreRules

@[simp] theorem State.freeTrack_mem {s n e} : (State.freeTrack s n e).mem = s.mem := by
  unfold State.freeTrack; exact State.mem_eq_of_keeps byStoreRules

theorem outKeeps_execTrackerEntryFree {core entry s} (hs : Memory.Canonical s.mem) :
    OutKeeps Memory.Canonical (execTrackerEntryFree core entry s) := by
  unfold execTrackerEntryFree; exact byStoreRules

@[simp] theorem keeps_takeFailure {n} : Keeps R (takeFailure n) := by
  unfold takeFailure; exact byStoreRules

theorem outKeeps_execHalt {core word s} (hs : Memory.Canonical s.mem) : OutKeeps Memory.Canonical (execHalt core word s) := by
  unfold execHalt; exact byStoreRules

theorem outKeeps_execBrk {core word s} (hs : Memory.Canonical s.mem) : OutKeeps Memory.Canonical (execBrk core word s) := by
  unfold execBrk; exact byStoreRules

theorem outKeeps_execDrain {core word s} (hs : Memory.Canonical s.mem) : OutKeeps Memory.Canonical (execDrain core word s) := by
  unfold execDrain; exact byStoreRules

@[simp] theorem keeps_writeBackAll {n} : Keeps R (writeBackAll n) := by
  unfold writeBackAll; exact byStoreRules

theorem outKeeps_execDcwb {core word s} (hs : Memory.Canonical s.mem) : OutKeeps Memory.Canonical (execDcwb core word s) := by
  unfold execDcwb; exact byStoreRules

theorem outKeeps_execDcwbi {core word s} (hs : Memory.Canonical s.mem) : OutKeeps Memory.Canonical (execDcwbi core word s) := by
  unfold execDcwbi; exact byStoreRules

theorem outKeeps_execIcinv {core word s} (hs : Memory.Canonical s.mem) : OutKeeps Memory.Canonical (execIcinv core word s) := by
  unfold execIcinv; exact byStoreRules

@[simp] theorem keeps_waitRead {n va} : Keeps R (waitRead n va) := by
  unfold waitRead; exact byStoreRules

@[simp] theorem keeps_waitIssue {ge core word} : Keeps R (waitIssue ge core word) := by
  unfold waitIssue; exact byStoreRules

theorem outKeeps_execWaitge {core word s} (hs : Memory.Canonical s.mem) : OutKeeps Memory.Canonical (execWaitge core word s) := by
  unfold execWaitge; exact byStoreRules

theorem outKeeps_execWaitne {core word s} (hs : Memory.Canonical s.mem) : OutKeeps Memory.Canonical (execWaitne core word s) := by
  unfold execWaitne; exact byStoreRules

@[simp] theorem State.endWait_mem {s n rd v} : (State.endWait s n rd v).mem = s.mem := by
  unfold State.endWait; exact State.mem_eq_of_keeps byStoreRules

theorem outKeeps_execWaitPoll {core s} (hs : Memory.Canonical s.mem) : OutKeeps Memory.Canonical (execWaitPoll core s) := by
  unfold execWaitPoll; exact byStoreRules

theorem outKeeps_execWaitTimeLimit {core s} (hs : R s.mem) : OutKeeps R (execWaitTimeLimit core s) := by
  unfold execWaitTimeLimit; exact byStoreRules

/-! #### The functions of Machine/Channels.lean -/

@[simp] theorem State.setChannel_mem {s k c} : (State.setChannel s k c).mem = s.mem := by
  unfold State.setChannel; exact State.mem_eq_of_keeps byStoreRules

@[simp] theorem State.updChannel_mem {s k f} : (State.updChannel s k f).mem = s.mem := by
  unfold State.updChannel; exact State.mem_eq_of_keeps byStoreRules

@[simp] theorem State.delChannel_mem {s k} : (State.delChannel s k).mem = s.mem := by
  unfold State.delChannel; exact State.mem_eq_of_keeps byStoreRules

@[simp] theorem State.setQueue_mem {s k q} : (State.setQueue s k q).mem = s.mem := by
  unfold State.setQueue; exact State.mem_eq_of_keeps byStoreRules

@[simp] theorem keeps_readFlits {n ga k} : Keeps R (readFlits n ga k) := by
  induction k generalizing n ga with
  | zero => rw [readFlits]; exact byStoreRules
  | succ _ ih => rw [readFlits]; exact byStoreRules

@[simp] theorem keeps_spadAddress {n va k write} : Keeps R (spadAddress n va k write) := by
  unfold spadAddress; exact byStoreRules

theorem outKeeps_execMsend {core word s} (hs : Memory.Canonical s.mem) : OutKeeps Memory.Canonical (execMsend core word s) := by
  unfold execMsend; exact byStoreRules

@[simp] theorem State.freePacket_mem {s k p} : (State.freePacket s k p).mem = s.mem := by
  unfold State.freePacket; exact State.mem_eq_of_keeps byStoreRules

@[simp] theorem keeps_recvPacket_writePieces' {w ga bs} : Keeps Memory.Canonical (recvPacket.writePieces' w ga bs) := by
  unfold recvPacket.writePieces'; exact byStoreRules

@[simp] theorem keeps_recvPacket {n k ga p} : Keeps Memory.Canonical (recvPacket n k ga p) := by
  unfold recvPacket; exact byStoreRules

@[simp] theorem keeps_recvPacket.writePieces' {w ga bs} : Keeps Memory.Canonical (recvPacket.writePieces' w ga bs) := by
  unfold recvPacket.writePieces'; exact byStoreRules

theorem outKeeps_execMrecv {core word s} (hs : Memory.Canonical s.mem) : OutKeeps Memory.Canonical (execMrecv core word s) := by
  unfold execMrecv; exact byStoreRules

theorem outKeeps_execMpeek {core word s} (hs : Memory.Canonical s.mem) : OutKeeps Memory.Canonical (execMpeek core word s) := by
  unfold execMpeek; exact byStoreRules

@[simp] theorem State.wakeRecv_canonical {s k} (hs : Memory.Canonical s.mem) : Memory.Canonical (State.wakeRecv s k).mem := by
  unfold State.wakeRecv; exact byStoreRules

theorem State.openChannels_mem {s tenant l i t} (h : State.openChannels s tenant l i = .ok t) : t.mem = s.mem := by
  induction l generalizing s i with
  | nil => cases h; rfl
  | cons e l ih =>
    rw [State.openChannels] at h
    dsimp only at h
    split at h
    · cases h
    · split at h
      · cases h
      · split at h
        · cases h
        · simpa using ih h

theorem outKeeps_execChannelOpen {slot s} (hs : R s.mem) : OutKeeps R (execChannelOpen slot s) := by
  unfold execChannelOpen
  refine .ofNext (runSlot_keeps (fun sl => .bind (by simp) fun _ => .bind (by simp) fun bs => .bind_get fun s hs => ?_) hs)
  split
  · rename_i heq
    have h := State.openChannels_mem heq
    exact byStoreRules
  · exact byStoreRules

@[simp] theorem State.closeChannels_mem {s tenant seq n l} : (State.closeChannels s tenant seq n l).mem = s.mem := by
  unfold State.closeChannels; exact State.mem_eq_of_keeps byStoreRules

theorem outKeeps_execChannelClose {slot s} (hs : R s.mem) : OutKeeps R (execChannelClose slot s) := by
  unfold execChannelClose; exact byStoreRules

theorem outKeeps_execChannelClosed {producer handle s} (hs : R s.mem) : OutKeeps R (execChannelClosed producer handle s) := by
  unfold execChannelClosed; exact byStoreRules

@[simp] theorem State.resetQueue_mem {s k} : (State.resetQueue s k).mem = s.mem := by
  unfold State.resetQueue; exact State.mem_eq_of_keeps byStoreRules

@[simp] theorem State.rewind_mem {s k key crc last} : (State.rewind s k key crc last).mem = s.mem := by
  unfold State.rewind; exact State.mem_eq_of_keeps byStoreRules

@[simp] theorem State.writeFlit_canonical {s k key x} (hs : Memory.Canonical s.mem) :
    Memory.Canonical (State.writeFlit s k key x).mem := by
  unfold State.writeFlit; exact byStoreRules

@[simp] theorem State.takeFlit_canonical {s k key c x f} (hs : Memory.Canonical s.mem) :
    Memory.Canonical (State.takeFlit s k key c x f).mem := by
  unfold State.takeFlit; exact byStoreRules

theorem outKeeps_execFlitArrive {flit s} (hs : Memory.Canonical s.mem) : OutKeeps Memory.Canonical (execFlitArrive flit s) := by
  unfold execFlitArrive; exact byStoreRules

theorem outKeeps_execCreditReturn {producer handle s} (hs : R s.mem) : OutKeeps R (execCreditReturn producer handle s) := by
  unfold execCreditReturn; exact byStoreRules

theorem outKeeps_execResetNotice {producer handle s} (hs : R s.mem) : OutKeeps R (execResetNotice producer handle s) := by
  unfold execResetNotice; exact byStoreRules

theorem outKeeps_execResetAcknowledgement {producer handle s} (hs : R s.mem) :
    OutKeeps R (execResetAcknowledgement producer handle s) := by
  unfold execResetAcknowledgement; exact byStoreRules

@[simp] theorem State.emptyQueue_mem {s k} : (State.emptyQueue s k).mem = s.mem := by
  unfold State.emptyQueue; exact State.mem_eq_of_keeps byStoreRules

@[simp] theorem State.dropChannels_mem {s p} : (State.dropChannels s p).mem = s.mem := by
  unfold State.dropChannels; exact State.mem_eq_of_keeps byStoreRules

@[simp] theorem State.tenantChange_mem {s n other} : (State.tenantChange s n other).mem = s.mem := by
  unfold State.tenantChange; exact State.mem_eq_of_keeps byStoreRules

/-! #### The functions of Machine/Grid.lean -/

theorem outKeeps_execLaunch {slot s} (hs : Memory.Canonical s.mem) : OutKeeps Memory.Canonical (execLaunch slot s) := by
  unfold execLaunch; exact byStoreRules

@[simp] theorem State.prepareCore_canonical {s sl slot entry n} (hs : Memory.Canonical s.mem) :
    Memory.Canonical (State.prepareCore s sl slot entry n).mem := by
  unfold State.prepareCore; exact byStoreRules

theorem outKeeps_execLaunchClaim {slot s} (hs : Memory.Canonical s.mem) : OutKeeps Memory.Canonical (execLaunchClaim slot s) := by
  unfold execLaunchClaim; exact byStoreRules

theorem outKeeps_execKernelWatchdog {slot s} (hs : Memory.Canonical s.mem) :
    OutKeeps Memory.Canonical (execKernelWatchdog slot s) := by
  unfold execKernelWatchdog; exact byStoreRules

theorem outKeeps_execHaltGrid {slot s} (hs : Memory.Canonical s.mem) : OutKeeps Memory.Canonical (execHaltGrid slot s) := by
  unfold execHaltGrid; exact byStoreRules

/-! #### The functions of Machine/Search.lean -/

@[simp] theorem keeps_readQuery {w asid va x} : Keeps R (readQuery w asid va x) := by
  unfold readQuery; exact byStoreRules

@[simp] theorem keeps_deleted {j id} : Keeps R (deleted j id) := by
  unfold deleted; exact byStoreRules

@[simp] theorem keeps_attrOf {j id} : Keeps R (attrOf j id) := by
  unfold attrOf; exact byStoreRules

@[simp] theorem keeps_admits {j id attr} : Keeps R (admits j id attr) := by
  unfold admits; exact byStoreRules

@[simp] theorem keeps_score {j id} : Keeps R (score j id) := by
  unfold score; exact byStoreRules

@[simp] theorem keeps_compareId {j p id attr} : Keeps R (compareId j p id attr) := by
  unfold compareId; exact byStoreRules

@[simp] theorem keeps_consider {j p id} : Keeps R (consider j p id) := by
  unfold consider; exact byStoreRules

@[simp] theorem keeps_considerAll {j l p} : Keeps R (considerAll j l p) := by
  induction l generalizing j p with
  | nil => rw [considerAll]; exact byStoreRules
  | cons _ _ ih => rw [considerAll]; exact byStoreRules

@[simp] theorem keeps_considerRange {j fuel id p} : Keeps R (considerRange j fuel id p) := by
  induction fuel generalizing j id p with
  | zero => rw [considerRange]; exact byStoreRules
  | succ _ ih => rw [considerRange]; exact byStoreRules

@[simp] theorem keeps_scanSide {j fuel pos p} : Keeps R (scanSide j fuel pos p) := by
  induction fuel generalizing j pos p with
  | zero => rw [scanSide]; exact byStoreRules
  | succ _ ih => rw [scanSide]; exact byStoreRules

@[simp] theorem keeps_readBucket {w x generation t b va} : Keeps R (readBucket w x generation t b va) := by
  unfold readBucket; exact byStoreRules

@[simp] theorem keeps_probeChain {j t b fuel va p} : Keeps R (probeChain j t b fuel va p) := by
  induction fuel generalizing j t b va p with
  | zero => rw [probeChain]; exact byStoreRules
  | succ _ ih => rw [probeChain]; exact byStoreRules

@[simp] theorem keeps_probeMask {j t mask p} : Keeps R (probeMask j t mask p) := by
  unfold probeMask; exact byStoreRules

@[simp] theorem keeps_probeMasks {j t fuel mask p} : Keeps R (probeMasks j t fuel mask p) := by
  induction fuel generalizing j t mask p with
  | zero => rw [probeMasks]; exact byStoreRules
  | succ _ ih => rw [probeMasks]; exact byStoreRules

@[simp] theorem keeps_probeTables {j rho l p} : Keeps R (probeTables j rho l p) := by
  induction l generalizing j rho p with
  | nil => rw [probeTables]; exact byStoreRules
  | cons _ _ ih => rw [probeTables]; exact byStoreRules

@[simp] theorem keeps_probeRadii {j fuel p} : Keeps R (probeRadii j fuel p) := by
  induction fuel generalizing j p with
  | zero => rw [probeRadii]; exact byStoreRules
  | succ _ ih => rw [probeRadii]; exact byStoreRules

@[simp] theorem keeps_widen {j fuel p} : Keeps R (widen j fuel p) := by
  induction fuel generalizing p with
  | zero => rw [widen]; exact byStoreRules
  | succ _ ih =>
    rw [widen]
    refine .bind (by simp) fun p => ?_
    dsimp only
    exact byStoreRules

@[simp] theorem keeps_followEdge {j e p} : Keeps R (followEdge j e p) := by
  unfold followEdge; exact byStoreRules

@[simp] theorem keeps_followSlots {j id fuel i p} : Keeps R (followSlots j id fuel i p) := by
  induction fuel generalizing j id i p with
  | zero => rw [followSlots]; exact byStoreRules
  | succ _ ih => rw [followSlots]; exact byStoreRules

@[simp] theorem keeps_expand {j l p} : Keeps R (expand j l p) := by
  induction l generalizing j p with
  | nil => rw [expand]; exact byStoreRules
  | cons _ _ ih => rw [expand]; exact byStoreRules

@[simp] theorem keeps_rerankAll {j l out p} : Keeps R (rerankAll j l out p) := by
  induction l generalizing j out p with
  | nil => rw [rerankAll]; exact byStoreRules
  | cons _ _ ih => rw [rerankAll]; exact byStoreRules

@[simp] theorem State.rerankCore_canonical {s j n} (hs : Memory.Canonical s.mem) :
    Memory.Canonical (State.rerankCore s j n).mem := by
  unfold State.rerankCore
  simp only [State.mem_updCore]
  refine Memory.canonical_memWrite ?_
  exact byStoreRules

@[simp] theorem keeps_claimRect {j} : Keeps Memory.Canonical (claimRect j) := by
  unfold claimRect; exact byStoreRules

@[simp] theorem keeps_rerank {j p} : Keeps Memory.Canonical (rerank j p) := by
  unfold rerank; exact byStoreRules

@[simp] theorem keeps_searchIndex {j} : Keeps Memory.Canonical (searchIndex j) := by
  unfold searchIndex; exact byStoreRules

@[simp] theorem keeps_takeUnit {key} : Keeps R (takeUnit key) := by
  unfold takeUnit; exact byStoreRules

@[simp] theorem State.endSearch_mem {s key rectKey} : (State.endSearch s key rectKey).mem = s.mem := by
  unfold State.endSearch; exact State.mem_eq_of_keeps byStoreRules

@[simp] theorem keeps_takeSnapshot {id key} : Keeps R (takeSnapshot id key) := by
  unfold takeSnapshot; exact byStoreRules

@[simp] theorem State.countSearch_mem {s j p fewer} : (State.countSearch s j p fewer).mem = s.mem := by
  unfold State.countSearch; exact State.mem_eq_of_keeps byStoreRules

@[simp] theorem keeps_runSearch {w seq id key rectKey block package} :
    Keeps Memory.Canonical (runSearch w seq id key rectKey block package) := by
  unfold runSearch; exact byStoreRules

@[simp] theorem keeps_searchIndexOf {sl} : Keeps R (searchIndexOf sl) := by
  unfold searchIndexOf; exact byStoreRules

@[simp] theorem keeps_keepResult {n k failed f} : Keeps R (keepResult n k failed f) := by
  unfold keepResult; exact byStoreRules

@[simp] theorem keeps_writeResult {w n} : Keeps Memory.Canonical (writeResult w n) := by
  unfold writeResult; exact byStoreRules

@[simp] theorem State.setMerging_mem {s n m} : (State.setMerging s n m).mem = s.mem := by
  unfold State.setMerging; exact State.mem_eq_of_keeps byStoreRules

@[simp] theorem keeps_sendLegs {w n sl block l} : Keeps R (sendLegs w n sl block l) := by
  induction l generalizing w n sl block with
  | nil => rw [sendLegs]; exact byStoreRules
  | cons _ _ ih => rw [sendLegs]; exact byStoreRules

@[simp] theorem keeps_ownLeg {w n sl q block} : Keeps Memory.Canonical (ownLeg w n sl q block) := by
  unfold ownLeg; exact byStoreRules

@[simp] theorem keeps_searchShards {w n sl x block} : Keeps Memory.Canonical (searchShards w n sl x block) := by
  unfold searchShards; exact byStoreRules

@[simp] theorem keeps_cutShort {x n sl block} : Keeps R (cutShort x n sl block) := by
  unfold cutShort; exact byStoreRules

@[simp] theorem keeps_queryBlock {w n sl x} : Keeps R (queryBlock w n sl x) := by
  unfold queryBlock; exact byStoreRules

@[simp] theorem keeps_searchBody {n sl} : Keeps Memory.Canonical (searchBody n sl) := by
  unfold searchBody; exact byStoreRules

theorem outKeeps_execSearch {slot s} (hs : Memory.Canonical s.mem) : OutKeeps Memory.Canonical (execSearch slot s) := by
  unfold execSearch; exact byStoreRules

theorem outKeeps_execSearchStart {slot s} (hs : Memory.Canonical s.mem) : OutKeeps Memory.Canonical (execSearchStart slot s) := by
  unfold execSearchStart; exact byStoreRules

@[simp] theorem keeps_legBody {packet q} : Keeps Memory.Canonical (legBody packet q) := by
  unfold legBody; exact byStoreRules

theorem outKeeps_execSearchLeg {packet s} (hs : Memory.Canonical s.mem) : OutKeeps Memory.Canonical (execSearchLeg packet s) := by
  unfold execSearchLeg; exact byStoreRules

@[simp] theorem State.shardResult_mem {s packet q} : (State.shardResult s packet q).mem = s.mem := by
  unfold State.shardResult; exact State.mem_eq_of_keeps byStoreRules

theorem outKeeps_execShardResult {packet s} (hs : R s.mem) : OutKeeps R (execShardResult packet s) := by
  unfold execShardResult; exact byStoreRules

/-! #### The functions of Machine/Tables.lean -/

@[simp] theorem State.setTable_mem {s id x} : (State.setTable s id x).mem = s.mem := by
  unfold State.setTable; exact State.mem_eq_of_keeps byStoreRules

@[simp] theorem State.updTable_mem {s id f} : (State.updTable s id f).mem = s.mem := by
  unfold State.updTable; exact State.mem_eq_of_keeps byStoreRules

@[simp] theorem keeps_tableAt {id} : Keeps R (tableAt id) := by
  unfold tableAt; exact byStoreRules

@[simp] theorem keeps_readRow {w x va} : Keeps R (readRow w x va) := by
  unfold readRow; exact byStoreRules

@[simp] theorem keeps_countRow {tenant seq x} : Keeps R (countRow tenant seq x) := by
  unfold countRow; exact byStoreRules

@[simp] theorem keeps_claimRange {w asid l} : Keeps R (claimRange w asid l) := by
  induction l generalizing w asid with
  | nil => rw [claimRange]; exact byStoreRules
  | cons _ _ ih => rw [claimRange]; exact byStoreRules

@[simp] theorem keeps_writeRow {w asid va bs poison} : Keeps Memory.Canonical (writeRow w asid va bs poison) := by
  unfold writeRow; exact byStoreRules

@[simp] theorem keeps_joinTable {id key} : Keeps R (joinTable id key) := by
  unfold joinTable; exact byStoreRules

@[simp] theorem keeps_gatherPin {sl} : Keeps R (gatherPin sl) := by
  unfold gatherPin; exact byStoreRules

@[simp] theorem keeps_readRows {w seq x pin l} : Keeps R (readRows w seq x pin l) := by
  induction l generalizing w seq x pin with
  | nil => rw [readRows]; exact byStoreRules
  | cons _ _ ih => rw [readRows]; exact byStoreRules

@[simp] theorem keeps_gatherCount {tenant seq x n} : Keeps R (gatherCount tenant seq x n) := by
  unfold gatherCount; exact byStoreRules

@[simp] theorem keeps_gatherPartials {w sl x pin b rows l} : Keeps R (gatherPartials w sl x pin b rows l) := by
  induction l generalizing w sl x pin b rows with
  | nil => rw [gatherPartials]; exact byStoreRules
  | cons _ _ ih => rw [gatherPartials]; exact byStoreRules

@[simp] theorem keeps_writeEntries {w sl x l i rows bad} : Keeps Memory.Canonical (writeEntries w sl x l i rows bad) := by
  induction l generalizing w sl x i rows bad with
  | nil => rw [writeEntries]; exact byStoreRules
  | cons _ _ ih => rw [writeEntries]; exact byStoreRules

@[simp] theorem keeps_bagRows {w sl x pin b valid} : Keeps R (bagRows w sl x pin b valid) := by
  unfold bagRows; exact byStoreRules

@[simp] theorem keeps_bagPooled {w sl x pin b valid} : Keeps R (bagPooled w sl x pin b valid) := by
  unfold bagPooled; exact byStoreRules

@[simp] theorem keeps_gatherBag {w n sl b} : Keeps Memory.Canonical (gatherBag w n sl b) := by
  unfold gatherBag; exact byStoreRules

@[simp] theorem keeps_gatherBegin {w n sl} : Keeps R (gatherBegin w n sl) := by
  unfold gatherBegin; exact byStoreRules

@[simp] theorem keeps_gatherBody {n sl} : Keeps Memory.Canonical (gatherBody n sl) := by
  unfold gatherBody; exact byStoreRules

theorem outKeeps_execGather {slot s} (hs : Memory.Canonical s.mem) : OutKeeps Memory.Canonical (execGather slot s) := by
  unfold execGather; exact byStoreRules

theorem outKeeps_execGatherStart {slot s} (hs : Memory.Canonical s.mem) : OutKeeps Memory.Canonical (execGatherStart slot s) := by
  unfold execGatherStart; exact byStoreRules

@[simp] theorem keeps_orderBegin {id opcode key arg} : Keeps R (orderBegin id opcode key arg) := by
  unfold orderBegin; exact byStoreRules

@[simp] theorem State.orderEnd_mem {s id key} : (State.orderEnd s id key).mem = s.mem := by
  unfold State.orderEnd; exact State.mem_eq_of_keeps byStoreRules

@[simp] theorem keeps_takeOrder {w sl id x key arg} : Keeps R (takeOrder w sl id x key arg) := by
  unfold takeOrder; exact byStoreRules

@[simp] theorem keeps_applyRow {w seq package desc x r ups} : Keeps Memory.Canonical (applyRow w seq package desc x r ups) := by
  unfold applyRow; exact byStoreRules

@[simp] theorem keeps_copyRow {w opcode seq d id key r bs l} : Keeps R (copyRow w opcode seq d id key r bs l) := by
  induction l generalizing w opcode seq d id key r bs with
  | nil => rw [copyRow]; exact byStoreRules
  | cons _ _ ih => rw [copyRow]; exact byStoreRules

@[simp] theorem keeps_scatterStep {w n sl rows i} : Keeps Memory.Canonical (scatterStep w n sl rows i) := by
  unfold scatterStep; exact byStoreRules

@[simp] theorem keeps_scatterBegin {w n sl} : Keeps R (scatterBegin w n sl) := by
  unfold scatterBegin; exact byStoreRules

@[simp] theorem keeps_leaveOrder {w sl id} : Keeps R (leaveOrder w sl id) := by
  unfold leaveOrder; exact byStoreRules

theorem outKeeps_execScatter {slot s} (hs : Memory.Canonical s.mem) : OutKeeps Memory.Canonical (execScatter slot s) := by
  unfold execScatter; exact byStoreRules

theorem outKeeps_execTableReplace {slot s} (hs : R s.mem) : OutKeeps R (execTableReplace slot s) := by
  unfold execTableReplace; exact byStoreRules

@[simp] theorem keeps_replaceRow {w id x r bs poison} : Keeps Memory.Canonical (replaceRow w id x r bs poison) := by
  unfold replaceRow; exact byStoreRules

@[simp] theorem keeps_replaceAway {w seq id r bs poison l} : Keeps R (replaceAway w seq id r bs poison l) := by
  induction l generalizing w seq id r bs poison with
  | nil => rw [replaceAway]; exact byStoreRules
  | cons _ _ ih => rw [replaceAway]; exact byStoreRules

@[simp] theorem keeps_tellMembers {w seq id step first count l} : Keeps R (tellMembers w seq id step first count l) := by
  induction l generalizing w seq id step first count with
  | nil => rw [tellMembers]; exact byStoreRules
  | cons _ _ ih => rw [tellMembers]; exact byStoreRules

@[simp] theorem keeps_replaceRows {id fuel} : Keeps Memory.Canonical (replaceRows id fuel) := by
  induction fuel generalizing id with
  | zero => rw [replaceRows]; exact byStoreRules
  | succ _ ih => rw [replaceRows]; exact byStoreRules

@[simp] theorem State.failReplace_mem {s id st} : (State.failReplace s id st).mem = s.mem := by
  unfold State.failReplace; exact State.mem_eq_of_keeps byStoreRules

theorem State.runReplace_keeps {s id x} (hx : Keeps R x) (hs : R s.mem) : R (State.runReplace s id x).mem := by
  unfold State.runReplace; exact byStoreRules

theorem outKeeps_execReplaceStart {table s} (hs : Memory.Canonical s.mem) :
    OutKeeps Memory.Canonical (execReplaceStart table s) := by
  unfold execReplaceStart; exact byStoreRules

theorem outKeeps_execReplaceDone {table s} (hs : R s.mem) : OutKeeps R (execReplaceDone table s) := by
  unfold execReplaceDone; exact byStoreRules

theorem outKeeps_execTablePin {slot s} (hs : R s.mem) : OutKeeps R (execTablePin slot s) := by
  unfold execTablePin; exact byStoreRules

theorem outKeeps_execTableUnpin {slot s} (hs : R s.mem) : OutKeeps R (execTableUnpin slot s) := by
  unfold execTableUnpin; exact byStoreRules

@[simp] theorem State.dropHold_mem {s pin id x} : (State.dropHold s pin id x).mem = s.mem := by
  unfold State.dropHold; exact State.mem_eq_of_keeps byStoreRules

theorem outKeeps_execPinStale {pin s} (hs : R s.mem) : OutKeeps R (execPinStale pin s) := by
  unfold execPinStale; exact byStoreRules

@[simp] theorem keeps_createHere {tenant id asid desc} : Keeps R (createHere tenant id asid desc) := by
  unfold createHere; exact byStoreRules

@[simp] theorem State.dropTable_mem {s id} : (State.dropTable s id).mem = s.mem := by
  unfold State.dropTable; exact State.mem_eq_of_keeps byStoreRules

@[simp] theorem keeps_askMembers {w n sl step desc l done} : Keeps R (askMembers w n sl step desc l done) := by
  induction l generalizing w n sl step desc done with
  | nil => rw [askMembers]; exact byStoreRules
  | cons _ _ ih => rw [askMembers]; exact byStoreRules

theorem outKeeps_execTableCreate {slot s} (hs : R s.mem) : OutKeeps R (execTableCreate slot s) := by
  unfold execTableCreate; exact byStoreRules

theorem outKeeps_execTableDestroy {slot s} (hs : R s.mem) : OutKeeps R (execTableDestroy slot s) := by
  unfold execTableDestroy; exact byStoreRules

@[simp] theorem keeps_rowCopyPart {w opcode id x inputs} : Keeps Memory.Canonical (rowCopyPart w opcode id x inputs) := by
  unfold rowCopyPart; exact byStoreRules

@[simp] theorem keeps_orderPart {q opcode id step a b x} : Keeps R (orderPart q opcode id step a b x) := by
  unfold orderPart; exact byStoreRules

@[simp] theorem keeps_tablePart {k q} : Keeps Memory.Canonical (tablePart k q) := by
  unfold tablePart; exact byStoreRules

/-! #### The functions of Machine/Profile.lean -/

@[simp] theorem State.setProfile_mem {s p x} : (State.setProfile s p x).mem = s.mem := by
  unfold State.setProfile; exact State.mem_eq_of_keeps byStoreRules

@[simp] theorem State.inProfile_mem {s f} : (State.inProfile s f).mem = s.mem := by
  unfold State.inProfile; exact State.mem_eq_of_keeps byStoreRules

@[simp] theorem State.storeVal_mem {s key v} : (State.storeVal s key v).mem = s.mem := by
  unfold State.storeVal; exact State.mem_eq_of_keeps byStoreRules

/-! #### The functions of Machine/MgmtOps.lean -/

@[simp] theorem State.extendMr_mem {s i digest} : (State.extendMr s i digest).mem = s.mem := by
  unfold State.extendMr; exact State.mem_eq_of_keeps byStoreRules

@[simp] theorem State.extendProfile_mem {s} : (State.extendProfile s).mem = s.mem := by
  unfold State.extendProfile; exact State.mem_eq_of_keeps byStoreRules

@[simp] theorem State.writeMgmtBlock_canonical {s} (hs : Memory.Canonical s.mem) :
    Memory.Canonical (State.writeMgmtBlock s).mem := by
  unfold State.writeMgmtBlock; exact byStoreRules

@[simp] theorem State.sendFrames_mem {s dst l} : (State.sendFrames s dst l).mem = s.mem := by
  unfold State.sendFrames; exact State.mem_eq_of_keeps byStoreRules

@[simp] theorem State.keepResponse_mem {s source reqId msg} : (State.keepResponse s source reqId msg).mem = s.mem := by
  unfold State.keepResponse; exact State.mem_eq_of_keeps byStoreRules

@[simp] theorem State.mgmtRespond_mem {s source head op r} : (State.mgmtRespond s source head op r).mem = s.mem := by
  unfold State.mgmtRespond; exact State.mem_eq_of_keeps byStoreRules

@[simp] theorem State.restartFirmware_canonical {s} (hs : Memory.Canonical s.mem) :
    Memory.Canonical (State.restartFirmware s).mem := by
  unfold State.restartFirmware; exact byStoreRules

@[simp] theorem State.commitDone_canonical {s} (hs : Memory.Canonical s.mem) : Memory.Canonical (State.commitDone s).mem := by
  unfold State.commitDone; exact byStoreRules

/-! #### The functions of Machine/Regions.lean -/

@[simp] theorem keeps_recallLine {g} : Keeps R (recallLine g) := by
  unfold recallLine; exact byStoreRules

@[simp] theorem keeps_flushLine {w discard g} : Keeps R (flushLine w discard g) := by
  unfold flushLine; exact byStoreRules

@[simp] theorem keeps_flushLines {w discard l} : Keeps R (flushLines w discard l) := by
  induction l generalizing w discard with
  | nil => rw [flushLines]; exact byStoreRules
  | cons _ _ ih => rw [flushLines]; exact byStoreRules

@[simp] theorem keeps_checkAll {l} : Keeps R (checkAll l) := by
  induction l with
  | nil => rw [checkAll]; exact byStoreRules
  | cons _ _ ih => rw [checkAll]; exact byStoreRules

theorem outKeeps_execFlush {slot s} (hs : R s.mem) : OutKeeps R (execFlush slot s) := by
  unfold execFlush; exact byStoreRules

@[simp] theorem State.setRegion_mem {s id r} : (State.setRegion s id r).mem = s.mem := by
  unfold State.setRegion; exact State.mem_eq_of_keeps byStoreRules

@[simp] theorem State.answerOpen_mem {s p st version} : (State.answerOpen s p st version).mem = s.mem := by
  unfold State.answerOpen; exact State.mem_eq_of_keeps byStoreRules

@[simp] theorem State.grantStaging_mem {s id} : (State.grantStaging s id).mem = s.mem := by
  unfold State.grantStaging; exact State.mem_eq_of_keeps byStoreRules

@[simp] theorem State.takeOpen_mem {s id p} : (State.takeOpen s id p).mem = s.mem := by
  unfold State.takeOpen; exact State.mem_eq_of_keeps byStoreRules

@[simp] theorem State.endPublish_mem {s id} : (State.endPublish s id).mem = s.mem := by
  unfold State.endPublish; exact State.mem_eq_of_keeps byStoreRules

@[simp] theorem State.advanceVersion_mem {s id r slot} : (State.advanceVersion s id r slot).mem = s.mem := by
  unfold State.advanceVersion; exact State.mem_eq_of_keeps byStoreRules

@[simp] theorem State.dropPublisher_mem {s package} : (State.dropPublisher s package).mem = s.mem := by
  unfold State.dropPublisher; exact State.mem_eq_of_keeps byStoreRules

theorem outKeeps_execPublishStagingGrant {region s} (hs : R s.mem) : OutKeeps R (execPublishStagingGrant region s) := by
  unfold execPublishStagingGrant; exact byStoreRules

theorem outKeeps_execPubOpen {packet s} (hs : R s.mem) : OutKeeps R (execPubOpen packet s) := by
  unfold execPubOpen; exact byStoreRules

@[simp] theorem keeps_publishOf {q la} : Keeps R (publishOf q la) := by
  unfold publishOf; exact byStoreRules

theorem outKeeps_execPubLine {packet s} (hs : R s.mem) : OutKeeps R (execPubLine packet s) := by
  unfold execPubLine; exact byStoreRules

@[simp] theorem keeps_applyStaged {tenant id r p l} : Keeps Memory.Canonical (applyStaged tenant id r p l) := by
  induction l generalizing tenant id r p with
  | nil => rw [applyStaged]; exact byStoreRules
  | cons _ _ ih => rw [applyStaged]; exact byStoreRules

theorem outKeeps_execPubEnd {packet s} (hs : Memory.Canonical s.mem) : OutKeeps Memory.Canonical (execPubEnd packet s) := by
  unfold execPubEnd; exact byStoreRules

@[simp] theorem keeps_restartPublish {n sl} : Keeps R (restartPublish n sl) := by
  unfold restartPublish; exact byStoreRules

@[simp] theorem keeps_dropLines {l} : Keeps R (dropLines l) := by
  induction l with
  | nil => rw [dropLines]; exact byStoreRules
  | cons _ _ ih => rw [dropLines]; exact byStoreRules

@[simp] theorem keeps_loseConflict {n l version} : Keeps R (loseConflict n l version) := by
  unfold loseConflict; exact byStoreRules

@[simp] theorem keeps_sendLines {w n base l k} : Keeps R (sendLines w n base l k) := by
  induction l generalizing w n base k with
  | nil => rw [sendLines]; exact byStoreRules
  | cons _ _ ih => rw [sendLines]; exact byStoreRules

@[simp] theorem State.cleanSent_mem {s l} : (State.cleanSent s l).mem = s.mem := by
  unfold State.cleanSent; exact State.mem_eq_of_keeps byStoreRules

@[simp] theorem keeps_publishAway {w n sl p la} : Keeps R (publishAway w n sl p la) := by
  unfold publishAway; exact byStoreRules

theorem outKeeps_execPublish {slot s} (hs : R s.mem) : OutKeeps R (execPublish slot s) := by
  unfold execPublish; exact byStoreRules

@[simp] theorem keeps_queryHere {la} : Keeps R (queryHere la) := by
  unfold queryHere; exact byStoreRules

theorem outKeeps_execVersionQuery {slot s} (hs : R s.mem) : OutKeeps R (execVersionQuery slot s) := by
  unfold execVersionQuery; exact byStoreRules

@[simp] theorem keeps_createRegion {tenant pieces length slot} : Keeps R (createRegion tenant pieces length slot) := by
  unfold createRegion; exact byStoreRules

@[simp] theorem keeps_destroyRegion {la slot} : Keeps R (destroyRegion la slot) := by
  unfold destroyRegion; exact byStoreRules

theorem regionConfig_keeps {op n body s} (hb : ∀ sl w, Keeps R (body sl w)) (hs : R s.mem) :
    R (regionConfig op n body s).mem := by
  unfold regionConfig; exact runSlotIf_keeps (fun _ => byStoreRules) hs

theorem outKeeps_execRegionCreate {slot s} (hs : R s.mem) : OutKeeps R (execRegionCreate slot s) := by
  unfold execRegionCreate; exact byStoreRules

theorem outKeeps_execRegionDestroy {slot s} (hs : R s.mem) : OutKeeps R (execRegionDestroy slot s) := by
  unfold execRegionDestroy; exact byStoreRules

@[simp] theorem keeps_regionPart {q opcode la inputs} : Keeps R (regionPart q opcode la inputs) := by
  unfold regionPart; exact byStoreRules

/-! #### The functions of Machine/TwinOps.lean -/

@[simp] theorem State.killLaunch_mem {s slot} : (State.killLaunch s slot).mem = s.mem := by
  unfold State.killLaunch; exact State.mem_eq_of_keeps byStoreRules

@[simp] theorem State.abortSlots_mem {s p} : (State.abortSlots s p).mem = s.mem := by
  unfold State.abortSlots; exact State.mem_eq_of_keeps byStoreRules

@[simp] theorem State.dropUnacked_canonical {s} (hs : Memory.Canonical s.mem) : Memory.Canonical (State.dropUnacked s).mem := by
  unfold State.dropUnacked; exact byStoreRules

@[simp] theorem State.recordDegraded_canonical {s} (hs : Memory.Canonical s.mem) :
    Memory.Canonical (State.recordDegraded s).mem := by
  unfold State.recordDegraded; exact byStoreRules

@[simp] theorem State.fence_canonical {s} (hs : Memory.Canonical s.mem) : Memory.Canonical (State.fence s).mem := by
  unfold State.fence; exact byStoreRules

@[simp] theorem State.split_mem {s} : (State.split s).mem = s.mem := by
  unfold State.split; exact State.mem_eq_of_keeps byStoreRules

@[simp] theorem State.sendCtl_mem {s dst release ack id} : (State.sendCtl s dst release ack id).mem = s.mem := by
  unfold State.sendCtl; exact State.mem_eq_of_keeps byStoreRules

@[simp] theorem State.sendNotices_mem {s id release} : (State.sendNotices s id release).mem = s.mem := by
  unfold State.sendNotices; exact State.mem_eq_of_keeps byStoreRules

@[simp] theorem State.resend_mem {s tag q} : (State.resend s tag q).mem = s.mem := by
  unfold State.resend; exact State.mem_eq_of_keeps byStoreRules

@[simp] theorem State.hand_mem {s q status data} : (State.hand s q status data).mem = s.mem := by
  unfold State.hand; exact State.mem_eq_of_keeps byStoreRules

@[simp] theorem State.endRequest_mem {s tag q} : (State.endRequest s tag q).mem = s.mem := by
  unfold State.endRequest; exact State.mem_eq_of_keeps byStoreRules

@[simp] theorem State.legDead_mem {s q} : (State.legDead s q).mem = s.mem := by
  unfold State.legDead; exact State.mem_eq_of_keeps byStoreRules

@[simp] theorem State.requestDead_mem {s tag q} : (State.requestDead s tag q).mem = s.mem := by
  unfold State.requestDead; exact State.mem_eq_of_keeps byStoreRules

/-! #### The functions of Machine/Fabric.lean -/

@[simp] theorem keeps_homePieces {q l} : Keeps R (homePieces q l) := by
  induction l generalizing q with
  | nil => rw [homePieces]; exact byStoreRules
  | cons _ _ ih => rw [homePieces]; exact byStoreRules

@[simp] theorem keeps_readHome {tenant l} : Keeps R (readHome tenant l) := by
  induction l generalizing tenant with
  | nil => rw [readHome]; exact byStoreRules
  | cons _ _ ih => rw [readHome]; exact byStoreRules

@[simp] theorem State.probed_canonical {s q} (hs : Memory.Canonical s.mem) : Memory.Canonical (State.probed s q).mem := by
  unfold State.probed; exact byStoreRules

theorem outKeeps_execRd {packet s} (hs : Memory.Canonical s.mem) : OutKeeps Memory.Canonical (execRd packet s) := by
  unfold execRd; exact byStoreRules

theorem outKeeps_execRemoteFill {packet s} (hs : R s.mem) : OutKeeps R (execRemoteFill packet s) := by
  unfold execRemoteFill; exact byStoreRules

theorem outKeeps_execAtomic {packet s} (hs : Memory.Canonical s.mem) : OutKeeps Memory.Canonical (execAtomic packet s) := by
  unfold execAtomic; exact byStoreRules

@[simp] theorem keeps_writeHome {k q l bs i done} : Keeps Memory.Canonical (writeHome k q l bs i done) := by
  induction l generalizing k q bs i done with
  | nil => rw [writeHome]; exact byStoreRules
  | cons _ _ ih => rw [writeHome]; exact byStoreRules

@[simp] theorem keeps_performWrite {k q} : Keeps Memory.Canonical (performWrite k q) := by
  unfold performWrite; exact byStoreRules

@[simp] theorem State.setGroup_mem {s key g} : (State.setGroup s key g).mem = s.mem := by
  unfold State.setGroup; exact State.mem_eq_of_keeps byStoreRules

@[simp] theorem State.countGroup_mem {s key st} : (State.countGroup s key st).mem = s.mem := by
  unfold State.countGroup; exact State.mem_eq_of_keeps byStoreRules

theorem outKeeps_execWr {packet s} (hs : Memory.Canonical s.mem) : OutKeeps Memory.Canonical (execWr packet s) := by
  unfold execWr; exact byStoreRules

@[simp] theorem keeps_closeGroup {k q} : Keeps R (closeGroup k q) := by
  unfold closeGroup; exact byStoreRules

@[simp] theorem keeps_freeGroup {q} : Keeps R (freeGroup q) := by
  unfold freeGroup; exact byStoreRules

theorem outKeeps_execWrFinal {packet s} (hs : Memory.Canonical s.mem) : OutKeeps Memory.Canonical (execWrFinal packet s) := by
  unfold execWrFinal; exact byStoreRules

theorem outKeeps_execGroupEnd {packet s} (hs : R s.mem) : OutKeeps R (execGroupEnd packet s) := by
  unfold execGroupEnd; exact byStoreRules

@[simp] theorem keeps_pushPart {q inputs} : Keeps Memory.Canonical (pushPart q inputs) := by
  unfold pushPart; exact byStoreRules

@[simp] theorem keeps_bindPart {tenant inputs} : Keeps R (bindPart tenant inputs) := by
  unfold bindPart
  refine .bind_get fun s hs => ?_
  dsimp only
  split
  · rename_i heq
    have h := State.bindHere_mem heq
    exact byStoreRules
  · exact byStoreRules

@[simp] theorem keeps_partBody {k q} : Keeps Memory.Canonical (partBody k q) := by
  unfold partBody; exact byStoreRules

theorem outKeeps_execCmd {packet s} (hs : Memory.Canonical s.mem) : OutKeeps Memory.Canonical (execCmd packet s) := by
  unfold execCmd; exact byStoreRules

theorem takeResponse_keeps {type p f s} (hf : ∀ s q r, R s.mem → R (f s q r).mem) (hs : R s.mem) :
    R (takeResponse type p f s).mem := by
  unfold takeResponse; exact byStoreRules

@[simp] theorem State.accept_mem {s q r data} : (State.accept s q r data).mem = s.mem := by
  unfold State.accept; exact State.mem_eq_of_keeps byStoreRules

theorem outKeeps_execRdRsp {packet s} (hs : R s.mem) : OutKeeps R (execRdRsp packet s) := by
  unfold execRdRsp; exact byStoreRules

theorem outKeeps_execFillRsp {packet s} (hs : R s.mem) : OutKeeps R (execFillRsp packet s) := by
  unfold execFillRsp; exact byStoreRules

theorem outKeeps_execAtomicRsp {packet s} (hs : R s.mem) : OutKeeps R (execAtomicRsp packet s) := by
  unfold execAtomicRsp; exact byStoreRules

theorem outKeeps_execCmdRsp {packet s} (hs : R s.mem) : OutKeeps R (execCmdRsp packet s) := by
  unfold execCmdRsp; exact byStoreRules

theorem outKeeps_execPubRsp {packet s} (hs : R s.mem) : OutKeeps R (execPubRsp packet s) := by
  unfold execPubRsp; exact byStoreRules

theorem outKeeps_execWrAck {packet s} (hs : R s.mem) : OutKeeps R (execWrAck packet s) := by
  unfold execWrAck; exact byStoreRules

@[simp] theorem takeNote_mem {type p f s} : (takeNote type p f s).mem = s.mem := by
  unfold takeNote; exact State.mem_eq_of_keeps byStoreRules

theorem outKeeps_execPending {packet s} (hs : R s.mem) : OutKeeps R (execPending packet s) := by
  unfold execPending; exact byStoreRules

theorem outKeeps_execNoRoute {packet s} (hs : R s.mem) : OutKeeps R (execNoRoute packet s) := by
  unfold execNoRoute; exact byStoreRules

theorem outKeeps_execPendingTimer {source tag s} (hs : R s.mem) : OutKeeps R (execPendingTimer source tag s) := by
  unfold execPendingTimer; exact byStoreRules

theorem outKeeps_execRequestTimer {tag s} (hs : R s.mem) : OutKeeps R (execRequestTimer tag s) := by
  unfold execRequestTimer; exact byStoreRules

theorem outKeeps_execStoredResponseExpiry {source tag s} (hs : R s.mem) : OutKeeps R (execStoredResponseExpiry source tag s) := by
  unfold execStoredResponseExpiry; exact byStoreRules

@[simp] theorem State.resendHeld_mem {s id} : (State.resendHeld s id).mem = s.mem := by
  unfold State.resendHeld; exact State.mem_eq_of_keeps byStoreRules

theorem outKeeps_execTakeoverNotice {id source s} (hs : Memory.Canonical s.mem) :
    OutKeeps Memory.Canonical (execTakeoverNotice id source s) := by
  unfold execTakeoverNotice
  refine .ofNext ?_
  split
  · exact hs
  · dsimp only
    split
    · exact State.fence_canonical (by simpa using hs)
    · simpa using hs

theorem outKeeps_execReleaseIdNotice {id source s} (hs : R s.mem) : OutKeeps R (execReleaseIdNotice id source s) := by
  unfold execReleaseIdNotice; exact byStoreRules

theorem outKeeps_execNoticeAck {id source release s} (hs : R s.mem) : OutKeeps R (execNoticeAck id source release s) := by
  unfold execNoticeAck; exact byStoreRules

theorem outKeeps_execNoticeRepeat {id destination s} (hs : R s.mem) : OutKeeps R (execNoticeRepeat id destination s) := by
  unfold execNoticeRepeat; exact byStoreRules

/-! #### The functions of Machine/Tiles.lean -/

@[simp] theorem keeps_landCounter {w n asid on ctrVa} : Keeps Memory.Canonical (landCounter w n asid on ctrVa) := by
  unfold landCounter; exact byStoreRules

theorem keeps_landOnce {w n i asid on ctrVa land} (hl : Keeps Memory.Canonical land) :
    Keeps Memory.Canonical (landOnce w n i asid on ctrVa land) := by
  unfold landOnce; exact byStoreRules

@[simp] theorem keeps_moveTile {n i} : Keeps Memory.Canonical (moveTile n i) := by
  unfold moveTile; exact byStoreRules

theorem outKeeps_execTileMove {slot s} (hs : Memory.Canonical s.mem) : OutKeeps Memory.Canonical (execTileMove slot s) := by
  unfold execTileMove; exact byStoreRules

@[simp] theorem keeps_copyRun {w asid hdr src dst point n j} : Keeps Memory.Canonical (copyRun w asid hdr src dst point n j) := by
  induction n generalizing w asid hdr src dst point j with
  | zero => rw [copyRun]; exact byStoreRules
  | succ _ ih => rw [copyRun]; exact byStoreRules

@[simp] theorem keeps_kvState {w asid entry e st} : Keeps Memory.Canonical (kvState w asid entry e st) := by
  unfold kvState; exact byStoreRules

@[simp] theorem keeps_kvCount {w asid hdr} : Keeps R (kvCount w asid hdr) := by
  unfold kvCount; exact byStoreRules

theorem keeps_restoring {back x : Eng Unit} (hb : Keeps R back) (hx : Keeps R x) : Keeps R (restoring back x) := by
  refine ⟨fun s hs => ?_⟩
  have h := hx.go hs
  change R (match x.go s with
    | (.error (.fail st), s) => (.error (.fail st), (back.go s).2)
    | r => r : Except Stop Unit × State).2.mem
  split
  · rename_i heq
    rw [heq] at h
    exact hb.go h
  · exact h

@[simp] theorem keeps_kvBlock {spill n i} : Keeps Memory.Canonical (kvBlock spill n i) := by
  unfold kvBlock; exact byStoreRules

@[simp] theorem kvRun_canonical {op spill slot s} (hs : Memory.Canonical s.mem) :
    Memory.Canonical (kvRun op spill slot s).mem := by
  unfold kvRun; exact byStoreRules

theorem outKeeps_execKvSpill {slot s} (hs : Memory.Canonical s.mem) : OutKeeps Memory.Canonical (execKvSpill slot s) := by
  unfold execKvSpill; exact byStoreRules

theorem outKeeps_execKvFetch {slot s} (hs : Memory.Canonical s.mem) : OutKeeps Memory.Canonical (execKvFetch slot s) := by
  unfold execKvFetch; exact byStoreRules

/-! #### The functions of Machine/Acopy.lean -/

@[simp] theorem keeps_copySource {w asid l} : Keeps R (copySource w asid l) := by
  induction l generalizing w asid with
  | nil => rw [copySource]; exact byStoreRules
  | cons _ _ ih => rw [copySource]; exact byStoreRules

@[simp] theorem keeps_copyLine {w n sl i} : Keeps Memory.Canonical (copyLine w n sl i) := by
  unfold copyLine; exact byStoreRules

@[simp] theorem keeps_packageOf {w asid va} : Keeps R (packageOf w asid va) := by
  unfold packageOf; exact byStoreRules

@[simp] theorem keeps_copyTile {final n i} : Keeps Memory.Canonical (copyTile final n i) := by
  unfold copyTile; exact byStoreRules

@[simp] theorem keeps_copyBody {final n sl} : Keeps Memory.Canonical (copyBody final n sl) := by
  unfold copyBody; exact byStoreRules

theorem outKeeps_execAcopy {slot s} (hs : Memory.Canonical s.mem) : OutKeeps Memory.Canonical (execAcopy slot s) := by
  unfold execAcopy; exact byStoreRules

@[simp] theorem keeps_finalBody {n sl} : Keeps Memory.Canonical (finalBody n sl) := by
  unfold finalBody; exact byStoreRules

theorem outKeeps_execAcopyFinal {slot s} (hs : Memory.Canonical s.mem) : OutKeeps Memory.Canonical (execAcopyFinal slot s) := by
  unfold execAcopyFinal; exact byStoreRules

theorem outKeeps_execAcopyFinalSend {slot s} (hs : Memory.Canonical s.mem) :
    OutKeeps Memory.Canonical (execAcopyFinalSend slot s) := by
  unfold execAcopyFinalSend; exact byStoreRules

theorem outKeeps_execRemoteAtomic {slot s} (hs : Memory.Canonical s.mem) :
    OutKeeps Memory.Canonical (execRemoteAtomic slot s) := by
  unfold execRemoteAtomic; exact byStoreRules

/-! #### The functions of Machine/Coherence.lean -/

@[simp] theorem State.answerAgent_mem {s address data poison} : (State.answerAgent s address data poison).mem = s.mem := by
  unfold State.answerAgent; exact State.mem_eq_of_keeps byStoreRules

@[simp] theorem keeps_dirRoom {line victim} : Keeps R (dirRoom line victim) := by
  unfold dirRoom; exact byStoreRules

@[simp] theorem State.addSharer_mem {s line agent} : (State.addSharer s line agent).mem = s.mem := by
  unfold State.addSharer; exact State.mem_eq_of_keeps byStoreRules

@[simp] theorem State.makeOwner_mem {s line agent} : (State.makeOwner s line agent).mem = s.mem := by
  unfold State.makeOwner; exact State.mem_eq_of_keeps byStoreRules

@[simp] theorem keeps_dirRead {own agent line victim} : Keeps R (dirRead own agent line victim) := by
  unfold dirRead; exact byStoreRules

@[simp] theorem keeps_nameLine {line} : Keeps R (nameLine line) := by
  unfold nameLine; exact byStoreRules

@[simp] theorem State.unnameLine_mem {s line} : (State.unnameLine s line).mem = s.mem := by
  unfold State.unnameLine; exact State.mem_eq_of_keeps byStoreRules

@[simp] theorem keeps_agentHome {own agent tenant la victim} : Keeps R (agentHome own agent tenant la victim) := by
  unfold agentHome; exact byStoreRules

@[simp] theorem keeps_agentRemote {own agent w p la victim} : Keeps R (agentRemote own agent w p la victim) := by
  unfold agentRemote; exact byStoreRules

@[simp] theorem keeps_agentAccess {own agent r va victim} : Keeps R (agentAccess own agent r va victim) := by
  unfold agentAccess; exact byStoreRules

@[simp] theorem State.agentRead_mem {s own agent address victim} : (State.agentRead s own agent address victim).mem = s.mem := by
  unfold State.agentRead; exact State.mem_eq_of_keeps byStoreRules

theorem outKeeps_execAgentReadShared {agent address victim s} (hs : R s.mem) :
    OutKeeps R (execAgentReadShared agent address victim s) := by
  unfold execAgentReadShared; exact byStoreRules

theorem outKeeps_execAgentReadOwnership {agent address victim s} (hs : R s.mem) :
    OutKeeps R (execAgentReadOwnership agent address victim s) := by
  unfold execAgentReadOwnership; exact byStoreRules

@[simp] theorem State.applyLine_canonical {s line data} (hs : Memory.Canonical s.mem) :
    Memory.Canonical (State.applyLine s line data).mem := by
  unfold State.applyLine; exact byStoreRules

@[simp] theorem State.endOwner_mem {s line} : (State.endOwner s line).mem = s.mem := by
  unfold State.endOwner; exact State.mem_eq_of_keeps byStoreRules

theorem outKeeps_execAgentWriteBack {agent line data s} (hs : Memory.Canonical s.mem)
    : OutKeeps Memory.Canonical (execAgentWriteBack agent line data s) := by
  unfold execAgentWriteBack; exact byStoreRules

@[simp] theorem State.answerSnoop_canonical {s x data} (hs : Memory.Canonical s.mem) :
    Memory.Canonical (State.answerSnoop s x data).mem := by
  unfold State.answerSnoop; exact byStoreRules

theorem outKeeps_execSnoopAnswer {agent line data held s} (hs : Memory.Canonical s.mem)
    : OutKeeps Memory.Canonical (execSnoopAnswer agent line data held s) := by
  unfold execSnoopAnswer; exact byStoreRules

@[simp] theorem State.poisonHeld_mem {s line} : (State.poisonHeld s line).mem = s.mem := by
  unfold State.poisonHeld; exact State.mem_eq_of_keeps byStoreRules

@[simp] theorem State.dropAgent_mem {s agent} : (State.dropAgent s agent).mem = s.mem := by
  unfold State.dropAgent; exact State.mem_eq_of_keeps byStoreRules

theorem outKeeps_execSnoopTimeout {agent s} (hs : R s.mem) : OutKeeps R (execSnoopTimeout agent s) := by
  unfold execSnoopTimeout; exact byStoreRules

@[simp] theorem State.writeAgent_mem {s agent row} : (State.writeAgent s agent row).2.mem = s.mem := by
  unfold State.writeAgent; exact State.mem_eq_of_keeps byStoreRules

theorem outKeeps_execAgentTable {agent row s} (hs : R s.mem) : OutKeeps R (execAgentTable agent row s) := by
  unfold execAgentTable; exact byStoreRules

theorem outKeeps_execHomeAtomic {request s} (hs : Memory.Canonical s.mem) :
    OutKeeps Memory.Canonical (execHomeAtomic request s) := by
  unfold execHomeAtomic; exact byStoreRules

theorem outKeeps_execAlbHoldExpiry {die line s} (hs : R s.mem) : OutKeeps R (execAlbHoldExpiry die line s) := by
  unfold execAlbHoldExpiry; exact byStoreRules

theorem outKeeps_execAlbEntryChoice {die s} (hs : R s.mem) : OutKeeps R (execAlbEntryChoice die s) := by
  unfold execAlbEntryChoice; exact byStoreRules

theorem outKeeps_execWatchRecallExpiry {line s} (hs : R s.mem) : OutKeeps R (execWatchRecallExpiry line s) := by
  unfold execWatchRecallExpiry; exact byStoreRules

/-! #### The functions of Machine/Contexts.lean -/

theorem outKeeps_execContextOpen {slot s} (hs : Memory.Canonical s.mem) : OutKeeps Memory.Canonical (execContextOpen slot s) := by
  unfold execContextOpen; exact byStoreRules

@[simp] theorem keeps_contextGone {op} : Keeps R (contextGone op) := by
  unfold contextGone; exact byStoreRules

@[simp] theorem keeps_ownerOf {w n sl k} : Keeps R (ownerOf w n sl k) := by
  unfold ownerOf; exact byStoreRules

@[simp] theorem keeps_forwardContext {w sl k p driver} : Keeps R (forwardContext w sl k p driver) := by
  unfold forwardContext; exact byStoreRules

@[simp] theorem keeps_freeChain {w sl k l} : Keeps R (freeChain w sl k l) := by
  induction l generalizing w sl k with
  | nil => rw [freeChain]; exact byStoreRules
  | cons _ _ ih => rw [freeChain]; exact byStoreRules

theorem outKeeps_contextCommand {op slot s} (hs : R s.mem) : OutKeeps R (contextCommand op slot s) := by
  unfold contextCommand; exact byStoreRules

theorem outKeeps_execOffer {slot s} (hs : R s.mem) : OutKeeps R (execOffer slot s) := by
  unfold execOffer; exact byStoreRules

theorem outKeeps_execRelease {slot s} (hs : R s.mem) : OutKeeps R (execRelease slot s) := by
  unfold execRelease; exact byStoreRules

theorem outKeeps_execCheckpoint {slot s} (hs : R s.mem) : OutKeeps R (execCheckpoint slot s) := by
  unfold execCheckpoint; exact byStoreRules

theorem outKeeps_execContextRun {slot s} (hs : R s.mem) : OutKeeps R (execContextRun slot s) := by
  unfold execContextRun; exact byStoreRules

theorem outKeeps_execOfferDeadline {context s} (hs : R s.mem) : OutKeeps R (execOfferDeadline context s) := by
  unfold execOfferDeadline; exact byStoreRules

@[simp] theorem State.winContext_mem {s k e slot} : (State.winContext s k e slot).mem = s.mem := by
  unfold State.winContext; exact State.mem_eq_of_keeps byStoreRules

@[simp] theorem State.loseContext_mem {s k e owner slot} : (State.loseContext s k e owner slot).mem = s.mem := by
  unfold State.loseContext; exact State.mem_eq_of_keeps byStoreRules

@[simp] theorem keeps_settleTaking {k e slot l} : Keeps R (settleTaking k e slot l) := by
  unfold settleTaking; exact byStoreRules

@[simp] theorem keeps_takeCas_ask {w slot k e} : Keeps R (takeCas.ask w slot k e) := by
  unfold takeCas.ask; exact byStoreRules

@[simp] theorem keeps_takeCas {w slot k e} : Keeps R (takeCas w slot k e) := by
  unfold takeCas; exact byStoreRules

@[simp] theorem keeps_takeCas.ask {w slot k e} : Keeps R (takeCas.ask w slot k e) := by
  unfold takeCas.ask; exact byStoreRules

theorem outKeeps_execTake {slot s} (hs : R s.mem) : OutKeeps R (execTake slot s) := by
  unfold execTake; exact byStoreRules

theorem outKeeps_execTakeWaitExpiry {slot s} (hs : R s.mem) : OutKeeps R (execTakeWaitExpiry slot s) := by
  unfold execTakeWaitExpiry; exact byStoreRules

@[simp] theorem keeps_readLedgers {w sl k l} : Keeps R (readLedgers w sl k l) := by
  induction l with
  | nil => exact .pure _
  | cons p _ ih => unfold readLedgers; exact byStoreRules

theorem outKeeps_execLedgerQuery {slot s} (hs : Memory.Canonical s.mem) : OutKeeps Memory.Canonical (execLedgerQuery slot s) := by
  unfold execLedgerQuery; exact byStoreRules

@[simp] theorem keeps_phaseEnd {n sl key r} : Keeps R (phaseEnd n sl key r) := by
  unfold phaseEnd; exact byStoreRules

theorem outKeeps_execPhaseComplete {slot s} (hs : R s.mem) : OutKeeps R (execPhaseComplete slot s) := by
  unfold execPhaseComplete; exact byStoreRules

/-! #### The functions of Machine/Counters.lean -/

theorem stepOp_keeps {op n body s} (hb : ∀ sl k r, Keeps R (body sl k r)) (hs : R s.mem) : R (stepOp op n body s).mem := by
  unfold stepOp; exact runSlotIf_keeps (fun _ => byStoreRules) hs

theorem outKeeps_execRunOne {slot s} (hs : R s.mem) : OutKeeps R (execRunOne slot s) := by
  unfold execRunOne; exact byStoreRules

theorem outKeeps_execEnterStep {slot s} (hs : Memory.Canonical s.mem) : OutKeeps Memory.Canonical (execEnterStep slot s) := by
  unfold execEnterStep; exact byStoreRules

@[simp] theorem State.setMode_canonical {s id r m} (hs : Memory.Canonical s.mem) :
    Memory.Canonical (State.setMode s id r m).mem := by
  unfold State.setMode; exact byStoreRules

theorem outKeeps_execEnterSerial {slot s} (hs : Memory.Canonical s.mem) : OutKeeps Memory.Canonical (execEnterSerial slot s) := by
  unfold execEnterSerial; exact byStoreRules

theorem outKeeps_execExitStep {slot s} (hs : Memory.Canonical s.mem) : OutKeeps Memory.Canonical (execExitStep slot s) := by
  unfold execExitStep; exact byStoreRules

theorem sampleOp_keeps {op n body s} (hb : ∀ sl, Keeps R (body sl)) (hs : R s.mem) : R (sampleOp op n body s).mem := by
  unfold sampleOp; exact runSlotIf_keeps hb hs

@[simp] theorem State.clearSet_mem {s t} : (State.clearSet s t).mem = s.mem := by
  unfold State.clearSet; exact State.mem_eq_of_keeps byStoreRules

theorem outKeeps_execSampleTenantSet {slot s} (hs : Memory.Canonical s.mem) :
    OutKeeps Memory.Canonical (execSampleTenantSet slot s) := by
  unfold execSampleTenantSet; exact byStoreRules

theorem outKeeps_execSampleRingSet {slot s} (hs : Memory.Canonical s.mem) :
    OutKeeps Memory.Canonical (execSampleRingSet slot s) := by
  unfold execSampleRingSet; exact byStoreRules

theorem outKeeps_execClearTenantSet {slot s} (hs : R s.mem) : OutKeeps R (execClearTenantSet slot s) := by
  unfold execClearTenantSet; exact byStoreRules

@[simp] theorem State.refreshPage_canonical {s asid p} (hs : Memory.Canonical s.mem) :
    Memory.Canonical (State.refreshPage s asid p).mem := by
  unfold State.refreshPage; exact byStoreRules

theorem outKeeps_execMapCounterPage {slot s} (hs : Memory.Canonical s.mem) :
    OutKeeps Memory.Canonical (execMapCounterPage slot s) := by
  unfold execMapCounterPage; exact byStoreRules

theorem outKeeps_execUnmapCounterPage {slot s} (hs : R s.mem) : OutKeeps R (execUnmapCounterPage slot s) := by
  unfold execUnmapCounterPage; exact byStoreRules

theorem outKeeps_execCounterPageRefresh {s} (hs : Memory.Canonical s.mem) :
    OutKeeps Memory.Canonical (execCounterPageRefresh s) := by
  unfold execCounterPageRefresh; exact byStoreRules

@[simp] theorem State.writeCounterClear_mem {s v} : (State.writeCounterClear s v).2.mem = s.mem := by
  unfold State.writeCounterClear; exact State.mem_eq_of_keeps byStoreRules

theorem outKeeps_execCounterClear {value s} (hs : R s.mem) : OutKeeps R (execCounterClear value s) := by
  unfold execCounterClear; exact byStoreRules

/-! #### The functions of Machine/Debug.lean -/

@[simp] theorem State.dbgResult_mem {s n code data} : (State.dbgResult s n code data).mem = s.mem := by
  unfold State.dbgResult; exact State.mem_eq_of_keeps byStoreRules

@[simp] theorem State.dbgRun_mem {s r good kernel halted f data} :
    (State.dbgRun s r good kernel halted f data).2.mem = s.mem := by
  unfold State.dbgRun; exact State.mem_eq_of_keeps byStoreRules

theorem outKeeps_dbgOut {op r w s} (hw : ∀ s, R s.mem → R (w s).2.mem) (hs : R s.mem) : OutKeeps R (dbgOut op r w s) := by
  unfold dbgOut; exact byStoreRules

@[simp] theorem State.dbgArm_mem {s r} : (State.dbgArm s r).2.mem = s.mem := by
  unfold State.dbgArm; exact State.mem_eq_of_keeps byStoreRules

@[simp] theorem State.dbgDisarm_mem {s r} : (State.dbgDisarm s r).2.mem = s.mem := by
  unfold State.dbgDisarm; exact State.mem_eq_of_keeps byStoreRules

@[simp] theorem State.dbgHalt_mem {s r} : (State.dbgHalt s r).2.mem = s.mem := by
  unfold State.dbgHalt; exact State.mem_eq_of_keeps byStoreRules

@[simp] theorem State.dbgStep_mem {s r} : (State.dbgStep s r).2.mem = s.mem := by
  unfold State.dbgStep; exact State.mem_eq_of_keeps byStoreRules

@[simp] theorem State.dbgResume_mem {s r} : (State.dbgResume s r).2.mem = s.mem := by
  unfold State.dbgResume; exact State.mem_eq_of_keeps byStoreRules

@[simp] theorem State.dbgRead_mem {s r} : (State.dbgRead s r).2.mem = s.mem := by
  unfold State.dbgRead; exact State.mem_eq_of_keeps byStoreRules

@[simp] theorem State.dbgWrite_mem {s r value} : (State.dbgWrite s r value).2.mem = s.mem := by
  unfold State.dbgWrite; exact State.mem_eq_of_keeps byStoreRules

@[simp] theorem State.dbgSpad_mem {s r} : (State.dbgSpad s r).2.mem = s.mem := by
  unfold State.dbgSpad; exact State.mem_eq_of_keeps byStoreRules

@[simp] theorem State.dbgStatus_mem {s r} : (State.dbgStatus s r).2.mem = s.mem := by
  unfold State.dbgStatus; exact State.mem_eq_of_keeps byStoreRules

@[simp] theorem State.writeDebug_mem {s bs} : (State.writeDebug s bs).2.mem = s.mem := by
  unfold State.writeDebug; exact State.mem_eq_of_keeps byStoreRules

theorem outKeeps_execArm {request s} (hs : R s.mem) : OutKeeps R (execArm request s) := by
  unfold execArm; exact byStoreRules

theorem outKeeps_execDisarm {request s} (hs : R s.mem) : OutKeeps R (execDisarm request s) := by
  unfold execDisarm; exact byStoreRules

theorem outKeeps_execCoreDebugHalt {request s} (hs : R s.mem) : OutKeeps R (execCoreDebugHalt request s) := by
  unfold execCoreDebugHalt; exact byStoreRules

theorem outKeeps_execCoreDebugStep {request s} (hs : R s.mem) : OutKeeps R (execCoreDebugStep request s) := by
  unfold execCoreDebugStep; exact byStoreRules

theorem outKeeps_execResume {request s} (hs : R s.mem) : OutKeeps R (execResume request s) := by
  unfold execResume; exact byStoreRules

theorem outKeeps_execReadReg {request s} (hs : R s.mem) : OutKeeps R (execReadReg request s) := by
  unfold execReadReg; exact byStoreRules

theorem outKeeps_execWriteReg {request value s} (hs : R s.mem) : OutKeeps R (execWriteReg request value s) := by
  unfold execWriteReg; exact byStoreRules

theorem outKeeps_execReadSpad {request s} (hs : R s.mem) : OutKeeps R (execReadSpad request s) := by
  unfold execReadSpad; exact byStoreRules

theorem outKeeps_execStatus {request s} (hs : R s.mem) : OutKeeps R (execStatus request s) := by
  unfold execStatus; exact byStoreRules

/-! #### The functions of Machine/FabricManager.lean -/

@[simp] theorem State.fmDone_mem {s h} : (State.fmDone s h).mem = s.mem := by
  unfold State.fmDone; exact State.mem_eq_of_keeps byStoreRules

theorem fmCommand_keeps {h shape length f s} (hf : ∀ s, R s.mem → R (f s).2.mem) (hs : R s.mem) :
    R (fmCommand h shape length f s).2.mem := by
  unfold fmCommand; exact byStoreRules

theorem outKeeps_fmOut {code h f s} (hf : ∀ s, R s.mem → R (f s).2.mem) (hs : R s.mem) : OutKeeps R (fmOut code h f s) := by
  unfold fmOut; exact byStoreRules

@[simp] theorem State.assignId_mem {s h} : (State.assignId s h).2.mem = s.mem := by
  unfold State.assignId; exact State.mem_eq_of_keeps byStoreRules

theorem outKeeps_execAssignId {head s} (hs : R s.mem) : OutKeeps R (execAssignId head s) := by
  unfold execAssignId; exact byStoreRules

@[simp] theorem State.routeSet_mem {s h rows} : (State.routeSet s h rows).2.mem = s.mem := by
  unfold State.routeSet; exact State.mem_eq_of_keeps byStoreRules

theorem outKeeps_execRouteSet {head rows s} (hs : R s.mem) : OutKeeps R (execRouteSet head rows s) := by
  unfold execRouteSet; exact byStoreRules

@[simp] theorem State.linkKey_mem {s h key} : (State.linkKey s h key).2.mem = s.mem := by
  unfold State.linkKey; exact State.mem_eq_of_keeps byStoreRules

theorem outKeeps_execLinkKey {head key s} (hs : R s.mem) : OutKeeps R (execLinkKey head key s) := by
  unfold execLinkKey; exact byStoreRules

@[simp] theorem State.join_mem {s h} : (State.join s h).2.mem = s.mem := by
  unfold State.join; exact State.mem_eq_of_keeps byStoreRules

theorem outKeeps_execJoin {head s} (hs : R s.mem) : OutKeeps R (execJoin head s) := by
  unfold execJoin; exact byStoreRules

@[simp] theorem State.endRequests_mem {s p} : (State.endRequests s p).mem = s.mem := by
  unfold State.endRequests; exact State.mem_eq_of_keeps byStoreRules

@[simp] theorem State.dropLinesOf_mem {s id} : (State.dropLinesOf s id).mem = s.mem := by
  unfold State.dropLinesOf; exact State.mem_eq_of_keeps byStoreRules

@[simp] theorem State.teardown_mem {s h} : (State.teardown s h).2.mem = s.mem := by
  unfold State.teardown; exact State.mem_eq_of_keeps byStoreRules

theorem outKeeps_execTeardown {head s} (hs : R s.mem) : OutKeeps R (execTeardown head s) := by
  unfold execTeardown; exact byStoreRules

@[simp] theorem State.restoreId_mem {s h} : (State.restoreId s h).2.mem = s.mem := by
  unfold State.restoreId; exact State.mem_eq_of_keeps byStoreRules

theorem outKeeps_execRestore {head s} (hs : R s.mem) : OutKeeps R (execRestore head s) := by
  unfold execRestore; exact byStoreRules

@[simp] theorem State.leave_mem {s h} : (State.leave s h).2.mem = s.mem := by
  unfold State.leave; exact State.mem_eq_of_keeps byStoreRules

theorem outKeeps_execLeave {head s} (hs : R s.mem) : OutKeeps R (execLeave head s) := by
  unfold execLeave; exact byStoreRules

@[simp] theorem State.writeEventAck_mem {s v} : (State.writeEventAck s v).2.mem = s.mem := by
  unfold State.writeEventAck; exact State.mem_eq_of_keeps byStoreRules

theorem outKeeps_execFmEventAck {value s} (hs : R s.mem) : OutKeeps R (execFmEventAck value s) := by
  unfold execFmEventAck; exact byStoreRules

/-! #### The functions of Machine/Flash.lean -/

@[simp] theorem State.setStack_mem {s k x} : (State.setStack s k x).mem = s.mem := by
  unfold State.setStack; exact State.mem_eq_of_keeps byStoreRules

@[simp] theorem State.warnLife_mem {s k} : (State.warnLife s k).mem = s.mem := by
  unfold State.warnLife; exact State.mem_eq_of_keeps byStoreRules

theorem outKeeps_execFtlWriteAccept {write s} (hs : R s.mem) : OutKeeps R (execFtlWriteAccept write s) := by
  unfold execFtlWriteAccept; exact byStoreRules

theorem outKeeps_execFtlBufferFlush {stack page block s} (hs : R s.mem) : OutKeeps R (execFtlBufferFlush stack page block s) := by
  unfold execFtlBufferFlush; exact byStoreRules

theorem outKeeps_execGcRelocation {stack source target s} (hs : R s.mem) :
    OutKeeps R (execGcRelocation stack source target s) := by
  unfold execGcRelocation; exact byStoreRules

theorem outKeeps_execWearLevelMove {stack source target s} (hs : R s.mem) :
    OutKeeps R (execWearLevelMove stack source target s) := by
  unfold execWearLevelMove; exact byStoreRules

theorem outKeeps_execReadDisturbScan {stack block worstBits s} (hs : R s.mem) :
    OutKeeps R (execReadDisturbScan stack block worstBits s) := by
  unfold execReadDisturbScan; exact byStoreRules

theorem outKeeps_execPatrolScan {stack block worstBits s} (hs : R s.mem) :
    OutKeeps R (execPatrolScan stack block worstBits s) := by
  unfold execPatrolScan; exact byStoreRules

theorem outKeeps_execFtlReadDone {stack page block outcome s} (hs : Memory.Canonical s.mem)
    : OutKeeps Memory.Canonical (execFtlReadDone stack page block outcome s) := by
  unfold execFtlReadDone; exact byStoreRules

theorem outKeeps_execBlockRetire {stack block s} (hs : R s.mem) : OutKeeps R (execBlockRetire stack block s) := by
  unfold execBlockRetire; exact byStoreRules

theorem outKeeps_execExpanderFailure {decoder s} (hs : R s.mem) : OutKeeps R (execExpanderFailure decoder s) := by
  unfold execExpanderFailure; exact byStoreRules

/-! #### The functions of Machine/Index.lean -/

@[simp] theorem State.setIndex_mem {s id x} : (State.setIndex s id x).mem = s.mem := by
  unfold State.setIndex; exact State.mem_eq_of_keeps byStoreRules

@[simp] theorem keeps_indexNamed {sl} : Keeps R (indexNamed sl) := by
  unfold indexNamed; exact byStoreRules

@[simp] theorem keeps_writeEmptyHead {w x generation i} : Keeps Memory.Canonical (writeEmptyHead w x generation i) := by
  unfold writeEmptyHead; exact byStoreRules

@[simp] theorem keeps_execIndexCreate_keepMarks {n l} : Keeps R (execIndexCreate.keepMarks n l) := by
  unfold execIndexCreate.keepMarks; exact byStoreRules

theorem outKeeps_execIndexCreate {slot s} (hs : Memory.Canonical s.mem) : OutKeeps Memory.Canonical (execIndexCreate slot s) := by
  unfold execIndexCreate; exact byStoreRules

@[simp] theorem keeps_execIndexCreate.keepMarks {n l} : Keeps R (execIndexCreate.keepMarks n l) := by
  unfold execIndexCreate.keepMarks; exact byStoreRules

@[simp] theorem State.discardMerge_mem {s id x st} : (State.discardMerge s id x st).mem = s.mem := by
  unfold State.discardMerge; exact State.mem_eq_of_keeps byStoreRules

theorem outKeeps_execIndexDestroy {slot s} (hs : R s.mem) : OutKeeps R (execIndexDestroy slot s) := by
  unfold execIndexDestroy; exact byStoreRules

@[simp] theorem State.autoMerge_mem {s id} : (State.autoMerge s id).mem = s.mem := by
  unfold State.autoMerge; exact State.mem_eq_of_keeps byStoreRules

@[simp] theorem State.autoMergeAll_mem {s} : (State.autoMergeAll s).mem = s.mem := by
  unfold State.autoMergeAll; exact State.mem_eq_of_keeps byStoreRules

@[simp] theorem keeps_tombstoned {w x id} : Keeps R (tombstoned w x id) := by
  unfold tombstoned; exact byStoreRules

@[simp] theorem keeps_insertRecord {w n sl i} : Keeps Memory.Canonical (insertRecord w n sl i) := by
  unfold insertRecord; exact byStoreRules

@[simp] theorem keeps_insertBody {n sl} : Keeps Memory.Canonical (insertBody n sl) := by
  unfold insertBody; exact byStoreRules

theorem outKeeps_execInsert {slot s} (hs : Memory.Canonical s.mem) : OutKeeps Memory.Canonical (execInsert slot s) := by
  unfold execInsert; exact byStoreRules

theorem outKeeps_execSideListAppend {slot s} (hs : Memory.Canonical s.mem) :
    OutKeeps Memory.Canonical (execSideListAppend slot s) := by
  unfold execSideListAppend; exact byStoreRules

theorem outKeeps_execDelete {slot s} (hs : Memory.Canonical s.mem) : OutKeeps Memory.Canonical (execDelete slot s) := by
  unfold execDelete; exact byStoreRules

@[simp] theorem keeps_shadowTaken {n generation} : Keeps R (shadowTaken n generation) := by
  unfold shadowTaken; exact byStoreRules

theorem outKeeps_execMerge {slot s} (hs : R s.mem) : OutKeeps R (execMerge slot s) := by
  unfold execMerge; exact byStoreRules

theorem outKeeps_execMergeDiscard {slot s} (hs : R s.mem) : OutKeeps R (execMergeDiscard slot s) := by
  unfold execMergeDiscard; exact byStoreRules

@[simp] theorem keeps_chainIds {w x t b fuel va} : Keeps R (chainIds w x t b fuel va) := by
  induction fuel generalizing w x t b va with
  | zero => rw [chainIds]; exact byStoreRules
  | succ _ ih => rw [chainIds]; exact byStoreRules

@[simp] theorem keeps_tableIds {w x fuel b} : Keeps R (tableIds w x fuel b) := by
  induction fuel generalizing w x b with
  | zero => rw [tableIds]; exact byStoreRules
  | succ _ ih => rw [tableIds]; exact byStoreRules

@[simp] theorem keeps_sideIds {w x fuel pos} : Keeps R (sideIds w x fuel pos) := by
  induction fuel generalizing w x pos with
  | zero => rw [sideIds]; exact byStoreRules
  | succ _ ih => rw [sideIds]; exact byStoreRules

@[simp] theorem keeps_liveMembers {w x l} : Keeps R (liveMembers w x l) := by
  induction l generalizing w x with
  | nil => rw [liveMembers]; exact byStoreRules
  | cons _ _ ih => rw [liveMembers]; exact byStoreRules

@[simp] theorem keeps_writeBuckets {w x l} : Keeps Memory.Canonical (writeBuckets w x l) := by
  induction l generalizing w x with
  | nil => rw [writeBuckets]; exact byStoreRules
  | cons _ _ ih => rw [writeBuckets]; exact byStoreRules

@[simp] theorem keeps_writeChains {w x members fuel i ovf} : Keeps Memory.Canonical (writeChains w x members fuel i ovf) := by
  induction fuel generalizing w x members i ovf with
  | zero => rw [writeChains]; exact byStoreRules
  | succ _ ih => rw [writeChains]; exact byStoreRules

@[simp] theorem keeps_cleanEdges {w x id fuel i} : Keeps Memory.Canonical (cleanEdges w x id fuel i) := by
  induction fuel generalizing w x id i with
  | zero => rw [cleanEdges]; exact byStoreRules
  | succ _ ih => rw [cleanEdges]; exact byStoreRules

@[simp] theorem keeps_cleanAll {w x l} : Keeps Memory.Canonical (cleanAll w x l) := by
  induction l generalizing w x with
  | nil => rw [cleanAll]; exact byStoreRules
  | cons _ _ ih => rw [cleanAll]; exact byStoreRules

@[simp] theorem keeps_buildIndex {n x} : Keeps Memory.Canonical (buildIndex n x) := by
  unfold buildIndex; exact byStoreRules

theorem outKeeps_execMergeBuildStart {index s} (hs : Memory.Canonical s.mem) :
    OutKeeps Memory.Canonical (execMergeBuildStart index s) := by
  unfold execMergeBuildStart; exact byStoreRules

@[simp] theorem State.commitIndex_mem {s id x slot} : (State.commitIndex s id x slot).mem = s.mem := by
  unfold State.commitIndex; exact State.mem_eq_of_keeps byStoreRules

theorem outKeeps_execBuildDone {index s} (hs : R s.mem) : OutKeeps R (execBuildDone index s) := by
  unfold execBuildDone; exact byStoreRules

theorem outKeeps_execIndexCommit {slot s} (hs : R s.mem) : OutKeeps R (execIndexCommit slot s) := by
  unfold execIndexCommit; exact byStoreRules

/-! #### The functions of Machine/Scheduler.lean -/

@[simp] theorem State.setSchedPort_mem {s port p} : (State.setSchedPort s port p).mem = s.mem := by
  unfold State.setSchedPort; exact State.mem_eq_of_keeps byStoreRules

@[simp] theorem State.setStats_mem {s port q x} : (State.setStats s port q x).mem = s.mem := by
  unfold State.setStats; exact State.mem_eq_of_keeps byStoreRules

@[simp] theorem State.enterAll_mem {s port l} : (State.enterAll s port l).mem = s.mem := by
  unfold State.enterAll; exact State.mem_eq_of_keeps byStoreRules

@[simp] theorem State.arbitrate_mem {s port p eligible} : (State.arbitrate s port p eligible).mem = s.mem := by
  unfold State.arbitrate; exact State.mem_eq_of_keeps byStoreRules

@[simp] theorem State.countLimited_mem {s held} : (State.countLimited s held).mem = s.mem := by
  unfold State.countLimited; exact State.mem_eq_of_keeps byStoreRules

theorem outKeeps_execPortArbitration {port arrivals s} (hs : R s.mem) : OutKeeps R (execPortArbitration port arrivals s) := by
  unfold execPortArbitration; exact byStoreRules

@[simp] theorem State.rowsForWaiting_mem {s} : (State.rowsForWaiting s).mem = s.mem := by
  unfold State.rowsForWaiting; exact State.mem_eq_of_keeps byStoreRules

theorem outKeeps_execQueueSample {s} (hs : R s.mem) : OutKeeps R (execQueueSample s) := by
  unfold execQueueSample; exact byStoreRules

@[simp] theorem State.putTenants_mem {s first rows} : (State.putTenants s first rows).mem = s.mem := by
  unfold State.putTenants; exact State.mem_eq_of_keeps byStoreRules

@[simp] theorem State.writeTenants_mem {s first rows} : (State.writeTenants s first rows).2.mem = s.mem := by
  unfold State.writeTenants; exact State.mem_eq_of_keeps byStoreRules

theorem outKeeps_execTenantTable {tenant row s} (hs : R s.mem) : OutKeeps R (execTenantTable tenant row s) := by
  unfold execTenantTable; exact byStoreRules

@[simp] theorem State.onCredits_mem {s f} : (State.onCredits s f).mem = s.mem := by
  unfold State.onCredits; exact State.mem_eq_of_keeps byStoreRules

theorem State.putLimit_mem {s r t} (h : State.putLimit s r = some t) : t.mem = s.mem := by
  unfold State.putLimit at h
  dsimp only at h
  split at h
  · cases h; simp
  · split at h
    · cases h; simp
    · split at h
      · cases h
      · cases h; rfl

@[simp] theorem State.writeLimits_mem {s rows} : (State.writeLimits s rows).2.mem = s.mem := by
  have hfold : ∀ (rows : List (BitVec 128)) (s t : State), rows.foldlM State.putLimit s = some t → t.mem = s.mem := by
    intro rows
    induction rows with
    | nil => intro s t h; cases h; rfl
    | cons r rows ih =>
      intro s t h
      obtain ⟨u, hu, ht⟩ := Option.bind_eq_some_iff.1 h
      exact (ih u t ht).trans (State.putLimit_mem hu)
  unfold State.writeLimits
  split
  · rfl
  · split
    · rfl
    · split
      · rename_i h; simp [hfold _ _ _ h]
      · rfl

theorem outKeeps_execLimitTable {row s} (hs : R s.mem) : OutKeeps R (execLimitTable row s) := by
  unfold execLimitTable; exact byStoreRules

@[simp] theorem State.clearStats_mem {s tenants} : (State.clearStats s tenants).mem = s.mem := by
  unfold State.clearStats; exact State.mem_eq_of_keeps byStoreRules

@[simp] theorem State.writeStatsClear_mem {s v} : (State.writeStatsClear s v).2.mem = s.mem := by
  unfold State.writeStatsClear; exact State.mem_eq_of_keeps byStoreRules

theorem outKeeps_execSchedStatsClear {value s} (hs : R s.mem) : OutKeeps R (execSchedStatsClear value s) := by
  unfold execSchedStatsClear; exact byStoreRules

/-! #### The functions of Machine/Entries.lean -/

@[simp] theorem State.setLive_mem {s key v} : (State.setLive s key v).mem = s.mem := by
  unfold State.setLive; exact State.mem_eq_of_keeps byStoreRules

@[simp] theorem State.logRejected_mem {s} : (State.logRejected s).mem = s.mem := by
  unfold State.logRejected; exact State.mem_eq_of_keeps byStoreRules

theorem State.applied_keeps {s r} (hs : R s.mem) (hr : R r.2.mem) : R (State.applied s r).mem := by
  unfold State.applied; exact byStoreRules

@[simp] theorem State.applyAgents_mem {s p} : (State.applyAgents s p).mem = s.mem := by
  unfold State.applyAgents; exact State.mem_eq_of_keeps byStoreRules

@[simp] theorem State.applyRow_mem {s p r} : (State.applyRow s p r).mem = s.mem := by
  unfold State.applyRow; exact State.mem_eq_of_keeps byStoreRules

@[simp] theorem State.applyProfile_mem {s} : (State.applyProfile s).mem = s.mem := by
  unfold State.applyProfile; exact State.mem_eq_of_keeps byStoreRules

@[simp] theorem State.selectProfile_mem {s p} : (State.selectProfile s p).mem = s.mem := by
  unfold State.selectProfile; exact State.mem_eq_of_keeps byStoreRules

@[simp] theorem State.loadProfile_mem {s} : (State.loadProfile s).mem = s.mem := by
  unfold State.loadProfile; exact State.mem_eq_of_keeps byStoreRules

/-! #### The functions of Machine/Security.lean -/

theorem outKeeps_execAttest {slot s} (hs : Memory.Canonical s.mem) : OutKeeps Memory.Canonical (execAttest slot s) := by
  unfold execAttest; exact byStoreRules

@[simp] theorem State.setKey_mem {s slot t k} : (State.setKey s slot t k).mem = s.mem := by
  unfold State.setKey; exact State.mem_eq_of_keeps byStoreRules

theorem outKeeps_execKeyInstall {slot s} (hs : Memory.Canonical s.mem) : OutKeeps Memory.Canonical (execKeyInstall slot s) := by
  unfold execKeyInstall; exact byStoreRules

theorem outKeeps_execKeyDestroy {slot s} (hs : R s.mem) : OutKeeps R (execKeyDestroy slot s) := by
  unfold execKeyDestroy; exact byStoreRules

@[simp] theorem State.setStaged_mem {s x} : (State.setStaged s x).mem = s.mem := by
  unfold State.setStaged; exact State.mem_eq_of_keeps byStoreRules

@[simp] theorem State.writeStage_mem {s offset chunk} : (State.writeStage s offset chunk).2.mem = s.mem := by
  unfold State.writeStage; exact State.mem_eq_of_keeps byStoreRules

theorem outKeeps_execFwStage {offset chunk s} (hs : R s.mem) : OutKeeps R (execFwStage offset chunk s) := by
  unfold execFwStage; exact byStoreRules

@[simp] theorem State.writeCommit_mem {s advance} : (State.writeCommit s advance).2.1.mem = s.mem := by
  unfold State.writeCommit; exact State.mem_eq_of_keeps byStoreRules

@[simp] theorem State.commitWrite_canonical {s advance} (hs : Memory.Canonical s.mem) :
    Memory.Canonical (State.commitWrite s advance).mem := by
  unfold State.commitWrite
  have h := @State.writeCommit_mem s advance
  split
  · exact hs
  · split <;> simp_all

theorem outKeeps_execFwCommit {s} (hs : Memory.Canonical s.mem) : OutKeeps Memory.Canonical (execFwCommit s) := by
  unfold execFwCommit; exact byStoreRules

theorem outKeeps_execFwCommitAdvance {s} (hs : Memory.Canonical s.mem) : OutKeeps Memory.Canonical (execFwCommitAdvance s) := by
  unfold execFwCommitAdvance; exact byStoreRules

@[simp] theorem State.writeRevoke_mem {s mask} : (State.writeRevoke s mask).2.mem = s.mem := by
  unfold State.writeRevoke; exact State.mem_eq_of_keeps byStoreRules

theorem outKeeps_execKeyRevoke {mask s} (hs : R s.mem) : OutKeeps R (execKeyRevoke mask s) := by
  unfold execKeyRevoke; exact byStoreRules

@[simp] theorem State.writeExtend_mem {s index digest} : (State.writeExtend s index digest).2.mem = s.mem := by
  unfold State.writeExtend; exact State.mem_eq_of_keeps byStoreRules

theorem outKeeps_execMrExtend {index digest s} (hs : R s.mem) : OutKeeps R (execMrExtend index digest s) := by
  unfold execMrExtend; exact byStoreRules

/-! #### The functions of Machine/Takeover.lean -/

@[simp] theorem State.poisonExtent_mem {s e} : (State.poisonExtent s e).mem = s.mem := by
  unfold State.poisonExtent; exact State.mem_eq_of_keeps byStoreRules

@[simp] theorem State.takeMirror_canonical {s a e x} (hs : Memory.Canonical s.mem) :
    Memory.Canonical (State.takeMirror s a e x).mem := by
  unfold State.takeMirror; exact byStoreRules

@[simp] theorem State.mirrorFor_canonical {s e x} (hs : Memory.Canonical s.mem) :
    Memory.Canonical (State.mirrorFor s e x).mem := by
  unfold State.mirrorFor; exact byStoreRules

@[simp] theorem State.dropMirrors_canonical {s m} (hs : Memory.Canonical s.mem) :
    Memory.Canonical (State.dropMirrors s m).mem := by
  unfold State.dropMirrors; exact byStoreRules

@[simp] theorem State.learnMirrors_mem {s m} : (State.learnMirrors s m).mem = s.mem := by
  unfold State.learnMirrors; exact State.mem_eq_of_keeps byStoreRules

@[simp] theorem State.contextMirrors_mem {s m} : (State.contextMirrors s m).mem = s.mem := by
  unfold State.contextMirrors; exact State.mem_eq_of_keeps byStoreRules

@[simp] theorem State.holdMeta_canonical {s m} (hs : Memory.Canonical s.mem) : Memory.Canonical (State.holdMeta s m).mem := by
  unfold State.holdMeta; exact byStoreRules

@[simp] theorem State.loseExtent_mem {s e} : (State.loseExtent s e).mem = s.mem := by
  unfold State.loseExtent; exact State.mem_eq_of_keeps byStoreRules

@[simp] theorem State.restoreMeta_mem {s m} : (State.restoreMeta s m).mem = s.mem := by
  unfold State.restoreMeta; exact State.mem_eq_of_keeps byStoreRules

@[simp] theorem State.restoreRings_mem {s m} : (State.restoreRings s m).mem = s.mem := by
  unfold State.restoreRings; exact State.mem_eq_of_keeps byStoreRules

@[simp] theorem State.admitted_mem {s m} : (State.admitted s m).mem = s.mem := by
  unfold State.admitted; exact State.mem_eq_of_keeps byStoreRules

@[simp] theorem State.learnJoiner_mem {s m} : (State.learnJoiner s m).mem = s.mem := by
  unfold State.learnJoiner; exact State.mem_eq_of_keeps byStoreRules

@[simp] theorem State.takeMeta_canonical {s m} (hs : Memory.Canonical s.mem) : Memory.Canonical (State.takeMeta s m).mem := by
  unfold State.takeMeta; exact byStoreRules

@[simp] theorem State.applyMirrorLine_canonical {s line data mask bad} (hs : Memory.Canonical s.mem) :
    Memory.Canonical (State.applyMirrorLine s line data mask bad).mem := by
  unfold State.applyMirrorLine; exact byStoreRules

@[simp] theorem State.applyRecordLines_canonical {s r} (hs : Memory.Canonical s.mem) :
    Memory.Canonical (State.applyRecordLines s r).mem := by
  unfold State.applyRecordLines; exact byStoreRules

@[simp] theorem State.applyCheckpoint_canonical {s k e bytes bad} (hs : Memory.Canonical s.mem) :
    Memory.Canonical (State.applyCheckpoint s k e bytes bad).mem := by
  unfold State.applyCheckpoint; exact byStoreRules

@[simp] theorem State.peerCopied_mem {s} : (State.peerCopied s).mem = s.mem := by
  unfold State.peerCopied; exact State.mem_eq_of_keeps byStoreRules

@[simp] theorem State.applyNote_canonical {s n} (hs : Memory.Canonical s.mem) : Memory.Canonical (State.applyNote s n).mem := by
  unfold State.applyNote; exact byStoreRules

@[simp] theorem State.applyRecord_canonical {s r} (hs : Memory.Canonical s.mem) :
    Memory.Canonical (State.applyRecord s r).mem := by
  unfold State.applyRecord; exact byStoreRules

@[simp] theorem State.applyReceived_canonical {s fuel} (hs : Memory.Canonical s.mem) :
    Memory.Canonical (State.applyReceived s fuel).mem := by
  induction fuel generalizing s with
  | zero => rw [State.applyReceived]; exact byStoreRules
  | succ _ ih => rw [State.applyReceived]; exact byStoreRules

@[simp] theorem State.poisonSummary_mem {s} : (State.poisonSummary s).mem = s.mem := by
  unfold State.poisonSummary; exact State.mem_eq_of_keeps byStoreRules

@[simp] theorem State.takeTranslation_mem {s x m} : (State.takeTranslation s x m).mem = s.mem := by
  unfold State.takeTranslation; exact State.mem_eq_of_keeps byStoreRules

@[simp] theorem State.takeRings_mem {s m} : (State.takeRings s m).mem = s.mem := by
  unfold State.takeRings; exact State.mem_eq_of_keeps byStoreRules

@[simp] theorem State.takeObjects_mem {s m} : (State.takeObjects s m).mem = s.mem := by
  unfold State.takeObjects; exact State.mem_eq_of_keeps byStoreRules

@[simp] theorem State.takeEntry_mem {s k e} : (State.takeEntry s k e).mem = s.mem := by
  unfold State.takeEntry; exact State.mem_eq_of_keeps byStoreRules

@[simp] theorem State.takeFetched_mem {s m f} : (State.takeFetched s m f).mem = s.mem := by
  unfold State.takeFetched; exact State.mem_eq_of_keeps byStoreRules

@[simp] theorem State.resumeRevocation_mem {s e x} : (State.resumeRevocation s e x).mem = s.mem := by
  unfold State.resumeRevocation; exact State.mem_eq_of_keeps byStoreRules

@[simp] theorem State.takeCommands_canonical {s m} (hs : Memory.Canonical s.mem) :
    Memory.Canonical (State.takeCommands s m).mem := by
  unfold State.takeCommands; exact byStoreRules

@[simp] theorem State.settleRemote_canonical {s x} (hs : Memory.Canonical s.mem) :
    Memory.Canonical (State.settleRemote s x).mem := by
  unfold State.settleRemote; exact byStoreRules

@[simp] theorem State.promote_canonical {s} (hs : Memory.Canonical s.mem) : Memory.Canonical (State.promote s).mem := by
  unfold State.promote; exact byStoreRules

@[simp] theorem State.keepContexts_mem {s} : (State.keepContexts s).mem = s.mem := by
  unfold State.keepContexts; exact State.mem_eq_of_keeps byStoreRules

@[simp] theorem State.dropTwin_mem {s} : (State.dropTwin s).mem = s.mem := by
  unfold State.dropTwin; exact State.mem_eq_of_keeps byStoreRules

/-! #### The functions of Machine/BringUp.lean -/

@[simp] theorem State.clearMemory_canonical {s} (hs : Memory.Canonical s.mem) : Memory.Canonical (State.clearMemory s).mem :=
  Memory.wf_filter s.mem _ hs

@[simp] theorem State.clearEngines_mem {s} : (State.clearEngines s).mem = s.mem := by
  unfold State.clearEngines; exact State.mem_eq_of_keeps byStoreRules

@[simp] theorem State.clearVolatile_canonical {s} (hs : Memory.Canonical s.mem) :
    Memory.Canonical (State.clearVolatile s).mem := by
  unfold State.clearVolatile; exact byStoreRules

@[simp] theorem State.clearCold_canonical {s} (hs : Memory.Canonical s.mem) : Memory.Canonical (State.clearCold s).mem := by
  unfold State.clearCold; exact byStoreRules

@[simp] theorem State.stageRow_mem {s k failed} : (State.stageRow s k failed).mem = s.mem := by
  unfold State.stageRow; exact State.mem_eq_of_keeps byStoreRules

@[simp] theorem State.enter_mem {s d} : (State.enter s d).mem = s.mem := by
  unfold State.enter; exact State.mem_eq_of_keeps byStoreRules

@[simp] theorem State.failStage_mem {s k unit} : (State.failStage s k unit).mem = s.mem := by
  unfold State.failStage; exact State.mem_eq_of_keeps byStoreRules

@[simp] theorem State.chooseImage_mem {s} : (State.chooseImage s).mem = s.mem := by
  unfold State.chooseImage; exact State.mem_eq_of_keeps byStoreRules

@[simp] theorem State.finishBoot_mem {s} : (State.finishBoot s).mem = s.mem := by
  unfold State.finishBoot; exact State.mem_eq_of_keeps byStoreRules

@[simp] theorem State.endBoot_mem {s r} : (State.endBoot s r).mem = s.mem := by
  unfold State.endBoot; exact State.mem_eq_of_keeps byStoreRules

@[simp] theorem State.listExtents_mem {s l} : (State.listExtents s l).mem = s.mem := by
  unfold State.listExtents; exact State.mem_eq_of_keeps byStoreRules

@[simp] theorem State.addExpander_mem {s x} : (State.addExpander s x).mem = s.mem := by
  unfold State.addExpander; exact State.mem_eq_of_keeps byStoreRules

@[simp] theorem State.endCalibration_mem {s r} : (State.endCalibration s r).mem = s.mem := by
  unfold State.endCalibration; exact State.mem_eq_of_keeps byStoreRules

@[simp] theorem State.populate_mem {s} : (State.populate s).mem = s.mem := by
  unfold State.populate; exact State.mem_eq_of_keeps byStoreRules

@[simp] theorem State.blankMetadata_mem {s} : (State.blankMetadata s).mem = s.mem := by
  unfold State.blankMetadata; exact State.mem_eq_of_keeps byStoreRules

@[simp] theorem State.replayed_mem {s} : (State.replayed s).mem = s.mem := by
  unfold State.replayed; exact State.mem_eq_of_keeps byStoreRules

@[simp] theorem State.resumeRevocations_mem {s} : (State.resumeRevocations s).mem = s.mem := by
  unfold State.resumeRevocations; exact State.mem_eq_of_keeps byStoreRules

@[simp] theorem State.takeManagement_mem {s} : (State.takeManagement s).mem = s.mem := by
  unfold State.takeManagement; exact State.mem_eq_of_keeps byStoreRules

@[simp] theorem State.reserve_mem {s} : (State.reserve s).mem = s.mem := by
  unfold State.reserve; exact State.mem_eq_of_keeps byStoreRules

@[simp] theorem State.endMemory_mem {s r} : (State.endMemory s r).mem = s.mem := by
  unfold State.endMemory; exact State.mem_eq_of_keeps byStoreRules

@[simp] theorem State.chooseSpares_mem {s failing} : (State.chooseSpares s failing).mem = s.mem := by
  unfold State.chooseSpares; exact State.mem_eq_of_keeps byStoreRules

@[simp] theorem State.goReady_canonical {s} (hs : Memory.Canonical s.mem) : Memory.Canonical (State.goReady s).mem := by
  unfold State.goReady; exact byStoreRules

@[simp] theorem State.endStage_canonical {s r} (hs : Memory.Canonical s.mem) : Memory.Canonical (State.endStage s r).mem := by
  unfold State.endStage; exact byStoreRules

/-! #### The functions of Machine/Resilience.lean -/

theorem outKeeps_execKatPeriod {s} (hs : R s.mem) : OutKeeps R (execKatPeriod s) := by
  unfold execKatPeriod; exact byStoreRules

theorem outKeeps_execKatDone {core pass s} (hs : R s.mem) : OutKeeps R (execKatDone core pass s) := by
  unfold execKatDone; exact byStoreRules

theorem outKeeps_execMgmtWatchdogExpiry {s} (hs : Memory.Canonical s.mem) :
    OutKeeps Memory.Canonical (execMgmtWatchdogExpiry s) := by
  unfold execMgmtWatchdogExpiry; exact byStoreRules

theorem outKeeps_execFirmwareRestartDone {s} (hs : Memory.Canonical s.mem) :
    OutKeeps Memory.Canonical (execFirmwareRestartDone s) := by
  unfold execFirmwareRestartDone; exact byStoreRules

/-! #### The functions of Machine/Translation.lean -/

@[simp] theorem keeps_writeFaults {asid ring tail l} : Keeps Memory.Canonical (writeFaults asid ring tail l) := by
  induction l generalizing asid ring tail with
  | nil => rw [writeFaults]; exact byStoreRules
  | cons _ _ ih => rw [writeFaults]; exact byStoreRules

@[simp] theorem keeps_writeBatch {b} : Keeps Memory.Canonical (writeBatch b) := by
  unfold writeBatch; exact byStoreRules

@[simp] theorem State.setOverflow_canonical {s held} (hs : Memory.Canonical s.mem) :
    Memory.Canonical (State.setOverflow s held).mem := by
  unfold State.setOverflow; exact byStoreRules

@[simp] theorem State.writeBatches_canonical {s fuel} (hs : Memory.Canonical s.mem) :
    Memory.Canonical (State.writeBatches s fuel).mem := by
  induction fuel generalizing s with
  | zero => rw [State.writeBatches]; exact byStoreRules
  | succ _ ih => rw [State.writeBatches]; exact byStoreRules

@[simp] theorem State.retryBatches_canonical {s} (hs : Memory.Canonical s.mem) : Memory.Canonical (State.retryBatches s).mem := by
  unfold State.retryBatches; exact byStoreRules

theorem outKeeps_execFaultBatchClose {s} (hs : Memory.Canonical s.mem) : OutKeeps Memory.Canonical (execFaultBatchClose s) := by
  unfold execFaultBatchClose; exact byStoreRules

theorem outKeeps_execFaultBatchRetry {s} (hs : Memory.Canonical s.mem) : OutKeeps Memory.Canonical (execFaultBatchRetry s) := by
  unfold execFaultBatchRetry; exact byStoreRules

@[simp] theorem State.writeFaultRing_canonical {s sub v} (hs : Memory.Canonical s.mem) :
    Memory.Canonical (State.writeFaultRing s sub v).2.mem := by
  unfold State.writeFaultRing; exact byStoreRules

theorem outKeeps_execFaultRingVa {sub value s} (hs : Memory.Canonical s.mem) :
    OutKeeps Memory.Canonical (execFaultRingVa sub value s) := by
  unfold execFaultRingVa; exact byStoreRules

@[simp] theorem State.failWaiter_canonical {s f w} (hs : Memory.Canonical s.mem) :
    Memory.Canonical (State.failWaiter s f w).mem := by
  unfold State.failWaiter; exact byStoreRules

@[simp] theorem State.resolveRecord_canonical {s f fail} (hs : Memory.Canonical s.mem) :
    Memory.Canonical (State.resolveRecord s f fail).mem := by
  unfold State.resolveRecord; exact byStoreRules

theorem outKeeps_execResolveFaults {slot s} (hs : Memory.Canonical s.mem) :
    OutKeeps Memory.Canonical (execResolveFaults slot s) := by
  unfold execResolveFaults; exact byStoreRules

theorem outKeeps_execInvalidateAsid {slot s} (hs : R s.mem) : OutKeeps R (execInvalidateAsid slot s) := by
  unfold execInvalidateAsid; exact byStoreRules

theorem outKeeps_execConvertPointers {slot s} (hs : Memory.Canonical s.mem) :
    OutKeeps Memory.Canonical (execConvertPointers slot s) := by
  unfold execConvertPointers; exact byStoreRules

@[simp] theorem State.setAsid_mem {s n slot a} : (State.setAsid s n slot a).mem = s.mem := by
  unfold State.setAsid; exact State.mem_eq_of_keeps byStoreRules

theorem outKeeps_execAsidCreate {slot s} (hs : R s.mem) : OutKeeps R (execAsidCreate slot s) := by
  unfold execAsidCreate; exact byStoreRules

theorem outKeeps_execAsidSetWindow {slot s} (hs : R s.mem) : OutKeeps R (execAsidSetWindow slot s) := by
  unfold execAsidSetWindow; exact byStoreRules

theorem outKeeps_execAsidDestroy {slot s} (hs : R s.mem) : OutKeeps R (execAsidDestroy slot s) := by
  unfold execAsidDestroy; exact byStoreRules

/-! #### The functions of Machine/Power.lean -/

@[simp] theorem State.coldReset_canonical {s cause} (hs : Memory.Canonical s.mem) :
    Memory.Canonical (State.coldReset s cause).mem := by
  unfold State.coldReset; exact byStoreRules

@[simp] theorem State.warmReset_canonical {s cause} (hs : Memory.Canonical s.mem) :
    Memory.Canonical (State.warmReset s cause).mem := by
  unfold State.warmReset; exact byStoreRules

@[simp] theorem State.resetNow_canonical {s cold cause} (hs : Memory.Canonical s.mem) :
    Memory.Canonical (State.resetNow s cold cause).mem := by
  unfold State.resetNow; exact byStoreRules

@[simp] theorem State.startReset_canonical {s cold cause} (hs : Memory.Canonical s.mem) :
    Memory.Canonical (State.startReset s cold cause).mem := by
  unfold State.startReset; exact byStoreRules

@[simp] theorem State.requestReset_canonical {s cold cause hot} (hs : Memory.Canonical s.mem) :
    Memory.Canonical (State.requestReset s cold cause hot).2.mem := by
  unfold State.requestReset; exact byStoreRules

theorem outKeeps_execColdResetRequest {hot s} (hs : Memory.Canonical s.mem) :
    OutKeeps Memory.Canonical (execColdResetRequest hot s) := by
  unfold execColdResetRequest; exact byStoreRules

theorem outKeeps_execWarmResetRequest {hot s} (hs : Memory.Canonical s.mem) :
    OutKeeps Memory.Canonical (execWarmResetRequest hot s) := by
  unfold execWarmResetRequest; exact byStoreRules

theorem outKeeps_execAnnounceWaitEnd {s} (hs : Memory.Canonical s.mem) : OutKeeps Memory.Canonical (execAnnounceWaitEnd s) := by
  unfold execAnnounceWaitEnd; exact byStoreRules

theorem outKeeps_execResetN {level hot s} (hs : Memory.Canonical s.mem) : OutKeeps Memory.Canonical (execResetN level hot s) := by
  unfold execResetN; exact byStoreRules

theorem outKeeps_execInputPowerUp {s} (hs : R s.mem) : OutKeeps R (execInputPowerUp s) := by
  unfold execInputPowerUp; exact byStoreRules

theorem outKeeps_execRailTimeout {rail s} (hs : R s.mem) : OutKeeps R (execRailTimeout rail s) := by
  unfold execRailTimeout; exact byStoreRules

theorem outKeeps_execPowerGood {prof s} (hs : R s.mem) : OutKeeps R (execPowerGood prof s) := by
  unfold execPowerGood; exact byStoreRules

theorem outKeeps_execStageEnd {result s} (hs : Memory.Canonical s.mem) : OutKeeps Memory.Canonical (execStageEnd result s) := by
  unfold execStageEnd; exact byStoreRules

@[simp] theorem State.holdUp_canonical {s} (hs : Memory.Canonical s.mem) : Memory.Canonical (State.holdUp s).mem := by
  unfold State.holdUp; exact byStoreRules

theorem outKeeps_execLossOfInput {s} (hs : Memory.Canonical s.mem) : OutKeeps Memory.Canonical (execLossOfInput s) := by
  unfold execLossOfInput; exact byStoreRules

theorem outKeeps_execThermalTrip {sensor s} (hs : Memory.Canonical s.mem) :
    OutKeeps Memory.Canonical (execThermalTrip sensor s) := by
  unfold execThermalTrip; exact byStoreRules

theorem outKeeps_execHoldupFlushDone {blocks s} (hs : R s.mem) : OutKeeps R (execHoldupFlushDone blocks s) := by
  unfold execHoldupFlushDone; exact byStoreRules

theorem outKeeps_execRefclkLoss {s} (hs : R s.mem) : OutKeeps R (execRefclkLoss s) := by
  unfold execRefclkLoss; exact byStoreRules

theorem outKeeps_execModuleLoss {site module s} (hs : R s.mem) : OutKeeps R (execModuleLoss site module s) := by
  unfold execModuleLoss; exact byStoreRules

@[simp] theorem State.releaseFaults_canonical {s t} (hs : Memory.Canonical s.mem) :
    Memory.Canonical (State.releaseFaults s t).mem := by
  unfold State.releaseFaults; exact byStoreRules

@[simp] theorem State.endLong_canonical {s t} (hs : Memory.Canonical s.mem) : Memory.Canonical (State.endLong s t).mem := by
  unfold State.endLong; exact byStoreRules

@[simp] theorem State.tenantReset_canonical {s t} (hs : Memory.Canonical s.mem) :
    Memory.Canonical (State.tenantReset s t).2.mem := by
  unfold State.tenantReset; exact byStoreRules

theorem outKeeps_execTenantReset {tenant s} (hs : Memory.Canonical s.mem) :
    OutKeeps Memory.Canonical (execTenantReset tenant s) := by
  unfold execTenantReset; exact byStoreRules

@[simp] theorem State.releasePins_mem {s t} : (State.releasePins s t).mem = s.mem := by
  unfold State.releasePins; exact State.mem_eq_of_keeps byStoreRules

theorem outKeeps_execTenantResetComplete {s} (hs : R s.mem) : OutKeeps R (execTenantResetComplete s) := by
  unfold execTenantResetComplete; exact byStoreRules

@[simp] theorem State.coreReset_canonical {s n} (hs : Memory.Canonical s.mem) : Memory.Canonical (State.coreReset s n).2.mem := by
  unfold State.coreReset; exact byStoreRules

theorem outKeeps_execCoreReset {core s} (hs : Memory.Canonical s.mem) : OutKeeps Memory.Canonical (execCoreReset core s) := by
  unfold execCoreReset; exact byStoreRules

@[simp] theorem State.switchProfile_mem {s p} : (State.switchProfile s p).2.mem = s.mem := by
  unfold State.switchProfile; exact State.mem_eq_of_keeps byStoreRules

theorem outKeeps_execProfileSelect {profile s} (hs : R s.mem) : OutKeeps R (execProfileSelect profile s) := by
  unfold execProfileSelect; exact byStoreRules

@[simp] theorem State.switchReset_canonical {s v hot} (hs : Memory.Canonical s.mem) :
    Memory.Canonical (State.switchReset s v hot).2.mem := by
  unfold State.switchReset; exact byStoreRules

theorem outKeeps_execProfileSelectReset {profile hot s} (hs : Memory.Canonical s.mem)
    : OutKeeps Memory.Canonical (execProfileSelectReset profile hot s) := by
  unfold execProfileSelectReset; exact byStoreRules

@[simp] theorem State.copyProfile_mem {s v} : (State.copyProfile s v).2.mem = s.mem := by
  unfold State.copyProfile; exact State.mem_eq_of_keeps byStoreRules

theorem outKeeps_execProfileCopy {value s} (hs : R s.mem) : OutKeeps R (execProfileCopy value s) := by
  unfold execProfileCopy; exact byStoreRules

@[simp] theorem State.powerRequest_mem {s v} : (State.powerRequest s v).2.mem = s.mem := by
  unfold State.powerRequest; exact State.mem_eq_of_keeps byStoreRules

theorem outKeeps_execPowerRequestActive {s} (hs : R s.mem) : OutKeeps R (execPowerRequestActive s) := by
  unfold execPowerRequestActive; exact byStoreRules

theorem outKeeps_execPowerRequestDrowsy {s} (hs : R s.mem) : OutKeeps R (execPowerRequestDrowsy s) := by
  unfold execPowerRequestDrowsy; exact byStoreRules

theorem outKeeps_execPowerRequestDormant {s} (hs : R s.mem) : OutKeeps R (execPowerRequestDormant s) := by
  unfold execPowerRequestDormant; exact byStoreRules

theorem outKeeps_execDrowsyIdleExpiry {s} (hs : R s.mem) : OutKeeps R (execDrowsyIdleExpiry s) := by
  unfold execDrowsyIdleExpiry; exact byStoreRules

theorem outKeeps_execPowerStateEntry {s} (hs : R s.mem) : OutKeeps R (execPowerStateEntry s) := by
  unfold execPowerStateEntry; exact byStoreRules

theorem outKeeps_execWakeComplete {s} (hs : Memory.Canonical s.mem) : OutKeeps Memory.Canonical (execWakeComplete s) := by
  unfold execWakeComplete; exact byStoreRules

/-! #### The functions of Machine/Management.lean -/

@[simp] theorem State.noteRead_mem {s entry sub first n} : (State.noteRead s entry sub first n).mem = s.mem := by
  unfold State.noteRead; exact State.mem_eq_of_keeps byStoreRules

@[simp] theorem State.readRows_mem {s entry sub first rows} : (State.readRows s entry sub first rows).2.mem = s.mem := by
  unfold State.readRows; exact State.mem_eq_of_keeps byStoreRules

@[simp] theorem State.writeFm_mem {s bs} : (State.writeFm s bs).2.mem = s.mem := by
  unfold State.writeFm; exact State.mem_eq_of_keeps byStoreRules

@[simp] theorem State.writeNumber_canonical {s r sub v} (hs : Memory.Canonical s.mem) :
    Memory.Canonical (State.writeNumber s r sub v).2.mem := by
  unfold State.writeNumber
  dsimp only
  repeat' with_reducible refine State.keeps_ite_snd ?_ ?_
  all_goals exact byStoreRules

@[simp] theorem State.writeBlob_mem {s entry sub bs} : (State.writeBlob s entry sub bs).2.mem = s.mem := by
  unfold State.writeBlob; exact State.mem_eq_of_keeps byStoreRules

theorem orRefused_keeps {s r} (hs : R s.mem) (hr : R r.2.mem) : R (orRefused s r).2.mem := by
  unfold orRefused; exact byStoreRules

@[simp] theorem State.writeEntry_canonical {s entry sub bs} (hs : Memory.Canonical s.mem) :
    Memory.Canonical (State.writeEntry s entry sub bs).2.mem := by
  unfold State.writeEntry; exact byStoreRules

@[simp] theorem State.writeFlags_mem {s key first bs} : (State.writeFlags s key first bs).2.mem = s.mem := by
  unfold State.writeFlags; exact State.mem_eq_of_keeps byStoreRules

@[simp] theorem State.writeRows_mem {s entry sub first rows bs} : (State.writeRows s entry sub first rows bs).2.mem = s.mem := by
  unfold State.writeRows; exact State.mem_eq_of_keeps byStoreRules

@[simp] theorem State.perform_canonical {s h value} (hs : Memory.Canonical s.mem) :
    Memory.Canonical (State.perform s h value).2.mem := by
  unfold State.perform; exact byStoreRules

@[simp] theorem State.request_canonical {s h value} (hs : Memory.Canonical s.mem) :
    Memory.Canonical (State.request s h value).mem := by
  unfold State.request; exact byStoreRules

theorem outKeeps_execRead {entry sub s} (hs : Memory.Canonical s.mem) : OutKeeps Memory.Canonical (execRead entry sub s) := by
  unfold execRead; exact byStoreRules

theorem outKeeps_execWrite {entry sub value s} (hs : Memory.Canonical s.mem) :
    OutKeeps Memory.Canonical (execWrite entry sub value s) := by
  unfold execWrite; exact byStoreRules

theorem outKeeps_execReadRows {entry sub first rows s} (hs : Memory.Canonical s.mem) :
    OutKeeps Memory.Canonical (execReadRows entry sub first rows s) := by
  unfold execReadRows; exact byStoreRules

theorem outKeeps_execWriteRows {entry sub first rows value s} (hs : Memory.Canonical s.mem)
    : OutKeeps Memory.Canonical (execWriteRows entry sub first rows value s) := by
  unfold execWriteRows; exact byStoreRules

theorem outKeeps_execDescribe {entry sub s} (hs : Memory.Canonical s.mem) :
    OutKeeps Memory.Canonical (execDescribe entry sub s) := by
  unfold execDescribe; exact byStoreRules

theorem outKeeps_execNextEntry {entry sub s} (hs : Memory.Canonical s.mem) :
    OutKeeps Memory.Canonical (execNextEntry entry sub s) := by
  unfold execNextEntry; exact byStoreRules

@[simp] theorem State.frameBad_mem {s} : (State.frameBad s).mem = s.mem := by
  unfold State.frameBad; exact State.mem_eq_of_keeps byStoreRules

@[simp] theorem State.hear_mem {s source} : (State.hear s source).mem = s.mem := by
  unfold State.hear; exact State.mem_eq_of_keeps byStoreRules

@[simp] theorem State.updSource_mem {s source f} : (State.updSource s source f).mem = s.mem := by
  unfold State.updSource; exact State.mem_eq_of_keeps byStoreRules

@[simp] theorem State.takeMessage_canonical {s source head msg} (hs : Memory.Canonical s.mem) :
    Memory.Canonical (State.takeMessage s source head msg).mem := by
  unfold State.takeMessage; exact byStoreRules

@[simp] theorem State.takeFragment_canonical {s source head body} (hs : Memory.Canonical s.mem) :
    Memory.Canonical (State.takeFragment s source head body).mem := by
  unfold State.takeFragment; exact byStoreRules

@[simp] theorem State.discovered_mem {s source reqId} : (State.discovered s source reqId).mem = s.mem := by
  unfold State.discovered; exact State.mem_eq_of_keeps byStoreRules

theorem outKeeps_execMgmtFrame {frame s} (hs : Memory.Canonical s.mem) : OutKeeps Memory.Canonical (execMgmtFrame frame s) := by
  unfold execMgmtFrame; exact byStoreRules

theorem outKeeps_execReassemblyTimeout {source s} (hs : R s.mem) : OutKeeps R (execReassemblyTimeout source s) := by
  unfold execReassemblyTimeout; exact byStoreRules

theorem outKeeps_execDiscover {source reqId s} (hs : R s.mem) : OutKeeps R (execDiscover source reqId s) := by
  unfold execDiscover; exact byStoreRules

theorem outKeeps_execMgmtTailPresented {value s} (hs : Memory.Canonical s.mem) :
    OutKeeps Memory.Canonical (execMgmtTailPresented value s) := by
  unfold execMgmtTailPresented; exact byStoreRules

theorem outKeeps_execMgmtHeadPresented {value s} (hs : Memory.Canonical s.mem) :
    OutKeeps Memory.Canonical (execMgmtHeadPresented value s) := by
  unfold execMgmtHeadPresented; exact byStoreRules

@[simp] theorem keeps_readLines {la n} : Keeps R (readLines la n) := by
  unfold readLines; exact byStoreRules

@[simp] theorem State.putLines_canonical {s la bs} (hs : Memory.Canonical s.mem) :
    Memory.Canonical (State.putLines s la bs).mem := by
  unfold State.putLines; exact byStoreRules

@[simp] theorem State.ringRespond_canonical {s head op r} (hs : Memory.Canonical s.mem) :
    Memory.Canonical (State.ringRespond s head op r).mem := by
  unfold State.ringRespond; exact byStoreRules

@[simp] theorem keeps_takeRequest : Keeps R (takeRequest) := by
  unfold takeRequest; exact byStoreRules

@[simp] theorem State.ringRequest_canonical {s head msg} (hs : Memory.Canonical s.mem) :
    Memory.Canonical (State.ringRequest s head msg).mem := by
  unfold State.ringRequest; exact byStoreRules

theorem outKeeps_execMgmtRequestTake {s} (hs : Memory.Canonical s.mem) : OutKeeps Memory.Canonical (execMgmtRequestTake s) := by
  unfold execMgmtRequestTake; exact byStoreRules

/-! #### The functions of Machine/Twin.lean -/

@[simp] theorem State.heard_mem {s} : (State.heard s).mem = s.mem := by
  unfold State.heard; exact State.mem_eq_of_keeps byStoreRules

@[simp] theorem State.beginRecords_mem {s pair} : (State.beginRecords s pair).mem = s.mem := by
  unfold State.beginRecords; exact State.mem_eq_of_keeps byStoreRules

@[simp] theorem State.beginResilver_mem {s} : (State.beginResilver s).mem = s.mem := by
  unfold State.beginResilver; exact State.mem_eq_of_keeps byStoreRules

@[simp] theorem State.peerState_mem {s code} : (State.peerState s code).mem = s.mem := by
  unfold State.peerState; exact State.mem_eq_of_keeps byStoreRules

theorem outKeeps_execMirror {record s} (hs : Memory.Canonical s.mem) : OutKeeps Memory.Canonical (execMirror record s) := by
  unfold execMirror; exact byStoreRules

theorem outKeeps_execMirrorAck {mseq s} (hs : Memory.Canonical s.mem) : OutKeeps Memory.Canonical (execMirrorAck mseq s) := by
  unfold execMirrorAck; exact byStoreRules

@[simp] theorem State.exchangeRollback_mem {s r} : (State.exchangeRollback s r).mem = s.mem := by
  unfold State.exchangeRollback; exact State.mem_eq_of_keeps byStoreRules

@[simp] theorem State.refuse_mem {s r} : (State.refuse s r).mem = s.mem := by
  unfold State.refuse; exact State.mem_eq_of_keeps byStoreRules

@[simp] theorem State.loseUnprotected_mem {s} : (State.loseUnprotected s).mem = s.mem := by
  unfold State.loseUnprotected; exact State.mem_eq_of_keeps byStoreRules

@[simp] theorem State.pairUp_mem {s r} : (State.pairUp s r).mem = s.mem := by
  unfold State.pairUp; exact State.mem_eq_of_keeps byStoreRules

theorem outKeeps_execIdentityRecord {record s} (hs : R s.mem) : OutKeeps R (execIdentityRecord record s) := by
  unfold execIdentityRecord; exact byStoreRules

theorem outKeeps_execHeartbeatSend {s} (hs : R s.mem) : OutKeeps R (execHeartbeatSend s) := by
  unfold execHeartbeatSend; exact byStoreRules

theorem outKeeps_execHeartbeat {frame s} (hs : R s.mem) : OutKeeps R (execHeartbeat frame s) := by
  unfold execHeartbeat; exact byStoreRules

@[simp] theorem State.probe_mem {s} : (State.probe s).mem = s.mem := by
  unfold State.probe; exact State.mem_eq_of_keeps byStoreRules

theorem outKeeps_execTwinLost {s} (hs : Memory.Canonical s.mem) : OutKeeps Memory.Canonical (execTwinLost s) := by
  unfold execTwinLost; exact byStoreRules

theorem outKeeps_execProbeTimeout {s} (hs : Memory.Canonical s.mem) : OutKeeps Memory.Canonical (execProbeTimeout s) := by
  unfold execProbeTimeout; exact byStoreRules

theorem outKeeps_execWarmResetAnnounce {s} (hs : Memory.Canonical s.mem) :
    OutKeeps Memory.Canonical (execWarmResetAnnounce s) := by
  unfold execWarmResetAnnounce; exact byStoreRules

@[simp] theorem State.sendChunk_mem {s e c} : (State.sendChunk s e c).mem = s.mem := by
  unfold State.sendChunk; exact State.mem_eq_of_keeps byStoreRules

@[simp] theorem State.copyDone_mem {s} : (State.copyDone s).mem = s.mem := by
  unfold State.copyDone; exact State.mem_eq_of_keeps byStoreRules

theorem outKeeps_execResilverChunk {s} (hs : R s.mem) : OutKeeps R (execResilverChunk s) := by
  unfold execResilverChunk
  obtain ⟨send, hsend⟩ : ∃ send, send = State.sendChunk := ⟨_, rfl⟩
  have h : ∀ s e c, (send s e c).mem = s.mem := fun _ _ _ => hsend ▸ State.sendChunk_mem
  rw [← hsend]
  clear hsend
  exact byStoreRules

@[simp] theorem State.stepBoundary_canonical {s} (hs : Memory.Canonical s.mem) : Memory.Canonical (State.stepBoundary s).mem := by
  unfold State.stepBoundary; exact byStoreRules

theorem outKeeps_execStepAdmit {slot s} (hs : Memory.Canonical s.mem) : OutKeeps Memory.Canonical (execStepAdmit slot s) := by
  unfold execStepAdmit; exact byStoreRules

theorem outKeeps_execAdmitWaitExpiry {s} (hs : Memory.Canonical s.mem) : OutKeeps Memory.Canonical (execAdmitWaitExpiry s) := by
  unfold execAdmitWaitExpiry; exact byStoreRules

theorem outKeeps_execAdmissionHandover {s} (hs : R s.mem) : OutKeeps R (execAdmissionHandover s) := by
  unfold execAdmissionHandover; exact byStoreRules

/-! #### The functions of Machine/Vector.lean -/

@[simp] theorem keeps_writeLanes {n vd ty p f} : Keeps R (writeLanes n vd ty p f) := by
  unfold writeLanes; exact byStoreRules

theorem outKeeps_execValu {core word s} (hs : Memory.Canonical s.mem) : OutKeeps Memory.Canonical (execValu core word s) := by
  unfold execValu; exact byStoreRules

@[simp] theorem keeps_vcvtLanes {core word} : Keeps R (vcvtLanes core word) := by
  unfold vcvtLanes; exact byStoreRules

@[simp] theorem keeps_mxEncode {core word f big} : Keeps R (mxEncode core word f big) := by
  unfold mxEncode; exact byStoreRules

@[simp] theorem keeps_mxDecode {core word f} : Keeps R (mxDecode core word f) := by
  unfold mxDecode; exact byStoreRules

theorem outKeeps_execVcvt {core word s} (hs : Memory.Canonical s.mem) : OutKeeps Memory.Canonical (execVcvt core word s) := by
  unfold execVcvt; exact byStoreRules

@[simp] theorem keeps_rsum {core ty l} : Keeps R (rsum core ty l) := by
  unfold rsum; exact byStoreRules

@[simp] theorem keeps_rextremum {up ty l} : Keeps R (rextremum up ty l) := by
  unfold rextremum; exact byStoreRules

theorem outKeeps_execVred {core word s} (hs : Memory.Canonical s.mem) : OutKeeps Memory.Canonical (execVred core word s) := by
  unfold execVred; exact byStoreRules

theorem outKeeps_execVperm {core word s} (hs : Memory.Canonical s.mem) : OutKeeps Memory.Canonical (execVperm core word s) := by
  unfold execVperm; exact byStoreRules

theorem outKeeps_execPred {core word s} (hs : Memory.Canonical s.mem) : OutKeeps Memory.Canonical (execPred core word s) := by
  unfold execPred; exact byStoreRules

theorem outKeeps_execMma {core word s} (hs : Memory.Canonical s.mem) : OutKeeps Memory.Canonical (execMma core word s) := by
  unfold execMma; exact byStoreRules

@[simp] theorem keeps_accNarrow {core word f} : Keeps R (accNarrow core word f) := by
  unfold accNarrow; exact byStoreRules

theorem outKeeps_execAcc {core word s} (hs : Memory.Canonical s.mem) : OutKeeps Memory.Canonical (execAcc core word s) := by
  unfold execAcc; exact byStoreRules

theorem outKeeps_execHam {core word s} (hs : Memory.Canonical s.mem) : OutKeeps Memory.Canonical (execHam core word s) := by
  unfold execHam; exact byStoreRules

/-! #### The functions of Machine/Tick.lean -/

@[simp] theorem State.drainTrace_canonical {s} (hs : Memory.Canonical s.mem) : Memory.Canonical (State.drainTrace s).mem := by
  unfold State.drainTrace; exact byStoreRules

/-! #### Every command, one TCLK of waiting, and the step -/

theorem outKeeps_exec {i s} (hs : Memory.Canonical s.mem) : OutKeeps Memory.Canonical (exec i s) :=
  match i with
  | .tailPresented .. => outKeeps_execTailPresented hs
  | .headPresented .. => outKeeps_execHeadPresented hs
  | .descriptorFetch => outKeeps_execDescriptorFetch hs
  | .completionWrite .. => outKeeps_execCompletionWrite hs
  | .irqHoldoffExpiry .. => outKeeps_execIrqHoldoffExpiry hs
  | .inFlightRefresh .. => outKeeps_execInFlightRefresh hs
  | .leaseLapse .. => outKeeps_execLeaseLapse hs
  | .commandTimeout .. => outKeeps_execCommandTimeout hs
  | .nop .. => outKeeps_execNop hs
  | .fence .. => outKeeps_execFence hs
  | .summary .. => outKeeps_execSummary hs
  | .leaseRenew .. => outKeeps_execLeaseRenew hs
  | .commandRingRegister .. => outKeeps_execCommandRingRegister hs
  | .commandRingDeregister .. => outKeeps_execCommandRingDeregister hs
  | .deregisterDrainDone .. => outKeeps_execDeregisterDrainDone hs
  | .completionRingRegister .. => outKeeps_execCompletionRingRegister hs
  | .completionRingDeregister .. => outKeeps_execCompletionRingDeregister hs
  | .leaseResume .. => outKeeps_execLeaseResume hs
  | .bootRing .. => outKeeps_execBootRing hs
  | .runOne .. => outKeeps_execRunOne hs
  | .enterStep .. => outKeeps_execEnterStep hs
  | .enterSerial .. => outKeeps_execEnterSerial hs
  | .exitStep .. => outKeeps_execExitStep hs
  | .sampleTenantSet .. => outKeeps_execSampleTenantSet hs
  | .sampleRingSet .. => outKeeps_execSampleRingSet hs
  | .clearTenantSet .. => outKeeps_execClearTenantSet hs
  | .mapCounterPage .. => outKeeps_execMapCounterPage hs
  | .unmapCounterPage .. => outKeeps_execUnmapCounterPage hs
  | .counterPageRefresh => outKeeps_execCounterPageRefresh hs
  | .counterClear .. => outKeeps_execCounterClear hs
  | .tileMove .. => outKeeps_execTileMove hs
  | .modelLoad .. => outKeeps_execModelLoad hs
  | .modelUnload .. => outKeeps_execModelUnload hs
  | .modelSchedule .. => outKeeps_execModelSchedule hs
  | .layerFetchStart .. => outKeeps_execLayerFetchStart hs
  | .layerLanded .. => outKeeps_execLayerLanded hs
  | .kvSpill .. => outKeeps_execKvSpill hs
  | .kvFetch .. => outKeeps_execKvFetch hs
  | .ftlWriteAccept .. => outKeeps_execFtlWriteAccept hs
  | .ftlBufferFlush .. => outKeeps_execFtlBufferFlush hs
  | .gcRelocation .. => outKeeps_execGcRelocation hs
  | .wearLevelMove .. => outKeeps_execWearLevelMove hs
  | .readDisturbScan .. => outKeeps_execReadDisturbScan hs
  | .patrolScan .. => outKeeps_execPatrolScan hs
  | .ftlReadDone .. => outKeeps_execFtlReadDone hs
  | .blockRetire .. => outKeeps_execBlockRetire hs
  | .expanderFailure .. => outKeeps_execExpanderFailure hs
  | .alloc .. => outKeeps_execAlloc hs
  | .bind .. => outKeeps_execBind hs
  | .unmap .. => outKeeps_execUnmap hs
  | .extentRevoke .. => outKeeps_execExtentRevoke hs
  | .drainEnd .. => outKeeps_execDrainEnd hs
  | .drainLimit .. => outKeeps_execDrainLimit hs
  | .scrubDone .. => outKeeps_execScrubDone hs
  | .resolveFaults .. => outKeeps_execResolveFaults hs
  | .invalidateAsid .. => outKeeps_execInvalidateAsid hs
  | .convertPointers .. => outKeeps_execConvertPointers hs
  | .asidCreate .. => outKeeps_execAsidCreate hs
  | .asidSetWindow .. => outKeeps_execAsidSetWindow hs
  | .asidDestroy .. => outKeeps_execAsidDestroy hs
  | .faultBatchClose => outKeeps_execFaultBatchClose hs
  | .faultBatchRetry => outKeeps_execFaultBatchRetry hs
  | .faultRingVa .. => outKeeps_execFaultRingVa hs
  | .agentReadShared .. => outKeeps_execAgentReadShared hs
  | .agentReadOwnership .. => outKeeps_execAgentReadOwnership hs
  | .agentWriteBack .. => outKeeps_execAgentWriteBack hs
  | .snoopAnswer .. => outKeeps_execSnoopAnswer hs
  | .snoopTimeout .. => outKeeps_execSnoopTimeout hs
  | .agentTable .. => outKeeps_execAgentTable hs
  | .homeAtomic .. => outKeeps_execHomeAtomic hs
  | .albHoldExpiry .. => outKeeps_execAlbHoldExpiry hs
  | .albEntryChoice .. => outKeeps_execAlbEntryChoice hs
  | .watchRecallExpiry .. => outKeeps_execWatchRecallExpiry hs
  | .flush .. => outKeeps_execFlush hs
  | .publish .. => outKeeps_execPublish hs
  | .publishStagingGrant .. => outKeeps_execPublishStagingGrant hs
  | .versionQuery .. => outKeeps_execVersionQuery hs
  | .regionCreate .. => outKeeps_execRegionCreate hs
  | .regionDestroy .. => outKeeps_execRegionDestroy hs
  | .fill .. => outKeeps_execFill hs
  | .copy .. => outKeeps_execCopy hs
  | .compare .. => outKeeps_execCompare hs
  | .reduce .. => outKeeps_execReduce hs
  | .salu .. => outKeeps_execSalu hs
  | .addi .. => outKeeps_execAddi hs
  | .andi .. => outKeeps_execAndi hs
  | .ori .. => outKeeps_execOri hs
  | .xori .. => outKeeps_execXori hs
  | .lui .. => outKeeps_execLui hs
  | .shori .. => outKeeps_execShori hs
  | .br .. => outKeeps_execBr hs
  | .jal .. => outKeeps_execJal hs
  | .jalr .. => outKeeps_execJalr hs
  | .csrr .. => outKeeps_execCsrr hs
  | .csrw .. => outKeeps_execCsrw hs
  | .halt .. => outKeeps_execHalt hs
  | .brk .. => outKeeps_execBrk hs
  | .drain .. => outKeeps_execDrain hs
  | .dcwb .. => outKeeps_execDcwb hs
  | .dcwbi .. => outKeeps_execDcwbi hs
  | .icinv .. => outKeeps_execIcinv hs
  | .ld .. => outKeeps_execLd hs
  | .st .. => outKeeps_execSt hs
  | .vld .. => outKeeps_execVld hs
  | .vst .. => outKeeps_execVst hs
  | .amo .. => outKeeps_execAmo hs
  | .xcopy .. => outKeeps_execXcopy hs
  | .sdf .. => outKeeps_execSdf hs
  | .trackerEntryFree .. => outKeeps_execTrackerEntryFree hs
  | .waitge .. => outKeeps_execWaitge hs
  | .waitne .. => outKeeps_execWaitne hs
  | .waitPoll .. => outKeeps_execWaitPoll hs
  | .waitTimeLimit .. => outKeeps_execWaitTimeLimit hs
  | .msend .. => outKeeps_execMsend hs
  | .mrecv .. => outKeeps_execMrecv hs
  | .mpeek .. => outKeeps_execMpeek hs
  | .valu .. => outKeeps_execValu hs
  | .vcvt .. => outKeeps_execVcvt hs
  | .vred .. => outKeeps_execVred hs
  | .vperm .. => outKeeps_execVperm hs
  | .pred .. => outKeeps_execPred hs
  | .mma .. => outKeeps_execMma hs
  | .acc .. => outKeeps_execAcc hs
  | .ham .. => outKeeps_execHam hs
  | .launch .. => outKeeps_execLaunch hs
  | .launchClaim .. => outKeeps_execLaunchClaim hs
  | .kernelWatchdog .. => outKeeps_execKernelWatchdog hs
  | .haltGrid .. => outKeeps_execHaltGrid hs
  | .channelOpen .. => outKeeps_execChannelOpen hs
  | .channelClose .. => outKeeps_execChannelClose hs
  | .channelClosed .. => outKeeps_execChannelClosed hs
  | .flitArrive .. => outKeeps_execFlitArrive hs
  | .creditReturn .. => outKeeps_execCreditReturn hs
  | .resetNotice .. => outKeeps_execResetNotice hs
  | .resetAcknowledgement .. => outKeeps_execResetAcknowledgement hs
  | .search .. => outKeeps_execSearch hs
  | .searchStart .. => outKeeps_execSearchStart hs
  | .searchLeg .. => outKeeps_execSearchLeg hs
  | .shardResult .. => outKeeps_execShardResult hs
  | .insert .. => outKeeps_execInsert hs
  | .sideListAppend .. => outKeeps_execSideListAppend hs
  | .delete .. => outKeeps_execDelete hs
  | .merge .. => outKeeps_execMerge hs
  | .mergeDiscard .. => outKeeps_execMergeDiscard hs
  | .mergeBuildStart .. => outKeeps_execMergeBuildStart hs
  | .buildDone .. => outKeeps_execBuildDone hs
  | .indexCommit .. => outKeeps_execIndexCommit hs
  | .indexCreate .. => outKeeps_execIndexCreate hs
  | .indexDestroy .. => outKeeps_execIndexDestroy hs
  | .gather .. => outKeeps_execGather hs
  | .gatherStart .. => outKeeps_execGatherStart hs
  | .scatter .. => outKeeps_execScatter hs
  | .tableReplace .. => outKeeps_execTableReplace hs
  | .replaceStart .. => outKeeps_execReplaceStart hs
  | .replaceDone .. => outKeeps_execReplaceDone hs
  | .tablePin .. => outKeeps_execTablePin hs
  | .tableUnpin .. => outKeeps_execTableUnpin hs
  | .pinStale .. => outKeeps_execPinStale hs
  | .tableCreate .. => outKeeps_execTableCreate hs
  | .tableDestroy .. => outKeeps_execTableDestroy hs
  | .portTraining .. => outKeeps_execPortTraining hs
  | .trainingDone .. => outKeeps_execTrainingDone hs
  | .trainingTimeout .. => outKeeps_execTrainingTimeout hs
  | .trainingRetry .. => outKeeps_execTrainingRetry hs
  | .retrainTimeout .. => outKeeps_execRetrainTimeout hs
  | .lockLost .. => outKeeps_execLockLost hs
  | .keyCheck .. => outKeeps_execKeyCheck hs
  | .retrainRequest .. => outKeeps_execRetrainRequest hs
  | .enterLowRate .. => outKeeps_execEnterLowRate hs
  | .exitLowRate .. => outKeeps_execExitLowRate hs
  | .linkCtlResend .. => outKeeps_execLinkCtlResend hs
  | .flitReceive .. => outKeeps_execFlitReceive hs
  | .nak .. => outKeeps_execNak hs
  | .rekey .. => outKeeps_execRekey hs
  | .rekeySend .. => outKeeps_execRekeySend hs
  | .cablePresent .. => outKeeps_execCablePresent hs
  | .rd .. => outKeeps_execRd hs
  | .remoteFill .. => outKeeps_execRemoteFill hs
  | .atomic .. => outKeeps_execAtomic hs
  | .cmd .. => outKeeps_execCmd hs
  | .pubOpen .. => outKeeps_execPubOpen hs
  | .wr .. => outKeeps_execWr hs
  | .wrFinal .. => outKeeps_execWrFinal hs
  | .groupEnd .. => outKeeps_execGroupEnd hs
  | .pubLine .. => outKeeps_execPubLine hs
  | .pubEnd .. => outKeeps_execPubEnd hs
  | .rdRsp .. => outKeeps_execRdRsp hs
  | .fillRsp .. => outKeeps_execFillRsp hs
  | .atomicRsp .. => outKeeps_execAtomicRsp hs
  | .cmdRsp .. => outKeeps_execCmdRsp hs
  | .pubRsp .. => outKeeps_execPubRsp hs
  | .wrAck .. => outKeeps_execWrAck hs
  | .pending .. => outKeeps_execPending hs
  | .pendingTimer .. => outKeeps_execPendingTimer hs
  | .noRoute .. => outKeeps_execNoRoute hs
  | .requestTimer .. => outKeeps_execRequestTimer hs
  | .storedResponseExpiry .. => outKeeps_execStoredResponseExpiry hs
  | .mirror .. => outKeeps_execMirror hs
  | .mirrorAck .. => outKeeps_execMirrorAck hs
  | .takeoverNotice .. => outKeeps_execTakeoverNotice hs
  | .releaseIdNotice .. => outKeeps_execReleaseIdNotice hs
  | .noticeAck .. => outKeeps_execNoticeAck hs
  | .noticeRepeat .. => outKeeps_execNoticeRepeat hs
  | .acopy .. => outKeeps_execAcopy hs
  | .acopyFinal .. => outKeeps_execAcopyFinal hs
  | .acopyFinalSend .. => outKeeps_execAcopyFinalSend hs
  | .remoteAtomic .. => outKeeps_execRemoteAtomic hs
  | .assignId .. => outKeeps_execAssignId hs
  | .routeSet .. => outKeeps_execRouteSet hs
  | .linkKey .. => outKeeps_execLinkKey hs
  | .join .. => outKeeps_execJoin hs
  | .teardown .. => outKeeps_execTeardown hs
  | .restore .. => outKeeps_execRestore hs
  | .leave .. => outKeeps_execLeave hs
  | .fmEventAck .. => outKeeps_execFmEventAck hs
  | .identityRecord .. => outKeeps_execIdentityRecord hs
  | .heartbeatSend => outKeeps_execHeartbeatSend hs
  | .heartbeat .. => outKeeps_execHeartbeat hs
  | .twinLost => outKeeps_execTwinLost hs
  | .probeTimeout => outKeeps_execProbeTimeout hs
  | .warmResetAnnounce => outKeeps_execWarmResetAnnounce hs
  | .announceWaitEnd => outKeeps_execAnnounceWaitEnd hs
  | .resilverChunk => outKeeps_execResilverChunk hs
  | .stepAdmit .. => outKeeps_execStepAdmit hs
  | .admitWaitExpiry => outKeeps_execAdmitWaitExpiry hs
  | .admissionHandover => outKeeps_execAdmissionHandover hs
  | .contextOpen .. => outKeeps_execContextOpen hs
  | .offer .. => outKeeps_execOffer hs
  | .offerDeadline .. => outKeeps_execOfferDeadline hs
  | .take .. => outKeeps_execTake hs
  | .takeWaitExpiry .. => outKeeps_execTakeWaitExpiry hs
  | .release .. => outKeeps_execRelease hs
  | .ledgerQuery .. => outKeeps_execLedgerQuery hs
  | .checkpoint .. => outKeeps_execCheckpoint hs
  | .contextRun .. => outKeeps_execContextRun hs
  | .phaseComplete .. => outKeeps_execPhaseComplete hs
  | .katPeriod => outKeeps_execKatPeriod hs
  | .katDone .. => outKeeps_execKatDone hs
  | .mgmtWatchdogExpiry => outKeeps_execMgmtWatchdogExpiry hs
  | .portArbitration .. => outKeeps_execPortArbitration hs
  | .queueSample => outKeeps_execQueueSample hs
  | .tenantTable .. => outKeeps_execTenantTable hs
  | .limitTable .. => outKeeps_execLimitTable hs
  | .schedStatsClear .. => outKeeps_execSchedStatsClear hs
  | .arm .. => outKeeps_execArm hs
  | .disarm .. => outKeeps_execDisarm hs
  | .coreDebugHalt .. => outKeeps_execCoreDebugHalt hs
  | .coreDebugStep .. => outKeeps_execCoreDebugStep hs
  | .resume .. => outKeeps_execResume hs
  | .readReg .. => outKeeps_execReadReg hs
  | .writeReg .. => outKeeps_execWriteReg hs
  | .readSpad .. => outKeeps_execReadSpad hs
  | .status .. => outKeeps_execStatus hs
  | .attest .. => outKeeps_execAttest hs
  | .keyInstall .. => outKeeps_execKeyInstall hs
  | .keyDestroy .. => outKeeps_execKeyDestroy hs
  | .fwStage .. => outKeeps_execFwStage hs
  | .fwCommit => outKeeps_execFwCommit hs
  | .fwCommitAdvance => outKeeps_execFwCommitAdvance hs
  | .keyRevoke .. => outKeeps_execKeyRevoke hs
  | .mrExtend .. => outKeeps_execMrExtend hs
  | .inputPowerUp => outKeeps_execInputPowerUp hs
  | .railTimeout .. => outKeeps_execRailTimeout hs
  | .powerGood .. => outKeeps_execPowerGood hs
  | .stageEnd .. => outKeeps_execStageEnd hs
  | .resetN .. => outKeeps_execResetN hs
  | .coldResetRequest .. => outKeeps_execColdResetRequest hs
  | .warmResetRequest .. => outKeeps_execWarmResetRequest hs
  | .tenantReset .. => outKeeps_execTenantReset hs
  | .tenantResetComplete => outKeeps_execTenantResetComplete hs
  | .coreReset .. => outKeeps_execCoreReset hs
  | .profileSelect .. => outKeeps_execProfileSelect hs
  | .profileSelectReset .. => outKeeps_execProfileSelectReset hs
  | .profileCopy .. => outKeeps_execProfileCopy hs
  | .powerRequestActive => outKeeps_execPowerRequestActive hs
  | .powerRequestDrowsy => outKeeps_execPowerRequestDrowsy hs
  | .powerRequestDormant => outKeeps_execPowerRequestDormant hs
  | .drowsyIdleExpiry => outKeeps_execDrowsyIdleExpiry hs
  | .powerStateEntry => outKeeps_execPowerStateEntry hs
  | .wakeComplete => outKeeps_execWakeComplete hs
  | .mgmtFrame .. => outKeeps_execMgmtFrame hs
  | .reassemblyTimeout .. => outKeeps_execReassemblyTimeout hs
  | .discover .. => outKeeps_execDiscover hs
  | .read .. => outKeeps_execRead hs
  | .write .. => outKeeps_execWrite hs
  | .readRows .. => outKeeps_execReadRows hs
  | .writeRows .. => outKeeps_execWriteRows hs
  | .describe .. => outKeeps_execDescribe hs
  | .nextEntry .. => outKeeps_execNextEntry hs
  | .mgmtTailPresented .. => outKeeps_execMgmtTailPresented hs
  | .mgmtHeadPresented .. => outKeeps_execMgmtHeadPresented hs
  | .mgmtRequestTake => outKeeps_execMgmtRequestTake hs
  | .lossOfInput => outKeeps_execLossOfInput hs
  | .holdupFlushDone .. => outKeeps_execHoldupFlushDone hs
  | .thermalTrip .. => outKeeps_execThermalTrip hs
  | .refclkLoss => outKeeps_execRefclkLoss hs
  | .firmwareRestartDone => outKeeps_execFirmwareRestartDone hs
  | .moduleLoss .. => outKeeps_execModuleLoss hs

theorem tick_canonical {s} (hs : Memory.Canonical s.mem) : Memory.Canonical (tick s).mem :=
  State.drainTrace_canonical hs

theorem outKeeps_step {s} (hs : Memory.Canonical s.mem) : OutKeeps Memory.Canonical (step s) := by
  unfold step
  split
  · exact .ofNext (tick_canonical hs)
  · exact outKeeps_exec hs

/-- Settles O2: every command and every TCLK of waiting changes the store only through writes that keep its form. -/
theorem everyStepKeepsStoreForm : Obligations.EveryStepKeepsStoreForm := by
  intro s t hs h
  exact State.storeOk_iff_canonical.2 ((outKeeps_step (State.storeOk_iff_canonical.1 hs)).next t h)

end Sys2Proof.Machine
end

section

/-!
### Flash stacks and expanders (02 R26, R28 to R35, R39)

The rules that the reads and failures of flash need about the error log and about poisoned lines, then one lemma for each command of
the flash translation layer: what it does to its stack where its conditions hold.
-/

namespace Sys2Proof.Machine

open Sys2Proof

/-! #### The error log -/

@[simp] theorem State.logError_newest (s : State) (code cls tenant idx detail : Nat) :
    (s.logError code cls tenant idx detail).log.newest = s.log.newest + 1 := by
  simp [State.logError]

@[simp] theorem State.logError_flash (s : State) (code cls tenant idx detail : Nat) :
    (s.logError code cls tenant idx detail).flash = s.flash := by
  simp [State.logError]

@[simp] theorem State.logError_poison (s : State) (code cls tenant idx detail : Nat) :
    (s.logError code cls tenant idx detail).poison = s.poison := by
  simp [State.logError]

@[simp] theorem State.logFree_newest (s : State) (code cls tenant idx : Nat) :
    (s.logFree code cls tenant idx).log.newest = s.log.newest + 1 := by
  simp [State.logFree, State.draw]

@[simp] theorem State.logFree_flash (s : State) (code cls tenant idx : Nat) :
    (s.logFree code cls tenant idx).flash = s.flash := by
  simp [State.logFree, State.draw]

@[simp] theorem State.logFree_poisoned (s : State) (code cls tenant idx line : Nat) :
    (s.logFree code cls tenant idx).poisoned line = s.poisoned line := by
  simp [State.logFree, State.draw, State.poisoned]

/-! #### Poisoned lines (13 R392) -/

@[simp] theorem mem_insertNat (l : List Nat) (n m : Nat) : m ∈ insertNat l n ↔ m = n ∨ m ∈ l := by
  induction l with
  | nil => simp [insertNat]
  | cons k rest ih =>
    rcases Nat.lt_trichotomy n k with hlt | rfl | hgt
    · simp [insertNat, hlt]
    · simp [insertNat]
    · simp [insertNat, hgt.ne', Nat.not_lt_of_lt hgt, ih, or_left_comm]

@[simp] theorem State.poisonLine_log (s : State) (line : Nat) : (s.poisonLine line).log = s.log := by
  unfold State.poisonLine; split <;> rfl

theorem State.poisoned_poisonLine (s : State) (line m : Nat) :
    (s.poisonLine line).poisoned m = true ↔ m = line ∨ s.poisoned m = true := by
  unfold State.poisonLine
  split
  · rename_i already
    exact ⟨.inr, fun h => h.elim (fun e => e ▸ already) id⟩
  · simp [State.poisoned]

@[simp] theorem State.poisonLines_log (s : State) (lines : List Nat) : (s.poisonLines lines).log = s.log := by
  induction lines generalizing s with
  | nil => rfl
  | cons line rest ih => exact (ih _).trans (State.poisonLine_log s line)

theorem State.poisoned_poisonLines (s : State) (lines : List Nat) (m : Nat) :
    (s.poisonLines lines).poisoned m = true ↔ m ∈ lines ∨ s.poisoned m = true := by
  induction lines generalizing s with
  | nil => simp [State.poisonLines]
  | cons line rest ih =>
    have tail : (s.poisonLines (line :: rest)).poisoned m = true ↔
        m ∈ rest ∨ (s.poisonLine line).poisoned m = true := ih _
    rw [tail, State.poisoned_poisonLine, List.mem_cons, or_left_comm, or_assoc]

/-! #### Writes and relocation (02 R26 to R31) -/

section
variable {s : State} {k : Nat} {x : Stack} (hx : s.stack? k = some x)
include hx

/-- 02 R26, R28, R29: what an accepted write leaves in the buffer. -/
theorem exec_ftlWriteAccept_accepted {w : FtlWrite} (hw : w.stack = k) (writable : x.readOnly = false)
    (room : s.val (dkey 0x3010 1) ≤ x.free) :
    exec (.ftlWriteAccept w) s = .next ((s.setStack k { x with
      buffer := SMap.put x.buffer w.page (min 16384 (((SMap.look x.buffer w.page).map (·.1)).getD 0 + w.bytes), w.stream)
      hostBytes := x.hostBytes + w.bytes }).bump (dkey 0x3013 0) w.stalledUs) := by
  subst hw
  show execFtlWriteAccept w s = _
  simp [execFtlWriteAccept, hx, writable, Nat.not_lt.2 room]

theorem exec_ftlBufferFlush_buffered {p b bytes stream : Nat} (buffered : SMap.look x.buffer p = some (bytes, stream))
    (fits : x.accepts b stream 1 = true) :
    exec (.ftlBufferFlush k p b) s =
      .next (s.setStack k { x.program b stream [p] with buffer := SMap.del x.buffer p }) := by
  show execFtlBufferFlush k p b s = _
  simp [execFtlBufferFlush, hx, buffered, fits]

theorem exec_gcRelocation_below_start {b c : Nat} (movable : x.movable b c = true) (low : x.free < s.val (dkey 0x3010 0))
    (fits : x.accepts c 2 (x.block b).valid.length = true) :
    exec (.gcRelocation k b c) s = .next ((s.setStack k (x.relocate b c 2)).warnLife k) := by
  show execGcRelocation k b c s = _
  simp [execGcRelocation, hx, movable, low, fits]

theorem exec_wearLevelMove_spread {b c : Nat} (spread : s.val (dkey 0x3012 0) < x.spread) (movable : x.movable b c = true)
    (least : ∀ i o, (i, o) ∈ x.blocks → o.used = 0 ∨ o.retired = true ∨ (x.block b).erases ≤ o.erases) (hc : c < rawBlocks)
    (erased : (x.block c).erased = true) (worn : (x.block b).erases < (x.block c).erases) :
    exec (.wearLevelMove k b c) s =
      .next ((s.setStack k (x.relocate b c (x.block b).stream)).warnLife k) := by
  show execWearLevelMove k b c s = _
  have all : (x.blocks.all fun (_, o) => o.used = 0 || o.retired || (x.block b).erases ≤ o.erases) = true := by
    simpa [List.all_eq_true, or_assoc] using least
  simp [execWearLevelMove, hx, spread, movable, all, hc, erased, worn]

/-! #### Scans and reads (02 R32, R33) -/

theorem exec_readDisturbScan_due {b bits : Nat} (due : s.val (dkey 0x3011 0) ≤ (x.block b).reads)
    (live : (x.block b).retired = false) :
    exec (.readDisturbScan k b bits) s = .next (s.setStack k (x.setBlock b
      (if s.val (dkey 0x3011 1) ≤ bits then { x.block b with relocate := true } else { x.block b with reads := 0 }))) := by
  show execReadDisturbScan k b bits s = _
  by_cases worn : s.val (dkey 0x3011 1) ≤ bits <;>
    simp [execReadDisturbScan, hx, Nat.not_lt.2 due, live, worn]

theorem exec_patrolScan_worn {b bits : Nat} (programmed : 0 < (x.block b).used) (live : (x.block b).retired = false)
    (worn : s.val (dkey 0x3011 1) ≤ bits) :
    exec (.patrolScan k b bits) s = .next (s.setStack k (x.setBlock b { x.block b with relocate := true })) := by
  show execPatrolScan k b bits s = _
  simp [execPatrolScan, hx, programmed, live, worn]

theorem exec_ftlReadDone_corrected {p b : Nat} (mapped : SMap.look x.map p = some b) :
    exec (.ftlReadDone k p b .corrected) s =
      .next (s.setStack k (x.setBlock b { x.block b with reads := (x.block b).reads + 1 })) := by
  show execFtlReadDone k p b .corrected s = _
  simp [execFtlReadDone, hx, mapped]

theorem exec_ftlReadDone_retried {p b : Nat} (mapped : SMap.look x.map p = some b) :
    exec (.ftlReadDone k p b .retried) s =
      .next (s.setStack k ((x.setBlock b { x.block b with reads := (x.block b).reads + 1 }).setBlock b
        { x.block b with reads := (x.block b).reads + 1, relocate := true })) := by
  show execFtlReadDone k p b .retried s = _
  simp [execFtlReadDone, hx, mapped]

theorem exec_ftlReadDone_lost {p b : Nat} (mapped : SMap.look x.map p = some b) :
    exec (.ftlReadDone k p b .lost) s =
      .next (((s.setStack k (x.setBlock b { x.block b with reads := (x.block b).reads + 1 })).poisonLines
        ((List.range 256).map (lineOf (flashPageAt k p) + ·))).logFree 0x0018 9 0 k) := by
  show execFtlReadDone k p b .lost s = _
  simp [execFtlReadDone, hx, mapped]

/-- 02 R33: the 256 lines of a page that cannot be recovered are poisoned and the loss is logged; no byte changes. -/
theorem exec_ftlReadDone_lost_poisons {p b : Nat} (mapped : SMap.look x.map p = some b) :
    ∃ t, exec (.ftlReadDone k p b .lost) s = .next t ∧ t.log.newest = s.log.newest + 1 ∧ t.mem = s.mem ∧
      ∀ i, i < 256 → t.poisoned (lineOf (flashPageAt k p) + i) = true := by
  refine ⟨_, exec_ftlReadDone_lost hx mapped, ?_, ?_, fun i hi => ?_⟩
  · simp [State.setStack]
  · simp [State.setStack]
  · rw [State.logFree_poisoned, State.poisoned_poisonLines]
    exact .inl (List.mem_map_of_mem (List.mem_range.2 hi))

/-! #### Failed blocks (02 R34, R35) -/

/-- A failed block without valid pages is replaced from the reserve, and the stack stays writable. -/
theorem exec_blockRetire_replaced {b : Nat} (live : (x.block b).retired = false) (empty : (x.block b).valid = [])
    (inUse : (x.block b).erased = false) (hb : b < rawBlocks) (reserve : 0 < x.reserve) (few : x.grownBad + 1 ≤ badReserve) :
    exec (.blockRetire k b) s = .next (s.setStack k
      (({ x with free := x.free + 1, grownBad := x.grownBad + 1, reserve := x.reserve - 1 } : Stack).setBlock b
        { x.block b with valid := [], retired := true, relocate := false })) := by
  show execBlockRetire k b s = _
  simp [execBlockRetire, hx, live, empty, inUse, Nat.not_le.2 hb, reserve, Nat.not_lt.2 few, bit, Stack.setBlock]

end

/-! #### Expanders (02 R39) -/

theorem exec_expanderFailure_up {s : State} {k : Nat} {d : Decoder} (hd : SMap.look s.flash.decoders k = some d)
    (up : d.up = true) :
    exec (.expanderFailure k) s = .next
      (({ s with flash := { s.flash with decoders := SMap.put s.flash.decoders k { d with up := false } } } : State).logFree
        0x0008 14 0 k) := by
  show execExpanderFailure k s = _
  simp [execExpanderFailure, hd, up]

/-- An access to the far tier through a decoder that is down completes TARGET_DEAD. -/
theorem State.homeRefusal_of_decoder_down {s : State} {tenant la : Nat} {d : Decoder} (far : s.areaOf la = .far)
    (unlisted : s.extent? (extentOf la) = none) (hd : s.decoderOf la = some d) (down : d.up = false) :
    s.homeRefusal tenant la = some .targetDead := by
  simp [State.homeRefusal, far, unlisted, hd, down]

/-- Settles O12, command by command. -/
theorem flashStacksAndExpanders : Obligations.FlashStacksAndExpanders := by
  refine ⟨fun s k x hx => ⟨?_, ?_, ?_, ?_, ?_, ?_, ?_, ?_⟩, fun s k d hd up => ?_⟩
  · exact fun _ => exec_ftlWriteAccept_accepted hx
  · exact fun _ _ _ _ => exec_ftlBufferFlush_buffered hx
  · intro b c ne programmed live
    exact exec_gcRelocation_below_start hx (by simp [Stack.movable, ne, programmed, live])
  · exact fun _ _ => exec_wearLevelMove_spread hx
  · exact fun _ _ => exec_readDisturbScan_due hx
  · exact fun _ _ => exec_patrolScan_worn hx
  · exact fun p b mapped => ⟨exec_ftlReadDone_corrected hx mapped, exec_ftlReadDone_retried hx mapped,
      exec_ftlReadDone_lost_poisons hx mapped⟩
  · exact fun _ => exec_blockRetire_replaced hx
  · exact ⟨_, exec_expanderFailure_up hd up, by simp, by simp, by simp,
      fun _ _ far unlisted hd => State.homeRefusal_of_decoder_down far unlisted hd rfl⟩

end Sys2Proof.Machine
end

section

/-!
### Models and their layers (02 R48 to R57, log 18)

One lemma for each command of a streaming model: what it does where its reads and writes succeed and its conditions hold.
-/

namespace Sys2Proof.Machine

open Sys2Proof

/-! #### How actions run -/

section
variable {α β γ : Type}

theorem Eng.go_needE_bind {b : Bool} (st : Status) (f : Unit → Eng α) (s : State) (hb : b = true) :
    (needE b st >>= f).go s = (f ()).go s := by
  simp [Eng.go_bind, hb]

theorem Eng.go_holdE_bind {b : Bool} (f : Unit → Eng α) (s : State) (hb : b = true) :
    (holdE b >>= f).go s = (f ()).go s := by
  simp [Eng.go_bind, hb]

/-- Two parts of an action that run in turn, before the rest of it. -/
theorem Eng.go_bind_bind_ok {x : Eng α} {f : α → Eng β} (g : β → Eng γ) {s t : State} {b : β}
    (h : (x >>= f).go s = (.ok b, t)) : Eng.go (x >>= fun a => f a >>= g) s = (g b).go t := by
  rw [← bind_assoc, Eng.go_bind_ok _ _ _ _ _ h]

end

/-- A ready command runs its action, dispatched. -/
theorem runSlotIf_of_ready {s : State} {n op : Nat} {sl : Slot} {here : Slot → Bool} (h : s.ready n op sl)
    (hh : here sl = true) (body : Slot → Eng (Status × Nat × Nat)) :
    runSlotIf op n here body s = endSlot n ((body (sl.run s.time)).go (s.dispatch n sl)) := by
  obtain ⟨hn, ho, hs, hd⟩ := h
  exact runSlotIf_fetched op n here body s sl hn ho hh hs hd

theorem streamRun_ok {e : Eng Unit} {s t : State} {u : Unit} (k layer : Nat) (h : e.go s = (.ok u, t)) :
    streamRun k layer e s = t := by
  simp [streamRun, h]

/-! #### MODEL_LOAD, MODEL_UNLOAD and MODEL_SCHEDULE -/

/-- The model that a MODEL_LOAD in layer-window mode registers, from its descriptor and its layer table (02 R48). -/
def Slot.loadedModel (sl : Slot) (d : Desc) (tbl : List Nat) : Model :=
  let m : Model := {
    asid := sl.asid, mdVa := sl.f 128 57, tenant := sl.tenant, seq := sl.seq, desc := d,
    layers := tbl.map fun x => (bitsOf x 0 57, bitsOf x 64 32), schedule := [], nextSchedule := none, inFlight := [],
    issued := 0, landed := [], reload := [], ready := 0, stopped := false, loadSeq := some sl.seq, first := [],
    unload := false, resp := [] }
  { m with reload := (List.range m.layerCount).filter m.resident }

/-- What 02 Table 2-12 asks of a descriptor in layer-window mode, where `dflt` is the default window. -/
structure WindowedDescriptor (d : Desc) (dflt : Nat) : Prop where
  layers : 1 ≤ fld d 32 16 ∧ fld d 32 16 ≤ 4096
  mode : fld d 48 8 ≤ 2
  window : 2 ≤ windowOf d dflt
  slots : fld d 224 16 = windowOf d dflt
  slotsFit : fld d 224 16 ≤ 4096
  ctrl : fld d 416 57 % 32 = 0

/-- 02 R48, R55: a MODEL_LOAD registers its model with CTRL zeroed, and waits for its first layers. -/
theorem exec_modelLoad_windowed {s s2 s3 s4 : State} {n d : Nat} {sl : Slot} {e : Desc} {tbl : List Nat} {u : Unit}
    (h : s.ready n 0x21 sl) (load : sl.f 192 1 = 0) (empty : s.models = [])
    (readDesc : (readNat (sl.who n 4) sl.asid (sl.f 128 57) 64).go (s.dispatch n sl) = (.ok d, s2))
    (he : BitVec.ofNat 512 d = e) (mode : scheduled e ((s.dispatch n sl).val (dkey 0x3030 0)) = false)
    (wf : WindowedDescriptor e ((s.dispatch n sl).val (dkey 0x3030 1)))
    (readLayers : (readTable (sl.who n 4) sl.asid (fld e 64 57) 16 (fld e 32 16)).go s2 = (.ok tbl, s3))
    (layersFit : ∀ x ∈ tbl, bitsOf x 64 32 ≤ fld e 384 32 ∧ bitsOf x 96 32 ≤ fld e 192 32 * 1024)
    (zeroCtrl : (writeVa (sl.who n 4) sl.asid (sl.loadedModel e tbl).ctrlVa (leBytes 8 0)).go s3 = (.ok u, s4)) :
    exec (.modelLoad n) s = .next (s4.setModel (leastFree (SMap.keys s4.models) 64 0)
      { sl.loadedModel e tbl with first := (sl.loadedModel e tbl).firstLoads }) := by
  subst he
  show execModelLoad n s = _
  obtain ⟨layers, descMode, window, slots, slotsFit, ctrl⟩ := wf
  have someSlot : 1 ≤ fld (BitVec.ofNat 512 d) 224 16 := slots ▸ Nat.le_of_lt window
  have notScheduled := Bool.eq_false_iff.1 mode
  rw [execModelLoad, runSlotIf_of_ready h (by simp [load])]
  simp only [Slot.run_who, Slot.run_asid, Slot.run_seq, Slot.run_tenant, Slot.run_f]
  rw [Eng.go_bind_ok _ _ _ _ _ (Eng.go_get _), Eng.go_holdE_bind, Eng.go_needE_bind, Eng.go_bind_ok _ _ _ _ _ readDesc,
    Eng.go_needE_bind, Eng.go_needE_bind, Eng.go_bind_ok _ _ _ _ _ readLayers, Eng.go_needE_bind, if_neg notScheduled,
    Eng.go_bind_ok _ _ _ _ _ (Eng.go_pure _ _), Eng.go_needE_bind, Eng.go_needE_bind]
  · exact congrArg (fun r => Host.Outcome.next (endSlot n r)) (Eng.go_bind_ok _ _ _ _ _ zeroCtrl)
  · simp [empty]
  · simp [mode]
  · simpa using layersFit
  · simp [window, slots]
  · simp [layers, descMode, someSlot, slotsFit, ctrl]
  · simp [empty]
  · simp [empty]

/-- 02 R57: a stopped model is freed. -/
theorem exec_modelUnload_stopped {s : State} {n k : Nat} {sl : Slot} {m : Model} (h : s.ready n 0x21 sl) (unload : sl.f 192 1 = 1)
    (found : s.models.find? (fun (_, m) => m.asid = sl.asid && m.mdVa = sl.f 128 57) = some (k, m)) (idle : m.inFlight = [])
    (stopped : m.stopped = true) :
    exec (.modelUnload n) s = .next (({ s.dispatch n sl with
      models := SMap.del (SMap.put s.models k { m with unload := true }) k } : State).finish n .ok 0 0) := by
  show execModelUnload n s = _
  rw [execModelUnload, runSlotIf_of_ready h (by simp [unload])]
  simp [Eng.go_bind, found, idle, stopped, State.setModel]

/-- 02 R56: a well-formed table is kept for the next pass, and the command waits for it. -/
theorem exec_modelSchedule_taken {s t : State} {n k : Nat} {sl : Slot} {m : Model} {tbl : List Nat} (h : s.ready n 0x22 sl)
    (found : s.models.find? (fun (_, m) => m.asid = sl.asid && m.mdVa = sl.f 128 57) = some (k, m))
    (noneWaits : m.nextSchedule = none) (mode : m.windowed = false) (running : m.stopped = false) (kept : m.unload = false)
    (read : (readTable (sl.who n 4) sl.asid (m.f 256 57) 8 m.layerCount).go (s.dispatch n sl) = (.ok tbl, t))
    (wf : scheduleOk m.layerCount (m.f 224 16) tbl = true) :
    exec (.modelSchedule n) s =
      .next (t.setModel k { m with nextSchedule := some (tbl, m.issued / m.layerCount + 1, sl.seq) }) := by
  show execModelSchedule n s = _
  rw [execModelSchedule, runSlot, runSlotIf_of_ready h rfl]
  simp [Eng.go_bind, found, noneWaits, mode, running, kept, read, wf]

/-! #### The fetch of a layer and its landing -/

/-- 02 R52, R54: a fetch that may issue into a free slot joins those in flight. -/
theorem exec_layerFetchStart_clear {s t : State} {k i retire : Nat} {m : Model} (hm : s.model? k = some m)
    (noneWaits : m.nextSchedule = none) (issue : m.mayIssue i = true) (read : (readRetire k m).go s = (.ok retire, t))
    (retired : retire ≤ m.ready) (clear : m.clear retire i = true) :
    let m' := { m with inFlight := m.inFlight ++ [i], resp := [] }
    exec (.layerFetchStart k i) s = .next (t.setModel k { m' with issued := m'.nextIssue (i + 2) m'.issued }) := by
  show execLayerFetchStart k i s = _
  simp only [execLayerFetchStart, hm, State.switchTable, noneWaits]
  rw [if_neg (by simp [issue])]
  refine congrArg _ (streamRun_ok (u := ()) k _ ?_)
  rw [Eng.go_bind_ok _ _ _ _ _ read, if_neg (Nat.not_lt.2 retired), if_pos clear]
  rfl

/-- A model in which the fetch of execution `i` has landed: READY has gone over it and over those landed before it (02 R49). -/
def Model.withLanded (m : Model) (i : Nat) : Model :=
  ({ m with inFlight := m.inFlight.filter (· ≠ i), landed := m.landed ++ [i], first := m.first.filter (· ≠ i) } : Model).advance
    (m.layerCount + m.landed.length + 1)

/-- 02 R49: a layer that lands in time, in a model that streams without end, advances READY in memory and in the model. -/
theorem exec_layerLanded_advances {s s2 s3 s4 : State} {k i retire : Nat} {m : Model} {u : Unit} (hm : s.model? k = some m)
    (running : m.stopped = false) (flying : m.inFlight.contains i = true) (inTime : retire < i ∨ i = 0)
    (retired : retire ≤ m.ready)
    (load : (loadTiles (m.who k) m (m.f 320 57 + m.slotAt i * m.f 384 32 * 64) (m.f 128 57 + m.slotAt i * m.f 192 32 * 2 ^ 16)
      (m.layers.getD (m.layerAt i) (0, 0)).1 (m.layers.getD (m.layerAt i) (0, 0)).2 0).go s = (.ok u, s2))
    (read : (readRetire k m).go s2 = (.ok retire, s3)) (endless : (m.withLanded i).total = none)
    (write : (do writeVa (m.who k) m.asid m.ctrlVa (leBytes 8 (m.withLanded i).ready); clearMail (m.who k) : Eng Unit).go s3 =
      (.ok u, s4)) :
    exec (.layerLanded k i) s =
      .next ((s4.setModel k { m.withLanded i with resp := [] }).loadDone k { m.withLanded i with resp := [] }) := by
  show execLayerLanded k i s = _
  have onTime : ¬ (0 < i ∧ i ≤ retire) := by omega
  rcases hl : m.layers.getD (m.layerAt i) (0, 0) with ⟨src, tiles⟩
  rw [hl] at load
  simp only [Model.withLanded] at write endless ⊢
  simp only [execLayerLanded, hm, hl]
  rw [if_neg (by simpa [running] using flying)]
  refine congrArg _ (streamRun_ok (u := ()) k _ ?_)
  rw [Eng.go_bind_ok _ _ _ _ _ load, Eng.go_bind_ok _ _ _ _ _ read, if_neg (Nat.not_lt.2 retired),
    Eng.go_bind_bind_ok _ write, Eng.go_bind_ok _ _ _ _ _ (Eng.go_modify _ _), if_neg (by simpa using onTime),
    if_neg (by rw [endless]; exact nofun)]
  rfl

/-- Settles O11, command by command; the helpers `Slot.loadedModel` and `Model.withLanded` are the models that the statement
writes out. -/
theorem modelsStreamTheirLayers : Obligations.ModelsStreamTheirLayers := by
  intro s n sl
  refine ⟨?_, ?_, ?_, ?_, ?_⟩
  · intro d k tbl s2 s3 s4 u h load empty readDesc e m m' mode lo hi descMode window slots slotsFit ctrl readLayers layersFit
      zeroCtrl hk
    subst hk
    exact exec_modelLoad_windowed h load empty readDesc rfl mode ⟨⟨lo, hi⟩, descMode, window, slots, slotsFit, ctrl⟩ readLayers
      layersFit zeroCtrl
  · exact fun _ _ => exec_modelUnload_stopped
  · exact fun _ _ _ _ => exec_modelSchedule_taken
  · exact fun _ _ _ _ _ => exec_layerFetchStart_clear
  · exact fun k i retire m s2 s3 s4 u hm running flying _ inTime retired load read endless write =>
      exec_layerLanded_advances hm running flying inTime retired load read endless write

end Sys2Proof.Machine
end

section

/-!
### Extents and their mappings (04 R93 to R97, R105 to R107)

The runs of EXTENT_MAP and EXTENT_REVOKE, one lemma for each operation; then what the end of a drain does, whether nothing remains
of the extent or its limit has passed.
-/

namespace Sys2Proof.Machine

open Sys2Proof

@[simp] theorem State.asid?_dispatch (s : State) (n m : Nat) (sl : Slot) : (s.dispatch n sl).asid? m = s.asid? m := by
  simp [State.asid?]

@[simp] theorem State.extent?_dispatch (s : State) (n m : Nat) (sl : Slot) : (s.dispatch n sl).extent? m = s.extent? m := by
  simp [State.extent?]

@[simp] theorem State.mirrorsMeta_dispatch (s : State) (n : Nat) (sl : Slot) : (s.dispatch n sl).mirrorsMeta = s.mirrorsMeta := by
  simp [State.mirrorsMeta]

theorem State.mirrorMeta_of_not_mirrored {s : State} {slot : Option Nat} (h : s.mirrorsMeta = false) : s.mirrorMeta slot = s := by
  simp [State.mirrorMeta, h]

/-! #### EXTENT_MAP -/

/-- The mappings that an UNMAP removes: those of its ASID that meet its range (04 R97). -/
def Slot.unmaps (sl : Slot) (m : Mapping) : Bool :=
  m.asid = sl.id 144 16 && m.va < sl.f 192 57 + sl.f 320 32 * 2 ^ 16 && sl.f 192 57 < m.va + pageBytes m.page

/-- The state without the mappings that an UNMAP removes, and without the counts of the pages in its range. -/
def State.unmapped (s : State) (sl : Slot) : State :=
  { s.unmapIf sl.unmaps with cnt := { s.cnt with pages := SMap.only s.cnt.pages fun k p =>
      !(k = sl.id 144 16 && sl.f 192 57 ≤ p.va && p.va < sl.f 192 57 + sl.f 320 32 * 2 ^ 16) } }

@[simp] theorem State.unmapped_maps (s : State) (sl : Slot) :
    (s.unmapped sl).tr.maps = s.tr.maps.filter fun m => !sl.unmaps m := rfl
@[simp] theorem State.unmapped_mem (s : State) (sl : Slot) : (s.unmapped sl).mem = s.mem := rfl
@[simp] theorem State.unmapped_ext (s : State) (sl : Slot) : (s.unmapped sl).ext = s.ext := rfl
@[simp] theorem State.slot?_unmapped (s : State) (sl : Slot) (n : Nat) : (s.unmapped sl).slot? n = s.slot? n := rfl

section
variable {s : State} {n : Nat} {sl : Slot} {a : Asid}

/-- A ready EXTENT_MAP runs its operation, dispatched, on the target ASID. -/
theorem extentMap_of_ready {op : Nat} (h : s.ready n 0x30 sl) (hop : sl.f 128 4 = op) (ha : s.asid? (sl.id 144 16) = some a)
    (body : Slot → Asid → Eng (Status × Nat × Nat)) :
    extentMap op n body s = endSlot n ((body (sl.run s.time) a).go (s.dispatch n sl)) := by
  have target : (s.dispatch n sl).asid? ((sl.run s.time).id 144 16) = some a := by simpa using ha
  rw [extentMap, runSlotIf_of_ready h (by simpa using hop), Eng.go_bind_ok _ _ _ _ _ (Eng.go_get _), target]

section
variable (h : s.ready n 0x30 sl) (ha : s.asid? (sl.id 144 16) = some a)
include h ha

section
variable (range : (s.dispatch n sl).rangeOk (sl.id 144 16) (sl.f 192 57) (sl.f 132 2) (sl.f 320 32 * 2 ^ 16) = true)
include range

section
variable (op : sl.f 128 4 = 0) (page : sl.f 132 2 = 2) (plain : sl.f 137 1 = 0) (noFallback : sl.f 139 1 = 1)
include op page plain noFallback

/-- 04 R93, R94: the extents that the choice lists are taken and mapped. -/
theorem exec_alloc_taken {choice l : List Nat} {t : State}
    (take : (s.dispatch n sl).takeUnits a.tenant [sl.f 134 2] false false false (ceilDiv (sl.f 320 32 * 2 ^ 16) (2 ^ 30)) choice =
      .ok (t, l)) :
    exec (.alloc n choice) s = .next ((({ t with tr := { t.tr with
      maps := t.tr.maps ++ pagesOver (sl.id 144 16) (sl.f 192 57) 2 (sl.f 136 1 = 1) l
        (sl.f 320 32 * 2 ^ 16 / pageBytes 2) } } : State).mirrorMeta (some n)).finish n .ok l.length 0) := by
  show execAlloc n choice s = _
  rw [page] at range
  rw [execAlloc, extentMap_of_ready h op ha]
  simp [-Nat.reducePow, Eng.go_bind, page, plain, noFallback, range, take]

/-- 02 R62, 04 R94: where the one tier of the request is short, ALLOC completes RESOURCE. -/
theorem exec_alloc_short {choice : List Nat} (one : sl.f 320 32 * 2 ^ 16 = 2 ^ 30)
    (short : (s.dispatch n sl).tierShort a.tenant false (sl.f 134 2) = true) :
    exec (.alloc n choice) s = .next (((s.dispatch n sl).bump (dkey 0x3002 2) 1).rejectSlot n .resource) := by
  have noneOpen : (s.dispatch n sl).takeUnits a.tenant [sl.f 134 2] false false false 1 choice = .error (.fail .resource) := by
    simp [State.takeUnits, short]
  have units : ceilDiv (2 ^ 30) (2 ^ 30) = 1 := rfl
  show execAlloc n choice s = _
  rw [page, one] at range
  rw [execAlloc, extentMap_of_ready h op ha]
  simp [-Nat.reducePow, Eng.go_bind, page, plain, noFallback, one, range, units, noneOpen]

end

/-- 04 R93, R95: a local range that passes its checks is mapped, and has the shares that the checks added. -/
theorem exec_bind_here {la : Nat} {t : State}
    (op : sl.f 128 4 = 1) (aligned : sl.f 256 56 % pageBytes (sl.f 132 2) = 0)
    (here : (s.dispatch n sl).placeOf (sl.f 256 56) = .here la)
    (own : sl.f 256 56 / 2 ^ 50 % 64 = (s.dispatch n sl).ownId)
    (bound : (s.dispatch n sl).bindHere false sl.tenant a.tenant
      (sl.tenant = 0 && (((s.dispatch n sl).ring? sl.ring).map (·.driver)).getD false) (sl.f 138 1 = 1) (sl.f 132 2) la
      (sl.f 320 32 * 2 ^ 16) = .ok t) :
    exec (.bind n) s = .next ((({ t with tr := { t.tr with
      maps := t.tr.maps ++ (List.range (sl.f 320 32 * 2 ^ 16 / pageBytes (sl.f 132 2))).map fun i =>
        ({ asid := sl.id 144 16, va := sl.f 192 57 + i * pageBytes (sl.f 132 2), page := sl.f 132 2, package := none,
           address := sl.f 256 56 % 2 ^ 50 + i * pageBytes (sl.f 132 2), readOnly := sl.f 136 1 = 1,
           kind := .host } : Mapping) } } : State).mirrorMeta (some n)).finish n .ok 0 0) := by
  show execBind n s = _
  rw [execBind, extentMap_of_ready h op ha]
  simp only [State.ring?_dispatch] at bound
  simp [-Nat.reducePow, Eng.go_bind, range, aligned, here, own, bound]

end

/-- 04 R97: mappings that lie wholly in the range of an UNMAP go. -/
theorem exec_unmap_whole (op : sl.f 128 4 = 2) (alone : s.mirrorsMeta = false)
    (whole : ∀ m ∈ s.tr.maps, sl.unmaps m = true →
      sl.f 192 57 ≤ m.va ∧ m.va + pageBytes m.page ≤ sl.f 192 57 + sl.f 320 32 * 2 ^ 16) :
    exec (.unmap n) s = .next (((s.dispatch n sl).unmapped sl).finish n .ok 0 0) := by
  have inRange : (((s.dispatch n sl).tr.maps.filter sl.unmaps).all fun m =>
      sl.f 192 57 ≤ m.va && m.va + pageBytes m.page ≤ sl.f 192 57 + sl.f 320 32 * 2 ^ 16) = true := by
    rw [State.dispatch_tr, List.all_eq_true]
    intro m hm
    obtain ⟨listed, hit⟩ := List.mem_filter.1 hm
    simpa only [Bool.and_eq_true, decide_eq_true_eq] using whole m listed hit
  have unsent : ((s.dispatch n sl).unmapped sl).mirrorMeta (some n) = (s.dispatch n sl).unmapped sl :=
    State.mirrorMeta_of_not_mirrored ((State.mirrorsMeta_dispatch s n sl).trans alone)
  show execUnmap n s = _
  rw [execUnmap, extentMap_of_ready h op ha, Eng.go_bind_ok _ _ _ _ _ (Eng.go_get _)]
  simp only [Slot.run_f, Slot.run_id]
  show _ = Host.Outcome.next (endSlot n (.ok (.ok, 0, 0), (s.dispatch n sl).unmapped sl))
  refine congrArg (fun r => Host.Outcome.next (endSlot n r)) ((Eng.go_needE_bind _ _ _ inRange).trans ?_)
  exact congrArg (Prod.mk _) unsent

end

end

/-! #### EXTENT_REVOKE -/

/-- 04 R106: the first revocation of an owned extent starts its drain and waits. -/
theorem exec_extentRevoke_owned {s : State} {n : Nat} {sl : Slot} {x : Extent} (h : s.ready n 0x31 sl)
    (own : sl.ring < resumedRing) (hx : s.extent? (extentOf (sl.f 128 57)) = some x) (aligned : sl.f 128 57 % 2 ^ 30 = 0)
    (owned : x.state = .owned) (held : x.hold = .none) (first : x.revokers.contains sl.seq = false) :
    exec (.extentRevoke n) s = .next ((s.dispatch n sl).startDrain (extentOf (sl.f 128 57)) x (sl.f 192 1 = 1)
      (if sl.f 200 24 = 0 then (s.dispatch n sl).val (dkey 0x4020 0) else sl.f 200 24) sl.seq) := by
  have inUse : x.free = false := by simp [Extent.free, owned]
  show execExtentRevoke n s = _
  rw [execExtentRevoke, runSlot, runSlotIf_of_ready h rfl]
  simp [-Nat.reducePow, -List.contains_eq_mem, Eng.go_bind, own, hx, first, aligned, inUse, held, owned]

/-! #### The end of a drain (04 R106) -/

/-- 04 R106 step 4: no mapping that is left reaches into the extent. -/
theorem State.reaches_of_mem_unmapExtent {s : State} {p e : Nat} {m : Mapping} (hm : m ∈ (s.unmapExtent p e).tr.maps) :
    m.reaches s.ownId p e = false := by
  simpa using (List.mem_filter.1 hm).2

theorem State.drained_congr {s t : State} (coh : t.coh = s.coh) (twin : t.twin = s.twin) (e : Nat) :
    t.drained e = s.drained e := by
  simp only [State.drained, coh, twin]

section
variable {s : State} {e : Nat} {x : Extent} (held : x.hold = .none)
include held

/-- Steps 4 to 6 for an extent that is to be scrubbed. -/
theorem State.endDrain_scrub (scrub : x.scrub = true) :
    s.endDrain e x = (s.unmapExtent s.ownId e).setExtent e { x with state := .scrubbing } := by
  simp [State.endDrain, held, scrub]

/-- Steps 4 to 6 for an extent that is not to be scrubbed. -/
theorem State.endDrain_dirty (scrub : x.scrub = false) :
    s.endDrain e x = (s.unmapExtent s.ownId e).freeExtent e x .freeDirty := by
  simp [State.endDrain, held, scrub]

/-- An extent whose revocation no command waits for. -/
theorem State.freeExtent_unawaited (unawaited : x.revokers = []) (st : ExtState) :
    s.freeExtent e x st = s.setExtent e (.freed st) := by
  simp [State.freeExtent, held, unawaited]

end

/-- The commands whose writes to an extent the twin has not acknowledged. -/
def State.revokedSlots (s : State) (e : Nat) : List Nat :=
  s.twin.unacked.filterMap fun (_, l, n) => if lineIn e l then n else none

/-- How many requests and commands wait on an extent (04 R106 step 3). -/
def State.waitingOn (s : State) (e : Nat) : Nat :=
  (s.coh.albWaiting.filter fun r => extentOf r.address = e).length + (s.revokedSlots e).length

/-- 04 R106 step 3: what waits on an extent is aborted, and no copy of a line of it is held any more. -/
def State.cutOff (s : State) (e : Nat) : State :=
  { s with
    coh := { s.coh with
      snoops := s.coh.snoops.filter fun x => !lineIn e x.line
      dir := SMap.only s.coh.dir fun l _ => !lineIn e l
      albWaiting := s.coh.albWaiting.filter fun r => extentOf r.address ≠ e }
    twin := { s.twin with unacked := s.twin.unacked.filter fun (_, l, _) => !lineIn e l } }

theorem State.drained_cutOff (s : State) (e : Nat) : (s.cutOff e).drained e = true := by
  simp [State.drained, State.cutOff, SMap.only]

/-- Changes of slots touch the slots only. -/
theorem State.foldl_updSlot (l : List Nat) (f : Slot → Slot) (s : State) :
    ∃ fe, l.foldl (fun s n => s.updSlot n f) s = { s with fe } := by
  induction l generalizing s with
  | nil => exact ⟨s.fe, rfl⟩
  | cons n l ih => exact ih (s.updSlot n f)

section
variable {s : State} {e : Nat} {x : Extent} (hx : s.extent? e = some x)
include hx

theorem exec_drainEnd_drained (draining : x.state = .draining) (drained : s.drained e = true) :
    exec (.drainEnd e) s = .next (s.endDrain e x) := by
  show execDrainEnd e s = _
  simp [execDrainEnd, hx, draining, drained]

/-- The limit of a drain aborts the commands that still wait, cuts the extent off, counts what it aborted and ends the drain. -/
theorem exec_drainLimit_passed (draining : x.state = .draining) (waiting : s.drained e = false) :
    ∃ fe, exec (.drainLimit e) s =
      .next (((({ s with fe } : State).cutOff e).bump (dkey 0x4020 1) (s.waitingOn e)).endDrain e x) := by
  obtain ⟨fe, aborted⟩ := State.foldl_updSlot (s.revokedSlots e) (fun sl => { sl with status := sl.status.join .revoked }) s
  refine ⟨fe, ?_⟩
  show execDrainLimit e s = _
  rw [State.revokedSlots] at aborted
  simp only [execDrainLimit, hx]
  rw [if_pos (by simp [draining, waiting]), aborted]
  rfl

/-- 04 R106: after the limit the extent is scrubbed, nothing of it waits or is held, and nothing maps it. -/
theorem exec_drainLimit_scrubs (draining : x.state = .draining) (waiting : s.drained e = false) (held : x.hold = .none)
    (scrub : x.scrub = true) :
    ∃ t, exec (.drainLimit e) s = .next t ∧ t.extent? e = some { x with state := .scrubbing } ∧ t.drained e = true ∧
      t.mem = s.mem ∧ ∀ m ∈ t.tr.maps, m.reaches s.ownId s.ownId e = false := by
  obtain ⟨fe, run⟩ := exec_drainLimit_passed hx draining waiting
  rw [State.endDrain_scrub held scrub] at run
  refine ⟨_, run, State.extent?_setExtent _ _ _, ?_, ?_, fun m hm => State.reaches_of_mem_unmapExtent hm⟩
  · exact (State.drained_congr rfl rfl e).trans (State.drained_cutOff { s with fe } e)
  · simp [State.cutOff]

theorem exec_scrubDone_unawaited (scrubbing : x.state = .scrubbing) (held : x.hold = .none) (unawaited : x.revokers = []) :
    exec (.scrubDone e) s = .next ((s.zeroRange (e * 2 ^ 30) (2 ^ 30)).setExtent e (.freed .freeClean)) := by
  show execScrubDone e s = _
  simp [execScrubDone, hx, scrubbing, State.freeExtent_unawaited held unawaited]

end

/-- Settles O13, command by command. -/
theorem extentsAreMappedAndRevoked : Obligations.ExtentsAreMappedAndRevoked := by
  refine ⟨fun s n sl a => ?_, fun s n sl a => ?_, fun s e x => ⟨?_, ?_, ?_, ?_, ?_⟩⟩
  · intro s1 asid bytes h ha range
    rw [State.asid?_dispatch] at ha
    refine ⟨?_, ?_, ?_⟩
    · exact fun _ _ _ op page plain noFallback => exec_alloc_taken h ha range op page plain noFallback
    · exact fun _ op page plain noFallback => exec_alloc_short h ha range op page plain noFallback
    · exact fun _ _ => exec_bind_here h ha range
  · intro asid va end_ hit h op ha alone whole
    exact ⟨_, exec_unmap_whole h ha op alone whole, by rw [State.finish_tr, State.unmapped_maps, State.dispatch_tr]; rfl,
      by simp, by simp, by simp [State.finish]⟩
  · intro n sl h own he
    subst he
    exact exec_extentRevoke_owned h own
  · intro hx draining drained held scrub
    rw [exec_drainEnd_drained hx draining drained, State.endDrain_scrub held scrub]
  · intro hx draining drained held scrub
    rw [exec_drainEnd_drained hx draining drained, State.endDrain_dirty held scrub]
  · exact exec_drainLimit_scrubs
  · exact fun hx scrubbing => exec_scrubDone_unawaited hx scrubbing

end Sys2Proof.Machine
end

section

/-!
### Caching agents at the home (05 R113, R116 to R119)

What each request or answer of a caching agent does to the line and to its entry of the directory.
-/

namespace Sys2Proof.Machine

open Sys2Proof

/-! #### What writes and log records leave as it is -/

@[simp] theorem State.markWritten_coh (s : State) (la : Nat) : (s.markWritten la).coh = s.coh := by
  simp only [State.markWritten]
  split
  · rfl
  · split
    · split <;> rfl
    · rfl

@[simp] theorem State.placeWrite_coh (s : State) (la : Nat) (bs : List Byte) (slot : Option Nat) :
    (s.placeWrite la bs slot).coh = s.coh := by
  simp only [State.placeWrite]
  split
  · exact State.markWritten_coh (s.poke la bs) la
  · exact State.markWritten_coh (s.poke la bs) la

@[simp] theorem State.dir?_placeWrite (s : State) (la line : Nat) (bs : List Byte) (slot : Option Nat) :
    (s.placeWrite la bs slot).dir? line = s.dir? line := by
  simp [State.dir?]

@[simp] theorem State.logFree_coh (s : State) (code cls tenant idx : Nat) : (s.logFree code cls tenant idx).coh = s.coh := by
  simp [State.logFree, State.draw, State.logError]

/-! #### Reads (05 R113, R116, R118) -/

/-- A line of HBM that its home serves to a tenant at once: it refuses nothing and awaits nothing for the line, no entry and no
snoop is of it, and its slice has room. -/
structure State.Untracked (s : State) (tenant la : Nat) : Prop where
  hbm : s.areaOf la = .hbm
  served : s.homeRefusal tenant la = none
  settled : s.awaitsTwin (lineOf la) = false
  unbuffered : s.coh.alb.any (fun e => e.line = lineOf la) = false
  untracked : s.dir? (lineOf la) = none
  quiet : s.coh.snoops.any (fun x => x.line = lineOf la) = false
  room : s.sliceUse (sliceOf (lineOf la)) < 8388608

/-- The state with a line entered for an agent that has read it: as its owner, or as its only sharer. -/
def State.entered (s : State) (own : Bool) (agent line : Nat) : State :=
  if own then s.makeOwner line agent else s.setDir line (some (.shared [agent]))

@[simp] theorem State.peek_entered (s : State) (own : Bool) (agent line la n : Nat) :
    (s.entered own agent line).peek la n = s.peek la n := by
  cases own <;> rfl

@[simp] theorem State.readsBad_entered (s : State) (own : Bool) (agent line m : Nat) :
    (s.entered own agent line).readsBad m = s.readsBad m := by
  cases own <;> rfl

theorem nameLine_go_of_not_mirrored {s : State} {line : Nat} (h : s.mirrors (line * 64) = false) :
    (nameLine line).go s = (.ok (), s) := by
  simp [nameLine, Eng.go_bind, h]

section
variable {s : State} {tenant la : Nat} (h : s.Untracked tenant la)
include h

theorem dirRead_go_of_untracked (own : Bool) (agent victim : Nat) :
    (dirRead own agent (lineOf la) victim).go s = (.ok (), s.entered own agent (lineOf la)) := by
  have room : (dirRoom (lineOf la) victim).go s = (.ok (), s) := by simp [dirRoom, Eng.go_bind, h.room]
  simp [dirRead, Eng.go_bind, h.quiet, h.untracked, room, State.entered, State.addSharer]

theorem agentHome_go_of_untracked {own : Bool} (agent victim : Nat) (named : own = true → s.mirrors (lineOf la * 64) = false) :
    (agentHome own agent tenant la victim).go s =
      (.ok (s.peek (lineOf la * 64) 64, s.readsBad (lineOf la)), s.entered own agent (lineOf la)) := by
  have enter := dirRead_go_of_untracked h own agent victim
  cases own with
  | false => simp [-List.any_eq_true, agentHome, Eng.go_bind, h.hbm, h.served, h.settled, h.unbuffered, enter]
  | true =>
    simp [-List.any_eq_true, agentHome, Eng.go_bind, h.hbm, h.served, h.settled, h.unbuffered, enter,
      nameLine_go_of_not_mirrored (named rfl)]

end

section
variable {s : State} {agent address : Nat} {r : AgentRow} (row : SMap.look s.coh.agents agent = some r) (enabled : r.enable = true)
  (serving : s.dataPath = true) (awake : s.awake = true)
include row enabled serving awake

/-- An agent's read of an untracked line of HBM is answered with the line, and enters it. -/
theorem State.agentRead_of_untracked {t : State} {own : Bool} {va ga la : Nat} (victim : Nat)
    (inWindow : agentVa r address = some va) (here : t.placeOf ga = .here la) (line : t.Untracked r.tenant la)
    (trans : (translate (agentWho agent r) r.asid va own).go s = (.ok ga, t))
    (named : own = true → t.mirrors (lineOf la * 64) = false) :
    s.agentRead own agent address victim =
      ((t.entered own agent (lineOf la)).setMail (.agent agent) []).answerAgent address (t.peek (lineOf la * 64) 64)
        (t.readsBad (lineOf la)) := by
  have run : (agentAccess own agent r va victim).go s = (.ok (t.peek (lineOf la * 64) 64, t.readsBad (lineOf la)),
      (t.entered own agent (lineOf la)).setMail (.agent agent) []) := by
    have mail (u : State) : (clearMail (agentWho agent r)).go u = (.ok (), u.setMail (.agent agent) []) := rfl
    simp [agentAccess, Eng.go_bind, trans, here, agentHome_go_of_untracked line agent victim named, mail]
  simp [State.agentRead, row, enabled, serving, awake, inWindow, run]

/-- 05 R113: a read outside the agent's window. -/
theorem State.agentRead_outside (own : Bool) (victim : Nat) (outside : agentVa r address = none) :
    s.agentRead own agent address victim =
      (s.answerAgent address [] true).logError 0x0004 (agentWho agent r).cls r.tenant agent address := by
  simp [State.agentRead, row, enabled, serving, awake, outside]

end

/-! #### Data given back (05 R117, Table 5-4) -/

theorem padTo_of_length {n : Nat} {bs : List Byte} (h : bs.length = n) : padTo n bs = bs := by
  simp [padTo, h]

section
variable {s : State} {agent line : Nat}

theorem State.applyLine_local {d : List Byte} (own : line < remoteKey 0) (whole : d.length = 64) :
    s.applyLine line d = s.placeWrite (line * 64) d none := by
  rw [State.applyLine, if_pos own, padTo_of_length whole]

theorem exec_agentWriteBack_owner {d : List Byte} (own : line < remoteKey 0) (whole : d.length = 64)
    (owner : s.dir? line = some (.exclusive agent)) :
    exec (.agentWriteBack agent line d) s = .next (((s.placeWrite (line * 64) d none).setDir line none).endOwner line) := by
  show execAgentWriteBack agent line d s = _
  rw [execAgentWriteBack, if_pos owner, State.applyLine_local own whole]

theorem exec_agentWriteBack_other (d : List Byte) (other : s.dir? line ≠ some (.exclusive agent)) :
    exec (.agentWriteBack agent line d) s = .next s := by
  show execAgentWriteBack agent line d s = _
  rw [execAgentWriteBack, if_neg other]

/-- The state in which the snoop `x` no longer waits for its answer. -/
def State.snoopAnswered (s : State) (x : Snoop) : State := { s with coh := { s.coh with snoops := s.coh.snoops.filter (· ≠ x) } }

theorem State.snoopAnswered_only {x : Snoop} (only : s.coh.snoops = [x]) :
    s.snoopAnswered x = { s with coh := { s.coh with snoops := [] } } := by
  simp [State.snoopAnswered, only]

/-- An answer to a snoop, where `owned` says whether the agent that gives it owns the line. -/
theorem State.answerSnoop_eq (x : Snoop) (data : Option (List Byte)) {owned : Bool}
    (h : decide (s.dir? x.line = some (.exclusive x.agent)) = owned) :
    s.answerSnoop x data =
      let t := data.elim (s.snoopAnswered x) fun d => if owned then (s.snoopAnswered x).applyLine x.line d else s.snoopAnswered x
      let u := t.setDir x.line ((t.dir? x.line).bind fun e => e.after x.agent x.kind)
      if owned then u.endOwner x.line else u := by
  subst h
  cases data <;> rfl

/-- Modified data that its owner gives in answer to a snoop takes its place, and the kind of the snoop decides the entry. -/
theorem State.answerSnoop_owner {x : Snoop} {d : List Byte} (own : x.line < remoteKey 0) (whole : d.length = 64)
    (owner : s.dir? x.line = some (.exclusive x.agent)) :
    s.answerSnoop x (some d) = ((((s.snoopAnswered x).placeWrite (x.line * 64) d none).setDir x.line
      ((DirEntry.exclusive x.agent).after x.agent x.kind)).endOwner x.line) := by
  have entry : (s.snoopAnswered x).dir? x.line = some (.exclusive x.agent) := owner
  rw [State.answerSnoop_eq x _ (decide_eq_true owner)]
  simp [State.applyLine_local own whole, entry]

/-- An answer without data of an agent that does not own the line only changes the entry. -/
theorem State.answerSnoop_not_owner {x : Snoop} (other : s.dir? x.line ≠ some (.exclusive x.agent)) :
    s.answerSnoop x none = (s.snoopAnswered x).setDir x.line ((s.dir? x.line).bind fun e => e.after x.agent x.kind) :=
  State.answerSnoop_eq x none (decide_eq_false other)

/-- Of a line whose owner has answered a request for data, the owner stays a sharer. -/
theorem DirEntry.after_data_owner (agent : Nat) : (DirEntry.exclusive agent).after agent .data = some (.shared [agent]) :=
  if_pos rfl

/-- A line whose owner has answered an invalidation has no entry. -/
theorem DirEntry.after_invalidate_owner (agent : Nat) : (DirEntry.exclusive agent).after agent .invalidate = none :=
  if_pos rfl

/-- An invalidation answered by an agent that is no sharer leaves the sharers. -/
theorem DirEntry.after_shared_other {l : List Nat} (nonempty : l ≠ []) (other : agent ∉ l) :
    (DirEntry.shared l).after agent .invalidate = some (.shared l) := by
  have kept : l.filter (· ≠ agent) = l := List.filter_eq_self.2 fun a ha => by simpa using fun e : a = agent => other (e ▸ ha)
  rw [DirEntry.after, kept, if_neg (by simpa using nonempty)]

section
variable {k : SnoopKind} {b : Bool} (asked : s.coh.snoops = [{ agent, line, kind := k, recalled := b }])
include asked

/-- The answer to the one snoop that waits; "not held" is counted. -/
theorem exec_snoopAnswer_only (data : Option (List Byte)) (held : Bool) :
    exec (.snoopAnswer agent line data held) s =
      let t := s.answerSnoop { agent, line, kind := k, recalled := b } data
      .next (if data.isNone && !held then t.bump (dkey 0x5003 2) 1 else t) := by
  show execSnoopAnswer agent line data held s = _
  simp [execSnoopAnswer, asked]

theorem exec_snoopAnswer_owner {d : List Byte} (held : Bool) (own : line < remoteKey 0) (whole : d.length = 64)
    (owner : s.dir? line = some (.exclusive agent)) :
    exec (.snoopAnswer agent line (some d) held) s = .next
      (((({ s with coh := { s.coh with snoops := [] } } : State).placeWrite (line * 64) d none).setDir line
        ((DirEntry.exclusive agent).after agent k)).endOwner line) := by
  rw [exec_snoopAnswer_only asked, State.answerSnoop_owner own whole owner, State.snoopAnswered_only asked]
  rfl

theorem exec_snoopAnswer_not_sharer {l : List Nat} (inv : k = .invalidate) (shared : s.dir? line = some (.shared l))
    (nonempty : l ≠ []) (other : agent ∉ l) :
    exec (.snoopAnswer agent line none false) s = .next
      ((({ s with coh := { s.coh with snoops := [] } } : State).setDir line (some (.shared l))).bump (dkey 0x5003 2) 1) := by
  subst inv
  rw [exec_snoopAnswer_only asked, State.answerSnoop_not_owner (by simp [shared]), State.snoopAnswered_only asked, shared,
    Option.bind_some, DirEntry.after_shared_other nonempty other]
  rfl

end

end

/-! #### An agent that does not answer (05 R119) -/

theorem SMap.mem_of_look {α : Type} {m : SMap α} {k : Nat} {v : α} (h : SMap.look m k = some v) : (k, v) ∈ m := by
  induction m with
  | nil => cases h
  | cons p rest ih =>
    obtain ⟨a, b⟩ := p
    rw [SMap.look] at h
    split at h
    · rename_i e
      cases h
      exact e ▸ List.mem_cons_self
    · exact List.mem_cons_of_mem _ (ih h)

@[simp] theorem State.unnameLine_log (s : State) (line : Nat) : (s.unnameLine line).log = s.log := by
  unfold State.unnameLine
  split <;> rfl

@[simp] theorem State.endOwner_log (s : State) (line : Nat) : (s.endOwner line).log = s.log :=
  State.unnameLine_log _ line

@[simp] theorem State.poisonHeld_log (s : State) (line : Nat) : (s.poisonHeld line).log = s.log := by
  unfold State.poisonHeld
  split
  · exact State.poisonLine_log s line
  · rfl

@[simp] theorem State.dropAgent_log (s : State) (agent : Nat) : (s.dropAgent agent).log = s.log :=
  List.foldlRecOn (motive := fun t : State => t.log = s.log) _ _ rfl fun t h line _ => by simpa using h

/-- What an agent's invalidation leaves of an entry does not name the agent. -/
theorem DirEntry.not_named_of_after {e x : DirEntry} {agent : Nat} (h : x.after agent .invalidate = some e) :
    e ≠ .exclusive agent ∧ ∀ l, e = .shared l → agent ∉ l := by
  cases x with
  | shared l =>
    simp only [DirEntry.after] at h
    split at h
    · cases h
    · cases h
      exact ⟨nofun, fun l' e => by cases e; simp⟩
  | broadcast => cases h; exact ⟨nofun, nofun⟩
  | exclusive a =>
    simp only [DirEntry.after] at h
    split at h
    · cases h
    · rename_i other
      cases h
      exact ⟨fun e => other (DirEntry.exclusive.inj e), nofun⟩

/-- An entry that is left once an agent is dropped is one that does not name it. -/
theorem State.not_named_dropAgent {s : State} {agent line : Nat} {e : DirEntry} (h : (s.dropAgent agent).dir? line = some e) :
    e ≠ .exclusive agent ∧ ∀ l, e = .shared l → agent ∉ l := by
  obtain ⟨⟨l, x⟩, -, kept⟩ := List.mem_filterMap.1 (SMap.mem_of_look h)
  obtain ⟨y, after, same⟩ := Option.map_eq_some_iff.1 kept
  cases same
  exact DirEntry.not_named_of_after after

/-- 05 R119: the agent is disabled, and no snoop and no entry names it any more. -/
theorem exec_snoopTimeout_drops {s : State} {agent : Nat} {r : AgentRow} (row : SMap.look s.coh.agents agent = some r)
    (silent : s.coh.snoops.any (fun x => x.agent = agent) = true) :
    ∃ t, exec (.snoopTimeout agent) s = .next t ∧
      SMap.look t.coh.agents agent = some { r with enable := false } ∧
      (∀ x ∈ t.coh.snoops, x.agent ≠ agent) ∧
      (∀ line, t.dir? line ≠ some (.exclusive agent)) ∧
      (∀ line l, t.dir? line = some (.shared l) → agent ∉ l) ∧ t.mem = s.mem ∧ t.log.newest = s.log.newest + 1 := by
  let u := (s.dropAgent agent).logFree 0x0005 (agentWho agent r).cls r.tenant agent
  have coh : u.coh = (s.dropAgent agent).coh := State.logFree_coh ..
  have entry {line e} (h : u.dir? line = some e) : e ≠ .exclusive agent ∧ ∀ l, e = .shared l → agent ∉ l :=
    State.not_named_dropAgent (by rwa [State.dir?, coh] at h)
  refine ⟨{ u with coh := { u.coh with agents := SMap.put u.coh.agents agent { r with enable := false } } }, ?_, ?_, ?_, ?_,
    ?_, ?_, ?_⟩
  · show execSnoopTimeout agent s = _
    rw [execSnoopTimeout, row]
    exact congrArg _ (if_pos silent)
  · exact SMap.look_put_same ..
  · intro x hx
    rw [coh] at hx
    simpa using (List.mem_filter.1 hx).2
  · exact fun line h => (entry h).1 rfl
  · exact fun line l h => (entry h).2 l rfl
  · exact (State.logFree_mem).trans State.dropAgent_mem
  · exact (State.logFree_newest ..).trans (by rw [State.dropAgent_log])

/-- Settles O15, command by command. -/
theorem agentsReadReturnAndAreDropped : Obligations.AgentsReadReturnAndAreDropped := by
  refine ⟨fun s t agent address victim va ga la r => ?_, fun s agent line d own whole => ⟨?_, ?_, ?_, ?_⟩, ?_⟩
  · intro who line row enabled serving awake
    refine ⟨fun inWindow here hbm served settled unbuffered untracked quiet room => ?_, fun outside => ⟨?_, ?_⟩⟩
    · have fresh : t.Untracked r.tenant la := ⟨hbm, served, settled, unbuffered, untracked, quiet, room⟩
      have read {own : Bool} := State.agentRead_of_untracked (own := own) row enabled serving awake victim inWindow here fresh
      exact ⟨fun trans => congrArg _ (read trans nofun), fun trans plain => congrArg _ (read trans fun _ => plain)⟩
    · exact congrArg _ (State.agentRead_outside row enabled serving awake false victim outside)
    · exact congrArg _ (State.agentRead_outside row enabled serving awake true victim outside)
  · exact exec_agentWriteBack_owner own whole
  · exact exec_agentWriteBack_other d
  · intro k b held owner asked
    have answer := exec_snoopAnswer_owner asked held own whole owner
    cases k with
    | data => rwa [DirEntry.after_data_owner] at answer
    | invalidate => rwa [DirEntry.after_invalidate_owner] at answer
  · exact fun l b shared nonempty other asked => exec_snoopAnswer_not_sharer asked rfl shared nonempty other
  · exact fun s agent r => exec_snoopTimeout_drops

end Sys2Proof.Machine
end

section

/-!
### Agent rows, home atomics and watched lines (05 R113, R114, R120 to R122, R126)
-/

namespace Sys2Proof.Machine

open Sys2Proof

/-! #### Rows of AGENT_TABLE -/

/-- 05 R113, R114: a row written over one that is not enabled recalls no line. -/
theorem State.writeAgent_of_disabled {s : State} {agent : Nat} {row : AgentRow} (known : agent < 64)
    (idle : (SMap.get s.coh.agents agent noAgent).enable = false) (port : row.port < 18)
    (index : row.index < if row.port < 2 then 1 else 4)
    (bound : row.enable = true → ∃ a, s.asid? row.asid = some a ∧ a.tenant = row.tenant) :
    s.writeAgent agent row = (.ok,
      ({ s with coh := { s.coh with agents := SMap.putD s.coh.agents agent row noAgent } } : State).inProfile
        fun p => { p with agents := SMap.putD p.agents agent row noAgent }) := by
  have owned : (row.enable && (s.asid? row.asid).map (·.tenant) ≠ some row.tenant) = false := by
    cases enabled : row.enable with
    | false => rfl
    | true =>
      obtain ⟨a, ha, same⟩ := bound enabled
      simp [ha, same]
  have inRange : ¬ (row.port ≥ 18 || row.index ≥ (if row.port < 2 then 1 else 4) ||
      (row.enable && (s.asid? row.asid).map (·.tenant) ≠ some row.tenant)) = true := by
    rw [owned]
    simp only [Bool.or_false, Bool.or_eq_true, decide_eq_true_eq]
    omega
  rw [State.writeAgent, if_neg (Nat.not_le.2 known), if_neg (by simp [idle]), if_neg inRange, if_neg (by simp [idle])]

/-! #### Atomics at their home -/

section
variable {s : State} {tenant la : Nat} (hbm : s.areaOf la = .hbm) (served : s.homeRefusal tenant la = none)
  (settled : s.awaitsTwin (lineOf la) = false) (untracked : s.dir? (lineOf la) = none)
include hbm served settled untracked

/-- A line of HBM that no agent holds is gained at once. -/
theorem homeClaim_go_of_untracked : (homeClaim tenant la).go s = (.ok (), s) := by
  simp [homeClaim, Eng.go_bind, hbm, served, settled, State.holders, untracked]

/-- The state after an atomic at its home (05 R121): the line's entry of the buffer is the newest, and the result takes its
place. -/
def State.atomicDone (s : State) (tenant la op size operand compare : Nat) : State :=
  let n := atomicBytes size
  let old := leNat (s.peek la n)
  (((s.albTouch (lineOf la)).placeWrite la (leBytes n (atomicResult op (8 * n) old operand compare)) none).countWork tenant none 8
    (if op = 0xA then 0x0 else 0xF) 1).bump (dkey 0x5011 2) 1

theorem atomicAtHome_go_of_untracked (op size operand compare : Nat) (room : s.albFull (lineOf la) = false)
    (sound : s.readsBad (lineOf la) = false) :
    (atomicAtHome tenant la op size operand compare none).go s =
      (.ok (leNat (s.peek la (atomicBytes size))), s.atomicDone tenant la op size operand compare) := by
  have claim := homeClaim_go_of_untracked hbm served settled untracked
  simp [atomicAtHome, Eng.go_bind, claim, hbm, room, sound, State.atomicDone]

end

theorem exec_homeAtomic_untracked {s : State} {r : AtomicRequest} (allowed : atomicAllowed r.op.toNat r.size.toNat = true)
    (aligned : r.address % atomicBytes r.size.toNat = 0) (hbm : s.areaOf r.address = .hbm)
    (served : s.homeRefusal r.tenant r.address = none) (settled : s.awaitsTwin (lineOf r.address) = false)
    (untracked : s.dir? (lineOf r.address) = none) (room : s.albFull (lineOf r.address) = false)
    (sound : s.readsBad (lineOf r.address) = false) :
    let t := s.atomicDone r.tenant r.address r.op.toNat r.size.toNat r.operand.toNat r.compare.toNat
    exec (.homeAtomic r) s = .next (({ t with coh := { t.coh with
      albReturn := leNat (s.peek r.address (atomicBytes r.size.toNat)) } } : State).checkRetire r.address) := by
  intro t
  show execHomeAtomic r s = _
  have run := atomicAtHome_go_of_untracked hbm served settled untracked r.op.toNat r.size.toNat r.operand.toNat r.compare.toNat
    room sound
  simp only [execHomeAtomic]
  rw [if_neg (by simp [allowed, aligned]), run]

/-! #### The atomic line buffer -/

section
variable {s : State} {die : Nat}

theorem exec_albHoldExpiry_settled {line : Nat} (held : s.coh.alb.any (fun e => e.die = die && e.line = line) = true)
    (settled : s.awaitsTwin line = false) : exec (.albHoldExpiry die line) s = .next ((s.albFree line).albGive die) := by
  show execAlbHoldExpiry die line s = _
  rw [execAlbHoldExpiry, if_pos (by rw [held, settled]; rfl)]

theorem exec_albEntryChoice_oldest {r : AtomicRequest} {e : AlbEntry}
    (waits : s.coh.albWaiting.find? (fun r => sliceOf (lineOf r.address) = die) = some r)
    (full : s.albFull (lineOf r.address) = true) (oldest : s.albOldest die = some e) (settled : s.awaitsTwin e.line = false) :
    exec (.albEntryChoice die) s = .next ((s.albFree e.line).albGive die) := by
  show execAlbEntryChoice die s = _
  simp only [execAlbEntryChoice, waits, full, oldest, settled]
  rfl

end

/-! #### Watched lines -/

theorem exec_watchRecallExpiry_owned {s : State} {line a : Nat} {w : Watch} (watched : SMap.look s.coh.watches line = some w)
    (runs : w.timer = true) (owner : s.dir? line = some (.exclusive a)) (quiet : s.coh.snoops = []) :
    let t : State := { s with coh := { s.coh with watches := SMap.put s.coh.watches line { w with timer := false } } }
    let u := t.bump (dkey 0x5010 1) 1
    exec (.watchRecallExpiry line) s = .next { u with coh := { u.coh with
      snoops := [{ agent := a, line, kind := .data, recalled := true }] } } := by
  intro t u
  have entry : SMap.look s.coh.dir line = some (.exclusive a) := owner
  show execWatchRecallExpiry line s = _
  simp [execWatchRecallExpiry, watched, runs, State.dir?, entry, quiet, u, t]

/-- Settles O16, command by command. -/
theorem homesKeepAtomicsAndWatchedLines : Obligations.HomesKeepAtomicsAndWatchedLines := by
  refine fun s => ⟨?_, ?_, ?_, ?_, ?_⟩
  · exact fun agent row managed known idle port index bound =>
      congrArg _ (manageData_ok _ _ _ _ managed (State.writeAgent_of_disabled known idle port index bound))
  · exact fun r => exec_homeAtomic_untracked
  · exact fun die line => exec_albHoldExpiry_settled
  · exact fun die r e => exec_albEntryChoice_oldest
  · exact fun line a w => exec_watchRecallExpiry_owned

end Sys2Proof.Machine
end

section

/-!
### Flushes and versioned regions (05 R132 to R137)

The commands at the package that holds a region, the making of a region, and the home's side of a PUBLISH of another package.
-/

namespace Sys2Proof.Machine

open Sys2Proof

/-! #### Commands that have begun, and requests that wait -/

/-- A command that has begun runs its action on. -/
theorem runSlot_of_begun {s : State} {n op : Nat} {sl : Slot} (h : s.begun n op sl)
    (body : Slot → Eng (Status × Nat × Nat)) : runSlot op n body s = endSlot n ((body sl).go s) := by
  obtain ⟨hn, ho, stage, hd⟩ := h
  have begun : sl.stage ≠ .fetched ∧ sl.stage ≠ .finished := by rcases stage with e | e <;> simp [e]
  exact runSlotIf_running op n _ body s sl hn ho rfl begun.1 begun.2 hd

/-- No response to a request that arrives for this package is stored. -/
theorem State.received.unstored {s : State} {type : Nat} {k : Packet} (h : s.received type k) :
    (if storedType (packetHead k) && (packetHead k).reissue then
      (SMap.look (s.takeIn k).fab.stored (requestKey (packetHead k))).orElse fun _ =>
        SMap.look (s.takeIn k).twin.mirrored (requestKey (packetHead k)) else none) = none := by
  obtain ⟨-, -, -, -, -, other | first | ⟨stored, mirrored⟩⟩ := h
  · simp [other]
  · simp [first]
  · have stored' : SMap.look (s.takeIn k).fab.stored (requestKey (packetHead k)) = none := stored
    have mirrored' : SMap.look (s.takeIn k).twin.mirrored (requestKey (packetHead k)) = none := mirrored
    simp [stored', mirrored']

/-- A request that is served now and waits stays held. -/
theorem serve_wait {s t : State} {type : Nat} {k : Packet} {body : Head → Eng (Head × List Byte × List Nat)}
    (h : s.received type k) (run : (body (packetHead k)).go (s.taken k) = (.error .wait, t)) : serve type k body s = t := by
  have unstored := h.unstored
  obtain ⟨isType, mine, serves, awake, unanswered, -⟩ := h
  have mine' : (s.takeIn k).isMine (packetHead k) = true := mine
  have serves' : (s.takeIn k).servesNone = false := serves
  have awake' : (s.takeIn k).awake = true := awake
  have unanswered' : ((s.takeIn k).held? (packetHead k).src (packetHead k).tag).bind (·.answer) = none := unanswered
  rw [State.taken] at run
  simp only [serve]
  rw [if_neg (by simp [isType, mine']), if_neg (by simp [serves']), if_neg (by simp [awake']), if_neg (by simp [unanswered']),
    unstored, run]

theorem homeAddress_go_of_here {s : State} {q : Head} {a la : Nat} (h : s.place q.dst a = .here la) :
    (homeAddress q a).go s = (.ok la, s) := by
  simp [homeAddress, Eng.go_bind, h]

/-! #### FLUSH (05 R132) -/

section
variable {s : State} {n : Nat} {sl : Slot}

/-- A FLUSH whose lines are written back or dropped, with no write on its way and no answer that failed. -/
theorem exec_flush_clear {t : State} {u : Unit} (h : s.ready n 0x40 sl) (lo : 1 ≤ sl.f 192 64) (hi : sl.f 192 64 ≤ 2 ^ 50)
    (flushed : (flushLines (sl.who n 5) (sl.f 320 1 = 1) ((s.dispatch n sl).cachedIn
      ((s.dispatch n sl).mappedRanges sl.asid (sl.f 128 57) (sl.f 192 64)))).go (s.dispatch n sl) = (.ok u, t))
    (landed : t.fab.tags = []) (answered : t.mailbox (sl.who n 5).waiter = []) :
    exec (.flush n) s = .next (t.finish n .ok 0 0) := by
  show execFlush n s = _
  rw [execFlush, runSlot, runSlotIf_of_ready h rfl]
  simp only [Slot.run_f, Slot.run_who, Slot.run_asid]
  rw [Eng.go_needE_bind _ _ _ (by simp [-Nat.reducePow, lo, hi]), Eng.go_bind_ok _ _ _ _ _ (Eng.go_get _),
    Eng.go_bind_ok _ _ _ _ _ flushed, Eng.go_bind_ok _ _ _ _ _ (Eng.go_get _), Eng.go_holdE_bind _ _ (by simp [landed]), answered]
  rfl

/-! #### PUBLISH and VERSION_QUERY of a region of this package (05 R134, R136) -/

section
variable {t : State} {ga la id : Nat} {r : Region} (zero : sl.f 192 64 = 0) (here : t.placeOf ga = .here la)
  (known : t.regionAt la = some (id, r))
include zero here known

theorem exec_publish_opens (h : s.ready n 0x41 sl) (fresh : sl.cursor = 0)
    (trans : (translate (sl.who n 5) sl.asid (sl.f 128 57) true).go (s.dispatch n sl) = (.ok ga, t)) :
    exec (.publish n) s = .next ((t.updSlot n fun x => { x with cursor := 1 }).takeOpen id
      { package := none, tag := sl.seq, announced := 0, base := sl.f 256 64, granted := false, received := 0, staged := [] }) := by
  show execPublish n s = _
  rw [execPublish, runSlot, runSlotIf_of_ready h rfl]
  simp [Eng.go_bind, zero, trans, here, known, fresh, setCursor]

theorem exec_publish_accepted {x : Resp} (h : s.begun n 0x41 sl) (opened : sl.cursor = 1)
    (trans : (translate (sl.who n 5) sl.asid (sl.f 128 57) true).go s = (.ok ga, t))
    (answer : sl.resp.find? (fun r => r.address = partMark) = some x) (ok : x.status = 0) :
    exec (.publish n) s = .next ((t.advanceVersion id r (some n)).finish n .ok 0 (r.version + 1)) := by
  have check : x.check.go t = (.ok (), t) := by simp [Resp.check, ok, statusOf, Status.isOk, Status.code]
  show execPublish n s = _
  rw [execPublish, runSlot_of_begun h]
  simp [Eng.go_bind, zero, trans, here, known, opened, answer, ok, check]

theorem exec_versionQuery_here (h : s.ready n 0x42 sl)
    (trans : (translate (sl.who n 5) sl.asid (sl.f 128 57) false).go (s.dispatch n sl) = (.ok ga, t)) :
    exec (.versionQuery n) s = .next (t.finish n .ok 0 r.version) := by
  show execVersionQuery n s = _
  rw [execVersionQuery, runSlot, runSlotIf_of_ready h rfl]
  simp [Eng.go_bind, zero, trans, here, queryHere, known]

end

/-! #### REGION_CONFIG (05 R133) -/

theorem exec_regionCreate_here {t u : State} {v : Unit} {ga la : Nat} (h : s.ready n 0x43 sl) (op : sl.f 321 1 = 0)
    (units : sl.f 192 64 % 2 ^ 16 = 0) (lo : 2 ^ 16 ≤ sl.f 192 64) (hi : sl.f 192 64 ≤ 2 ^ 36)
    (range : (rangePieces (sl.who n 5) sl.asid (sl.f 128 57) (sl.f 192 64) false (sl.f 192 64 / 2 ^ 16 + 1)).go
      (s.dispatch n sl) = (.ok [(ga, sl.f 192 64)], t)) (here : t.placeOf ga = .here la)
    (made : (createRegion sl.tenant [(la, sl.f 192 64)] (sl.f 192 64) (some n)).go t = (.ok v, u)) :
    exec (.regionCreate n) s = .next (u.finish n .ok 0 0) := by
  show execRegionCreate n s = _
  rw [execRegionCreate, regionConfig, runSlotIf_of_ready h (by simp [op])]
  simp [-Nat.reducePow, Eng.go_bind, units, lo, hi, range, joinRanges, here, made]

theorem exec_regionDestroy_idle {t : State} {ga la id : Nat} {r : Region} (h : s.ready n 0x43 sl) (op : sl.f 321 1 = 1)
    (trans : (translate (sl.who n 5) sl.asid (sl.f 128 57) false).go (s.dispatch n sl) = (.ok ga, t))
    (here : t.placeOf ga = .here la) (known : t.regionAt la = some (id, r)) (idle : r.current = none) :
    exec (.regionDestroy n) s = .next
      ((({ t with rlc := { t.rlc with regions := SMap.del t.rlc.regions id } } : State).mirrorMeta (some n)).finish n .ok 0 0) := by
  show execRegionDestroy n s = _
  rw [execRegionDestroy, regionConfig, runSlotIf_of_ready h (by simp [op])]
  simp [Eng.go_bind, trans, here, destroyRegion, known, idle]

end

/-- 05 R134: the publish that is next and fits takes staging. -/
theorem exec_publishStagingGrant_next {s : State} {id : Nat} {r : Region} {p : Publish}
    (known : SMap.look s.rlc.regions id = some r) (current : r.current = some p) (waits : p.granted = false)
    (next : s.nextStaging = some id) (fits : s.stagingUsed + p.announced ≤ s.stagingLines) :
    exec (.publishStagingGrant id) s = .next
      ((s.setRegion id { r with current := some { p with granted := true } }).answerOpen p .ok r.version) := by
  show execPublishStagingGrant id s = _
  simp only [execPublishStagingGrant, State.grantStaging, known, current]
  rw [if_neg (by simp [waits, next, fits])]

/-! #### A region that is made (05 R133) -/

theorem countP_le_eq_count_add (l : List Nat) (n : Nat) : l.countP (n ≤ ·) = l.count n + l.countP (n + 1 ≤ ·) := by
  induction l with
  | nil => rfl
  | cons a l ih =>
    simp only [List.countP_cons, List.count_cons, ih, decide_eq_true_eq, beq_iff_eq]
    rcases Nat.lt_trichotomy a n with hlt | rfl | hgt
    · simp [show ¬ n ≤ a by omega, show ¬ n + 1 ≤ a by omega, hlt.ne]
    · simp [Nat.add_right_comm]
    · simp [hgt.le, Nat.succ_le_of_lt hgt, hgt.ne', Nat.add_assoc]

/-- The least free number is free, if the numbers from `n` on that are taken are no more than those searched. -/
theorem leastFree_not_mem {l : List Nat} {fuel n : Nat} (h : l.countP (n ≤ ·) ≤ fuel) : leastFree l fuel n ∉ l := by
  induction fuel generalizing n with
  | zero =>
    have below := List.countP_eq_zero.1 (Nat.le_zero.1 h)
    exact fun taken => by simpa using below n taken
  | succ f ih =>
    rw [leastFree]
    split
    · rename_i taken
      have once : 0 < l.count n := List.count_pos_iff.2 (by simpa using taken)
      have := countP_le_eq_count_add l n
      exact ih (by omega)
    · rename_i free
      simpa using free

theorem SMap.look_eq_none_of_not_mem_keys {α : Type} {m : SMap α} {k : Nat} (h : k ∉ SMap.keys m) : SMap.look m k = none :=
  Option.eq_none_iff_forall_ne_some.2 fun _ found => h (List.mem_map_of_mem (f := Prod.fst) (SMap.mem_of_look found))

@[simp] theorem State.mirrorMeta_rlc (s : State) (slot : Option Nat) : (s.mirrorMeta slot).rlc = s.rlc := by
  unfold State.mirrorMeta
  split
  · cases slot <;> rfl
  · rfl

/-- An action that goes on past a check has passed it. -/
theorem Eng.go_needE_bind_ok {α : Type} {b : Bool} {st : Status} {f : Unit → Eng α} {s t : State} {a : α}
    (h : (needE b st >>= f).go s = (.ok a, t)) : b = true ∧ (f ()).go s = (.ok a, t) := by
  cases b with
  | true => exact ⟨rfl, h⟩
  | false => cases h

/-- What the making of a region that succeeds has checked and does. -/
theorem createRegion_ok {s t : State} {tenant length : Nat} {pieces : List (Nat × Nat)} {slot : Option Nat} {u : Unit}
    (h : (createRegion tenant pieces length slot).go s = (.ok u, t)) :
    s.rlc.regions.length < s.val (dkey 0x5021 2) ∧ (∀ r ∈ s.rlc.regions, rangesShare r.2.pieces pieces = false) ∧
      t = (s.setRegion (leastFree (SMap.keys s.rlc.regions) 4096 0)
        { pieces, length, tenant, version := 0, current := none, waiting := [] }).mirrorMeta slot := by
  rw [createRegion, Eng.go_bind_ok _ _ _ _ _ (Eng.go_get _)] at h
  obtain ⟨checked, made⟩ := Eng.go_needE_bind_ok h
  simp only [Bool.and_eq_true, decide_eq_true_eq, Bool.not_eq_true'] at checked
  obtain ⟨⟨-, room⟩, apart⟩ := checked
  exact ⟨room, fun r hr => by simpa using List.any_eq_false.1 apart r hr, (congrArg Prod.snd made).symm⟩

/-- A region that is made starts at version 0 under a number that was free, apart from every other region, and changes no other
region. -/
theorem createRegion_makes {s t : State} {tenant length : Nat} {pieces : List (Nat × Nat)} {slot : Option Nat} {u : Unit}
    (few : s.val (dkey 0x5021 2) ≤ 4096) (h : (createRegion tenant pieces length slot).go s = (.ok u, t)) :
    ∃ id, SMap.look s.rlc.regions id = none ∧
      SMap.look t.rlc.regions id = some { pieces, length, tenant, version := 0, current := none, waiting := [] } ∧
      t.mem = s.mem ∧ (∀ other, other ≠ id → SMap.look t.rlc.regions other = SMap.look s.rlc.regions other) ∧
      ∀ r ∈ s.rlc.regions, rangesShare r.2.pieces pieces = false := by
  obtain ⟨room, apart, rfl⟩ := createRegion_ok h
  have taken : (SMap.keys s.rlc.regions).countP (0 ≤ ·) ≤ 4096 := by
    have keys : (SMap.keys s.rlc.regions).length = s.rlc.regions.length := List.length_map ..
    have := List.countP_le_length (p := fun k => decide (0 ≤ k)) (l := SMap.keys s.rlc.regions)
    omega
  refine ⟨_, SMap.look_eq_none_of_not_mem_keys (leastFree_not_mem taken), ?_, ?_, fun other ne => ?_, apart⟩
  · rw [State.mirrorMeta_rlc]
    exact SMap.look_put_same ..
  · exact State.mirrorMeta_mem
  · rw [State.mirrorMeta_rlc]
    exact SMap.look_put_other _ _ _ _ ne

/-! #### The packets of a PUBLISH at the region's home (05 R134, R135, R137) -/

section
variable {s : State} {k : Packet} {base id : Nat} {r : Region}

/-- An open request is taken and held until it is answered. -/
theorem exec_pubOpen_taken {la : Nat} (h : s.received 0x05 k)
    (here : (s.taken k).place (packetHead k).dst (packetHead k).addr = .here la)
    (permit : (permitE (packetHead k).tenant la).go (s.taken k) = (.ok (), s.taken k))
    (known : (s.taken k).regionAt la = some (id, r))
    (current : r.current.any (fun p => p.package = some (packetHead k).src && p.tag = (packetHead k).tag) = false)
    (waiting : r.waiting.any (fun p => p.package = some (packetHead k).src && p.tag = (packetHead k).tag) = false) :
    exec (.pubOpen k) s = .next ((s.taken k).takeOpen id
      { package := some (packetHead k).src, tag := (packetHead k).tag, announced := leNat (k.payload.drop 8 |>.take 8),
        base := leNat (k.payload.take 8), granted := false, received := 0, staged := [] }) := by
  show execPubOpen k s = _
  refine congrArg _ (serve_wait h ?_)
  rw [Eng.go_bind_ok _ _ _ _ _ (homeAddress_go_of_here here), Eng.go_bind_ok _ _ _ _ _ permit,
    Eng.go_bind_ok _ _ _ _ _ (Eng.go_get _), known]
  dsimp only
  rw [if_neg (by rw [current, waiting]; exact Bool.false_ne_true)]
  rfl

section
variable {t : State} {q : Head} {p : Publish} (known : t.regionAt base = some (id, r)) (current : r.current = some p)
  (mine : p.package = some q.src) (granted : p.granted = true)
include known current mine granted

theorem publishOf_go_of_granted : (publishOf q base).go t = (.ok (id, r, p), t) := by
  simp [publishOf, Eng.go_bind, known, current, mine, granted]

end

/-- A line that is not staged yet is staged, and counted. -/
theorem exec_pubLine_staged {la : Nat} {p : Publish} (h : s.received 0x09 k)
    (region : (s.taken k).place (packetHead k).dst (packetHead k).ctr = .here base)
    (here : (s.taken k).place (packetHead k).dst (packetHead k).addr = .here la)
    (known : (s.taken k).regionAt base = some (id, r)) (current : r.current = some p)
    (mine : p.package = some (packetHead k).src) (granted : p.granted = true) (inside : inRanges r.pieces (lineOf la) = true)
    (new : p.staged.any (fun (l, _, _) => l = lineOf la) = false) :
    exec (.pubLine k) s = .next (((s.taken k).setRegion id { r with current := some { p with
      received := p.received + 1
      staged := p.staged.filter (fun (l, _, _) => l ≠ lineOf la) ++
        [(lineOf la, k.payload.take 64, BitVec.ofNat 64 (leNat (k.payload.drop 64)))] } }).reply k
      (plainHead (packetHead k) .ok) [] []) := by
  show execPubLine k s = _
  refine congrArg _ (serve_ok _ _ _ _ _ _ _ _ h ?_)
  rw [Eng.go_bind_ok _ _ _ _ _ (homeAddress_go_of_here region), Eng.go_bind_ok _ _ _ _ _ (homeAddress_go_of_here here),
    Eng.go_bind_ok _ _ _ _ _ (publishOf_go_of_granted known current mine granted), Eng.go_needE_bind _ _ _ inside]
  simp only [new]
  rfl

/-- Once every line announced is staged, the lines are applied and the version advances by 1. -/
theorem exec_pubEnd_applied {p : Publish} {u : State} {v : Unit} (h : s.received 0x0A k)
    (region : (s.taken k).place (packetHead k).dst (packetHead k).addr = .here base)
    (known : (s.taken k).regionAt base = some (id, r)) (current : r.current = some p)
    (mine : p.package = some (packetHead k).src) (granted : p.granted = true) (whole : p.announced ≤ p.received)
    (applied : (applyStaged (packetHead k).tenant id r p p.staged).go (s.taken k) = (.ok v, u)) :
    exec (.pubEnd k) s = .next ((u.advanceVersion id { r with current := none } none).reply k (plainHead (packetHead k) .ok)
      (versionPayload (r.version + 1) p.announced) (p.staged.map (·.1))) := by
  show execPubEnd k s = _
  refine congrArg _ (serve_ok _ _ _ _ _ _ _ _ h ?_)
  rw [Eng.go_bind_ok _ _ _ _ _ (homeAddress_go_of_here region),
    Eng.go_bind_ok _ _ _ _ _ (publishOf_go_of_granted known current mine granted),
    Eng.go_holdE_bind _ _ (by simpa using whole), Eng.go_bind_ok _ _ _ _ _ applied]
  rfl

end

/-- Settles O17, command by command. -/
theorem regionsArePublishedAtTheirHome : Obligations.RegionsArePublishedAtTheirHome := by
  refine ⟨fun s n sl => ⟨?_, ?_, ?_, ?_, ?_, ?_, ?_⟩, ?_, fun s k la base id r => ⟨?_, ?_, ?_⟩⟩
  · exact fun t u h lo hi => exec_flush_clear h lo hi
  · exact fun ga la id t r h zero fresh trans here known => exec_publish_opens zero here known h fresh trans
  · exact fun ga la id t r x h zero opened trans here known => exec_publish_accepted zero here known h opened trans
  · exact fun ga la id t r h zero trans here known => exec_versionQuery_here zero here known h trans
  · intro ga la len t u v h op hlen units lo hi range here made
    subst hlen
    exact exec_regionCreate_here h op units lo hi range here made
  · exact fun ga la id t r => exec_regionDestroy_idle
  · exact fun id r p => exec_publishStagingGrant_next
  · exact fun s t tenant len pieces u _ few made => createRegion_makes few made
  · exact exec_pubOpen_taken
  · exact fun p => exec_pubLine_staged
  · exact fun p u v => exec_pubEnd_applied

end Sys2Proof.Machine
end

section

/-!
### Pool operations (05 R139, R141 to R143, log 32)

FILL, COPY, COMPARE and REDUCE where none of their units waits or fails: they complete with what their last unit left.
-/

namespace Sys2Proof.Machine

open Sys2Proof

/-- The end of a pool operation takes its count from its slot. -/
theorem poolEnd_go {t : State} {n : Nat} {x : Slot} (last : t.slot? n = some x) :
    (poolEnd n).go t = (.ok (.ok, x.count, 0), t) := by
  rw [poolEnd, Eng.go_bind_ok _ _ _ _ _ (Eng.go_getSlot n x t last)]
  rfl

/-- The state in which slot `n` keeps the lines of a result that has been read whole. -/
def State.keeping (s : State) (w : Who) (n : Nat) (l : List Nat) : State :=
  (s.updSlot n fun x => { x with marks := l }).setMail w.waiter []

theorem keepLines_go (w : Who) (n : Nat) (l : List Nat) (s : State) :
    (keepLines w n l).go s = (.ok (), s.keeping w n l) := rfl

/-- A result that has been kept is written line by line, and the command completes with the count of its lines. -/
theorem writeKept_go {w : Who} {t t' : State} {n va len : Nat} {sl x y : Slot} {l : List Nat} {u : Unit}
    (holds : t.slot? n = some y) (kept : y.marks = l) (written : (units w n (lineCount va len) (poolLine w n sl va len fun i =>
      keptLine (lineAt va len i).2 (l.getD i 0))).go t = (.ok u, t')) (last : t'.slot? n = some x) :
    (writeKept w n sl va len).go t = (.ok (.ok, x.count, 0), t') := by
  subst kept
  rw [writeKept, Eng.go_bind_ok _ _ _ _ _ (Eng.go_getSlot n y t holds), Eng.go_bind_ok _ _ _ _ _ written]
  exact poolEnd_go last

/-- Line `i` of the destination of a FILL (05 R141): the pattern, from where the line begins in the range. -/
def Slot.fillLine (sl : Slot) (i : Nat) : List Byte × Bool :=
  let (a, m) := lineAt (sl.f 192 57) (sl.f 256 64) i
  ((List.range m).map fun j => (leBytes 16 (sl.f 384 128)).getD ((a - sl.f 192 57 + j) % 2 ^ sl.f 320 4) 0, false)

@[simp] theorem Slot.run_fillLine (sl : Slot) (time : Nat) : (sl.run time).fillLine = sl.fillLine := rfl

theorem execFill_eq (n : Nat) (s : State) : execFill n s = .next (runSlot 0x10 n (fun sl => do
    needE (1 ≤ sl.f 256 64 && sl.f 256 64 ≤ 2 ^ 50 && ((leBytes 16 (sl.f 384 128)).drop (2 ^ sl.f 320 4)).all (· = 0))
      .badDescriptor
    units (sl.who n 3) n (lineCount (sl.f 192 57) (sl.f 256 64))
      (poolLine (sl.who n 3) n sl (sl.f 192 57) (sl.f 256 64) sl.fillLine)
    poolEnd n) s) := rfl

/-- Unit `i` of a COMPARE (05 R142): it keeps the first difference, counted from the beginning of the range. -/
def compareUnit (w : Who) (n : Nat) (sl : Slot) (i : Nat) : Eng Unit := do
  let va := sl.f 128 57
  let (a, m) := lineAt va (sl.f 256 64) i
  let b ← readVa w sl.asid (sl.f 192 57 + (a - va)) m
  let d ← compareLine w sl a b
  modify fun s => s.updSlot n fun x => { x with count := i + 1, marks := match d with
    | some j => if x.marks.isEmpty then [a - va + j] else x.marks
    | none => x.marks }

theorem execCompare_eq (n : Nat) (s : State) : execCompare n s = .next (runSlot 0x12 n (fun sl => do
    needE (1 ≤ sl.f 256 64 && sl.f 256 64 ≤ 2 ^ 50) .badDescriptor
    units (sl.who n 3) n (lineCount (sl.f 128 57) (sl.f 256 64)) (compareUnit (sl.who n 3) n sl)
    let sl ← getSlot n
    pure (.ok, sl.count, sl.marks.headD (2 ^ 64 - 1))) s) := rfl

section
variable {s t : State} {n : Nat} {sl x : Slot} {u : Unit} (last : t.slot? n = some x)
include last

section
variable (lo : 1 ≤ sl.f 256 64) (hi : sl.f 256 64 ≤ 2 ^ 50)
include lo hi

theorem exec_fill_written (h : s.ready n 0x10 sl)
    (pattern : ((leBytes 16 (sl.f 384 128)).drop (2 ^ sl.f 320 4)).all (fun b => b = 0) = true)
    (written : (units (sl.who n 3) n (lineCount (sl.f 192 57) (sl.f 256 64))
      (poolLine (sl.who n 3) n (sl.run s.time) (sl.f 192 57) (sl.f 256 64) sl.fillLine)).go (s.dispatch n sl) = (.ok u, t)) :
    exec (.fill n) s = .next (t.finish n .ok x.count 0) := by
  have form : (1 ≤ sl.f 256 64 && sl.f 256 64 ≤ 2 ^ 50 &&
      ((leBytes 16 (sl.f 384 128)).drop (2 ^ sl.f 320 4)).all (fun b => b = 0)) = true := by
    rw [pattern, decide_eq_true lo, decide_eq_true hi]
    rfl
  show execFill n s = _
  rw [execFill_eq, runSlot, runSlotIf_of_ready h rfl]
  simp only [Slot.run_f, Slot.run_who, Slot.run_fillLine]
  rw [Eng.go_needE_bind _ _ _ form, Eng.go_bind_ok _ _ _ _ _ written, poolEnd_go last]
  rfl

/-- COPY (05 R141): the destination is written with what its source held before the first write. -/
theorem exec_copy_written {kept : List Nat} {t1 : State} (h : s.ready n 0x11 sl) (first : sl.marks = [])
    (read : (readCopySource (sl.who n 3) sl.asid (sl.f 128 57) (sl.f 192 57) (sl.f 256 64)
      (lineCount (sl.f 192 57) (sl.f 256 64)) 0).go (s.dispatch n sl) = (.ok kept, t1))
    (holds : (t1.keeping (sl.who n 3) n kept).slot? n = some { sl.run s.time with marks := kept, resp := [] })
    (written : (units (sl.who n 3) n (lineCount (sl.f 192 57) (sl.f 256 64))
      (poolLine (sl.who n 3) n (sl.run s.time) (sl.f 192 57) (sl.f 256 64) fun i =>
        keptLine (lineAt (sl.f 192 57) (sl.f 256 64) i).2 (kept.getD i 0))).go (t1.keeping (sl.who n 3) n kept) = (.ok u, t)) :
    exec (.copy n) s = .next (t.finish n .ok x.count 0) := by
  show execCopy n s = _
  rw [execCopy, runSlot, runSlotIf_of_ready h rfl]
  simp only [Slot.run_f, Slot.run_who, Slot.run_asid, Slot.run_marks]
  rw [Eng.go_needE_bind _ _ _ (by simp [-Nat.reducePow, lo, hi]), if_pos (by simp [first]),
    Eng.go_bind_ok _ _ _ _ _ read, Eng.go_bind_ok _ _ _ _ _ (keepLines_go ..), writeKept_go holds rfl written last]
  rfl

/-- COMPARE (05 R142): it completes with the difference that its units have kept, or with all ones. -/
theorem exec_compare_read (h : s.ready n 0x12 sl)
    (read : (units (sl.who n 3) n (lineCount (sl.f 128 57) (sl.f 256 64)) (compareUnit (sl.who n 3) n (sl.run s.time))).go
      (s.dispatch n sl) = (.ok u, t)) :
    exec (.compare n) s = .next (t.finish n .ok x.count (x.marks.headD (2 ^ 64 - 1))) := by
  show execCompare n s = _
  rw [execCompare_eq, runSlot, runSlotIf_of_ready h rfl]
  simp only [Slot.run_f, Slot.run_who]
  rw [Eng.go_needE_bind _ _ _ (by simp [-Nat.reducePow, lo, hi]), Eng.go_bind_ok _ _ _ _ _ read,
    Eng.go_bind_ok _ _ _ _ _ (Eng.go_getSlot n x t last)]
  rfl

end

/-- What the form of a REDUCE must satisfy (05 R143). -/
structure Reduction.WellFormed (r : Reduction) : Prop where
  elements : 1 ≤ r.n
  sources : 1 ≤ r.sources ∧ r.sources ≤ 4096
  stride : r.stride % elemBytes r.inF = 0
  apart : r.clash = false

/-- REDUCE (05 R143): the destination is written with results that were all computed before the first write. -/
theorem exec_reduce_written {srcs : List (Nat × Nat)} {l : List (Byte × Bool)} {t0 t1 : State} {y : Slot} {r : Reduction}
    (fields : reductionOf sl = r) (h : s.ready n 0x13 sl) (first : sl.marks = []) (wf : r.WellFormed)
    (sources : (sourceLines (sl.who n 3) sl.asid r r.sources 0).go (s.dispatch n sl) = (.ok srcs, t0))
    (computed : (reduceElems (sl.who n 3) sl.asid r srcs r.n 0).go t0 = (.ok l, t1))
    (holds : (t1.keeping (sl.who n 3) n (resultLines r.dst l)).slot? n = some y) (kept : y.marks = resultLines r.dst l)
    (written : (units (sl.who n 3) n (lineCount r.dst (r.n * elemBytes r.outF))
      (poolLine (sl.who n 3) n (sl.run s.time) r.dst (r.n * elemBytes r.outF) fun i =>
        keptLine (lineAt r.dst (r.n * elemBytes r.outF) i).2 ((resultLines r.dst l).getD i 0))).go
          (t1.keeping (sl.who n 3) n (resultLines r.dst l)) = (.ok u, t)) :
    exec (.reduce n) s = .next (t.finish n .ok x.count 0) := by
  have fields' : reductionOf (sl.run s.time) = r := fields
  obtain ⟨elements, ⟨least, most⟩, stride, apart⟩ := wf
  show execReduce n s = _
  rw [execReduce, runSlot, runSlotIf_of_ready h rfl]
  simp only [fields', Slot.run_who, Slot.run_asid, Slot.run_marks]
  rw [Eng.go_needE_bind _ _ _ (by simp [elements, least, most, stride, apart]), if_pos (by simp [first]),
    Eng.go_bind_ok _ _ _ _ _ sources, Eng.go_bind_ok _ _ _ _ _ computed,
    Eng.go_bind_ok _ _ _ _ _ (keepLines_go ..), writeKept_go holds kept written last]
  rfl

end

/-- Settles O18, command by command. -/
theorem poolOperationsWriteAndReport : Obligations.PoolOperationsWriteAndReport := by
  refine ⟨fun s n sl x t u lo hi last => ⟨?_, ?_⟩, fun s n sl x t u last => ⟨?_, ?_⟩⟩
  · exact exec_fill_written last lo hi
  · exact fun kept t1 => exec_copy_written last lo hi
  · exact fun h lo hi => exec_compare_read last lo hi h
  · exact fun srcs l t0 t1 y h first elements least most stride apart =>
      exec_reduce_written last rfl h first ⟨elements, ⟨least, most⟩, stride, apart⟩

end Sys2Proof.Machine
end

section

/-!
### What the accesses of the front end leave as it is (06 R149, R157, R165)

The rings, the completion rings and the slots stand in the front end's part of the state. The functions that a write of a ring's
structures runs leave that part as it was; so a status block is written without a change to any slot.
-/

namespace Sys2Proof.Machine

open Sys2Proof

/-! #### Sparse maps -/

@[simp] theorem SMap.put_put {α : Type} (m : SMap α) (k : Nat) (v w : α) : SMap.put (SMap.put m k v) k w = SMap.put m k w := by
  induction m with
  | nil => simp [SMap.put]
  | cons p rest ih =>
    rcases Nat.lt_trichotomy k p.1 with below | rfl | above
    · simp [SMap.put, below]
    · simp [SMap.put]
    · simp [SMap.put, above.ne', Nat.not_lt_of_lt above, ih]

/-- A change at a key is decided by the value there. -/
theorem SMap.upd_congr {α : Type} {m : SMap α} {k : Nat} {v : α} {f g : α → α} (found : SMap.look m k = some v)
    (same : f v = g v) :
    SMap.upd m k f = SMap.upd m k g := by
  induction m with
  | nil => rfl
  | cons p rest ih =>
    rw [SMap.look] at found
    split at found
    · rename_i here
      cases found
      simp [SMap.upd, here, same]
    · rename_i other
      simp [SMap.upd, other, ih found]

/-! #### Functions of the state -/

@[simp] theorem State.logError_fe (s : State) (code cls tenant idx detail : Nat) :
    (s.logError code cls tenant idx detail).fe = s.fe := by
  simp [State.logError]

@[simp] theorem State.logFree_fe (s : State) (code cls tenant idx : Nat) : (s.logFree code cls tenant idx).fe = s.fe := by
  simp [State.logFree, State.draw]

@[simp] theorem State.wake_fe (s : State) : s.wake.fe = s.fe := by
  unfold State.wake; split <;> rfl

@[simp] theorem State.countWork_fe (s : State) (tenant : Nat) (seq : Option Nat) (type col n : Nat) :
    (s.countWork tenant seq type col n).fe = s.fe := by
  unfold State.countWork
  split
  · rfl
  · cases seq <;> rfl

@[simp] theorem State.fault_fe (s : State) (w : Who) (asid va cause : Nat) (write : Bool) :
    (s.fault w asid va cause write).fe = s.fe := by
  simp only [State.fault]
  split
  · split
    · split <;> simp
    · rfl
  · split <;> simp

@[simp] theorem State.snoop_fe (s : State) (agent line : Nat) (kind : SnoopKind) : (s.snoop agent line kind).fe = s.fe := by
  unfold State.snoop; split <;> rfl

@[simp] theorem State.snoopAll_fe (s : State) (line : Nat) : (s.snoopAll line).fe = s.fe := by
  have asked : ((s.holders line).foldl (fun s a => s.snoop a line .invalidate) s).fe = s.fe :=
    List.foldlRecOn (motive := fun t : State => t.fe = s.fe) _ _ rfl fun t h a _ => by simpa using h
  simp only [State.snoopAll]
  split
  · exact asked
  · exact asked

@[simp] theorem State.markWritten_fe (s : State) (la : Nat) : (s.markWritten la).fe = s.fe := by
  simp only [State.markWritten]
  split
  · rfl
  · split
    · split <;> rfl
    · rfl

@[simp] theorem State.placeWrite_fe (s : State) (la : Nat) (bs : List Byte) (slot : Option Nat) :
    (s.placeWrite la bs slot).fe = s.fe := by
  simp only [State.placeWrite]
  split
  · exact State.markWritten_fe (s.poke la bs) la
  · exact State.markWritten_fe (s.poke la bs) la

@[simp] theorem State.pump_fe (s : State) (todo kept : List Packet) : (s.pump todo kept).fe = s.fe := by
  induction todo generalizing s kept with
  | nil => rfl
  | cons k rest ih =>
    simp only [State.pump]
    split
    · rw [ih]
      split <;> split <;> simp [State.updPort, State.setPort]
    · exact ih ..

theorem State.route_fe {s t : State} {h : Head} {payload : List Byte} (ht : s.route h payload = some t) : t.fe = s.fe := by
  simp only [State.route] at ht
  split at ht
  · cases ht; rfl
  · split at ht
    · cases ht; exact State.pump_fe ..
    · cases ht

/-- A META record of a change that no command made leaves the slots, with the rest of the front end, as they were. -/
@[simp] theorem State.mirrorMeta_none_fe (s : State) : (s.mirrorMeta none).fe = s.fe := by
  unfold State.mirrorMeta; split <;> rfl

/-! #### Actions -/

/-- An action that begins where the front end's part of the state is `fe` leaves it so, whether it answers or stops. -/
structure KeepsFe (fe : FrontEnd) {α : Type} (x : Eng α) : Prop where
  run : ∀ s : State, s.fe = fe → (x.go s).2.fe = fe

section
variable {α β : Type} {fe : FrontEnd}

theorem KeepsFe.pure (a : α) : KeepsFe fe (pure a : Eng α) := ⟨fun _ h => h⟩
theorem KeepsFe.failE (st : Status) : KeepsFe fe (failE st : Eng α) := ⟨fun _ h => h⟩
theorem KeepsFe.waitE : KeepsFe fe (waitE : Eng α) := ⟨fun _ h => h⟩
theorem KeepsFe.set {t : State} (h : t.fe = fe) : KeepsFe fe (set t : Eng PUnit) := ⟨fun _ _ => h⟩
theorem KeepsFe.modify {f : State → State} (h : ∀ s, (f s).fe = s.fe) : KeepsFe fe (modify f : Eng PUnit) :=
  ⟨fun s hs => (h s).trans hs⟩
theorem KeepsFe.needE (b : Bool) (st : Status) : KeepsFe fe (needE b st) := ⟨fun _ h => by cases b <;> exact h⟩
theorem KeepsFe.holdE (b : Bool) : KeepsFe fe (holdE b) := ⟨fun _ h => by cases b <;> exact h⟩

theorem KeepsFe.bind {x : Eng α} {f : α → Eng β} (hx : KeepsFe fe x) (hf : ∀ a, KeepsFe fe (f a)) : KeepsFe fe (x >>= f) := by
  refine ⟨fun s hs => ?_⟩
  have first := hx.run s hs
  rw [Eng.go_bind]
  rcases hr : x.go s with ⟨r, t⟩
  rw [hr] at first
  cases r with
  | ok a => exact (hf a).run t first
  | error e => exact first

/-- What is read of the state has its front end. -/
theorem KeepsFe.bind_get {f : State → Eng β} (hf : ∀ s : State, s.fe = fe → KeepsFe fe (f s)) : KeepsFe fe (get >>= f) :=
  ⟨fun s hs => (hf s hs).run s hs⟩

theorem keepsFe_translate (w : Who) (asid va : Nat) (write : Bool) : KeepsFe fe (translate w asid va write) := by
  refine .bind_get fun s hs => ?_
  split
  · exact .failE _
  · split
    · exact .bind (.needE _ _) fun _ => .pure _
    · split
      · exact .bind (.set (by simpa using hs)) fun _ => .waitE
      · split
        · exact .bind (.set (by simpa using hs)) fun _ => .waitE
        · exact .bind (.set hs) fun _ => .pure _

/-- The end of a claim: no record of the line is awaited, and no other holds it. -/
theorem keepsFe_claimLine {s : State} (hs : s.fe = fe) (line : Nat) : KeepsFe fe (do
    Machine.holdE (!s.awaitsTwin line)
    if (s.holders line).isEmpty then if (s.dir? line).isSome then MonadState.set (s.setDir line none) else Pure.pure ()
    else do
      MonadState.set (s.snoopAll line)
      Machine.waitE : Eng Unit) := by
  refine .bind (.holdE _) fun _ => ?_
  split
  · split
    · exact .set hs
    · exact .pure _
  · exact .bind (.set (by simpa using hs)) fun _ => .waitE

theorem keepsFe_homeClaim (tenant la : Nat) : KeepsFe fe (homeClaim tenant la) := by
  refine .bind_get fun s hs => ?_
  extract_lets claim flashChecked
  have claims (u : Unit) : KeepsFe fe (claim u) := keepsFe_claimLine hs _
  have checks (u : Unit) : KeepsFe fe (flashChecked u) := by
    dsimp only [flashChecked]
    split
    · split
      · exact .bind (.needE _ _) fun _ => .bind (.holdE _) claims
      · exact claims ()
    · exact claims ()
  split
  · exact .bind (.failE _) checks
  · exact checks ()

theorem keepsFe_homeWrite (tenant la : Nat) (bs : List Byte) (slot : Option Nat) : KeepsFe fe (homeWrite tenant la bs slot) :=
  .bind (keepsFe_homeClaim ..) fun _ => .modify fun s => State.placeWrite_fe s la bs slot

theorem keepsFe_sendRequest (h : Head) (payload : List Byte) (purpose : Purpose) :
    KeepsFe fe (sendRequest h payload purpose) := by
  refine .bind_get fun s hs => ?_
  split
  · exact .bind (.set hs) fun _ => .failE _
  · refine .bind (.holdE _) fun _ => ?_
    extract_lets tag h k
    split
    rename_i t held sent
    refine .bind (.set (?_ : t.fe = fe)) fun _ => .pure _
    split at sent
    · rename_i routed
      cases sent
      exact (State.route_fe routed).trans hs
    · cases sent
      exact hs

/-- A write of a ring's status block to one line. -/
theorem keepsFe_writePhys {w : Who} {n : Nat} (front : w.waiter = .status n) (ga : Nat) (bs : List Byte) :
    KeepsFe fe (writePhys w ga bs false) := by
  refine .bind_get fun s _ => ?_
  split
  · exact keepsFe_homeWrite ..
  · exact .failE _
  · rw [front]
    exact .bind (keepsFe_sendRequest ..) fun _ => .pure _

theorem keepsFe_writePieces {w : Who} {n : Nat} (front : w.waiter = .status n) (asid : Nat) (l : List (Nat × Nat))
    (bs : List Byte) : KeepsFe fe (writePieces w asid l bs false) := by
  induction l generalizing bs with
  | nil => exact .pure _
  | cons p rest ih =>
    exact .bind (keepsFe_translate ..) fun ga => .bind (keepsFe_writePhys front ga _) fun _ => ih _

theorem keepsFe_writeVa {w : Who} {n : Nat} (front : w.waiter = .status n) (asid va : Nat) (bs : List Byte) :
    KeepsFe fe (writeVa w asid va bs) :=
  keepsFe_writePieces front asid _ bs

end

/-! #### Status blocks -/

@[simp] theorem State.slots_ringError (s : State) (n cause : Nat) : (s.ringError n cause).fe.slots = s.fe.slots := by
  unfold State.ringError
  split
  · exact (congrArg FrontEnd.slots (State.logError_fe ..)).trans rfl
  · rfl

/-- The write of a status block changes no slot, whether it is made, waits or fails (06 R149, R496). -/
@[simp] theorem State.slots_writeStatus (s : State) (n : Nat) : (s.writeStatus n).fe.slots = s.fe.slots := by
  rw [State.writeStatus]
  split
  · rfl
  · rename_i r _
    have kept := congrArg FrontEnd.slots
      ((keepsFe_writeVa (w := ringWho r.tenant (.status n)) rfl r.asid r.statusVa (s.ringBlock n r)).run s rfl)
    dsimp only
    split
    all_goals rename_i written; rw [written] at kept
    · exact kept
    · exact kept
    · exact (State.slots_ringError ..).trans kept

/-- What the write of a status block that is made leaves: the block is as written, and no write is due. -/
theorem State.writeStatus_ok {s t : State} {n : Nat} {r : Ring} {u : Unit} (registered : s.ring? n = some r)
    (written : (writeVa (ringWho r.tenant (.status n)) r.asid r.statusVa (s.ringBlock n r)).go s = (.ok u, t)) :
    s.writeStatus n = t.updRing n fun x => { x with inFlightWritten := s.inFlightOf n, statusDue := false } := by
  simp only [State.writeStatus, registered, written]

end Sys2Proof.Machine
end

section

/-!
### Registration of rings (06 R151 to R154)

RING_CONFIG takes an operation of RING_CONFIG where its checks pass, and the end of the drain of a ring.
-/

namespace Sys2Proof.Machine

open Sys2Proof

section
variable {s : State} {n : Nat} {sl : Slot}

/-- A ready RING_CONFIG runs its operation, dispatched. -/
theorem ringConfig_of_ready {op : Nat} (h : s.ready n 0x06 sl) (hop : sl.f 128 4 = op)
    (body : Slot → Eng (Status × Nat × Nat)) :
    ringConfig op n body s = endSlot n ((body (sl.run s.time)).go (s.dispatch n sl)) := by
  rw [ringConfig, runSlotIf_of_ready h (by simpa using hop)]

/-- The command ring that a registration describes (06 R153). -/
def Slot.newRing (sl : Slot) (line : Nat) : Ring :=
  Ring.fresh (sl.f 146 1 = 1) (sl.f 148 12) (sl.id 160 16) (sl.id 176 14) (sl.id 224 10) (sl.f 256 57) (sl.f 320 57)
    (sl.f 384 57) (sl.f 192 5) line

/-- The completion ring that a registration describes (06 R153). -/
def Slot.newCq (sl : Slot) (line : Nat) : Cq :=
  { tenant := sl.f 148 12, asid := sl.id 160 16, baseVa := sl.f 256 57, wordVa := sl.f 320 57, statusVa := sl.f 384 57,
    log2 := sl.f 192 5, wordLine := line, msix := sl.f 208 16, irqAll := sl.f 448 1 = 1, written := 0, headSeen := 0 }

theorem exec_commandRingRegister_checked {t : State} {line : Nat} (h : s.ready n 0x06 sl) (op : sl.f 128 4 = 0)
    (unused : s.ring? (sl.id 132 14) = none) (completes : (s.cq? (sl.id 176 14)).any (fun c => c.tenant = sl.f 148 12) = true)
    (checked : (checkRing (sl.who n 5) (sl.run s.time) (64 * 2 ^ sl.f 192 5)).go (s.dispatch n sl) = (.ok line, t)) :
    exec (.commandRingRegister n) s = .next
      ((((((t.setRing (sl.id 132 14) (sl.newRing line)).watch line (.tail (sl.id 132 14))).renewLease
        (sl.newRing line).lease).writeStatus (sl.id 132 14)).mirrorMeta (some n)).finish n .ok 0 0) := by
  show execCommandRingRegister n s = _
  rw [execCommandRingRegister, ringConfig_of_ready h op]
  simp only [Slot.run_id, Slot.run_f, Slot.run_who]
  rw [Eng.go_bind_ok _ _ _ _ _ (Eng.go_get _), Eng.go_needE_bind _ _ _ (by simp [unused]),
    Eng.go_needE_bind _ _ _ (by simpa using completes), Eng.go_bind_ok _ _ _ _ _ checked]
  rfl

/-- 06 R154: a ring that is deregistered drains, and the command waits. -/
theorem exec_commandRingDeregister_drains {r : Ring} (h : s.ready n 0x06 sl) (op : sl.f 128 4 = 1)
    (registered : s.ring? (sl.id 132 14) = some r) (first : r.dereg = none) (tenant : r.tenant = sl.f 148 12)
    (other : sl.id 132 14 ≠ sl.ring) (live : r.state ≠ .draining) (unstepped : r.runOne = none) :
    exec (.commandRingDeregister n) s = .next
      ((((s.dispatch n sl).setRing (sl.id 132 14) { r with
          state := .draining, cause := 0, discarded := (r.tailSeen - r.fetched) % 2 ^ 32, mode := .normal, runOne := none,
          runGrant := false, stepEnter := none, dereg := some sl.seq }).writeStatus (sl.id 132 14)).updSlot n fun x =>
        { x with count := r.tailSeen - r.fetched }) := by
  show execCommandRingDeregister n s = _
  rw [execCommandRingDeregister, ringConfig_of_ready h op]
  simp [-Nat.reducePow, Eng.go_bind, registered, first, tenant, other, live, unstepped, setCount]

theorem exec_completionRingRegister_checked {t t2 : State} {line : Nat} {u : Unit} (h : s.ready n 0x06 sl) (op : sl.f 128 4 = 2)
    (unused : s.cq? (sl.id 132 14) = none)
    (checked : (checkRing (sl.who n 5) (sl.run s.time) (32 * 2 ^ sl.f 192 5)).go (s.dispatch n sl) = (.ok line, t))
    (written : (writeVa (sl.who n 5) (sl.newCq line).asid (sl.newCq line).statusVa ((sl.newCq line).block 0)).go t = (.ok u, t2)) :
    exec (.completionRingRegister n) s =
      .next ((((t2.setCq (sl.id 132 14) (sl.newCq line)).watch line (.head (sl.id 132 14))).mirrorMeta (some n)).finish n
        .ok 0 0) := by
  show execCompletionRingRegister n s = _
  rw [execCompletionRingRegister, ringConfig_of_ready h op]
  simp only [Slot.run_id, Slot.run_f, Slot.run_who]
  rw [Eng.go_bind_ok _ _ _ _ _ (Eng.go_get _), Eng.go_needE_bind _ _ _ (by simp [unused]),
    Eng.go_bind_ok _ _ _ _ _ checked]
  exact congrArg (fun r => Host.Outcome.next (endSlot n r)) (Eng.go_bind_ok _ _ _ _ _ written)

/-- 06 R154: a completion ring into which no ring completes is taken out. -/
theorem exec_completionRingDeregister_unused {c : Cq} (h : s.ready n 0x06 sl) (op : sl.f 128 4 = 3)
    (registered : s.cq? (sl.id 132 14) = some c) (tenant : c.tenant = sl.f 148 12)
    (unused : s.fe.rings.any (fun (_, r) => r.cq = sl.id 132 14) = false) :
    exec (.completionRingDeregister n) s = .next
      ((({ (s.dispatch n sl).unwatch c.wordLine with
        fe := { (s.dispatch n sl).fe with cqs := SMap.del (s.dispatch n sl).fe.cqs (sl.id 132 14) } } : State).mirrorMeta
          (some n)).finish n .ok 0 0) := by
  have free : (c.tenant = sl.f 148 12 && !(s.dispatch n sl).fe.rings.any fun (_, r) => r.cq = sl.id 132 14) = true := by
    simp [State.dispatch_fe, tenant, unused]
  show execCompletionRingDeregister n s = _
  rw [execCompletionRingDeregister, ringConfig_of_ready h op]
  simp only [Slot.run_id, Slot.run_f]
  rw [Eng.go_bind_ok _ _ _ _ _ (Eng.go_get _), State.cq?_dispatch, registered]
  exact congrArg (fun r => Host.Outcome.next (endSlot n r)) (Eng.go_needE_bind _ _ _ free)

end

/-! #### The end of a drain (06 R154) -/

/-- A search of a map finds the same key after a change `f` that the search does not see, and a value with the same `g`. -/
theorem SMap.find?_upd {α β : Type} {m : SMap α} {k j : Nat} {v : α} {p : Nat × α → Bool} {f : α → α} {g : α → β}
    (unseen : ∀ i x, p (i, f x) = p (i, x)) (kept : ∀ x, g (f x) = g x) (found : m.find? p = some (k, v)) :
    ∃ w, (SMap.upd m j f).find? p = some (k, w) ∧ g w = g v := by
  induction m with
  | nil => cases found
  | cons q rest ih =>
    obtain ⟨i, x⟩ := q
    rw [List.find?_cons] at found
    by_cases here : j = i
    · rw [SMap.upd, if_pos here, List.find?_cons, unseen]
      cases hit : p (i, x) with
      | true =>
        rw [hit] at found
        cases found
        exact ⟨f v, rfl, kept v⟩
      | false =>
        rw [hit] at found
        exact ⟨v, found, rfl⟩
    · rw [SMap.upd, if_neg here, List.find?_cons]
      cases hit : p (i, x) with
      | true =>
        rw [hit] at found
        exact ⟨v, found, rfl⟩
      | false =>
        rw [hit] at found
        exact ih found

/-- A META record that a live command waits for leaves it live, in its slot and with its count. -/
theorem State.live?_mirrorMeta {s : State} {q k j : Nat} {x : Slot} (live : s.live? q = some (k, x)) :
    ∃ y, (s.mirrorMeta (some j)).live? q = some (k, y) ∧ y.count = x.count := by
  rw [State.mirrorMeta]
  split
  · exact SMap.find?_upd (f := fun x : Slot => { x with committed := true }) (g := Slot.count) (fun _ _ => rfl) (fun _ => rfl) live
  · exact ⟨x, live, rfl⟩

/-- The state without a command ring, its watch and its counter set. -/
def State.withoutRing (s : State) (ring : Nat) (r : Ring) : State :=
  let s := s.unwatch r.wordLine
  { s with
    fe := { s.fe with rings := SMap.del s.fe.rings ring }
    cnt := { s.cnt with ringSets := SMap.del s.cnt.ringSets ring } }

theorem exec_deregisterDrainDone_awaited {s : State} {ring q k : Nat} {r : Ring} {x : Slot} (registered : s.ring? ring = some r)
    (draining : r.state = .draining) (idle : s.inFlightOf ring = 0) (asked : r.dereg = some q) (live : s.live? q = some (k, x)) :
    exec (.deregisterDrainDone ring) s = .next (((s.withoutRing ring r).mirrorMeta (some k)).finish k .ok x.count 0) := by
  have live' : (s.withoutRing ring r).live? q = some (k, x) := live
  obtain ⟨y, found, count⟩ := State.live?_mirrorMeta (j := k) live'
  simp only [State.withoutRing] at live' found ⊢
  show execDeregisterDrainDone ring s = _
  simp only [execDeregisterDrainDone, registered]
  rw [if_pos (by simp [draining, idle])]
  simp only [asked, Option.bind_some, live', Option.map_some, found, count]

/-- Settles O9, operation by operation; `Slot.newRing` and `Slot.newCq` are the rings that the statement writes out. -/
theorem ringsAreRegisteredAndDeregistered : Obligations.RingsAreRegisteredAndDeregistered := by
  refine fun s n sl => ⟨?_, ?_, ?_, ?_, ?_⟩
  · exact fun line t => exec_commandRingRegister_checked
  · exact fun r => exec_commandRingDeregister_drains
  · exact fun line t t2 u => exec_completionRingRegister_checked
  · exact fun c => exec_completionRingDeregister_unused
  · exact fun ring r q k x => exec_deregisterDrainDone_awaited

end Sys2Proof.Machine
end

section

/-!
### Control commands, SUMMARY and STEP (06 Table 6-5, R158, R170 to R174, 15 R418)
-/

namespace Sys2Proof.Machine

open Sys2Proof

section
variable {s : State} {n : Nat} {sl : Slot}

/-! #### Control commands -/

/-- A command without work of its own completes OK once dispatched. -/
theorem runSlot_pure_of_ready {op : Nat} (h : s.ready n op sl) :
    runSlot op n (fun _ => pure (.ok, 0, 0)) s = (s.dispatch n sl).finish n .ok 0 0 := by
  rw [runSlot, runSlotIf_of_ready h rfl]
  rfl

theorem exec_nop_ready (h : s.ready n 0x00 sl) : exec (.nop n) s = .next ((s.dispatch n sl).finish n .ok 0 0) :=
  congrArg Host.Outcome.next (runSlot_pure_of_ready h)

theorem exec_fence_ready (h : s.ready n 0x01 sl) : exec (.fence n) s = .next ((s.dispatch n sl).finish n .ok 0 0) :=
  congrArg Host.Outcome.next (runSlot_pure_of_ready h)

theorem exec_leaseRenew_plain (h : s.ready n 0x05 sl) (plain : sl.f 128 1 = 0) :
    exec (.leaseRenew n) s = .next ((s.dispatch n sl).finish n .ok 0 0) := by
  show execLeaseRenew n s = _
  rw [execLeaseRenew, runSlot, runSlotIf_of_ready h rfl]
  simp [plain]

theorem exec_leaseRenew_resumeAll {r : Ring} (h : s.ready n 0x05 sl) (all : sl.f 128 1 = 1) (hr : s.ring? sl.ring = some r) :
    exec (.leaseRenew n) s = .next (((s.dispatch n sl).resumeLease r.lease).finish n .ok 0 0) := by
  show execLeaseRenew n s = _
  rw [execLeaseRenew, runSlot, runSlotIf_of_ready h rfl]
  simp [all, hr]

theorem exec_leaseResume_used (h : s.ready n 0x06 sl) (op : sl.f 128 4 = 4)
    (used : s.fe.rings.any (fun (_, r) => r.lease = sl.id 224 10) = true) :
    exec (.leaseResume n) s =
      .next ((((s.dispatch n sl).renewLease (sl.id 224 10)).resumeLease (sl.id 224 10)).finish n .ok 0 0) := by
  have used' : (s.dispatch n sl).fe.rings.any (fun (_, r) => r.lease = sl.id 224 10) = true := by
    rw [State.dispatch_fe]
    exact used
  show execLeaseResume n s = _
  rw [execLeaseResume, ringConfig_of_ready h op]
  simp only [Slot.run_id]
  rw [Eng.go_bind_ok _ _ _ _ _ (Eng.go_modify _ _), if_pos used']
  rfl

/-! #### SUMMARY (06 R173, R174) -/

/-- The sections of a summary for a tenant (06 Table 6-14). -/
def summaryKinds (tenant : Nat) : List Nat := if tenant = 0 then [1, 2, 3, 4, 5, 6, 7, 8, 9] else [1, 2, 3, 4, 6]

/-- The header of a command's summary of `total` bytes (06 Table 6-13). -/
def Slot.summaryHead (sl : Slot) (total time crc : Nat) : List Byte :=
  summaryHeader (summaryKinds sl.tenant).length total time sl.seq crc

section
variable {dir body : List Byte} {t t2 : State} {u : Unit} (h : s.ready n 0x02 sl) (aligned : sl.f 128 57 % 64 = 0)
  (sections : (s.dispatch n sl).sections (sl.tenant = 0) sl.tenant (summaryKinds sl.tenant)
    (64 + 16 * (summaryKinds sl.tenant).length) = (dir, body, t))
include h aligned sections

/-- A ready SUMMARY writes its header alone, or the header and the sections, as its room decides. -/
theorem exec_summary_of_sections {total : Nat} (ht : total = 64 + dir.length + body.length) :
    exec (.summary n) s = .next (endSlot n (Eng.go (if sl.f 192 64 < total then do
        writeVa (sl.who n 5) sl.asid (sl.f 128 57)
          (sl.summaryHead total t.time (crc32c ((sl.summaryHead total t.time 0).take 60)))
        setCount n total
        failE .resource
      else do
        writeVa (sl.who n 5) sl.asid (sl.f 128 57)
          (sl.summaryHead total t.time (crc32c ((sl.summaryHead total t.time 0).take 60 ++ dir ++ body)) ++ dir ++ body)
        pure (.ok, total, 0)) t)) := by
  subst ht
  simp only [summaryKinds] at sections
  show execSummary n s = _
  rw [execSummary, runSlot, runSlotIf_of_ready h rfl]
  simp only [Slot.run_f, Slot.run_who, Slot.run_asid, Slot.run_tenant, Slot.run_seq]
  rw [Eng.go_needE_bind _ _ _ (by simp [aligned]), Eng.go_bind_ok _ _ _ _ _ (Eng.go_get _), sections]
  rfl

theorem exec_summary_fits (fits : 64 + dir.length + body.length ≤ sl.f 192 64)
    (written : (writeVa (sl.who n 5) sl.asid (sl.f 128 57)
      (sl.summaryHead (64 + dir.length + body.length) t.time
        (crc32c ((sl.summaryHead (64 + dir.length + body.length) t.time 0).take 60 ++ dir ++ body)) ++ dir ++ body)).go t =
          (.ok u, t2)) :
    exec (.summary n) s = .next (t2.finish n .ok (64 + dir.length + body.length) 0) := by
  rw [exec_summary_of_sections h aligned sections rfl, if_neg (Nat.not_lt.2 fits), Eng.go_bind_ok _ _ _ _ _ written]
  rfl

theorem exec_summary_short (short : sl.f 192 64 < 64 + dir.length + body.length)
    (written : (writeVa (sl.who n 5) sl.asid (sl.f 128 57)
      (sl.summaryHead (64 + dir.length + body.length) t.time
        (crc32c ((sl.summaryHead (64 + dir.length + body.length) t.time 0).take 60)))).go t = (.ok u, t2)) :
    exec (.summary n) s =
      .next ((t2.updSlot n fun x => { x with count := 64 + dir.length + body.length }).rejectSlot n .resource) := by
  rw [exec_summary_of_sections h aligned sections rfl, if_pos short, Eng.go_bind_ok _ _ _ _ _ written]
  rfl

end

/-! #### The operations of STEP (15 R418) -/

section
variable {r : Ring} (h : s.ready n 0x03 sl) (hr : s.ring? (sl.id 128 14) = some r)
include h hr

/-- A ready STEP on a ring that is ACTIVE or in STEP runs its operation, dispatched. -/
theorem stepOp_of_ready {op : Nat} (hop : sl.f 142 4 = op) (live : r.state = .active ∨ r.state = .step)
    (body : Slot → Nat → Ring → Eng (Status × Nat × Nat)) :
    stepOp op n body s = endSlot n ((body (sl.run s.time) (sl.id 128 14) r).go (s.dispatch n sl)) := by
  rw [stepOp, runSlotIf_of_ready h (by simpa using hop), Eng.go_bind_ok _ _ _ _ _ (Eng.go_get _)]
  simp only [Slot.run_id, State.ring?_dispatch, hr]
  rw [Eng.go_needE_bind _ _ _ (by simpa using live)]

section
variable (op : sl.f 142 4 = 0) (stepped : r.state = .step) (other : sl.id 128 14 ≠ sl.ring) (free : r.runOne = none)
include op stepped other free

theorem exec_runOne_empty (empty : r.fetched = r.tailSeen) :
    exec (.runOne n) s = .next ((s.dispatch n sl).finish n .ok 0 0) := by
  show execRunOne n s = _
  rw [execRunOne, stepOp_of_ready h hr op (.inr stepped)]
  simp [Eng.go_bind, free, stepped, other, State.isLive, empty]

theorem exec_runOne_grants (waiting : r.fetched ≠ r.tailSeen) :
    exec (.runOne n) s = .next (((s.dispatch n sl).updSlot n fun x => { x with cursor := r.fetched + 1 }).setRing (sl.id 128 14)
      { r with runOne := some sl.seq, runGrant := true }) := by
  show execRunOne n s = _
  rw [execRunOne, stepOp_of_ready h hr op (.inr stepped)]
  simp [Eng.go_bind, free, stepped, other, State.isLive, waiting, setCursor]

end

/-- ENTER_STEP on a ring that holds no slot but the command's own. -/
theorem exec_enterStep_idle (op : sl.f 142 4 = 1) (active : r.state = .active) (first : r.stepEnter = none)
    (aligned : sl.f 192 57 % 64 = 0) (lo : 4 ≤ sl.f 256 4) (hi : sl.f 256 4 ≤ 12)
    (idle : ∀ k x, (k, x) ∈ (s.dispatch n sl).fe.slots → x.ring = sl.id 128 14 → k = n) :
    exec (.enterStep n) s = .next (((((s.dispatch n sl).setRing (sl.id 128 14) { r with stepEnter := some sl.seq }).setRing
      (sl.id 128 14) { r with
        state := .step, mode := .step, stepEnter := none, recAsid := sl.asid, recVa := sl.f 192 57, recLog2 := sl.f 256 4,
        stepRecords := 0, runGrant := false }).writeStatus (sl.id 128 14)).finish n .ok 0 0) := by
  have alone : (((s.dispatch n sl).setRing (sl.id 128 14) { r with stepEnter := some sl.seq }).fe.slots.any fun (k, x) =>
      x.ring = sl.id 128 14 && k ≠ n) = false := by
    rw [List.any_eq_false]
    intro (k, x) listed
    simpa using idle k x listed
  show execEnterStep n s = _
  rw [execEnterStep, stepOp_of_ready h hr op (.inl active)]
  simp only [Slot.run_f, Slot.run_seq, Slot.run_asid]
  rw [Eng.go_needE_bind _ _ _ (by simp [aligned, lo, hi]), Eng.go_bind_ok _ _ _ _ _ (Eng.go_get _),
    Eng.go_holdE_bind _ _ (by simp [first, State.isLive]), Eng.go_bind_ok _ _ _ _ _ (Eng.go_modify _ _),
    Eng.go_bind_ok _ _ _ _ _ (Eng.go_get _), Eng.go_holdE_bind _ _ (by rw [alone]; rfl)]
  rfl

section
variable (live : r.state = .active ∨ r.state = .step)
include live

theorem exec_enterSerial_live (op : sl.f 142 4 = 2) :
    exec (.enterSerial n) s = .next (((s.dispatch n sl).setMode (sl.id 128 14) r .serial).finish n .ok 0 0) := by
  show execEnterSerial n s = _
  rw [execEnterSerial, stepOp_of_ready h hr op live]
  rfl

theorem exec_exitStep_live (op : sl.f 142 4 = 3) :
    exec (.exitStep n) s = .next (((s.dispatch n sl).setMode (sl.id 128 14) r .normal).finish n .ok 0 0) := by
  show execExitStep n s = _
  rw [execExitStep, stepOp_of_ready h hr op live]
  rfl

end

end

end

/-- Settles O8, command by command. -/
theorem controlAndStepCommandsComplete : Obligations.ControlAndStepCommandsComplete := by
  refine ⟨fun s n sl => ⟨?_, ?_, ?_, ?_, ?_⟩, ?_, ?_⟩
  · exact exec_nop_ready
  · exact exec_fence_ready
  · exact exec_leaseRenew_plain
  · exact fun r => exec_leaseRenew_resumeAll
  · exact exec_leaseResume_used
  · intro s n sl dir body t t2 u h aligned kinds total head0 sections
    exact ⟨exec_summary_fits h aligned sections, exec_summary_short h aligned sections⟩
  · intro s n sl r id s1 h hr
    refine ⟨?_, ?_, ?_, ?_, ?_⟩
    · exact exec_runOne_empty h hr
    · exact exec_runOne_grants h hr
    · exact fun op active first aligned lo hi idle => ⟨_, exec_enterStep_idle h hr op active first aligned lo hi idle, rfl⟩
    · exact fun op live => exec_enterSerial_live h hr live op
    · exact fun op live => exec_exitStep_live h hr live op

end Sys2Proof.Machine
end

section

/-!
### Ring words, timers and the boot ring (06 R149, R155, R157, R162, R165, R168, R171)
-/

namespace Sys2Proof.Machine

open Sys2Proof

/-! #### Tail and head words -/

/-- A tenant that begins to wait changes virtual times only. -/
theorem State.catchUp_eq (s : State) (old : List Nat) : ∃ vt, s.catchUp old = { s with fe := { s.fe with vt } } := by
  rw [State.catchUp]
  split
  · exact ⟨s.fe.vt, rfl⟩
  · exact ⟨_, rfl⟩

/-- A wake changes the power state only. -/
theorem State.wake_eq (s : State) : ∃ pwr, s.wake = { s with pwr } := by
  rw [State.wake]
  split
  · exact ⟨s.pwr, rfl⟩
  · exact ⟨_, rfl⟩

/-- A tail value in range is taken (06 R157). -/
theorem State.newTail_inRange {s : State} {n tail : Nat} {r : Ring} (sound : r.state ≠ .error) (lo : r.tailSeen ≤ tail)
    (hi : tail ≤ r.fetched + 2 ^ r.log2) :
    s.newTail n tail r = (s.setRing n { r with tailSeen := tail }).catchUp s.waitingTenants := by
  rw [State.newTail, if_neg sound, if_neg (Nat.not_lt.2 lo), if_neg (Nat.not_lt.2 hi)]

/-- A tail value below the one that was seen puts the ring in ERROR with CAUSE 1 (06 R157). -/
theorem State.newTail_below {s : State} {n tail : Nat} {r : Ring} (sound : r.state ≠ .error) (below : tail < r.tailSeen) :
    s.newTail n tail r = (s.ringError n 1).writeStatus n := by
  rw [State.newTail, if_neg sound, if_pos below, State.tailError]

/-- A ring that is presented a tail value. -/
def Ring.presented (r : Ring) (v : Nat) : Ring := { r with lastPresented := v }

section
variable {s : State} {n : Nat} {v : BitVec 64} {r : Ring} (registered : s.ring? n = some r) (kept : r.state ≠ .draining)
  (sound : r.state ≠ .error) (watched : SMap.has s.coh.watches r.wordLine = true) (plain : v.toNat < 2 ^ 63)
  (fresh : v.toNat ≠ r.lastPresented)
include registered kept watched plain fresh

/-- A fresh tail word without RESTART of a watched ring is presented to the ring, and wakes the package. -/
theorem exec_tailPresented_plain :
    exec (.tailPresented n v) s =
      .next (((s.setRing n (r.presented v.toNat)).wake).newTail n v.toNat (r.presented v.toNat)) := by
  have restart : flag v 63 = false := by simp [-Nat.reducePow, flag, bitOf, Nat.div_eq_of_lt plain]
  show execTailPresented n v s = _
  simp [execTailPresented, registered, kept, fresh, watched, restart, Ring.presented]

include sound

theorem exec_tailPresented_inRange (lo : r.tailSeen ≤ v.toNat) (hi : v.toNat ≤ r.fetched + 2 ^ r.log2) :
    ∃ pwr vt, exec (.tailPresented n v) s = .next { s with
      pwr
      fe := { s.fe with vt, rings := SMap.put s.fe.rings n { r with lastPresented := v.toNat, tailSeen := v.toNat } } } := by
  obtain ⟨pwr, woken⟩ := State.wake_eq (s.setRing n (r.presented v.toNat))
  have taken := State.newTail_inRange (s := (s.setRing n (r.presented v.toNat)).wake) (n := n) (r := r.presented v.toNat)
    sound lo hi
  obtain ⟨vt, level⟩ := State.catchUp_eq
    (((s.setRing n (r.presented v.toNat)).wake).setRing n { r.presented v.toNat with tailSeen := v.toNat })
    ((s.setRing n (r.presented v.toNat)).wake).waitingTenants
  refine ⟨pwr, vt, ?_⟩
  rw [exec_tailPresented_plain registered kept watched plain fresh, taken, level, woken]
  simp [State.setRing, Ring.presented]

theorem exec_tailPresented_below (below : v.toNat < r.tailSeen) :
    exec (.tailPresented n v) s =
      .next ((((s.setRing n (r.presented v.toNat)).wake).ringError n 1).writeStatus n) := by
  rw [exec_tailPresented_plain registered kept watched plain fresh,
    State.newTail_below (r := r.presented v.toNat) sound below]

end

section
variable {s : State} {n : Nat} {v : BitVec 64} {c : Cq} (registered : s.cq? n = some c)
  (watched : SMap.has s.coh.watches c.wordLine = true)
include registered watched

theorem exec_headPresented_inRange (lo : c.headSeen ≤ v.toNat) (hi : v.toNat ≤ c.written) :
    exec (.headPresented n v) s = .next (s.setCq n { c with headSeen := v.toNat }) := by
  show execHeadPresented n v s = _
  simp [execHeadPresented, registered, watched, Nat.not_lt.2 lo, Nat.not_lt.2 hi]

/-- 06 R165: a head value out of range is logged and not taken. -/
theorem exec_headPresented_outOfRange (out : v.toNat < c.headSeen ∨ c.written < v.toNat) :
    exec (.headPresented n v) s = .next (s.logFree 0x0002 11 c.tenant n) := by
  show execHeadPresented n v s = _
  simp [execHeadPresented, registered, watched, out]

end

/-! #### Timers -/

/-- A vector whose merge interval ends: it is released, or sends the message that fell due (06 R168). -/
def Vector2.holdoffEnded (v : Vector2) : Vector2 :=
  if v.holdoff && v.pending then { v with pending := false, sent := v.sent + 1 } else { v with holdoff := false }

section
variable {s : State} {n : Nat}

theorem exec_irqHoldoffExpiry_raised {v : Vector2} (raised : SMap.look s.fe.vectors n = some v) :
    exec (.irqHoldoffExpiry n) s =
      .next { s with fe := { s.fe with vectors := SMap.put s.fe.vectors n v.holdoffEnded } } := by
  show execIrqHoldoffExpiry n s = _
  simp only [execIrqHoldoffExpiry, raised, Vector2.holdoffEnded]

theorem exec_inFlightRefresh_differs {r : Ring} {u : Unit} {t : State} (registered : s.ring? n = some r)
    (differs : r.inFlightWritten ≠ s.inFlightOf n)
    (written : (writeVa (ringWho r.tenant (.status n)) r.asid r.statusVa (s.ringBlock n r)).go s = (.ok u, t)) :
    exec (.inFlightRefresh n) s =
      .next (t.updRing n fun x => { x with inFlightWritten := s.inFlightOf n, statusDue := false }) := by
  show execInFlightRefresh n s = _
  simp [execInFlightRefresh, registered, differs, State.writeStatus_ok registered written]

/-- 06 R162: a command that is neither a LAUNCH that runs nor one that still reports its parts completes TIMEOUT. -/
theorem exec_commandTimeout_plain {sl : Slot} (held : s.slot? n = some sl) (live : sl.stage ≠ .finished)
    (limited : s.timeLimitMs sl ≠ 0) (unlaunched : SMap.look s.grid.launches n = none) (notScatter : sl.opcode ≠ 0x71)
    (notTableConfig : sl.opcode ≠ 0x75) (notSearch : sl.opcode ≠ 0x60) :
    exec (.commandTimeout n) s =
      .next (({ s with grid := { s.grid with launches := SMap.del s.grid.launches n } } : State).failSlot n .timeout) := by
  show execCommandTimeout n s = _
  simp [execCommandTimeout, held, live, limited, unlaunched, notScatter, notTableConfig, notSearch]

end

/-- A ring of a lapsed lease (06 R171). -/
def Ring.lapsed (r : Ring) : Ring :=
  { r with state := .quiesced, mode := .normal, runOne := none, runGrant := false, stepEnter := none }

/-- 06 R171: a ring that no RUN_ONE waits for becomes QUIESCED, and its status block is written. -/
theorem State.quiesce_ok {s t : State} {n : Nat} {r : Ring} {u : Unit} (registered : s.ring? n = some r) (free : r.runOne = none)
    (written : (writeVa (ringWho r.tenant (.status n)) r.asid r.statusVa
      ((s.updRing n fun _ => r.lapsed).ringBlock n r.lapsed)).go (s.updRing n fun _ => r.lapsed) = (.ok u, t)) :
    s.quiesce n r = t.updRing n fun x => { x with inFlightWritten := s.inFlightOf n, statusDue := false } := by
  have lapses : s.updRing n Ring.lapsed = s.updRing n fun _ => r.lapsed :=
    congrArg (fun rings : SMap Ring => { s with fe := { s.fe with rings } })
      (SMap.upd_congr (f := Ring.lapsed) (g := fun _ => r.lapsed) registered rfl)
  simp only [State.quiesce, free]
  exact (congrArg (State.writeStatus · n) lapses).trans (State.writeStatus_ok (r := r.lapsed) (by simp [registered]) written)

theorem exec_leaseLapse_one {s t : State} {l n : Nat} {r : Ring} {u : Unit} (awake : s.awake = true)
    (current : SMap.has s.fe.leases l = true) (free : r.runOne = none) (registered : s.ring? n = some r)
    (only : (s.fe.rings.filter fun (_, r) => r.lease = l && (r.state = .active || r.state = .step)) = [(n, r)])
    (written : (writeVa (ringWho r.tenant (.status n)) r.asid r.statusVa
      ((({ s with fe := { s.fe with leases := SMap.del s.fe.leases l } } : State).updRing n fun _ => r.lapsed).ringBlock n
        r.lapsed)).go (({ s with fe := { s.fe with leases := SMap.del s.fe.leases l } } : State).updRing n fun _ => r.lapsed) =
          (.ok u, t)) :
    exec (.leaseLapse l) s = .next
      ((((t.updRing n fun x => { x with inFlightWritten := s.inFlightOf n, statusDue := false }).bump (dkey 0x9103 1) 1).logError
        0x0003 11 0 (l % twinSpace 10) (l % twinSpace 10)).mirrorMeta none) := by
  show execLeaseLapse l s = _
  simp only [execLeaseLapse, current, awake, only, Bool.and_self, if_true, List.foldl_cons, List.foldl_nil]
  rw [State.quiesce_ok (s := { s with fe := { s.fe with leases := SMap.del s.fe.leases l } }) registered free written]
  rfl

/-! #### BOOT_RING (06 R155) -/

theorem exec_bootRing_free {s : State} {v : BitVec 64} {x : Extent} (managed : s.managed) (names : v.toNat ≠ 0)
    (aligned : v.toNat % 2 ^ 30 = 0) (fitted : v.toNat < s.asm.hbmBytes) (noRing : s.ring? 0 = none) (noCq : s.cq? 0 = none)
    (hx : s.extent? (extentOf v.toNat) = some x) (free : x.state = .freeClean) (held : x.hold = .none) :
    exec (.bootRing v) s = .next (State.answer (.ok, s.bootRing (extentOf v.toNat) x)) := by
  have write : s.writeBootRing v.toNat = (.ok, s.bootRing (extentOf v.toNat) x) := by
    simp [-Nat.reducePow, State.writeBootRing, names, aligned, Nat.not_le.2 fitted, noRing, noCq, hx, free, held]
  exact congrArg Host.Outcome.next (manageData_ok s _ _ _ managed write)

/-- Settles O6, event by event; `Ring.presented`, `Ring.lapsed` and `Vector2.holdoffEnded` are
what the statement writes out. -/
theorem ringWordsTimersAndBootRing : Obligations.RingWordsTimersAndBootRing := by
  refine ⟨fun s => ⟨?_, ?_, ?_, ?_⟩, fun s => ⟨?_, ?_, ?_, ?_, ?_⟩⟩
  · intro n v r registered kept sound watched plain fresh lo hi
    obtain ⟨pwr, vt, taken⟩ := exec_tailPresented_inRange registered kept sound watched plain fresh lo hi
    exact ⟨_, taken, rfl⟩
  · exact fun n v r registered kept sound watched plain fresh below =>
      ⟨_, exec_tailPresented_below registered kept sound watched plain fresh below, rfl⟩
  · exact fun n v c => exec_headPresented_inRange
  · exact fun n v c registered watched out => ⟨_, exec_headPresented_outOfRange registered watched out, by simp, by simp⟩
  · exact fun n v => exec_irqHoldoffExpiry_raised
  · exact fun n r u t => exec_inFlightRefresh_differs
  · exact fun l n r u t awake current free registered only => exec_leaseLapse_one (r := r) awake current free registered only
  · exact fun n sl => exec_commandTimeout_plain
  · exact fun v x data answers served => exec_bootRing_free ⟨data, answers, served⟩

end Sys2Proof.Machine
end

section

/-!
### The fetch of descriptors and the records of completions (06 R149, R157, R161, R165, R168)
-/

namespace Sys2Proof.Machine

open Sys2Proof

/-! #### The fetch -/

section
variable {s t : State} {n : Nat} {r : Ring} {bs : List Byte} (picked : s.pickRing = some (n, r)) (unread : r.fetchWait ≠ .failed)
  (read : (readVaP (ringWho r.tenant (.ring n)) r.asid (r.baseVa + r.fetched % 2 ^ r.log2 * 64) 64).go s = (.ok (bs, false), t))
include picked unread read

theorem exec_descriptorFetch_read : exec .descriptorFetch s = .next (t.takeRead n r bs) := by
  show execDescriptorFetch s = _
  simp [execDescriptorFetch, picked, unread, read]

theorem exec_descriptorFetch_passed {d : Desc}
    (passed : t.checkDescriptor n r.driver r.tenant (BitVec.ofNat 512 (leNat bs)) = .ok d) :
    exec .descriptorFetch s = .next (t.takeDescriptor n r (Slot.fetch n r.fetched r.tenant t.time d .fetched .ok)) := by
  rw [exec_descriptorFetch_read picked unread read, State.takeRead, passed]

theorem exec_descriptorFetch_failed {st : Status}
    (failed : t.checkDescriptor n r.driver r.tenant (BitVec.ofNat 512 (leNat bs)) = .error st) :
    exec .descriptorFetch s = .next ((t.bump (dkey 0x9106 0) 1).takeDescriptor n r
      (Slot.fetch n r.fetched r.tenant t.time (BitVec.ofNat 512 (leNat bs)) .finished st)) := by
  rw [exec_descriptorFetch_read picked unread read, State.takeRead, failed]

end

/-- A descriptor that is taken stands in the least free slot: what follows in the fetch changes no slot. -/
theorem State.slot?_takeDescriptor (s : State) (n : Nat) (r : Ring) (sl : Slot) :
    (s.takeDescriptor n r sl).slot? (leastFree (SMap.keys s.fe.slots) 65536 0) = some sl := by
  have slots : (s.takeDescriptor n r sl).fe.slots =
      SMap.put s.fe.slots (leastFree (SMap.keys s.fe.slots) 65536 0) sl := by
    simp only [State.takeDescriptor, State.mirrorMeta_none_fe, State.slots_writeStatus, State.trace_fe]
    split <;> rfl
  rw [State.slot?, slots, SMap.look_put_same]

/-! #### The completion record -/

/-- A slot that is freed is free (06 R160). -/
theorem State.slot?_freeSlot {s : State} (n : Nat) (sl : Slot) (sorted : SMap.Sorted s.fe.slots) :
    (s.freeSlot n sl).slot? n = none := by
  have slots : (s.freeSlot n sl).fe.slots = SMap.del s.fe.slots n := by
    simp only [State.freeSlot, State.mirrorMeta_none_fe]
    split <;> simp [State.releaseUnits, State.delSlot]
  rw [State.slot?, slots, SMap.look_del _ _ _ sorted, if_pos rfl]

/-- No step record is written for a ring that no RUN_ONE waits for. -/
theorem State.endCommand_unstepped {s : State} {n : Nat} {sl : Slot} {r : Ring} (free : r.runOne = none) :
    s.endCommand n sl r = s.freeSlot n sl := by
  simp [State.endCommand, State.stepper, free]

/-- The completion record of a command, and WRITTEN after it (06 R149, R165). -/
def recordWrites (sl : Slot) (cq : Nat) (c : Cq) : Eng Unit := do
  writeVa (ringWho c.tenant (.cq cq)) c.asid (c.baseVa + c.written % 2 ^ c.log2 * 32) (sl.record c.log2 c.written)
  writeVa (ringWho c.tenant (.cq cq)) c.asid c.statusVa (Cq.block (c.written + 1) c)

theorem writeRecord_go {s t : State} {sl : Slot} {cq : Nat} {c : Cq} {u : Unit}
    (written : (recordWrites sl cq c).go s = (.ok u, t)) :
    (writeRecord sl cq c).go s = (.ok (), t.setCq cq { c with written := c.written + 1 }) :=
  Eng.go_bind_bind_ok _ written

theorem exec_completionWrite_written {s t : State} {n : Nat} {sl : Slot} {r : Ring} {c : Cq} {u : Unit}
    (held : s.slot? n = some sl) (registered : s.ring? sl.ring = some r) (completes : s.cq? r.cq = some c)
    (finished : sl.stage = .finished) (settled : s.slotSettled n = true) (loud : sl.silent = false) (free : r.runOne = none)
    (room : c.written - c.headSeen < 2 ^ c.log2) (sorted : SMap.Sorted t.fe.slots)
    (written : (recordWrites sl r.cq c).go s = (.ok u, t)) :
    exec (.completionWrite n) s =
      .next (((t.setCq r.cq { c with written := c.written + 1 }).freeSlot n sl).raiseCq sl c) := by
  have freed : ((t.setCq r.cq { c with written := c.written + 1 }).freeSlot n sl).slot? n = none :=
    State.slot?_freeSlot n sl sorted
  show execCompletionWrite n s = _
  simp [execCompletionWrite, held, registered, completes, finished, settled, loud, Nat.not_le.2 room, writeRecord_go written,
    State.endCommand_unstepped free, freed]

/-- Settles O7, event by event; `recordWrites` is the action that the statement writes out. -/
theorem descriptorsAreFetchedAndRecordsWritten : Obligations.DescriptorsAreFetchedAndRecordsWritten := by
  refine fun s => ⟨?_, ?_, ?_, ?_⟩
  · exact fun n r bs t d picked unread read => exec_descriptorFetch_passed picked unread read
  · exact fun n r bs t st picked unread read => exec_descriptorFetch_failed picked unread read
  · exact fun n sl r c u t => exec_completionWrite_written
  · intro n k r sl hk _
    subst hk
    exact State.slot?_takeDescriptor s n r sl

end Sys2Proof.Machine
end

section

/-!
### How the instructions of a silt core run (07 R184, R191)

An instruction that issues retires where its action ends with a next PC, and takes the exception that its action raises. The rules
for the parts of an action that the instructions share stand here, once.
-/

namespace Sys2Proof.Machine

open Sys2Proof

section
variable {α β : Type} {s t u : State} {n : Nat}

@[simp] theorem CoreE.go_coreGet_bind (f : Core → CoreE β) : (coreGet n >>= f).go s = (f (s.core n)).go s := rfl

@[simp] theorem CoreE.go_coreSet_bind (g : Core → Core) (f : PUnit → CoreE β) :
    (coreSet n g >>= f).go s = (f ⟨⟩).go (s.updCore n g) := rfl

@[simp] theorem CoreE.go_putScalar_bind (rd : Nat) (v : Word) (f : Word → CoreE β) :
    (putScalar n rd v >>= f).go s = (f ((s.core n).pc + 4)).go (s.updCore n fun c => c.putS rd v) := rfl

@[simp] theorem CoreE.go_excE_bind (cause va : Nat) (f : α → CoreE β) :
    ((excE cause va : CoreE α) >>= f).go s = (.error (.exc cause va false), s) := rfl

theorem CoreE.go_legalE_bind {b : Bool} (f : Unit → CoreE β) (legal : b = true) : (legalE b >>= f).go s = (f ()).go s := by
  subst legal; rfl

theorem CoreE.go_illegal_bind {b : Bool} (f : Unit → CoreE β) (illegal : b = false) :
    (legalE b >>= f).go s = (.error (.exc 0x01 0 false), s) := by
  subst illegal; rfl

/-- A change of a core is decided by what it makes of the core. -/
theorem State.updCore_congr {f g : Core → Core} (same : f (s.core n) = g (s.core n)) : s.updCore n f = s.updCore n g :=
  congrArg (s.setCore n) same

end

section
variable {s t u : State} {n : Nat} {word : BitVec 32} {mine : Bool} {body : CoreE Word}

theorem State.issues.isRunning (h : s.issues n word t) : (s.core n).run = .running := by
  obtain ⟨-, issue, -⟩ := h
  simp only [Core.mayIssue, Bool.and_eq_true, decide_eq_true_eq] at issue
  exact issue.1.1

theorem State.issues.retires {pc : Word} (h : s.issues n word t) (row : mine = true) (run : body.go t = (.ok pc, u)) :
    (.next (s.instruction n word mine body) : Out) = .next (u.retire n pc) :=
  congrArg _ (instruction_ok s t u n word mine body pc h row run)

/-- The action of an instruction that ends with a scalar result. -/
theorem State.issues.writesScalar {rd : Nat} {v : Word} (h : s.issues n word t) (row : mine = true)
    (run : body.go t = (putScalar n rd v).go u) :
    (.next (s.instruction n word mine body) : Out) = .next (u.scalarDone n rd v) :=
  h.retires row run

theorem State.issues.raises {cause va : Nat} {imp : Bool} (h : s.issues n word t) (row : mine = true)
    (run : body.go t = (.error (.exc cause va imp), u)) :
    (.next (s.instruction n word mine body) : Out) = .next (u.coreExc n cause va imp word) :=
  congrArg _ (instruction_exc s t u n word mine body cause va imp h row run)

/-- The action of an instruction that waits at issue: the core notes why. -/
theorem State.issues.waits {why : Nat} (h : s.issues n word t) (row : mine = true) (run : body.go t = (.error (.wait why), u)) :
    (.next (s.instruction n word mine body) : Out) = .next (u.updCore n fun c => { c with blocked := why }) := by
  obtain ⟨inRange, issue, fetched⟩ := h
  subst row
  simp only [State.instruction]
  rw [if_neg (by simp [issue, Nat.not_le.2 inRange])]
  simp only [fetched]
  rw [if_neg (by simp)]
  simp only [if_true, run]

end

end Sys2Proof.Machine
end

section

/-!
### Registers and the issue of instructions (07 Table 7-1, R184, R191)
-/

namespace Sys2Proof.Machine

open Sys2Proof

/-! #### Registers -/

section
variable (c : Core) (v : Word) (p : PReg)

@[simp] theorem Core.getS_zero : c.getS 0 = 0 := rfl
@[simp] theorem Core.putS_zero : c.putS 0 v = c := rfl
@[simp] theorem Core.getP_zero : c.getP 0 = BitVec.allOnes 128 := rfl
@[simp] theorem Core.putP_zero : c.putP 0 p = c := rfl

theorem Core.getS_putS {c : Core} {r : Nat} (q : Nat) (writable : r ≠ 0) (sorted : SMap.Sorted c.s) :
    (c.putS r v).getS q = if q = r then v else c.getS q := by
  rcases Nat.eq_zero_or_pos q with rfl | pos
  · simp [writable.symm]
  · simp [Core.getS, Core.putS, writable, Nat.ne_of_gt pos, SMap.get_putD _ _ _ _ _ sorted]

end

/-! #### The fetch (07 R184) -/

section
variable {s t : State} {n : Nat} {bs : List Byte}

/-- The word at byte `pc` of the line that holds it. -/
def wordIn (bs : List Byte) (pc : Nat) : BitVec 32 := BitVec.ofNat 32 (leNat ((bs.drop (pc % 64)).take 4))

theorem fetchWord_go_of_held (held : SMap.look (s.core n).icache ((s.core n).pc.toNat / 64) = some bs) :
    (fetchWord n).go s = (.ok (wordIn bs (s.core n).pc.toNat), s) := by
  simp [fetchWord, CoreE.go_bind, held, wordIn]

theorem liftC_go_ok {α : Type} {e : Eng α} {a : α} (va : Nat) (ok : e.go s = (.ok a, t)) : (liftC va e).go s = (.ok a, t) := by
  simp only [liftC, CoreE.go_bind, CoreE.go_get, ok]
  rfl

theorem fetchWord_go_of_read
    (missing : SMap.look (s.core n).icache ((s.core n).pc.toNat / 64) = none)
    (read : (readVaP (s.coreWho n) (s.core n).asid ((s.core n).pc.toNat / 64 * 64) 64).go s = (.ok (bs, false), t))
    (room : (t.core n).icache.length < 256) :
    (fetchWord n).go s = (.ok (wordIn bs (s.core n).pc.toNat), t.updCore n fun c =>
      { c with icache := SMap.put c.icache ((s.core n).pc.toNat / 64) bs, resp := [] }) := by
  have full : ¬ (t.core n).icache.length ≥ 256 := Nat.not_le.2 room
  simp only [fetchWord, CoreE.go_bind, CoreE.go_get, missing, liftC_go_ok _ read]
  refine congrArg (Prod.mk _) ?_
  simp only [if_neg full]
  exact State.updCore_congr (by simp only [if_neg full])

end

/-! #### Words of no row (07 R191) -/

theorem major_ne_salu_of_ownerless {word : BitVec 32} (h : ownerless word = true) : major word ≠ 0x01 := by
  intro row
  simp [ownerless, row] at h

theorem isSys_of_ownerless {word : BitVec 32} {fn : Nat} (h : ownerless word = true) (defined : fn < 6) : isSys word fn = false := by
  by_cases row : major word = 0x0D
  · simp only [ownerless, row, decide_eq_true_eq] at h
    simp [isSys, row]
    omega
  · simp [isSys, row]

theorem exec_salu_ownerless {s t : State} {n : Nat} {word : BitVec 32} (h : s.issues n word t) (noRow : ownerless word = true) :
    exec (.salu n word) s = .next (t.coreExc n 0x01 0 false word) := by
  show execSalu n word s = _
  rw [execSalu, decide_eq_false (major_ne_salu_of_ownerless noRow), instruction_illegal s t n word _ h noRow]

theorem exec_halt_ownerless {s t : State} {n : Nat} {word : BitVec 32} (h : s.issues n word t) (noRow : ownerless word = true) :
    exec (.halt n word) s = .next ((t.coreExc n 0x01 0 false word).coreProgress n) := by
  show execHalt n word s = _
  simp only [execHalt, isSys_of_ownerless noRow (by decide : 0 < 6)]
  rw [instruction_illegal s t n word _ h noRow, if_pos h.isRunning]

/-- Settles O19: the registers by the laws of sparse maps, the issue by the two ways of a fetch. -/
theorem registersAndInstructionIssue : Obligations.RegistersAndInstructionIssue := by
  refine ⟨fun c v p => ⟨rfl, rfl, rfl, rfl, fun r q => Core.getS_putS v q⟩, fun s n word bs => ⟨?_, ?_, ?_⟩⟩
  · intro held inRange issue isWord
    exact ⟨inRange, issue, isWord ▸ fetchWord_go_of_held held⟩
  · intro t missing _ inRange issue read room
    exact ⟨inRange, issue, fetchWord_go_of_read missing read room⟩
  · exact fun t h noRow => ⟨exec_salu_ownerless h noRow, exec_halt_ownerless h noRow⟩

end Sys2Proof.Machine
end

section

/-!
### Scalar instructions (07 R190, R192, R193, Tables 7-5, 7-7 and 7-8)
-/

namespace Sys2Proof.Machine

open Sys2Proof

section
variable {s t : State} {n : Nat} {word : BitVec 32} (h : s.issues n word t)
include h

/-! #### SALU and the immediate instructions -/

theorem exec_salu_computes {v : Word} (row : major word = 0x01) (fields : saluFields word = true)
    (result : salu (fnA word) ((t.core n).getS (fRs1 word)) ((t.core n).getS (fRs2 word)) ((t.core n).getS (fRs3 word)) = some v) :
    exec (.salu n word) s = .next (t.scalarDone n (fRd word) v) :=
  h.writesScalar (decide_eq_true row) (by rw [CoreE.go_coreGet_bind, result]; exact CoreE.go_legalE_bind _ fields)

/-- The instructions of format I whose action is `formatI`. -/
theorem State.issues.formatI {mine : Bool} (f : Word → Word) (row : mine = true) :
    (.next (s.instruction n word mine (formatI n word f)) : Out) =
      .next (t.scalarDone n (fRd word) (f ((t.core n).getS (fRs1 word)))) :=
  h.writesScalar row rfl

theorem exec_lui_writes (row : major word = 0x06) (plain : fRs1 word = 0) :
    exec (.lui n word) s = .next (t.scalarDone n (fRd word) (immS word <<< 16)) :=
  h.writesScalar (decide_eq_true row) (CoreE.go_legalE_bind _ (decide_eq_true plain))

theorem exec_lui_illegal (row : major word = 0x06) (used : fRs1 word ≠ 0) :
    exec (.lui n word) s = .next (t.coreExc n 0x01 0 false word) :=
  h.raises (decide_eq_true row) (CoreE.go_illegal_bind _ (decide_eq_false used))

/-! #### Branches and jumps -/

theorem exec_br_decided {b : Bool} (row : major word = 0x08)
    (decided : branchHolds (fld word 16 3) ((t.core n).getS (fRd word)) ((t.core n).getS (fRs1 word)) = some b) :
    exec (.br n word) s = .next (t.retire n (if b then (t.core n).pc + offB word else (t.core n).pc + 4)) :=
  h.retires (decide_eq_true row) (by rw [CoreE.go_coreGet_bind, decided]; rfl)

/-- A branch whose condition is `holds`, in both its outcomes. -/
theorem exec_br_iff {cond : Nat} {b : Bool} {holds : Prop} (row : major word = 0x08) (isCond : fld word 16 3 = cond)
    (decided : branchHolds cond ((t.core n).getS (fRd word)) ((t.core n).getS (fRs1 word)) = some b) (iff : b = true ↔ holds) :
    (holds → exec (.br n word) s = .next (t.retire n ((t.core n).pc + offB word))) ∧
    (¬holds → exec (.br n word) s = .next (t.retire n ((t.core n).pc + 4))) := by
  have taken := exec_br_decided h row (isCond ▸ decided)
  refine ⟨fun yes => ?_, fun no => ?_⟩
  · rwa [if_pos (iff.2 yes)] at taken
  · rwa [if_neg (mt iff.1 no)] at taken

theorem exec_jal_links (row : major word = 0x09) :
    exec (.jal n word) s = .next
      ((t.updCore n fun c => c.putS 31 ((t.core n).pc + 4)).retire n ((t.core n).pc + offJ word)) :=
  h.retires (decide_eq_true row) rfl

theorem exec_jalr_links (row : major word = 0x0A) :
    exec (.jalr n word) s = .next
      ((t.updCore n fun c => c.putS (fRd word) ((t.core n).pc + 4)).retire n
        (((t.core n).getS (fRs1 word) + immS word) &&& ~~~3)) :=
  h.retires (decide_eq_true row) rfl

end

/-- Settles O20: each function of Table 7-7 is a case of `salu`, where the quotient and the remainder are those of the numbers. -/
theorem scalarUnitComputes : Obligations.ScalarUnitComputes := by
  refine ⟨fun s t n word h row fields => ?_, fun s t n word h => ?_⟩
  · intro a b c is
    have result {fn : Nat} {v : Word} (hv : salu fn a b c = some v) : is fn v := fun hfn =>
      exec_salu_computes h row fields (hfn ▸ hv)
    have quotient : a / b = BitVec.ofNat 64 (a.toNat / b.toNat) := BitVec.udiv_def
    have remainder : a % b = BitVec.ofNat 64 (a.toNat % b.toNat) := BitVec.umod_def
    have below : a.slt b = decide (a.toInt < b.toInt) := rfl
    refine ⟨result rfl, result rfl, result rfl, result rfl, result rfl, result rfl, result rfl, result rfl, result rfl,
      result rfl, result ?_, result ?_, result ?_, result ?_, result ?_, result ?_, result rfl, result rfl, result rfl,
      result rfl, result rfl, result rfl, result rfl⟩
    · simp only [salu, quotient]
    · simp only [salu, remainder]
    · simp only [salu, below, decide_eq_true_eq]
    · rfl
    · simp only [salu, below, decide_eq_true_eq]
    · simp only [salu, below, decide_eq_true_eq]
  · intro a imm gives
    exact ⟨fun row => h.formatI _ (decide_eq_true row), fun row => h.formatI _ (decide_eq_true row),
      fun row => h.formatI _ (decide_eq_true row), fun row => h.formatI _ (decide_eq_true row), exec_lui_writes h,
      exec_lui_illegal h, fun row => h.formatI _ (decide_eq_true row)⟩

/-- Settles O21: the conditions of Table 7-8 are the cases of `branchHolds`. -/
theorem branchesAndJumpsSetThePc : Obligations.BranchesAndJumpsSetThePc := by
  intro s t n word h c a b br
  have branch {cond : Nat} {d : Bool} {holds : Prop} (decided : branchHolds cond a b = some d) (iff : d = true ↔ holds) :
      br cond holds := fun row isCond => exec_br_iff h row isCond decided iff
  refine ⟨branch rfl ?_, branch rfl ?_, branch rfl ?_, branch rfl ?_, branch rfl ?_, branch rfl ?_, exec_jal_links h,
    exec_jalr_links h⟩
  · exact decide_eq_true_iff
  · exact decide_eq_true_iff
  · exact decide_eq_true_iff
  · simp [BitVec.slt]
  · exact decide_eq_true_iff
  · simp [BitVec.lt_def]

end Sys2Proof.Machine
end

section

/-!
### Control registers and the instructions of SYS (07 R184, R207, R208, Tables 7-6 and 7-16)
-/

namespace Sys2Proof.Machine

open Sys2Proof

section
variable {s t : State} {n : Nat} {word : BitVec 32} (h : s.issues n word t)
include h

/-! #### Control registers -/

theorem exec_csrr_reads {v : Nat} (row : major word = 0x0B) (plain : fRs1 word = 0) (read : t.csr n (fld word 16 16) = some v) :
    exec (.csrr n word) s = .next (t.scalarDone n (fRd word) (BitVec.ofNat 64 v)) :=
  h.writesScalar (decide_eq_true row) (by
    rw [CoreE.go_bind_ok _ _ _ _ _ (CoreE.go_get t), read]
    exact CoreE.go_legalE_bind _ (decide_eq_true plain))

theorem exec_csrr_reserved (row : major word = 0x0B) (reserved : t.csr n (fld word 16 16) = none) :
    exec (.csrr n word) s = .next (t.coreExc n 0x01 0 false word) :=
  h.raises (decide_eq_true row) (by
    rw [CoreE.go_bind_ok _ _ _ _ _ (CoreE.go_get t), reserved]
    rfl)

theorem exec_csrw_writes (row : major word = 0x0C) (plain : fRd word = 0) (defined : (t.csr n (fld word 16 16)).isSome = true) :
    exec (.csrw n word) s = .next
      ((t.updCore n fun c => c.csrWrite (fld word 16 16) (c.getS (fRs1 word))).retire n ((t.core n).pc + 4)) :=
  h.retires (decide_eq_true row) (by
    rw [CoreE.go_coreGet_bind, CoreE.go_bind_ok _ _ _ _ _ (CoreE.go_get t),
      CoreE.go_legalE_bind _ (by simp [defined, plain]), CoreE.go_coreSet_bind]
    rfl)

theorem exec_csrw_reserved (row : major word = 0x0C) (reserved : t.csr n (fld word 16 16) = none) :
    exec (.csrw n word) s = .next (t.coreExc n 0x01 0 false word) :=
  h.raises (decide_eq_true row) (by
    rw [CoreE.go_coreGet_bind, CoreE.go_bind_ok _ _ _ _ _ (CoreE.go_get t)]
    exact CoreE.go_illegal_bind _ (by simp [reserved]))

/-- 07 R208: FFLAGS clears the bits written as 1. -/
theorem exec_csrw_fflags (row : major word = 0x0C) (plain : fRd word = 0) (num : fld word 16 16 = 0x010) :
    exec (.csrw n word) s = .next
      ((t.updCore n fun c => { c with fflags := c.fflags &&& ~~~((c.getS (fRs1 word)).setWidth 4) }).retire n
        ((t.core n).pc + 4)) := by
  rw [exec_csrw_writes h row plain (by rw [num]; rfl), num]
  rfl

theorem exec_csrw_readOnly {v : Nat} (row : major word = 0x0C) (plain : fRd word = 0) (num : fld word 16 16 ≠ 0x010)
    (read : t.csr n (fld word 16 16) = some v) :
    exec (.csrw n word) s = .next ((t.updCore n fun c => c).retire n ((t.core n).pc + 4)) := by
  rw [exec_csrw_writes h row plain (by rw [read]; rfl)]
  simp only [Core.csrWrite, if_neg num]

end

/-! #### SYS -/

/-- Of a core with no dirty line and no tracker entry, nothing is left to write back. -/
theorem writeBackAll_go_of_clean {t : State} {n : Nat} (clean : (t.core n).dirtyLines = []) (idle : (t.core n).tracker = []) :
    (writeBackAll n).go t = (.ok (), t.updCore n fun c => c) := by
  have kept : (t.updCore n fun c => c.cleanSome c.dirtyLines) = t.updCore n fun c => c :=
    State.updCore_congr (by simp [clean, Core.cleanSome])
  rw [writeBackAll, CoreE.go_coreSet_bind, kept, CoreE.go_coreGet_bind, State.core_updCore, clean, idle]
  rfl

theorem takeFailure_go_of_none {t : State} {n : Nat} (sound : (t.core n).failure = none) : (takeFailure n).go t = (.ok (), t) := by
  rw [takeFailure, CoreE.go_coreGet_bind, sound]
  rfl

theorem isSys_of_row {word : BitVec 32} {fn : Nat} (row : major word = 0x0D) (hfn : fnA word = fn) : isSys word fn = true := by
  simp [isSys, row, hfn]

section
variable {s t : State} {n : Nat} {word : BitVec 32} (h : s.issues n word t) (row : major word = 0x0D)
  (fields : sysFields word = true)
include h row fields

theorem exec_halt_ends (fn : fnA word = 0) (sound : (t.core n).failure = none) :
    exec (.halt n word) s =
      .next (((t.updCore n fun c => { c with run := .ending }).retire n (t.core n).pc).coreProgress n) := by
  show execHalt n word s = _
  simp only [execHalt]
  rw [if_pos h.isRunning]
  refine congrArg (fun u : State => (.next (u.coreProgress n) : Out)) (instruction_ok s t _ n word _ _ _ h (isSys_of_row row fn) ?_)
  rw [CoreE.go_coreGet_bind, CoreE.go_legalE_bind _ fields, CoreE.go_bind_ok _ _ _ _ _ (takeFailure_go_of_none sound)]
  rfl

theorem exec_brk_armed (fn : fnA word = 1) (armed : (t.core n).armed = true) :
    exec (.brk n word) s =
      .next ((t.updCore n fun c => { c with dbg := .halted, atBrk := true }).retire n (t.core n).pc) :=
  h.retires (isSys_of_row row fn) (by
    rw [CoreE.go_coreGet_bind, CoreE.go_legalE_bind _ fields, if_pos armed]
    rfl)

theorem exec_brk_unarmed (fn : fnA word = 1) (unarmed : (t.core n).armed = false) :
    exec (.brk n word) s = .next (t.coreExc n 0x0B 0 false word) :=
  h.raises (isSys_of_row row fn) (by
    rw [CoreE.go_coreGet_bind, CoreE.go_legalE_bind _ fields, unarmed]
    rfl)

theorem exec_drain_idle (fn : fnA word = 2) (idle : (t.core n).tracker = []) (sound : (t.core n).failure = none) :
    exec (.drain n word) s = .next (t.retire n ((t.core n).pc + 4)) :=
  h.retires (isSys_of_row row fn) (by
    rw [CoreE.go_coreGet_bind, CoreE.go_legalE_bind _ fields, idle]
    exact CoreE.go_bind_ok _ _ _ _ _ (takeFailure_go_of_none sound))

theorem exec_dcwb_clean (fn : fnA word = 3) (clean : (t.core n).dirtyLines = []) (idle : (t.core n).tracker = []) :
    exec (.dcwb n word) s = .next ((t.updCore n fun c => c).retire n ((t.core n).pc + 4)) :=
  h.retires (isSys_of_row row fn) (by
    rw [CoreE.go_legalE_bind _ fields, CoreE.go_bind_ok _ _ _ _ _ (writeBackAll_go_of_clean clean idle),
      CoreE.go_coreGet_bind, State.core_updCore]
    rfl)

theorem exec_dcwbi_clean (fn : fnA word = 4) (clean : (t.core n).dirtyLines = []) (idle : (t.core n).tracker = []) :
    exec (.dcwbi n word) s =
      .next (((t.updCore n fun c => c).updCore n fun c => { c with dcache := [] }).retire n ((t.core n).pc + 4)) :=
  h.retires (isSys_of_row row fn) (by
    rw [CoreE.go_legalE_bind _ fields, CoreE.go_bind_ok _ _ _ _ _ (writeBackAll_go_of_clean clean idle),
      CoreE.go_coreSet_bind, CoreE.go_coreGet_bind, State.core_updCore, State.core_updCore]
    rfl)

theorem exec_icinv_empties (fn : fnA word = 5) :
    exec (.icinv n word) s = .next ((t.updCore n fun c => { c with icache := [] }).retire n ((t.core n).pc + 4)) :=
  h.retires (isSys_of_row row fn) (by
    rw [CoreE.go_legalE_bind _ fields, CoreE.go_coreSet_bind, CoreE.go_coreGet_bind, State.core_updCore]
    rfl)

end

/-- Settles O22, instruction by instruction. -/
theorem controlAndSystemInstructions : Obligations.ControlAndSystemInstructions := by
  refine ⟨fun s t n word h => ⟨?_, ?_, ?_, ?_⟩, fun s t n word h row zero => ?_⟩
  · exact fun v => exec_csrr_reads h
  · exact exec_csrw_fflags h
  · exact fun v => exec_csrw_readOnly h
  · exact fun reserved => ⟨fun row => exec_csrr_reserved h row reserved, fun row => exec_csrw_reserved h row reserved⟩
  · have fields : sysFields word = true := decide_eq_true zero
    refine ⟨?_, ?_, ?_, ?_, ?_, ?_⟩
    · exact exec_halt_ends h row fields
    · exact exec_brk_armed h row fields
    · exact exec_brk_unarmed h row fields
    · exact exec_drain_idle h row fields
    · exact fun clean idle => ⟨fun fn => exec_dcwb_clean h row fields fn clean idle,
        fun fn => exec_dcwbi_clean h row fields fn clean idle⟩
    · exact exec_icinv_empties h row fields

end Sys2Proof.Machine
end

section

/-!
### Vector lanes, conversions and MX blocks (07 R194 to R196, R201, Tables 7-10 and 7-11)
-/

namespace Sys2Proof.Machine

open Sys2Proof

/-! #### Work that is counted, and lanes that are written -/

theorem State.countWork_grid (s : State) (tenant : Nat) (seq : Option Nat) (type col k : Nat) :
    (s.countWork tenant seq type col k).grid = s.grid := by
  unfold State.countWork
  split
  · rfl
  · cases seq <;> rfl

@[simp] theorem State.core_countWork (s : State) (n tenant : Nat) (seq : Option Nat) (type col k : Nat) :
    (s.countWork tenant seq type col k).core n = s.core n := by
  rw [State.core, State.countWork_grid, State.core]

/-- The state with work of the kernel of core `n` counted (15 R409). -/
def State.kernelWork (s : State) (n type col k : Nat) : State :=
  s.countWork (s.core n).tenant (some (s.core n).launchSeq) type col k

@[simp] theorem State.core_kernelWork (s : State) (n type col k : Nat) : (s.kernelWork n type col k).core n = s.core n :=
  State.core_countWork ..

theorem countC_go (s : State) (n type col k : Nat) : (countC n type col k).go s = (.ok ⟨⟩, s.kernelWork n type col k) := rfl

@[simp] theorem CoreE.go_countC_bind {β : Type} (s : State) (n type col k : Nat) (f : PUnit → CoreE β) :
    (countC n type col k >>= f).go s = (f ⟨⟩).go (s.kernelWork n type col k) := rfl

/-- Lanes of a type: the active ones are new, with their flags, and the others are old (07 R194). -/
def newLanes (ty : Nat) (p : PReg) (old : List Nat) (f : Nat → Nat × Nat) : List (Nat × Nat) :=
  (List.range (tyLanes ty)).map fun i => if laneActive p ty i then f i else (old.getD i 0, 0)

/-- The state with lanes of a type in vector register `vd`, and their flags set (07 R201). -/
def State.setLanes (s : State) (n vd ty : Nat) (l : List (Nat × Nat)) : State :=
  s.updCore n fun c => (c.putV vd (vOf ty (l.map (·.1)))).raiseFlags (joinFlags l)

theorem writeLanes_go (s : State) (n vd ty : Nat) (p : PReg) (f : Nat → Nat × Nat) :
    (writeLanes n vd ty p f).go s = (.ok (), s.setLanes n vd ty (newLanes ty p (vLanes ty ((s.core n).getV vd)) f)) := rfl

@[simp] theorem CoreE.go_writeLanes_bind {β : Type} (s : State) (n vd ty : Nat) (p : PReg) (f : Nat → Nat × Nat)
    (g : Unit → CoreE β) : (writeLanes n vd ty p f >>= g).go s =
      (g ()).go (s.setLanes n vd ty (newLanes ty p (vLanes ty ((s.core n).getV vd)) f)) := rfl

section
variable {s t : State} {n : Nat} {word : BitVec 32} (h : s.issues n word t)
include h

/-! #### VALU -/

/-- The state with the lanes of a VALU counted, where it multiplies (15 R409). -/
def State.valuCounted (t : State) (n : Nat) (word : BitVec 32) : State :=
  if fFn word = 2 ∨ fFn word = 3 then
    t.kernelWork n 0 (tyColumn (fTy word)) (activeLanes ((t.core n).getP (fPg word)) (fTy word)).length
  else t

theorem exec_valu_lanes (row : major word = 0x20) (types : valuTypes (fFn word) (fTy word) = true)
    (fields : fFn word < 11 ∨ fFn word = 14 ∨ fVs2 word = 0) :
    let c := t.core n
    let lane := fun r i => (vLanes (fTy word) (c.getV r)).getD i 0
    exec (.valu n word) s = .next (((t.valuCounted n word).setLanes n (fVd word) (fTy word)
      (newLanes (fTy word) (c.getP (fPg word)) (vLanes (fTy word) (c.getV (fVd word))) fun i =>
        valuLane (fTy word) (fFn word) (lane (fVd word) i) (lane (fVs1 word) i) (lane (fVs2 word) i))).retire n (c.pc + 4)) := by
  refine h.retires (decide_eq_true row) ?_
  have legal : (valuTypes (fFn word) (fTy word) && (fFn word < 11 || fFn word = 14 || fVs2 word = 0)) = true := by
    simpa [types, or_assoc] using fields
  rw [CoreE.go_coreGet_bind, CoreE.go_legalE_bind _ legal]
  by_cases counts : fFn word = 2 ∨ fFn word = 3
  · simp only [State.valuCounted, if_pos counts]
    rw [if_pos (by simpa using counts), CoreE.go_countC_bind, CoreE.go_writeLanes_bind, State.core_kernelWork]
    rfl
  · simp only [State.valuCounted, if_neg counts]
    rw [if_neg (by simpa using counts)]
    rfl

theorem exec_valu_illegal (row : major word = 0x20) (types : valuTypes (fFn word) (fTy word) = false) :
    exec (.valu n word) s = .next (t.coreExc n 0x01 0 false word) :=
  h.raises (decide_eq_true row) (by
    rw [CoreE.go_coreGet_bind]
    exact CoreE.go_illegal_bind _ (by simp [types]))

end

/-! #### VCVT -/

section
variable {s t : State} {n : Nat} {word : BitVec 32}

/-- Lane `i` of a conversion: its source lane converted, or the old lane where the part has none for it (07 R196). -/
def cvtLane (src ty part : Nat) (a d : List Nat) (i : Nat) : Nat × Nat :=
  match cvtSource src ty part i with
  | some k => tyWrite ty (tyRead src (a.getD k 0))
  | none => (d.getD i 0, 0)

theorem vcvtLanes_go (source : fVs2 word < 8) (part : fFn word < cvtRatio (fVs2 word % 8) (fTy word)) :
    let c := t.core n
    let d := vLanes (fTy word) (c.getV (fVd word))
    (vcvtLanes n word).go t = (.ok (), t.setLanes n (fVd word) (fTy word) (newLanes (fTy word) (c.getP (fPg word)) d
      (cvtLane (fVs2 word % 8) (fTy word) (fFn word) (vLanes (fVs2 word % 8) (c.getV (fVs1 word))) d))) := by
  intro c d
  rw [vcvtLanes, CoreE.go_coreGet_bind, CoreE.go_legalE_bind _ (by simp [source, part]), writeLanes_go]
  rfl

/-- 07 R196, Table 7-11: the state with lanes encoded as an MX block with its scale. -/
def State.mxEncoded (t : State) (n : Nat) (word : BitVec 32) (f : Fmt) (scale : Nat) (elems : List Nat) (flags : Nat) : State :=
  t.updCore n fun c =>
    ((c.putV (fVd word) (BitVec.ofNat 1024 (setFld (c.getV (fVd word)).toNat (fTy word * (32 * f.bits)) (32 * f.bits)
      (pack (elems.map fun e => (e, f.bits)))))).putS (fVs2 word) (putByte (c.getS (fVs2 word)) (fTy word) scale)).raiseFlags
        flags

theorem mxEncode_go {f : Fmt} {big scale flags : Nat} {elems : List Nat} (block : fTy word < 4)
    (encoded : mxWrite f big ((vLanes 0 ((t.core n).getV (fVs1 word))).map binary32.read) = (scale, elems, flags)) :
    (mxEncode n word f big).go t = (.ok ⟨⟩, t.mxEncoded n word f scale elems flags) := by
  rw [mxEncode, CoreE.go_coreGet_bind, encoded, Nat.mod_eq_of_lt block]
  rfl

/-- 07 R196, Table 7-11: the lanes of an MX block. -/
def mxLanes (f : Fmt) (ty : Nat) (v : VReg) (scales : Word) : List (Nat × Nat) :=
  let block := lanesOf f.bits (BitVec.ofNat (32 * f.bits) (fld v (ty * (32 * f.bits)) (32 * f.bits)))
  (List.range 32).map fun j => binary32.write (mxRead f (fld scales (8 * ty) 8) (block.getD j 0))

/-- Under p0 every lane of 32 bits is active. -/
theorem newLanes_allOnes (old : List Nat) (f : Nat → Nat × Nat) :
    newLanes 0 (BitVec.allOnes 128) old f = (List.range 32).map f := by
  refine List.map_congr_left fun i hi => if_pos ?_
  have inRange : i * 4 < 128 := by
    have := List.mem_range.1 hi
    simp only [tyLanes, tyBytes] at this
    omega
  show (BitVec.allOnes 128).getLsbD (i * 4) = true
  rw [BitVec.getLsbD_allOnes, decide_eq_true inRange]

theorem mxDecode_go {f : Fmt} (block : fTy word < 4) :
    (mxDecode n word f).go t = (.ok (), t.setLanes n (fVd word) 0
      (mxLanes f (fTy word) ((t.core n).getV (fVs1 word)) ((t.core n).getS (fVs2 word)))) := by
  rw [mxDecode, CoreE.go_coreGet_bind, writeLanes_go, newLanes_allOnes, Nat.mod_eq_of_lt block]
  rfl

end

section
variable {s t u : State} {n : Nat} {word : BitVec 32} (h : s.issues n word t) (row : major word = 0x21)
include h row

theorem exec_vcvt_lanes (fn : fFn word ≤ 3) (cvt : (vcvtLanes n word).go t = (.ok (), u)) :
    exec (.vcvt n word) s = .next (u.retire n ((t.core n).pc + 4)) := by
  refine h.retires (decide_eq_true row) ?_
  rw [CoreE.go_coreGet_bind]
  have part : fFn word = 0 ∨ fFn word = 1 ∨ fFn word = 2 ∨ fFn word = 3 := by omega
  rcases part with fn | fn | fn | fn <;> rw [fn] <;> exact CoreE.go_bind_ok _ _ _ _ _ cvt

/-- The MX functions: TY holds the block index, and pg is p0. -/
theorem exec_vcvt_mx {part : CoreE Unit} (plain : fPg word = 0) (block : fTy word < 4)
    (fn : fFn word = 4 ∧ part = mxEncode n word fmtE4m3 448 ∨ fFn word = 5 ∧ part = mxEncode n word fmtE2m1 6 ∨
      fFn word = 6 ∧ part = mxDecode n word fmtE4m3 ∨ fFn word = 7 ∧ part = mxDecode n word fmtE2m1)
    (mx : part.go t = (.ok (), u)) :
    exec (.vcvt n word) s = .next (u.retire n ((t.core n).pc + 4)) := by
  have legal : (fPg word = 0 && fTy word < 4) = true := by simp [plain, block]
  refine h.retires (decide_eq_true row) ?_
  rw [CoreE.go_coreGet_bind]
  rcases fn with ⟨fn, rfl⟩ | ⟨fn, rfl⟩ | ⟨fn, rfl⟩ | ⟨fn, rfl⟩ <;> rw [fn] <;>
    exact (CoreE.go_legalE_bind _ legal).trans (CoreE.go_bind_ok _ _ _ _ _ mx)

end

/-- Settles O26: the instructions by their actions, a lane by the cases of `valuInt` and `valuFloat`. -/
theorem vectorLanesComputeAndConvert : Obligations.VectorLanesComputeAndConvert := by
  refine ⟨fun s t n word h row => ⟨?_, ?_⟩, fun ty d a b => ⟨?_, ?_⟩, fun s t n word h row => ⟨?_, ?_, ?_⟩⟩
  · exact exec_valu_lanes h row
  · exact exec_valu_illegal h row
  · intro integer w x y
    have lane (fn : Nat) : valuLane ty fn d a b = (valuInt ty fn d a b, 0) := by rw [valuLane, integer]
    exact ⟨lane 0, lane 1, lane 2, lane 3, lane 4, lane 5, lane 6, lane 7, lane 8, lane 9, lane 10, lane 11, lane 12, lane 13⟩
  · intro f float x y
    have lane (fn : Nat) : valuLane ty fn d a b = valuFloat f fn d a b := by rw [valuLane, float]
    have first (fn : Nat) : (valuLane ty fn d a b).1 = (valuFloat f fn d a b).1 := congrArg Prod.fst (lane fn)
    exact ⟨first 0, first 1, first 2, first 3, first 4, first 5, first 11, first 12, lane 13, first 14, first 15⟩
  · exact fun fn source part => exec_vcvt_lanes h row fn (vcvtLanes_go source part)
  · rintro f big (⟨fn, rfl, rfl⟩ | ⟨fn, rfl, rfl⟩) plain block scale flags elems encoded
    · exact exec_vcvt_mx h row plain block (.inl ⟨fn, rfl⟩) (mxEncode_go block encoded)
    · exact exec_vcvt_mx h row plain block (.inr (.inl ⟨fn, rfl⟩)) (mxEncode_go block encoded)
  · rintro f (⟨fn, rfl⟩ | ⟨fn, rfl⟩) plain block
    · exact exec_vcvt_mx h row plain block (.inr (.inr (.inl ⟨fn, rfl⟩))) (mxDecode_go block)
    · exact exec_vcvt_mx h row plain block (.inr (.inr (.inr ⟨fn, rfl⟩))) (mxDecode_go block)

end Sys2Proof.Machine
end

section

/-!
### Reductions, predicates and permutes (07 R194, R197, Table 7-12)
-/

namespace Sys2Proof.Machine

open Sys2Proof

/-! #### VRED -/

/-- The lanes of vector register `r` under the type of a word. -/
def State.lanes (t : State) (n : Nat) (word : BitVec 32) (r : Nat) : List Nat := vLanes (fTy word) ((t.core n).getV r)

/-- The active lanes of vs1. -/
def State.actives (t : State) (n : Nat) (word : BitVec 32) : List Nat :=
  (activeLanes ((t.core n).getP (fPg word)) (fTy word)).map fun i => (t.lanes n word (fVs1 word)).getD i 0

/-- The state after an instruction that writes predicate register `pd`. -/
def State.predicateDone (t : State) (n pd : Nat) (p : PReg) : State :=
  (t.updCore n fun c => c.putP pd p).retire n ((t.core n).pc + 4)

section
variable {s t u : State} {n : Nat} {word : BitVec 32} (h : s.issues n word t)
include h

section
variable (row : major word = 0x22) (types : tyArith (fTy word) = true)
include row types

/-- A compare writes the lanes for which `q` holds, of the active ones (07 R194). -/
theorem exec_vred_compares {q : Nat → Bool} (fn : fFn word ≤ 2) (dest : fVd word < 8)
    (compare : ∀ i, laneCompare (fTy word) (fFn word) ((t.lanes n word (fVs1 word)).getD i 0)
      ((t.lanes n word (fVs2 word)).getD i 0) = q i) :
    exec (.vred n word) s = .next (t.predicateDone n (fVd word)
      (pOf (fTy word) fun i => laneActive ((t.core n).getP (fPg word)) (fTy word) i && q i)) := by
  obtain rfl : _ = q := funext compare
  refine h.retires (decide_eq_true row) ?_
  rw [CoreE.go_coreGet_bind, CoreE.go_legalE_bind _ (by simp [types, fn])]
  have one : fFn word = 0 ∨ fFn word = 1 ∨ fFn word = 2 := by omega
  rcases one with fn | fn | fn <;> rw [fn] <;> exact CoreE.go_legalE_bind _ (decide_eq_true dest)

section
variable (plain : fVs2 word = 0)
include plain

/-- A reduction that writes s(rd) with the result `v` of an action on the active lanes. -/
theorem exec_vred_reduces {act : CoreE Word} {v : Word} (fn : fFn word = 3 ∧ act = rsum n (fTy word) (t.actives n word) ∨
      fFn word = 4 ∧ act = rextremum false (fTy word) (t.actives n word) ∨
      fFn word = 5 ∧ act = rextremum true (fTy word) (t.actives n word)) (run : act.go t = (.ok v, u)) :
    exec (.vred n word) s = .next (u.scalarDone n (fVd word) v) := by
  refine h.writesScalar (decide_eq_true row) ?_
  rw [CoreE.go_coreGet_bind, CoreE.go_legalE_bind _ (by simp [types, plain])]
  rcases fn with ⟨fn, rfl⟩ | ⟨fn, rfl⟩ | ⟨fn, rfl⟩ <;> rw [fn] <;> exact CoreE.go_bind_ok _ _ _ _ _ run

theorem exec_vred_minIndex (fn : fFn word = 6) :
    exec (.vred n word) s = .next (t.scalarDone n (fVd word)
      (rmini (fTy word) ((t.core n).getP (fPg word)) (t.lanes n word (fVs1 word)))) := by
  refine h.writesScalar (decide_eq_true row) ?_
  rw [CoreE.go_coreGet_bind, CoreE.go_legalE_bind _ (by simp [types, plain]), fn]
  rfl

theorem exec_vred_crc (fn : fFn word = 7) (all : fPg word = 0) :
    let old := ((t.core n).getS (fVd word)).toNat
    exec (.vred n word) s = .next (t.scalarDone n (fVd word) (BitVec.ofNat 64 (setFld old 0 32
      ((leBytes 128 ((t.core n).getV (fVs1 word)).toNat).foldl crcByte (old % 2 ^ 32))))) := by
  refine h.writesScalar (decide_eq_true row) ?_
  rw [CoreE.go_coreGet_bind, CoreE.go_legalE_bind _ (by simp [types, plain]), fn]
  exact CoreE.go_legalE_bind _ (decide_eq_true all)

end

end

end

theorem rsum_go_integer {t : State} {n ty : Nat} {l : List Nat} (integer : tyFmt ty = none) :
    (rsum n ty l).go t = (.ok (BitVec.ofInt 64 (l.map (tyInt ty)).sum), t) := by
  rw [rsum, integer]
  rfl

theorem rsum_go_float {t : State} {n ty : Nat} {l : List Nat} {f : Fmt} (float : tyFmt ty = some f) :
    let r := sumTerms t.free ((l.map (tyRead ty)).filter fun x => !x.isNan)
    (rsum n ty l).go t =
      (.ok (BitVec.ofNat 64 (binary32.write r.1).1), (t.drawRun l.length).2.updCore n fun c => c.raiseFlags r.2) := by
  intro r
  rw [rsum, float]
  rfl

theorem rextremum_go_some {t : State} {up : Bool} {ty : Nat} {l : List Nat} {x : Sys2Proof.Num}
    (found : extremum up ((l.map (tyRead ty)).filter fun x => !x.isNan) = some x) :
    (rextremum up ty l).go t = (.ok (reduced ty x), t) := by
  rw [rextremum, found]
  rfl

/-- With no lane that qualifies the result is a free value (log 27). -/
theorem rextremum_go_none {t : State} {up : Bool} {ty : Nat} {l : List Nat}
    (empty : (l.map (tyRead ty)).filter (fun x => !x.isNan) = []) :
    (rextremum up ty l).go t = (.ok (BitVec.ofNat 64 t.draw.1), t.draw.2) := by
  rw [rextremum, empty]
  rfl

/-! #### PRED -/

/-- What PRED writes to a predicate register, and whether it uses its second and its first source (07 Table 7-12). -/
def predResult (fn : Nat) (a b : PReg) : Option (Bool × Bool × PReg) :=
  match fn with
  | 0 => some (true, true, a &&& b)
  | 1 => some (true, true, a ||| b)
  | 2 => some (true, true, a ^^^ b)
  | 3 => some (false, true, ~~~a)
  | 4 => some (false, false, BitVec.allOnes 128)
  | 5 => some (false, false, 0)
  | _ => none

section
variable {s t : State} {n : Nat} {word : BitVec 32} (h : s.issues n word t) (row : major word = 0x24) (plain : fPg word = 0)
include h row plain

theorem exec_pred_combines {two one : Bool} {p : PReg}
    (result : predResult (fFn word) ((t.core n).getP (fVs1 word)) ((t.core n).getP (fVs2 word)) = some (two, one, p))
    (legal : (fVd word < 8 && (if one then fVs1 word < 8 else fVs1 word = 0) &&
      (if two then fVs2 word < 8 else fVs2 word = 0)) = true) :
    exec (.pred n word) s = .next (t.predicateDone n (fVd word) p) := by
  refine h.retires (decide_eq_true row) ?_
  rw [CoreE.go_coreGet_bind, CoreE.go_legalE_bind _ (decide_eq_true plain)]
  unfold predResult at result
  split at result
  case h_7 => cases result
  all_goals
    rename_i fn
    cases result
    rw [fn]
    exact CoreE.go_legalE_bind _ legal

theorem exec_pred_counts (fn : fFn word = 6) (types : tyArith (fTy word) = true) (first : fVs1 word < 8) (second : fVs2 word = 0) :
    exec (.pred n word) s = .next (t.scalarDone n (fVd word)
      (BitVec.ofNat 64 (activeLanes ((t.core n).getP (fVs1 word)) (fTy word)).length)) := by
  refine h.writesScalar (decide_eq_true row) ?_
  rw [CoreE.go_coreGet_bind, CoreE.go_legalE_bind _ (decide_eq_true plain), fn]
  exact CoreE.go_legalE_bind _ (by simp [types, first, second])

theorem exec_pred_firstLanes (fn : fFn word = 7) (types : tyArith (fTy word) = true) (dest : fVd word < 8)
    (first : fVs1 word = 0) :
    exec (.pred n word) s = .next (t.predicateDone n (fVd word)
      (pOf (fTy word) fun i => i < ((t.core n).getS (fVs2 word)).toNat)) := by
  refine h.retires (decide_eq_true row) ?_
  rw [CoreE.go_coreGet_bind, CoreE.go_legalE_bind _ (decide_eq_true plain), fn]
  refine (CoreE.go_legalE_bind _ (by simp [types, dest, first])).trans (congrArg (Prod.mk _) ?_)
  exact State.updCore_congr rfl

end

/-! #### VPERM -/

section
variable {s t : State} {n : Nat} {word : BitVec 32} (h : s.issues n word t) (row : major word = 0x23)
include h row

/-- The state after a VPERM that writes the active lanes with `f`. -/
def State.permuted (t : State) (n : Nat) (word : BitVec 32) (f : Nat → Nat) : State :=
  (t.setLanes n (fVd word) (fTy word) (newLanes (fTy word) ((t.core n).getP (fPg word)) (t.lanes n word (fVd word))
    fun i => (f i, 0))).retire n ((t.core n).pc + 4)

/-- The state after a VPERM that writes a whole register. -/
def State.registerDone (t : State) (n : Nat) (word : BitVec 32) (l : List Nat) : State :=
  (t.updCore n fun c => c.putV (fVd word) (vOf (fTy word) l)).retire n ((t.core n).pc + 4)

/-- The lane that s(vs2) names. -/
def State.spot (t : State) (n : Nat) (word : BitVec 32) : Nat := ((t.core n).getS (fVs2 word)).toNat % tyLanes (fTy word)

theorem exec_vperm_splat (fn : fFn word = 0) (plain : fVs2 word = 0) :
    exec (.vperm n word) s = .next (t.permuted n word fun _ => ((t.core n).getS (fVs1 word)).toNat) := by
  refine h.retires (decide_eq_true row) ?_
  rw [CoreE.go_coreGet_bind, fn]
  exact CoreE.go_legalE_bind _ (decide_eq_true plain)

theorem exec_vperm_extract (fn : fFn word = 1) (all : fPg word = 0) :
    exec (.vperm n word) s = .next (t.scalarDone n (fVd word)
      (BitVec.ofNat 64 ((t.lanes n word (fVs1 word)).getD (t.spot n word) 0))) := by
  refine h.writesScalar (decide_eq_true row) ?_
  rw [CoreE.go_coreGet_bind, fn]
  exact CoreE.go_legalE_bind _ (decide_eq_true all)

theorem exec_vperm_insert (fn : fFn word = 2) :
    exec (.vperm n word) s = .next (t.permuted n word fun i =>
      if i = t.spot n word then ((t.core n).getS (fVs1 word)).toNat else (t.lanes n word (fVd word)).getD i 0) := by
  refine h.retires (decide_eq_true row) ?_
  rw [CoreE.go_coreGet_bind, fn]
  rfl

theorem exec_vperm_number (fn : fFn word = 3) (types : 5 ≤ fTy word) (first : fVs1 word = 0) (second : fVs2 word = 0) :
    exec (.vperm n word) s = .next (t.permuted n word fun i => i) := by
  refine h.retires (decide_eq_true row) ?_
  rw [CoreE.go_coreGet_bind, fn]
  exact CoreE.go_legalE_bind _ (by simp [types, first, second])

theorem exec_vperm_pack (fn : fFn word = 4) (plain : fVs2 word = 0) :
    exec (.vperm n word) s = .next (t.registerDone n word (t.actives n word)) := by
  refine h.retires (decide_eq_true row) ?_
  rw [CoreE.go_coreGet_bind, fn]
  exact CoreE.go_legalE_bind _ (decide_eq_true plain)

theorem exec_vperm_select (fn : fFn word = 5) :
    exec (.vperm n word) s = .next (t.registerDone n word ((List.range (tyLanes (fTy word))).map fun i =>
      if laneActive ((t.core n).getP (fPg word)) (fTy word) i then (t.lanes n word (fVs1 word)).getD i 0
      else (t.lanes n word (fVs2 word)).getD i 0)) := by
  refine h.retires (decide_eq_true row) ?_
  rw [CoreE.go_coreGet_bind, fn]
  rfl

end

/-- Settles O27, function by function; `State.predicateDone`, `State.permuted` and `State.registerDone` are the states that the
statement writes out. -/
theorem reductionsPredicatesAndPermutes : Obligations.ReductionsPredicatesAndPermutes := by
  refine ⟨fun s t n word h => ⟨fun row types => ?_, fun row plain dest first => ?_⟩, fun s t n word h row => ?_⟩
  · refine ⟨?_, ?_, ?_, ?_, ?_, ?_, ?_, ?_, ?_, ?_⟩
    · exact fun fn dest => exec_vred_compares h row types (by omega) dest fun i => by rw [fn]; rfl
    · exact fun fn dest => exec_vred_compares h row types (by omega) dest fun i => by rw [fn]; rfl
    · exact fun fn dest => exec_vred_compares h row types (by omega) dest fun i => by rw [fn]; rfl
    · exact fun f plain fn float => exec_vred_reduces h row types plain (.inl ⟨fn, rfl⟩) (rsum_go_float float)
    · exact fun plain fn integer => exec_vred_reduces h row types plain (.inl ⟨fn, rfl⟩) (rsum_go_integer integer)
    · exact fun x plain fn found => exec_vred_reduces h row types plain (.inr (.inl ⟨fn, rfl⟩)) (rextremum_go_some found)
    · exact fun x plain fn found => exec_vred_reduces h row types plain (.inr (.inr ⟨fn, rfl⟩)) (rextremum_go_some found)
    · rintro plain (fn | fn) empty
      · exact exec_vred_reduces h row types plain (.inr (.inl ⟨fn, rfl⟩)) (rextremum_go_none empty)
      · exact exec_vred_reduces h row types plain (.inr (.inr ⟨fn, rfl⟩)) (rextremum_go_none empty)
    · exact exec_vred_minIndex h row types
    · exact exec_vred_crc h row types
  · have writes {k : Nat} {two one : Bool} {p : PReg} (fn : fFn word = k)
        (result : predResult k ((t.core n).getP (fVs1 word)) ((t.core n).getP (fVs2 word)) = some (two, one, p)) :=
      exec_pred_combines h row plain (fn ▸ result)
    refine ⟨?_, ?_, ?_, ?_, ?_, ?_, ?_, ?_⟩
    · exact fun fn second => writes fn rfl (by simp [dest, first, second])
    · exact fun fn second => writes fn rfl (by simp [dest, first, second])
    · exact fun fn second => writes fn rfl (by simp [dest, first, second])
    · exact fun fn second => writes fn rfl (by simp [dest, first, second])
    · exact fun fn zero second => writes fn rfl (by simp [dest, zero, second])
    · exact fun fn zero second => writes fn rfl (by simp [dest, zero, second])
    · exact fun fn second types => exec_pred_counts h row plain fn types first second
    · exact fun fn zero types => exec_pred_firstLanes h row plain fn types dest zero
  · exact ⟨exec_vperm_splat h row, exec_vperm_extract h row, exec_vperm_insert h row, exec_vperm_number h row,
      exec_vperm_pack h row, exec_vperm_select h row⟩

end Sys2Proof.Machine
end

section

/-!
### Matrices, accumulators and distances (07 R198 to R200, 03 R72, R73)
-/

namespace Sys2Proof.Machine

open Sys2Proof

/-! #### MMA -/

/-- The state that the lanes of an MMA start from: its products are counted and its free values drawn. -/
def State.mmaDrawn (t : State) (n col kk : Nat) : State := ((t.kernelWork n 0 col (64 * kk)).drawRun (64 * (kk + 1))).2

/-- The state with 64 lanes in accumulator `ad`, whether it is an INT8 one (log 26), and their flags set. -/
def State.setAcc (t : State) (n ad kind : Nat) (l : List (Nat × Nat)) : State :=
  t.updCore n fun c => (({ c with intAcc := BitVec.ofNat 8 (setFld c.intAcc.toNat ad 1 kind) } : Core).putA ad
    (ofLanes 2048 32 (l.map (·.1)))).raiseFlags (joinFlags l)

/-- Exact lanes set no flag. -/
theorem joinFlags_exact (l : List Nat) (f : Nat → Nat) : joinFlags (l.map fun i => (f i, 0)) = 0 := by
  induction l with
  | nil => rfl
  | cons a rest ih => simpa [joinFlags] using ih

theorem mmaShape_code_le {fn kk ca cb : Nat} (shape : mmaShape fn = some (kk, ca, cb)) : ca ≤ 7 := by
  unfold mmaShape at shape
  split at shape <;> cases shape <;> decide

/-- The operands with scales are those of MXFP8 and MXFP4. -/
theorem mmaShape_scaled {fn kk ca cb : Nat} (shape : mmaShape fn = some (kk, ca, cb)) (float : ca ≠ 7) :
    (ca = 5 || ca = 6) = decide (5 ≤ ca) := by
  have := mmaShape_code_le shape
  rw [Bool.eq_iff_iff]
  simp only [Bool.or_eq_true, decide_eq_true_eq]
  omega

/-- The old lanes of the accumulator of a word. -/
def State.accLanes (t : State) (n : Nat) (word : BitVec 32) : List Nat := lanesOf 32 ((t.core n).getA (fAd word))

/-- A lane of a floating-point MMA, with the scales of its row and its column where the operands have them (07 R198). -/
def State.mmaLane (t : State) (n : Nat) (word : BitVec 32) (kk ca cb i : Nat) : Nat × Nat :=
  let c := t.core n
  let scale := fun (r i : Nat) => if 5 ≤ ca then scaleRead (fld (c.getS r) (8 * i) 8) else .fin false 1 0
  mmaFloat ((t.kernelWork n 0 ca (64 * kk)).free + i * (kk + 1)) kk ca cb (c.getV (fV1 word)) (c.getV (fV2 word))
    (scale (fSs word) (i / 8)) (scale (fSs word + 1) (i % 8))
    (if flag word 24 then none else some ((t.accLanes n word).getD i 0)) (i / 8) (i % 8)

section
variable {s t : State} {n : Nat} {word : BitVec 32} (h : s.issues n word t)
include h

theorem exec_mma_int8 (row : major word = 0x25) (fn : fFn word = 7) (aux : fld word 25 2 = 0) (plain : fSs word = 0) :
    let c := t.core n
    exec (.mma n word) s = .next (((t.mmaDrawn n 7 16).setAcc n (fAd word) 1 ((List.range 64).map fun i =>
      (mmaInt 16 (c.getV (fV1 word)) (c.getV (fV2 word)) (if flag word 24 then 0 else (t.accLanes n word).getD i 0) (i / 8) (i % 8),
        0))).retire n (c.pc + 4)) := by
  refine h.retires (decide_eq_true row) ?_
  rw [CoreE.go_coreGet_bind, fn]
  exact CoreE.go_legalE_bind _ (by simp [aux, plain])

theorem exec_mma_float {kk ca cb : Nat} (row : major word = 0x25) (shape : mmaShape (fFn word) = some (kk, ca, cb))
    (float : ca ≠ 7) (aux : fld word 25 2 = 0) (scales : if 5 ≤ ca then fSs word % 2 = 0 else fSs word = 0) :
    exec (.mma n word) s = .next (((t.mmaDrawn n ca kk).setAcc n (fAd word) 0
      ((List.range 64).map (t.mmaLane n word kk ca cb))).retire n ((t.core n).pc + 4)) := by
  have legal : (fld word 25 2 = 0 && (if (ca = 5 || ca = 6) = true then fSs word % 2 = 0 else fSs word = 0)) = true := by
    rw [mmaShape_scaled shape float]
    simpa [aux] using scales
  refine h.retires (decide_eq_true row) ?_
  rw [CoreE.go_coreGet_bind, shape]
  refine (CoreE.go_legalE_bind _ legal).trans ?_
  simp only [mmaShape_scaled shape float, float, decide_eq_true_eq, if_false, decide_false]
  rfl

/-! #### ACC -/

section
variable (row : major word = 0x26) (aux : fld word 25 2 = 0) (second : fV2 word = 0) (scales : fSs word = 0)
include row aux second scales

theorem exec_acc_runs {u : State} {part : CoreE PUnit} (run : part.go t = (.ok ⟨⟩, u))
    (fn : fFn word = 1 ∧ part = coreSet n (fun c => c.putV (fV1 word)
        (BitVec.ofNat 1024 (fld (c.getA (fAd word)) (1024 * fld word 24 1) 1024))) ∨
      fFn word = 2 ∧ part = accNarrow n word bfloat16 ∨ fFn word = 3 ∧ part = accNarrow n word binary16 ∨
      fFn word = 4 ∧ part = coreSet n fun c => c.putA (fAd word)
        (BitVec.ofNat 2048 (setFld (c.getA (fAd word)).toNat (1024 * fld word 24 1) 1024 (c.getV (fV1 word)).toNat))) :
    exec (.acc n word) s = .next (u.retire n ((t.core n).pc + 4)) := by
  refine h.retires (decide_eq_true row) ?_
  rw [CoreE.go_coreGet_bind, CoreE.go_legalE_bind _ (by simp [aux, second, scales])]
  rcases fn with ⟨fn, rfl⟩ | ⟨fn, rfl⟩ | ⟨fn, rfl⟩ | ⟨fn, rfl⟩ <;> rw [fn] <;> exact CoreE.go_bind_ok _ _ _ _ _ run

theorem exec_acc_clears (fn : fFn word = 0) (first : fV1 word = 0) :
    exec (.acc n word) s = .next ((t.updCore n fun c =>
      { c.putA (fAd word) 0 with intAcc := BitVec.ofNat 8 (setFld c.intAcc.toNat (fAd word) 1 0) }).retire n
        ((t.core n).pc + 4)) := by
  refine h.retires (decide_eq_true row) ?_
  rw [CoreE.go_coreGet_bind, CoreE.go_legalE_bind _ (by simp [aux, second, scales]), fn]
  exact CoreE.go_legalE_bind _ (decide_eq_true first)

end

/-! #### HAM -/

/-- Lane `i` of a HAM: a distance in the group of the word, the old lane elsewhere (07 R200). -/
def Core.hamLane (c : Core) (word : BitVec 32) (cl i : Nat) : Nat :=
  let k := 2048 / cl
  if fPg word * k ≤ i ∧ i < (fPg word + 1) * k then
    hamming cl (c.getV (fVs1 word)) (c.getV (fVs1 word + 1)) (c.getV (fVs2 word)) (i - fPg word * k)
  else (vLanes 7 (c.getV (fVd word))).getD i 0

theorem exec_ham_writes (row : major word = 0x27) (fn : fFn word = 0) (types : fTy word ≤ 4) (pair : fVs1 word % 2 = 0)
    (fits : (fPg word + 1) * (2048 / (64 * 2 ^ fTy word)) ≤ 64) :
    exec (.ham n word) s = .next (((t.kernelWork n 1 8 32).updCore n fun c => c.putV (fVd word)
      (vOf 7 ((List.range 64).map ((t.core n).hamLane word (64 * 2 ^ fTy word))))).retire n ((t.core n).pc + 4)) := by
  refine h.retires (decide_eq_true row) ?_
  rw [CoreE.go_coreGet_bind, CoreE.go_legalE_bind _ (by simp [fn, types, pair, fits]), CoreE.go_countC_bind, CoreE.go_coreSet_bind]
  simp only [Bool.and_eq_true, decide_eq_true_eq]
  rfl

end

theorem accNarrow_go (t : State) (n : Nat) (word : BitVec 32) (f : Fmt) :
    let l := (t.accLanes n word).map fun v =>
      f.write (if (t.core n).intAcc.getLsbD (fAd word) then .ofInt (signed 32 v) else binary32.read v)
    (accNarrow n word f).go t = (.ok ⟨⟩, t.updCore n fun c =>
      (c.putV (fV1 word) (ofLanes 1024 16 (l.map (·.1)))).raiseFlags (joinFlags l)) := rfl

/-- Settles O28, instruction by instruction; the lanes of an INT8 MMA are exact, so they set no flag. -/
theorem matricesAndDistances : Obligations.MatricesAndDistances := by
  refine fun s t n word h => ⟨?_, ?_, ?_, ?_⟩
  · intro row fn aux plain a b u new
    refine (exec_mma_int8 h row fn aux plain).trans ?_
    rw [State.setAcc, joinFlags_exact, List.map_map]
    rfl
  · exact fun kk ca cb row shape float aux scales => exec_mma_float h row shape float aux scales
  · intro row aux second scales
    refine ⟨exec_acc_clears h row aux second scales, fun fn => ?_, ?_, fun fn => ?_⟩
    · exact exec_acc_runs h row aux second scales rfl (.inl ⟨fn, rfl⟩)
    · rintro f (⟨fn, rfl⟩ | ⟨fn, rfl⟩)
      · exact exec_acc_runs h row aux second scales (accNarrow_go t n word bfloat16) (.inr (.inl ⟨fn, rfl⟩))
      · exact exec_acc_runs h row aux second scales (accNarrow_go t n word binary16) (.inr (.inr (.inl ⟨fn, rfl⟩)))
    · exact exec_acc_runs h row aux second scales rfl (.inr (.inr (.inr ⟨fn, rfl⟩)))
  · rintro cl k row fn rfl rfl types pair fits u old
    refine (exec_ham_writes h row fn types pair fits).trans ?_
    refine congrArg (fun x : State => (.next (x.retire n ((t.core n).pc + 4)) : Out)) (State.updCore_congr ?_)
    rw [State.core_kernelWork]
    rfl

end Sys2Proof.Machine
end

section

/-!
### Loads and stores (07 R178, R187, R188, Tables 7-2 and 7-3)
-/

namespace Sys2Proof.Machine

open Sys2Proof

section
variable {s t u : State} {n victim : Nat} {word : BitVec 32} (h : s.issues n word t)
include h

/-! #### Scalar accesses -/

section
variable (form : fld word 19 2 ≤ 1)
include form

theorem exec_ld_loads {bs : List Byte} (row : major word = 0x10) (aligned : addrM (t.core n) word % 2 ^ fld word 16 2 = 0)
    (loaded : (loadRanges n (fld word 19 2) victim [(addrM (t.core n) word, 2 ^ fld word 16 2)]).go t = (.ok bs, u)) :
    exec (.ld n word victim) s = .next (u.scalarDone n (fRd word)
      (if flag word 18 then BitVec.ofInt 64 (signed (8 * 2 ^ fld word 16 2) (leNat bs)) else BitVec.ofNat 64 (leNat bs))) := by
  refine h.writesScalar (decide_eq_true row) ?_
  rw [CoreE.go_coreGet_bind, CoreE.go_legalE_bind _ (decide_eq_true form), if_neg (not_not.2 aligned)]
  exact CoreE.go_bind_ok _ _ _ _ _ loaded

theorem exec_ld_misaligned (row : major word = 0x10) (misaligned : addrM (t.core n) word % 2 ^ fld word 16 2 ≠ 0) :
    exec (.ld n word victim) s = .next (t.coreExc n 0x02 (addrM (t.core n) word) false word) := by
  refine h.raises (decide_eq_true row) ?_
  rw [CoreE.go_coreGet_bind, CoreE.go_legalE_bind _ (decide_eq_true form), if_pos misaligned]
  rfl

variable (row : major word = 0x11) (plain : flag word 18 = false)
include row plain

theorem exec_st_stores {x : Unit} (aligned : addrM (t.core n) word % 2 ^ fld word 16 2 = 0)
    (stored : (storeRanges n (fld word 19 2) victim [(addrM (t.core n) word, 2 ^ fld word 16 2)]
      (leBytes (2 ^ fld word 16 2) ((t.core n).getS (fRd word)).toNat)).go t = (.ok x, u)) :
    exec (.st n word victim) s = .next (u.retire n ((t.core n).pc + 4)) := by
  refine h.retires (decide_eq_true row) ?_
  rw [CoreE.go_coreGet_bind, CoreE.go_legalE_bind _ (by simp [form, plain]), if_neg (not_not.2 aligned)]
  exact CoreE.go_bind_ok _ _ _ _ _ stored

theorem exec_st_misaligned (misaligned : addrM (t.core n) word % 2 ^ fld word 16 2 ≠ 0) :
    exec (.st n word victim) s = .next (t.coreExc n 0x02 (addrM (t.core n) word) false word) := by
  refine h.raises (decide_eq_true row) ?_
  rw [CoreE.go_coreGet_bind, CoreE.go_legalE_bind _ (by simp [form, plain]), if_pos misaligned]
  rfl

end

/-! #### Vector accesses -/

section
variable (fields : legalVM word = true) (aligned : ∀ g ∈ segsVM (t.core n) word, g.1 % g.2 = 0)
include fields aligned

theorem exec_vld_loads {bs : List Byte} (row : major word = 0x12)
    (loaded : (loadRanges n (fld word 24 2) victim (segsVM (t.core n) word)).go t = (.ok bs, u)) :
    exec (.vld n word victim) s = .next
      ((u.updCore n fun c => c.putV (fRd word) (BitVec.ofNat 1024 (leNat bs))).retire n ((t.core n).pc + 4)) := by
  refine h.retires (decide_eq_true row) ?_
  rw [CoreE.go_coreGet_bind, CoreE.go_legalE_bind _ fields]
  extract_lets l rest
  rw [(List.find?_eq_none (l := l)).2 ?_]
  · exact CoreE.go_bind_ok _ _ _ _ _ loaded
  · intro g hg
    simp [aligned g hg]

theorem exec_vst_stores {x : Unit} (row : major word = 0x13)
    (stored : (storeRanges n (fld word 24 2) victim (segsVM (t.core n) word)
      (leBytes 128 ((t.core n).getV (fRd word)).toNat)).go t = (.ok x, u)) :
    exec (.vst n word victim) s = .next (u.retire n ((t.core n).pc + 4)) := by
  refine h.retires (decide_eq_true row) ?_
  rw [CoreE.go_coreGet_bind, CoreE.go_legalE_bind _ fields]
  extract_lets l rest
  rw [(List.find?_eq_none (l := l)).2 ?_]
  · exact CoreE.go_bind_ok _ _ _ _ _ stored
  · intro g hg
    simp [aligned g hg]

end

end

/-! #### The pieces of an access, and what stands in its way -/

/-- A range within a line is one piece. -/
theorem piecesOf_within_line {a k : Nat} (nonempty : 0 < k) (within : a % 64 + k ≤ 64) : piecesOf a k = [(a, k)] := by
  have whole : min k (64 - a % 64) = k := by omega
  simp [piecesOf, linePieces, whole, Nat.ne_of_gt nonempty]

theorem translateC_go_one {t u : State} {n asid va ga k : Nat} {write : Bool}
    (translated : (translate (t.coreWho n) asid va write).go t = (.ok ga, u)) :
    (translateC n asid write [(va, k)]).go t = (.ok [(va, ga, k)], u) := by
  rw [translateC, CoreE.go_bind_ok _ _ _ _ _ (CoreE.go_get t), CoreE.go_bind_ok _ _ _ _ _ (liftC_go_ok va translated)]
  rfl

theorem trackClear_go_of_idle {s : State} {n : Nat} (pieces : List (Nat × Nat)) (write : Bool)
    (sound : (s.core n).failure = none) (idle : (s.core n).tracker = []) :
    (trackClear n pieces write).go s = (.ok (), s) := by
  rw [trackClear, CoreE.go_bind_ok _ _ _ _ _ (CoreE.go_get s)]
  simp only [sound, idle]
  rfl

/-- A core that is set to what it is. -/
theorem State.updCore_of_same {s : State} {n : Nat} {f : Core → Core} (same : f (s.core n) = s.core n) :
    s.updCore n f = s.setCore n (s.core n) :=
  congrArg (s.setCore n) same

@[simp] theorem State.setCore_setCore (s : State) (n : Nat) (c d : Core) : (s.setCore n c).setCore n d = s.setCore n d := by
  simp [State.setCore]

/-- No line is put aside for an access that leaves no byte to the cache. -/
theorem cacheAside_go_nil (s : State) (n : Nat) (write : Bool) :
    (cacheAside n [] write).go s = (.ok (), s.setCore n (s.core n)) := by
  have unmet (l : List Nat) : l.filter (fun g => piecesMeet [(g * 64, 64)] []) = [] := List.filter_eq_nil_iff.2 (by simp [piecesMeet])
  have only (m : SMap DLine) : SMap.only m (fun _ _ => true) = m := List.filter_eq_self.2 (by simp)
  have clean : (s.updCore n fun c => c.cleanSome []) = s.setCore n (s.core n) :=
    State.updCore_of_same (by simp [Core.cleanSome])
  have unhit (l : List Nat) : ¬ l.any [].contains = true := by simp
  simp only [cacheAside, CoreE.go_coreGet_bind, unmet, List.filter_nil, CoreE.go_coreSet_bind, clean, if_neg (unhit _)]
  cases write
  · rfl
  · refine congrArg (Prod.mk _) ((State.updCore_of_same ?_).trans ?_)
    · simp [only]
    · simp

/-! #### Accesses to the own scratchpad (07 R178, Table 7-3) -/

/-- The own scratchpad of core `n` holds a range of `k` bytes at a global address, and its home serves the core at once: the tenant
holds it, no record of the line is awaited, and no agent holds the line. -/
structure State.ServesSpad (s : State) (n ga la k : Nat) : Prop where
  own : s.ownSpad n ga k = true
  here : s.placeOf ga = .here la
  window : s.areaOf la = .scratch n
  held : (s.core n).holder = some (s.core n).tenant
  settled : s.awaitsTwin (lineOf la) = false
  untracked : s.dir? (lineOf la) = none

/-- No copy of the core has failed, and no access of it is tracked. -/
structure Core.Quiet (c : Core) : Prop where
  sound : c.failure = none
  idle : c.tracker = []

section
variable {s : State} {n ga la k : Nat} (spad : s.ServesSpad n ga la k)
include spad

/-- It serves the core as well when the core is set to what it is. -/
theorem State.ServesSpad.setCore : (s.setCore n (s.core n)).ServesSpad n ga la k :=
  { own := spad.own, here := spad.here, window := spad.window, settled := spad.settled, untracked := spad.untracked
    held := by rw [State.core_setCore]; exact spad.held }

theorem State.ServesSpad.unrefused : s.homeRefusal (s.coreWho n).tenant la = none := by
  simp only [State.homeRefusal, spad.window, State.coreWho, spad.held]
  rfl

theorem State.ServesSpad.readPhys_go :
    (readPhys (s.coreWho n) ga k).go s = (.ok (s.peek la k, s.readsBad (lineOf la)), s) := by
  simp [readPhys, Eng.go_bind, spad.here, spad.window, homeReadP, spad.unrefused, spad.settled, spad.untracked]

theorem State.ServesSpad.homePiece_go (va : Nat) (sound : s.readsBad (lineOf la) = false) :
    (homePiece n (va, ga, k)).go s = (.ok (s.peek la k), s) := by
  rw [homePiece, CoreE.go_bind_ok _ _ _ _ _ (CoreE.go_get s), CoreE.go_bind_ok _ _ _ _ _ (liftC_go_ok va spad.readPhys_go), sound]
  rfl

theorem State.ServesSpad.writePhys_go (bs : List Byte) :
    (writePhys (s.coreWho n) ga bs false).go s = (.ok (), s.placeWrite la bs none) := by
  have claim : (homeClaim (s.coreWho n).tenant la).go s = (.ok (), s) := by
    simp [homeClaim, Eng.go_bind, spad.unrefused, spad.window, spad.settled, State.holders, spad.untracked]
  rw [writePhys, Eng.go_bind_ok _ _ _ _ _ (Eng.go_get s), spad.here]
  exact Eng.go_bind_ok _ _ _ _ _ claim

end

/-- The state in which an access to the own scratchpad is made: an access of any form but plain has looked for its lines in the
data cache, and found none. -/
def State.aside (s : State) (n form : Nat) : State := if form = 1 then s.setCore n (s.core n) else s

@[simp] theorem State.core_aside (s : State) (n form : Nat) : (s.aside n form).core n = s.core n := by
  unfold State.aside
  split
  · exact State.core_setCore ..
  · rfl

theorem State.aside_mem (s : State) (n form : Nat) : (s.aside n form).mem = s.mem := by
  unfold State.aside
  split <;> rfl

theorem State.ServesSpad.aside {s : State} {n ga la k : Nat} (spad : s.ServesSpad n ga la k) (form : Nat) :
    (s.aside n form).ServesSpad n ga la k := by
  unfold State.aside
  split
  · exact spad.setCore
  · exact spad

/-- A range within a line translates as its one piece. -/
theorem translateC_go_within {t u : State} {n asid va ga k : Nat} {write : Bool} (nonempty : 0 < k) (within : va % 64 + k ≤ 64)
    (translated : (translate (t.coreWho n) asid va write).go t = (.ok ga, u)) :
    (translateC n asid write ([(va, k)].flatMap fun p => piecesOf p.1 p.2)).go t = (.ok [(va, ga, k)], u) := by
  rw [List.flatMap_singleton, piecesOf_within_line nonempty within]
  exact translateC_go_one translated

theorem joinPieces_go_one {f : Piece → CoreE (List Byte)} {p : Piece} {s t : State} {bs : List Byte}
    (read : (f p).go s = (.ok bs, t)) : (joinPieces f [p]).go s = (.ok bs, t) := by
  rw [joinPieces, CoreE.go_bind_ok _ _ _ _ _ read]
  exact congrArg (fun bs => (Except.ok bs, t)) (List.append_nil bs)

section
variable {t u : State} {n form victim va ga la k : Nat} (spad : u.ServesSpad n ga la k) (quiet : (u.core n).Quiet)
  (nonempty : 0 < k) (within : va % 64 + k ≤ 64) (forms : form = 0 ∨ form = 1)

include spad in
/-- No piece of the access leaves the core. -/
theorem State.ServesSpad.away : [(va, ga, k)].filter (fun p : Piece => !u.ownSpad n p.2.1 p.2.2) = [] := by
  simp [spad.own]

include quiet in
theorem Core.Quiet.trackClear_bind {β : Type} (form : Nat) (pieces : List (Nat × Nat)) (write : Bool) (f : Unit → CoreE β) :
    (trackClear n pieces write >>= f).go (u.aside n form) = (f ()).go (u.aside n form) :=
  CoreE.go_bind_ok _ _ _ _ _ (trackClear_go_of_idle _ _ (by rw [State.core_aside, quiet.sound])
    (by rw [State.core_aside, quiet.idle]))

include spad quiet nonempty within forms

theorem State.ServesSpad.loadRanges_go
    (translated : (translate (t.coreWho n) (t.core n).asid va false).go t = (.ok ga, u)) (sound : u.readsBad (lineOf la) = false) :
    (loadRanges n form victim [(va, k)]).go t = (.ok (u.peek la k), u.aside n form) := by
  have sound' : (u.aside n form).readsBad (lineOf la) = false := by
    unfold State.aside
    split <;> exact sound
  have read : (homePiece n (va, ga, k)).go (u.aside n form) = (.ok (u.peek la k), u.aside n form) := by
    have one := (spad.aside form).homePiece_go va sound'
    rwa [State.peek, State.aside_mem] at one
  rw [loadRanges, CoreE.go_coreGet_bind]
  refine (CoreE.go_bind_ok _ _ t u [(va, ga, k)] (translateC_go_within nonempty within translated)).trans ?_
  rw [CoreE.go_bind_ok _ _ _ _ _ (CoreE.go_get u)]
  extract_lets away uncached rest
  have noneAway : away = [] := spad.away
  clear_value away
  subst noneAway
  rcases forms with rfl | rfl
  · rw [if_neg Nat.zero_ne_one]
    refine (quiet.trackClear_bind 0 _ false _).trans ?_
    refine joinPieces_go_one (f := fun p => if u.ownSpad n p.2.1 p.2.2 then homePiece n p else cachedRead n p) ?_
    simpa only [spad.own, if_true] using read
  · refine (CoreE.go_bind_ok _ _ _ _ _ (cacheAside_go_nil u n false)).trans ?_
    exact (quiet.trackClear_bind 1 _ false _).trans (joinPieces_go_one read)

theorem State.ServesSpad.storeRanges_go (bs : List Byte)
    (translated : (translate (t.coreWho n) (t.core n).asid va true).go t = (.ok ga, u)) (whole : bs.length = k) :
    (storeRanges n form victim [(va, k)] bs).go t = (.ok (), (u.aside n form).placeWrite la bs none) := by
  have write : (storePieces n form (pieceWrites [(va, ga, k)] bs)).go (u.aside n form) =
      (.ok (), (u.aside n form).placeWrite la bs none) := by
    rw [pieceWrites, pieceWrites, List.take_of_length_le whole.le, storePieces, CoreE.go_bind_ok _ _ _ _ _ (CoreE.go_get _),
      if_pos (spad.aside form).own]
    exact CoreE.go_bind_ok _ _ _ _ _ (liftC_go_ok va ((spad.aside form).writePhys_go bs))
  rw [storeRanges, CoreE.go_coreGet_bind]
  refine (CoreE.go_bind_ok _ _ t u [(va, ga, k)] (translateC_go_within nonempty within translated)).trans ?_
  rw [CoreE.go_bind_ok _ _ _ _ _ (CoreE.go_get u)]
  extract_lets away track stores rest
  have noneAway : away = [] := spad.away
  clear_value away
  subst noneAway
  rcases forms with rfl | rfl
  · rw [if_neg Nat.zero_ne_one]
    refine (quiet.trackClear_bind 0 _ true _).trans ?_
    exact CoreE.go_bind_ok _ _ _ _ _ write
  · refine (CoreE.go_bind_ok _ _ _ _ _ (cacheAside_go_nil u n true)).trans ?_
    refine (quiet.trackClear_bind 1 _ true _).trans ?_
    exact CoreE.go_bind_ok _ _ _ _ _ write

end

/-! #### What a scratchpad access leaves -/

theorem length_leBytes (k v : Nat) : (leBytes k v).length = k := by
  induction k generalizing v with
  | zero => rfl
  | succ k ih => simp [leBytes, ih]

section
variable (s : State) (n : Nat)

@[simp] theorem Core.putS_dcache (c : Core) (r : Nat) (v : Word) : (c.putS r v).dcache = c.dcache := by
  unfold Core.putS
  split <;> rfl

@[simp] theorem State.core_retire (pc : Word) : (s.retire n pc).core n =
    { s.core n with
      pc, resp := [], blocked := 0, dbg := if (s.core n).dbg = .stepping then .halted else (s.core n).dbg } :=
  State.core_updCore ..

/-- What an instruction with a scalar result makes of its core is decided by the core. -/
theorem State.core_scalarDone_congr {s t : State} {n rd : Nat} {v : Word} (same : s.core n = t.core n) :
    (s.scalarDone n rd v).core n = (t.scalarDone n rd v).core n := by
  simp [State.scalarDone, same]

theorem State.markWritten_grid (la : Nat) : (s.markWritten la).grid = s.grid := by
  simp only [State.markWritten]
  split
  · rfl
  · split
    · split <;> rfl
    · rfl

@[simp] theorem State.core_placeWrite (la : Nat) (bs : List Byte) (slot : Option Nat) :
    (s.placeWrite la bs slot).core n = s.core n := by
  have kept : (s.placeWrite la bs slot).grid = s.grid := by
    simp only [State.placeWrite]
    split
    · exact State.markWritten_grid (s.poke la bs) la
    · exact State.markWritten_grid (s.poke la bs) la
  rw [State.core, kept, State.core]

theorem State.peek_placeWrite (la a k : Nat) (bs : List Byte) (slot : Option Nat) :
    (s.placeWrite la bs slot).peek a k = (s.poke la bs).peek a k := by
  have written : (s.placeWrite la bs slot).mem = (s.poke la bs).mem := by
    simp only [State.placeWrite]
    split
    · rw [State.mirrorLine_mem, State.markWritten_mem]
    · exact State.markWritten_mem
  rw [State.peek, written, State.peek]

end

section
variable {s t u : State} {n victim ga la : Nat} {word : BitVec 32} (h : s.issues n word t) (form : fld word 19 2 ≤ 1)
  (plain : flag word 18 = false) (aligned : addrM (t.core n) word % 2 ^ fld word 16 2 = 0)
  (within : addrM (t.core n) word % 64 + 2 ^ fld word 16 2 ≤ 64) (spad : u.ServesSpad n ga la (2 ^ fld word 16 2))
  (quiet : (u.core n).Quiet) (same : u.core n = t.core n) (kept : u.mem = t.mem)
include h form plain aligned within spad quiet same kept

theorem exec_ld_ownSpad (row : major word = 0x10)
    (translated : (translate (t.coreWho n) (t.core n).asid (addrM (t.core n) word) false).go t = (.ok ga, u))
    (sound : u.readsBad (lineOf la) = false) :
    ∃ w, exec (.ld n word victim) s = .next w ∧ w.mem = t.mem ∧ (w.core n).dcache = (t.core n).dcache ∧
      w.core n = (u.scalarDone n (fRd word) (BitVec.ofNat 64 (leNat (t.peek la (2 ^ fld word 16 2))))).core n := by
  have forms : fld word 19 2 = 0 ∨ fld word 19 2 = 1 := by omega
  have loaded := spad.loadRanges_go (victim := victim) quiet (Nat.two_pow_pos _) within forms translated sound
  rw [State.peek, kept, ← State.peek] at loaded
  refine ⟨_, exec_ld_loads h form row aligned loaded, ?_, ?_, ?_⟩
  · exact (State.aside_mem u n _).trans kept
  · simp [State.scalarDone, same]
  · rw [plain]
    exact State.core_scalarDone_congr (State.core_aside ..)

theorem exec_st_ownSpad (row : major word = 0x11) (wf : t.storeOk)
    (translated : (translate (t.coreWho n) (t.core n).asid (addrM (t.core n) word) true).go t = (.ok ga, u)) :
    let k := 2 ^ fld word 16 2
    ∃ w, exec (.st n word victim) s = .next w ∧ w.peek la k = leBytes k ((t.core n).getS (fRd word)).toNat ∧
      (∀ a, a < la ∨ la + k ≤ a → w.peek a 1 = t.peek a 1) ∧ (w.core n).s = (t.core n).s ∧
      (w.core n).pc = (t.core n).pc + 4 ∧ (w.core n).dcache = (t.core n).dcache := by
  intro k
  have forms : fld word 19 2 = 0 ∨ fld word 19 2 = 1 := by omega
  have whole := length_leBytes k ((t.core n).getS (fRd word)).toNat
  have stored := spad.storeRanges_go (victim := victim) quiet (Nat.two_pow_pos _) within forms _ translated whole
  generalize hv : u.aside n (fld word 19 2) = v at stored
  have mem : v.mem = t.mem := by rw [← hv, State.aside_mem, kept]
  have wf' : Memory.wf v.mem := mem ▸ wf
  refine ⟨_, exec_st_stores h form row plain aligned stored, ?_, fun a apart => ?_, ?_, ?_, ?_⟩
  · refine (State.peek_placeWrite v la la k _ none).trans ?_
    have back := State.peek_poke v la (leBytes k ((t.core n).getS (fRd word)).toNat) wf'
    rwa [whole] at back
  · refine (State.peek_placeWrite v la a 1 _ none).trans ?_
    rw [State.peek_poke_other v la a 1 _ (by omega), State.peek, mem, ← State.peek]
  · simp [← hv, same]
  · simp
  · simp [← hv, same]

end

/-- Settles O23: an access by what its ranges give, and one to the own scratchpad by what its home does. -/
theorem loadsAndStoresMoveTheirBytes : Obligations.LoadsAndStoresMoveTheirBytes := by
  refine ⟨fun s t n victim word h => ?_, fun s t u n victim ga word h => ?_⟩
  · refine ⟨?_, ?_, ?_, ?_, ?_⟩
    · exact fun bs u row form aligned => exec_ld_loads h form row aligned
    · exact fun u x row form plain aligned => exec_st_stores h form row plain aligned
    · exact fun bs u row fields aligned => exec_vld_loads h fields aligned row
    · exact fun u x row fields aligned => exec_vst_stores h fields aligned row
    · exact fun misaligned form => ⟨fun row => exec_ld_misaligned h form row misaligned,
        fun row plain => exec_st_misaligned h form row plain misaligned⟩
  · intro c k va la form aligned wf own _ here window served settled untracked sound idle same kept within
    have held : (u.core n).holder = some (u.core n).tenant := by
      by_contra other
      simp [State.homeRefusal, window, State.coreWho, other] at served
    have spad : u.ServesSpad n ga la k := ⟨own, here, window, held, settled, untracked⟩
    refine ⟨?_, ?_⟩
    · rintro v row plain translated clean rfl
      exact exec_ld_ownSpad h form plain aligned within spad ⟨sound, idle⟩ same kept row translated clean
    · intro row plain translated
      exact exec_st_ownSpad h form plain aligned within spad ⟨sound, idle⟩ same kept row wf translated

end Sys2Proof.Machine
end

section

/-!
### Waits (07 R205)

A read that answers leaves the registers of its core as they were, so that a wait that begins takes its operands from the registers
that it was issued with.
-/

namespace Sys2Proof.Machine

open Sys2Proof

/-! #### Actions that leave the grid, or the registers of a core, as they were -/

section
variable {α β : Type}

/-- An action that answers leaves the cores and all that is of the grid as they were. -/
structure AnswersKeepGrid (x : Eng α) : Prop where
  run : ∀ s a t, x.go s = (.ok a, t) → t.grid = s.grid

theorem AnswersKeepGrid.pure (a : α) : AnswersKeepGrid (pure a : Eng α) := ⟨fun s b t h => by cases h; rfl⟩
theorem AnswersKeepGrid.failE (st : Status) : AnswersKeepGrid (failE st : Eng α) := ⟨fun s b t h => by cases h⟩
theorem AnswersKeepGrid.waitE : AnswersKeepGrid (waitE : Eng α) := ⟨fun s b t h => by cases h⟩

/-- An action that ends in a wait answers nothing. -/
theorem AnswersKeepGrid.thenWait (x : Eng β) : AnswersKeepGrid (x >>= fun _ => (Machine.waitE : Eng α)) := by
  refine ⟨fun s a t h => ?_⟩
  rw [Eng.go_bind] at h
  rcases hr : x.go s with ⟨r, v⟩
  rw [hr] at h
  cases r <;> cases h

theorem AnswersKeepGrid.bind {x : Eng α} {f : α → Eng β} (hx : AnswersKeepGrid x) (hf : ∀ a, AnswersKeepGrid (f a)) :
    AnswersKeepGrid (x >>= f) := by
  refine ⟨fun s b t h => ?_⟩
  rw [Eng.go_bind] at h
  rcases hr : x.go s with ⟨r, v⟩
  rw [hr] at h
  cases r with
  | ok a => exact ((hf a).run v b t h).trans (hx.run s a v hr)
  | error e => cases h

theorem AnswersKeepGrid.get : AnswersKeepGrid (MonadState.get : Eng State) := ⟨fun s a t h => by cases h; rfl⟩

theorem AnswersKeepGrid.needE (b : Bool) (st : Status) : AnswersKeepGrid (needE b st) := by
  cases b
  · exact .failE st
  · exact .pure ()

theorem AnswersKeepGrid.holdE (b : Bool) : AnswersKeepGrid (holdE b) := by
  cases b
  · exact .waitE
  · exact .pure ()

theorem answersKeepGrid_translate (w : Who) (asid va : Nat) (write : Bool) : AnswersKeepGrid (translate w asid va write) := by
  refine ⟨fun s ga t h => ?_⟩
  rw [translate, Eng.go_bind_ok _ _ _ _ _ (Eng.go_get s)] at h
  split at h
  · cases h
  · split at h
    · exact (AnswersKeepGrid.bind (.needE _ _) fun _ => .pure _).run s ga t h
    · split at h
      · exact (AnswersKeepGrid.thenWait _).run s ga t h
      · split at h
        · exact (AnswersKeepGrid.thenWait _).run s ga t h
        · cases h
          rfl

theorem answersKeepGrid_homeReadP (tenant la n : Nat) : AnswersKeepGrid (homeReadP tenant la n) := by
  refine .bind .get fun s => ?_
  extract_lets rest
  have reads (u : Unit) : AnswersKeepGrid (rest u) := by
    refine .bind (.holdE _) fun _ => ?_
    split
    · exact .thenWait _
    · exact .pure _
  split
  · exact .bind (.failE _) reads
  · exact reads ()

theorem answersKeepGrid_askRaw (w : Who) (key : Nat) (h : Head) (payload : List Byte) (purpose : Purpose) :
    AnswersKeepGrid (askRaw w key h payload purpose) := by
  refine .bind .get fun s => ?_
  split
  · exact .pure _
  · split
    · exact .waitE
    · exact .thenWait _

theorem answersKeepGrid_check (r : Resp) : AnswersKeepGrid r.check := by
  unfold Resp.check
  split
  · split
    · exact .pure _
    · exact .failE _
  · exact .failE _

/-- A read of a core: that its twin answered is noted of commands only. -/
theorem answersKeepGrid_readPhys {w : Who} {n : Nat} (core : w.waiter = .core n) (ga k : Nat) :
    AnswersKeepGrid (readPhys w ga k) := by
  have noted (r : Resp) : AnswersKeepGrid (noteTwin w r) := by
    rw [noteTwin, core]
    exact .pure _
  refine .bind .get fun s => ?_
  split
  · refine .bind .get fun s => ?_
    split
    · exact .pure _
    · exact answersKeepGrid_homeReadP ..
  · exact .failE _
  · refine .bind (.bind (answersKeepGrid_askRaw ..) fun r => .bind (answersKeepGrid_check r) fun _ => ?_) fun _ => .pure _
    exact .bind (noted r) fun _ => .pure _

/-- An action of a core that answers leaves the scalar registers of core `n` as they were. -/
structure AnswersKeepScalars (n : Nat) (x : CoreE α) : Prop where
  run : ∀ s a t, x.go s = (.ok a, t) → (t.core n).s = (s.core n).s

variable {n : Nat}

theorem AnswersKeepScalars.pure (a : α) : AnswersKeepScalars n (pure a : CoreE α) := ⟨fun s b t h => by cases h; rfl⟩
theorem AnswersKeepScalars.throw (e : CoreStop) : AnswersKeepScalars n (throw e : CoreE α) := ⟨fun s b t h => by cases h⟩
theorem AnswersKeepScalars.get : AnswersKeepScalars n (MonadState.get : CoreE State) := ⟨fun s a t h => by cases h; rfl⟩
theorem AnswersKeepScalars.coreGet : AnswersKeepScalars n (coreGet n) := ⟨fun s a t h => by cases h; rfl⟩

theorem AnswersKeepScalars.coreSet {f : Core → Core} (kept : ∀ c, (f c).s = c.s) : AnswersKeepScalars n (coreSet n f) := by
  refine ⟨fun s a t h => ?_⟩
  cases h
  rw [State.core_updCore, kept]

theorem AnswersKeepScalars.bind {x : CoreE α} {f : α → CoreE β} (hx : AnswersKeepScalars n x)
    (hf : ∀ a, AnswersKeepScalars n (f a)) : AnswersKeepScalars n (x >>= f) := by
  refine ⟨fun s b t h => ?_⟩
  rw [CoreE.go_bind] at h
  rcases hr : x.go s with ⟨r, v⟩
  rw [hr] at h
  cases r with
  | ok a => exact ((hf a).run v b t h).trans (hx.run s a v hr)
  | error e => cases h

theorem AnswersKeepScalars.ofEng {x : Eng α} (va : Nat) (hx : AnswersKeepGrid x) : AnswersKeepScalars n (liftC va x) := by
  refine ⟨fun s a t h => ?_⟩
  rcases hr : x.go s with ⟨r, v⟩
  cases r with
  | ok b =>
    have kept := hx.run s b v hr
    rw [liftC_go_ok va hr] at h
    cases h
    rw [State.core, kept, State.core]
  | error e =>
    rw [liftC, CoreE.go_bind_ok _ _ _ _ _ (CoreE.go_get s), hr] at h
    cases e <;> cases h

end

/-! #### The read of a wait -/

theorem answersKeepScalars_translateC (n asid : Nat) (write : Bool) (l : List (Nat × Nat)) :
    AnswersKeepScalars n (translateC n asid write l) := by
  induction l with
  | nil => exact .pure _
  | cons p rest ih =>
    exact .bind .get fun s => .bind (.ofEng _ (answersKeepGrid_translate ..)) fun ga => .bind ih fun ps => .pure _

theorem Core.cleanLine_s (c : Core) (g : Nat) : (c.cleanLine g).s = c.s := by
  unfold Core.cleanLine
  split
  · split <;> rfl
  · rfl

theorem Core.cleanSome_s (c : Core) (l : List Nat) : (c.cleanSome l).s = c.s :=
  List.foldlRecOn (motive := fun d : Core => d.s = c.s) _ _ rfl fun d same g _ => (d.cleanLine_s g).trans same

theorem answersKeepScalars_cacheAside (n : Nat) (pieces : List (Nat × Nat)) (write : Bool) :
    AnswersKeepScalars n (cacheAside n pieces write) := by
  refine .bind .coreGet fun c => .bind (.coreSet fun d => d.cleanSome_s _) fun _ => .bind .coreGet fun d => ?_
  extract_lets rest
  have drops (u : Unit) : AnswersKeepScalars n (rest u) := by
    dsimp only [rest]
    split
    · exact .coreSet fun _ => rfl
    · exact .pure _
  split
  · exact .bind (.throw _) drops
  · exact drops ()

theorem answersKeepScalars_trackClear (n : Nat) (pieces : List (Nat × Nat)) (write : Bool) :
    AnswersKeepScalars n (trackClear n pieces write) := by
  refine .bind .get fun s => ?_
  extract_lets c rest
  have overlaps (u : Unit) : AnswersKeepScalars n (rest u) := by
    dsimp only [rest]
    split
    · exact .throw _
    · exact .pure _
  split
  · split
    · exact .bind (.throw _) overlaps
    · exact overlaps ()
  · exact overlaps ()

theorem answersKeepScalars_trackRoom (n k : Nat) : AnswersKeepScalars n (trackRoom n k) := by
  refine .bind .get fun s => ?_
  split
  · exact .pure _
  · exact .throw _

theorem answersKeepScalars_homePiece (n : Nat) (p : Piece) : AnswersKeepScalars n (homePiece n p) := by
  refine .bind .get fun s => .bind (.ofEng _ (answersKeepGrid_readPhys (w := s.coreWho n) rfl ..)) fun ⟨bs, poison⟩ => ?_
  cases poison
  · exact .pure _
  · exact .throw _

theorem answersKeepScalars_joinPieces {n : Nat} {f : Piece → CoreE (List Byte)} (hf : ∀ p, AnswersKeepScalars n (f p))
    (l : List Piece) : AnswersKeepScalars n (joinPieces f l) := by
  induction l with
  | nil => exact .pure _
  | cons p rest ih => exact .bind (hf p) fun bs => .bind ih fun more => .pure _

theorem answersKeepScalars_waitRead (n va : Nat) : AnswersKeepScalars n (waitRead n va) := by
  refine .bind .coreGet fun c => .bind (answersKeepScalars_translateC ..) fun ps => .bind .get fun s => ?_
  refine .bind (answersKeepScalars_cacheAside ..) fun _ => .bind (answersKeepScalars_trackClear ..) fun _ => ?_
  extract_lets rest
  have reads (u : Unit) : AnswersKeepScalars n (rest u) :=
    .bind (answersKeepScalars_joinPieces (answersKeepScalars_homePiece n) ps) fun bs => .pure _
  split
  · exact reads ()
  · exact .bind (answersKeepScalars_trackRoom ..) reads

/-! #### The waits -/

/-- The number that a scalar register holds. -/
abbrev Core.num (c : Core) (r : Nat) : Nat := (c.getS r).toNat

section
variable {s t u : State} {n : Nat} {word : BitVec 32} {v : Word} (h : s.issues n word t)
  (aligned : (t.core n).num (fRs1 word) % 8 = 0)
  (read : (waitRead n ((t.core n).num (fRs1 word))).go t = (.ok v, u))
include h aligned read

/-- A wait whose word meets its condition returns it at once. -/
theorem waitIssue_met {ge mine : Bool} (row : mine = true) (met : waitMet ge v ((t.core n).getS (fRs2 word)) = true) :
    (.next (s.instruction n word mine (waitIssue ge n word)) : Out) = .next (u.scalarDone n (fRd word) v) := by
  refine h.writesScalar row ?_
  rw [waitIssue, CoreE.go_coreGet_bind, if_neg (not_not.2 aligned)]
  refine (CoreE.go_bind_ok _ _ _ _ _ read).trans ?_
  rw [if_pos met]

/-- A wait without a time limit whose word does not meet its condition holds issue. -/
theorem waitIssue_holds {ge mine : Bool} (row : mine = true) (unmet : waitMet ge v ((t.core n).getS (fRs2 word)) = false)
    (unlimited : (t.core n).getS (fRs3 word) = 0) :
    ∃ w, (.next (s.instruction n word mine (waitIssue ge n word)) : Out) = .next w ∧ w.mem = u.mem ∧
      (w.core n).wait = some (.counter ge ((t.core n).num (fRs1 word)) ((t.core n).getS (fRs2 word)) 0 (fRd word) v) ∧
      (w.core n).mayIssue = false := by
  have regs : (u.core n).getS (fRs2 word) = (t.core n).getS (fRs2 word) := by
    rw [Core.getS, (answersKeepScalars_waitRead n _).run t v u read, Core.getS]
  refine ⟨_, h.waits (why := 0) (u := u.updCore n fun c => { c with
    resp := []
    wait := some (.counter ge ((t.core n).num (fRs1 word)) (c.getS (fRs2 word)) 0 (fRd word) v) }) row ?_, rfl, ?_, ?_⟩
  · rw [waitIssue, CoreE.go_coreGet_bind, if_neg (not_not.2 aligned)]
    refine (CoreE.go_bind_ok _ _ _ _ _ read).trans ?_
    rw [unmet, unlimited]
    rfl
  · rw [State.core_updCore, State.core_updCore]
    simp only [Core.getS] at regs ⊢
    rw [regs]
  · simp [Core.mayIssue]

end

section
variable {s u : State} {n va limit rd : Nat} {ge : Bool} {v target last : Word}
  (waiting : (s.core n).wait = some (.counter ge va target limit rd last))
include waiting

section
variable (running : (s.core n).run = .running) (live : (s.core n).dbg ≠ .halted)
include running live

theorem exec_waitPoll_met (read : (waitRead n va).go s = (.ok v, u)) (met : waitMet ge v target = true) :
    exec (.waitPoll n) s = .next (u.endWait n rd v) := by
  show execWaitPoll n s = _
  simp [execWaitPoll, waiting, running, live, read, met]

theorem exec_waitPoll_unmet (read : (waitRead n va).go s = (.ok v, u)) (unmet : waitMet ge v target = false) :
    exec (.waitPoll n) s = .next (u.updCore n fun c =>
      { c with resp := [], wait := some (.counter ge va target limit rd v) }) := by
  show execWaitPoll n s = _
  simp [execWaitPoll, waiting, running, live, read, unmet]

theorem exec_waitTimeLimit_passed (limited : limit ≠ 0) (passed : limit ≤ 8 * s.time) :
    exec (.waitTimeLimit n) s = .next (s.endWait n rd last) := by
  show execWaitTimeLimit n s = _
  simp [execWaitTimeLimit, waiting, running, live, limited, passed]

end

theorem exec_waitTimeLimit_ahead (ahead : 8 * s.time < limit) : exec (.waitTimeLimit n) s = .next s := by
  show execWaitTimeLimit n s = _
  simp [execWaitTimeLimit, waiting, Nat.not_le.2 ahead]

end

end Sys2Proof.Machine
end

section

/-!
### Messages (07 R206, 08 R229, R235, R237)
-/

namespace Sys2Proof.Machine

open Sys2Proof

/-- The key of the channel that an MSEND names. -/
abbrev State.channelKey (t : State) (n : Nat) (word : BitVec 32) : Nat := n * 64 + (t.core n).num (fRs2 word)

/-- The key of the queue that an MRECV or MPEEK names. -/
abbrev State.queueKey (t : State) (n : Nat) (word : BitVec 32) : Nat := n * 4 + (t.core n).num (fRs1 word)

section
variable {s t : State} {n : Nat} {word : BitVec 32} (h : s.issues n word t) (row : major word = 0x18)
include h row

/-! #### MSEND -/

section
variable (fn : fnA word = 0)
include fn

theorem exec_msend_unknown (unknown : 64 ≤ (t.core n).num (fRs2 word)) :
    exec (.msend n word) s = .next (t.coreExc n 0x0A 0 false word) := by
  refine h.raises (by simp [row, fn]) ?_
  rw [CoreE.go_coreGet_bind, CoreE.go_bind_ok _ _ _ _ _ (CoreE.go_get t), if_neg (Nat.not_lt.2 unknown)]
  rfl

section
variable {ch : Channel} (handle : (t.core n).num (fRs2 word) < 64)
  (found : t.channel? (t.channelKey n word) = some ch)
  (nonempty : 1 ≤ (t.core n).num (fRs3 word)) (fits : (t.core n).num (fRs3 word) ≤ 16)
  (granted : (t.core n).num (fRs3 word) ≤ ch.granted)
include handle found nonempty fits granted

/-- A channel in QUEUE_RESET sends nothing, and is open again. -/
theorem exec_msend_reset (reset : ch.state = .queueReset) :
    exec (.msend n word) s = .next
      ((t.updChannel (t.channelKey n word) fun x => { x with state := .open }).scalarDone n
        (fRd word) 1) := by
  refine h.writesScalar (by simp [row, fn]) ?_
  rw [CoreE.go_coreGet_bind, CoreE.go_bind_ok _ _ _ _ _ (CoreE.go_get t), if_pos handle, chanKey, found]
  dsimp only
  rw [if_neg (by simp [reset, granted]), if_neg (by simp [Nat.ne_of_gt nonempty, fits]), if_pos reset]
  exact CoreE.go_bind_ok _ _ _ _ _ (CoreE.go_modify _ t)

theorem exec_msend_sends {ga : Nat} {l : List (List Byte)} {u v : State} (live : ch.state = .open)
    (source : (spadAddress n ((t.core n).num (fRs1 word)) (32 * (t.core n).num (fRs3 word)) false).go t = (.ok ga, u))
    (credits : (t.core n).num (fRs3 word) ≤ ch.credits)
    (read : (readFlits n ga ((t.core n).num (fRs3 word))).go u = (.ok (l, false), v)) :
    let key := t.channelKey n word
    exec (.msend n word) s = .next ((v.updChannel key fun x => { x with
      credits := x.credits - l.length
      mesh := x.mesh ++ packetMesh x key (v.core n).trackOrder l.length false l 0 }).scalarDone n (fRd word) 0) := by
  refine h.writesScalar (by simp [row, fn]) ?_
  rw [CoreE.go_coreGet_bind, CoreE.go_bind_ok _ _ _ _ _ (CoreE.go_get t), if_pos handle, chanKey, found]
  dsimp only
  rw [if_neg (by simp [live, granted]), if_neg (by simp [Nat.ne_of_gt nonempty, fits]), if_neg (by simp [live]),
    CoreE.go_bind_ok _ _ _ _ _ source, if_neg (Nat.not_lt.2 credits), CoreE.go_bind_ok _ _ _ _ _ read]
  exact CoreE.go_bind_ok _ _ _ _ _ (CoreE.go_modify _ v)

end

end

/-! #### MRECV and MPEEK -/

section
variable (first : (t.core n).num (fRs1 word) ≤ 3) (third : fRs3 word = 0)
include third

section
variable (fn : fnA word = 1)
include fn first

/-- MRECV at a queue whose reset is pending takes the reset (08 R237). -/
theorem exec_mrecv_reset (reset : (t.queue (t.queueKey n word)).resetPending = true) :
    let k := t.queueKey n word
    exec (.mrecv n word) s = .next
      ((t.setQueue k { t.queue k with resetPending := false }).scalarDone n (fRd word) (BitVec.ofNat 64 (2 ^ 63))) := by
  refine h.writesScalar (by simp [row, fn]) ?_
  rw [CoreE.go_coreGet_bind, CoreE.go_legalE_bind _ (decide_eq_true third)]
  dsimp only
  rw [if_neg (Nat.not_lt.2 first), CoreE.go_bind_ok _ _ _ _ _ (CoreE.go_get t), if_pos reset]
  exact CoreE.go_bind_ok _ _ _ _ _ (CoreE.go_modify _ t)

theorem exec_mrecv_takes {ga : Nat} {p : CorePacket} {rest : List CorePacket} {u v : State} {x y : Unit}
    (settled : (t.queue (t.queueKey n word)).resetPending = false)
    (oldest : (t.queue (t.queueKey n word)).packets = p :: rest)
    (dest : (spadAddress n ((t.core n).num (fRs2 word)) 32 true).go t = (.ok ga, u))
    (clear : (trackClear n [(ga, p.payload.length)] true).go u = (.ok x, u))
    (copied : (recvPacket n (t.queueKey n word) ga p).go u = (.ok y, v)) :
    exec (.mrecv n word) s = .next (v.scalarDone n (fRd word) (recvWord p)) := by
  refine h.writesScalar (by simp [row, fn]) ?_
  rw [CoreE.go_coreGet_bind, CoreE.go_legalE_bind _ (decide_eq_true third)]
  dsimp only
  rw [if_neg (Nat.not_lt.2 first), CoreE.go_bind_ok _ _ _ _ _ (CoreE.go_get t), settled, if_neg Bool.false_ne_true,
    CoreE.go_bind_ok _ _ _ _ _ dest, oldest]
  exact (CoreE.go_bind_ok _ _ _ _ _ clear).trans (CoreE.go_bind_ok _ _ _ _ _ copied)

end

variable (fn : fnA word = 2) (second : fRs2 word = 0)
include fn second

theorem exec_mpeek_unknown (unknown : 3 < (t.core n).num (fRs1 word)) :
    exec (.mpeek n word) s = .next (t.coreExc n 0x0A 0 false word) := by
  refine h.raises (by simp [row, fn]) ?_
  rw [CoreE.go_coreGet_bind, CoreE.go_legalE_bind _ (by simp [second, third])]
  dsimp only
  rw [if_pos unknown]
  rfl

theorem exec_mpeek_length (known : (t.core n).num (fRs1 word) ≤ 3)
    (settled : (t.queue (t.queueKey n word)).resetPending = false) :
    exec (.mpeek n word) s = .next (t.scalarDone n (fRd word) (BitVec.ofNat 64
      (((t.queue (t.queueKey n word)).packets.head?.map fun p => p.payload.length / 32).getD 0))) := by
  refine h.writesScalar (by simp [row, fn]) ?_
  rw [CoreE.go_coreGet_bind, CoreE.go_legalE_bind _ (by simp [second, third])]
  dsimp only
  rw [if_neg (Nat.not_lt.2 known), CoreE.go_bind_ok _ _ _ _ _ (CoreE.go_get t), settled]
  cases (t.queue (t.queueKey n word)).packets <;> rfl

end

end

/-- Settles O25, instruction by instruction: a wait by its read, a message by its channel or its queue. -/
theorem waitsAndMessagesComplete : Obligations.WaitsAndMessagesComplete := by
  refine ⟨fun s t u n word v => ⟨?_, ?_⟩, fun s t n word h row => ⟨?_, ?_, ?_, ?_, ?_, ?_⟩⟩
  · intro h row aligned read
    have isRow {k : Nat} (fn : fnA word = k) : (major word = 0x17 && fnA word = k) = true := by simp [row, fn]
    refine ⟨fun fn met => ?_, fun fn met => ?_, fun fn unmet unlimited => ?_⟩
    · exact waitIssue_met h aligned read (isRow fn) (decide_eq_true met)
    · exact waitIssue_met h aligned read (isRow fn) (decide_eq_true met)
    · exact waitIssue_holds h aligned read (isRow fn) (decide_eq_false (Nat.not_le.2 unmet)) unlimited
  · intro ge va limit rd target last waiting running live
    exact ⟨exec_waitPoll_met waiting running live, exec_waitPoll_unmet waiting running live,
      exec_waitTimeLimit_passed waiting running live, exec_waitTimeLimit_ahead waiting⟩
  · intro ch fn handle found nonempty fits granted
    exact ⟨fun ga l u v => exec_msend_sends h row fn handle found nonempty fits granted,
      exec_msend_reset h row fn handle found nonempty fits granted⟩
  · exact exec_msend_unknown h row
  · intro ga p rest u v x y fn third first settled oldest dest clear copied
    exact exec_mrecv_takes h row first third fn settled oldest dest clear copied
  · exact fun fn third first => exec_mrecv_reset h row first third fn
  · exact fun fn second third known settled => exec_mpeek_length h row third fn second known settled
  · exact fun fn second third unknown => exec_mpeek_unknown h row third fn second unknown

end Sys2Proof.Machine
end

section

/-!
### Bit fields of packed words
-/

namespace Sys2Proof

theorem bitsOf_mod {lo w n : Nat} (v : Nat) (fits : lo + w ≤ n) : bitsOf (v % 2 ^ n) lo w = bitsOf v lo w := by
  obtain ⟨k, rfl⟩ := Nat.exists_eq_add_of_le fits
  rw [bitsOf, bitsOf, Nat.add_assoc, pow_add, Nat.mod_mul_right_div_self, pow_add, Nat.mod_mul_right_mod]

theorem fld_ofNat {lo w n : Nat} (v : Nat) (fits : lo + w ≤ n) : fld (BitVec.ofNat n v) lo w = bitsOf v lo w := by
  rw [fld, BitVec.toNat_ofNat, bitsOf_mod v fits]

theorem bitsOf_add_high {lo w n : Nat} (v high : Nat) (fits : lo + w ≤ n) : bitsOf (v + 2 ^ n * high) lo w = bitsOf v lo w := by
  rw [← bitsOf_mod _ fits, Nat.add_mul_mod_self_left, bitsOf_mod v fits]

/-- The field of a packed word that the fields of `below` lie under. -/
theorem bitsOf_pack (below above : List (Nat × Nat)) (v w : Nat) :
    bitsOf (pack (below ++ (v, w) :: above)) (below.map (·.2)).sum w = v % 2 ^ w := by
  induction below with
  | nil => simp [bitsOf, pack]
  | cons p below ih =>
    rw [← ih]
    have under : p.1 % 2 ^ p.2 < 2 ^ p.2 := Nat.mod_lt _ (by positivity)
    simp [bitsOf, pack, pow_add, ← Nat.div_div_eq_div_mul, Nat.add_mul_div_left, Nat.div_eq_of_lt under]

end Sys2Proof
end

section

/-!
### Cores that are prepared for a kernel (07 R176, R180, R184; 08 R222, R232)

A preparation closes the channels of other tenants at the core, empties a scratchpad of another tenant, and starts the core. The
first two leave every core as it was.
-/

namespace Sys2Proof.Machine

open Sys2Proof

/-! #### The store -/

/-- A look-up in a map cut down to the keys with `p`. -/
theorem SMap.look_filter_key {α : Type} (m : SMap α) (p : Nat → Bool) (j : Nat) :
    SMap.look (m.filter fun (k, _) => p k) j = if p j then SMap.look m j else none := by
  induction m with
  | nil => simp
  | cons q rest ih =>
    obtain ⟨k, v⟩ := q
    by_cases here : j = k
    · subst here
      by_cases kept : p j <;> simp [SMap.look, kept, ih]
    · by_cases kept : p k <;> simp [SMap.look, kept, here, ih]

theorem State.peek_one (s : State) (a : Nat) : s.peek a 1 = [SMap.get s.mem a 0] := rfl

/-- A byte of a range that is zeroed reads zero, and every other byte reads as it did. -/
theorem State.peek_zeroRange (s : State) (la n a : Nat) :
    (s.zeroRange la n).peek a 1 = if la ≤ a ∧ a < la + n then [0] else s.peek a 1 := by
  have cut := SMap.look_filter_key s.mem (fun k => !(la ≤ k && k < la + n)) a
  simp only [State.peek_one, State.zeroRange, memZero, SMap.get, cut]
  by_cases zeroed : la ≤ a ∧ a < la + n
  · simp [zeroed]
  · have outside : a < la ∨ la + n ≤ a := by omega
    simp [zeroed, outside]

/-! #### Changes that leave every core as it was -/

theorem State.core_of_cores {s t : State} (kept : t.grid.cores = s.grid.cores) (n : Nat) : t.core n = s.core n := by
  rw [State.core, kept, State.core]

theorem State.foldl_cores {β : Type} {f : State → β → State} (hf : ∀ s b, (f s b).grid.cores = s.grid.cores) (l : List β)
    (s : State) : (l.foldl f s).grid.cores = s.grid.cores :=
  List.foldlRecOn (motive := fun t : State => t.grid.cores = s.grid.cores) l f rfl fun t h b _ => (hf t b).trans h

@[simp] theorem State.foldl_emptyQueue_cores (s : State) (first : Nat) (l : List Nat) :
    (l.foldl (fun s q => s.emptyQueue (first + q)) s).grid.cores = s.grid.cores :=
  State.foldl_cores (f := fun s q => s.emptyQueue (first + q)) (fun _ _ => rfl) l s

theorem State.ite_setQueue_cores (s : State) (p : Prop) [Decidable p] (k : Nat) (q : Queue) :
    (if p then s.setQueue k q else s).grid.cores = s.grid.cores := by
  split <;> rfl

@[simp] theorem State.dropChannels_cores (s : State) (p : Nat → Channel → Bool) :
    (s.dropChannels p).grid.cores = s.grid.cores := by
  refine State.foldl_cores (fun t gone => ?_) _ _
  exact (State.ite_setQueue_cores ..).trans (State.ite_setQueue_cores ..)

@[simp] theorem State.tenantChange_cores (s : State) (n : Nat) (other : Channel → Bool) :
    (s.tenantChange n other).grid.cores = s.grid.cores := by
  simp only [State.tenantChange]
  split
  · simp
  · rfl

/-! #### The preparation -/

/-- The state in which a core starts a kernel of a tenant: the channels of other tenants at the core are closed, and a
scratchpad that the tenant did not hold is zero (08 R222, R232). -/
def State.clearedFor (s : State) (tenant n : Nat) : State :=
  let closed := s.tenantChange n fun c => c.tenant ≠ tenant
  if (closed.core n).holder = some tenant then closed
  else (List.range 4).foldl (fun s q => s.emptyQueue (n * 4 + q)) (closed.zeroRange (scratchBase n) 0x2_0000)

theorem State.prepareCore_eq_setCore (s : State) (sl : Slot) (slot entry n : Nat) :
    s.prepareCore sl slot entry n = (s.clearedFor sl.tenant n).setCore n
      (((s.clearedFor sl.tenant n).core n).start sl slot n (s.clearedFor sl.tenant n).time entry) := rfl

section
variable (s : State) (tenant n : Nat)

@[simp] theorem State.core_tenantChange (other : Channel → Bool) (m : Nat) : (s.tenantChange n other).core m = s.core m :=
  State.core_of_cores (by simp) m

theorem State.clearedFor_eq :
    s.clearedFor tenant n = if (s.core n).holder = some tenant then s.tenantChange n fun c => c.tenant ≠ tenant
      else (List.range 4).foldl (fun s q => s.emptyQueue (n * 4 + q))
        ((s.tenantChange n fun c => c.tenant ≠ tenant).zeroRange (scratchBase n) 0x2_0000) := by
  simp only [State.clearedFor, State.core_tenantChange]

@[simp] theorem State.core_clearedFor (m : Nat) : (s.clearedFor tenant n).core m = s.core m := by
  refine State.core_of_cores ?_ m
  rw [State.clearedFor_eq]
  split
  · simp
  · exact (State.foldl_emptyQueue_cores ..).trans (State.tenantChange_cores ..)

theorem State.clearedFor_mem_of_held (held : (s.core n).holder = some tenant) : (s.clearedFor tenant n).mem = s.mem := by
  rw [State.clearedFor_eq, if_pos held, State.tenantChange_mem]

theorem State.peek_clearedFor_of_not_held (other : (s.core n).holder ≠ some tenant) (a : Nat) :
    (s.clearedFor tenant n).peek a 1 =
      if scratchBase n ≤ a ∧ a < scratchBase n + 0x2_0000 then [0] else s.peek a 1 := by
  rw [State.clearedFor_eq, if_neg other, State.peek, State.foldl_mem (fun _ _ => State.emptyQueue_mem)]
  refine (State.peek_zeroRange ..).trans ?_
  rw [State.peek, State.tenantChange_mem, State.peek]

end

end Sys2Proof.Machine
end

section

/-!
### Kernels (08 R218 to R223, R226)
-/

namespace Sys2Proof.Machine

open Sys2Proof

section
variable {s : State} {n : Nat} {sl : Slot}

@[simp] theorem Slot.run_launchOk (sl : Slot) (time : Nat) : (sl.run time).launchOk = sl.launchOk := rfl
@[simp] theorem Slot.run_rect (sl : Slot) (time : Nat) : (sl.run time).rect = sl.rect := rfl

/-- A LAUNCH as it begins to wait for its rectangle (08 R221). -/
def Slot.launch (sl : Slot) (u : State) (entry : Nat) : Launch :=
  { x0 := sl.f 256 8, y0 := sl.f 264 8, w := sl.f 272 8, h := sl.f 280 8, order := u.grid.launchOrder, claimed := false
    entry, startTime := 0, ended := [], excs := [], status := .ok, compare := u.compares sl.tenant }

theorem exec_launch_waits {hd code : List Byte} {t u : State} (h : s.ready n 0x50 sl)
    (fresh : SMap.look s.grid.launches n = none) (form : sl.launchOk = true)
    (readHead : (readVa (sl.who n 5) sl.asid (sl.f 128 57) 64).go (s.dispatch n sl) = (.ok hd, t))
    (headOk : imageHeadOk (leNat hd) = true)
    (readCode : (readVa (sl.who n 5) sl.asid (sl.f 128 57 + 64) (bitsOf (leNat hd) 32 32)).go t = (.ok code, u))
    (headCrc : crc32c (hd.take 60) = bitsOf (leNat hd) 480 32) (codeCrc : crc32c code = bitsOf (leNat hd) 128 32)
    (available : ∀ k ∈ sl.rect, (u.core k).available = true) :
    exec (.launch n) s = .next { u with grid := { u.grid with
      launchOrder := u.grid.launchOrder + 1
      launches := SMap.put u.grid.launches n (sl.launch u (bitsOf (leNat hd) 64 32)) } } := by
  show execLaunch n s = _
  rw [execLaunch, if_neg (by simp [SMap.has, fresh]), runSlot, runSlotIf_of_ready h rfl]
  simp only [Slot.run_launchOk, Slot.run_rect, Slot.run_f, Slot.run_who, Slot.run_asid, Slot.run_tenant]
  rw [Eng.go_needE_bind _ _ _ form, Eng.go_bind_ok _ _ _ _ _ readHead, Eng.go_needE_bind _ _ _ headOk,
    Eng.go_bind_ok _ _ _ _ _ readCode, Eng.go_needE_bind _ _ _ (by simp [headCrc, codeCrc]),
    Eng.go_bind_ok _ _ _ _ _ (Eng.go_get _), Eng.go_needE_bind _ _ _ (by simpa using available)]
  rfl

section
variable {l : Launch} (held : s.slot? n = some sl) (op : sl.opcode = 0x50) (live : sl.stage ≠ .finished)
  (launched : SMap.look s.grid.launches n = some l)
include held op live launched

theorem exec_launch_ends (claimed : l.claimed = true) (ended : l.w * l.h ≤ l.ended.length) (unrecorded : sl.f 384 57 = 0)
    (alone : l.compare = false) :
    exec (.launch n) s = .next
      (({ s with grid := { s.grid with launches := SMap.del s.grid.launches n } } : State).finish n (l.status.join .ok)
        l.excs.length (8 * (s.time - l.startTime))) := by
  show execLaunch n s = _
  rw [execLaunch, if_pos (by simp [SMap.has, launched, held, op])]
  simp only [State.launchEnd, launched, held]
  rw [if_neg (by simp [claimed, ended, live])]
  simp [unrecorded, State.compareEnd, alone]

theorem exec_launchClaim_claims (may : s.mayClaim l = true) :
    let t := (rectCores l.x0 l.y0 l.w l.h).foldl (fun s c => s.prepareCore sl n l.entry c) s
    exec (.launchClaim n) s = .next { t with grid := { t.grid with
      launches := SMap.put t.grid.launches n { l with claimed := true, startTime := t.time } } } := by
  show execLaunchClaim n s = _
  simp only [execLaunchClaim, launched, held]
  rw [if_neg (by simp [op, live, may])]

end

theorem exec_kernelWatchdog_expired {l : Launch} (held : s.slot? n = some sl)
    (launched : SMap.look s.grid.launches n = some l) (claimed : l.claimed = true)
    (expired : l.startTime + s.watchdogTicks sl ≤ s.time) : exec (.kernelWatchdog n) s = .next (s.haltLaunch n 0x0C) := by
  show execKernelWatchdog n s = _
  simp [execKernelWatchdog, launched, held, claimed, expired]

theorem exec_haltGrid_idle (h : s.ready n 0x51 sl)
    (idle : s.grid.cores.filter (fun (_, c) => c.run ≠ .idle && c.launchSeq = sl.f 128 64) = []) :
    exec (.haltGrid n) s = .next ((s.dispatch n sl).finish n .ok 0 0) := by
  show execHaltGrid n s = _
  rw [execHaltGrid, runSlot, runSlotIf_of_ready h rfl, Eng.go_bind_ok _ _ _ _ _ (Eng.go_get _)]
  simp only [State.dispatch_grid, Slot.run_f, idle]
  rfl

end

/-- Settles O29: the steps of a LAUNCH in turn, and what a preparation leaves of the core, of the other cores and of the store. -/
theorem kernelsAreLaunchedAndEnd : Obligations.KernelsAreLaunchedAndEnd := by
  refine ⟨fun s n sl => ⟨?_, ?_, ?_, ?_, exec_haltGrid_idle⟩, fun s sl slot entry n => ?_⟩
  · intro hd code t u h fresh form readHead headOk readCode headCrc codeCrc available
    exact exec_launch_waits h fresh form readHead headOk readCode headCrc codeCrc available
  · intro l held op live launched
    exact exec_launch_ends held op live launched
  · intro l held op live launched
    exact exec_launchClaim_claims held op live launched
  · intro l held launched
    exact exec_kernelWatchdog_expired held launched
  · simp only [State.prepareCore_eq_setCore, State.core_setCore]
    refine ⟨rfl, rfl, rfl, rfl, rfl, rfl, rfl, rfl, rfl, rfl, rfl, rfl, fun m other => ?_, fun held => ?_, fun other a => ?_⟩
    · rw [State.core_setCore_other _ _ _ _ other, State.core_clearedFor]
    · exact State.clearedFor_mem_of_held s sl.tenant n held
    · exact State.peek_clearedFor_of_not_held s sl.tenant n other a

end Sys2Proof.Machine
end

section

/-!
### Opening and closing of channels (08 R227, R228, R230)
-/

namespace Sys2Proof.Machine

open Sys2Proof

section
variable {s : State} {n : Nat} {sl : Slot}

@[simp] theorem Slot.run_entries (sl : Slot) (time : Nat) : (sl.run time).entries = sl.entries := rfl

/-- CHANNEL_OPEN opens every channel of the list that it read, or none of them (08 R228). -/
theorem exec_channelOpen_of_read {bs : List Byte} {t : State} (h : s.ready n 0x52 sl) (aligned : sl.f 128 57 % 16 = 0)
    (read : (readVa (sl.who n 5) sl.asid (sl.f 128 57) (16 * sl.entries)).go (s.dispatch n sl) = (.ok bs, t)) :
    exec (.channelOpen n) s = .next
      (match t.openChannels sl.tenant ((chunksOf 16 sl.entries bs).map leNat) 0 with
      | .ok u => u.finish n .ok 0 0
      | .error (st, i) => (t.updSlot n fun x => { x with result := i }).rejectSlot n st) := by
  show execChannelOpen n s = _
  rw [execChannelOpen, runSlot, runSlotIf_of_ready h rfl]
  simp only [Slot.run_f, Slot.run_who, Slot.run_asid, Slot.run_tenant, Slot.run_entries]
  rw [Eng.go_needE_bind _ _ _ (by simp [aligned]), Eng.go_bind_ok _ _ _ _ _ read, Eng.go_bind_ok _ _ _ _ _ (Eng.go_get t)]
  cases t.openChannels sl.tenant ((chunksOf 16 sl.entries bs).map leNat) 0 <;> rfl

section
variable (aligned : sl.f 128 57 % 16 = 0)
include aligned

theorem exec_channelClose_closed (h : s.begun n 0x53 sl) (listed : sl.cursor = 1)
    (closed : ∀ p ∈ s.grid.channels, sl.marks.contains p.2.serial = false) (plain : sl.f 208 1 = 0) :
    exec (.channelClose n) s = .next (s.finish n .ok 0 0) := by
  have gone : s.grid.channels.any (fun (_, c) => sl.marks.contains c.serial) = false :=
    List.any_eq_false.2 (by simpa using closed)
  show execChannelClose n s = _
  rw [execChannelClose, runSlot_of_begun h, Eng.go_needE_bind _ _ _ (by simp [aligned]), if_neg (by simp [listed])]
  dsimp only
  rw [Eng.go_bind_ok _ _ _ _ _ (Eng.go_getSlot n sl s h.1), Eng.go_bind_ok _ _ _ _ _ (Eng.go_get s),
    Eng.go_holdE_bind _ _ (by rw [gone]; rfl), Eng.go_holdE_bind _ _ (by simp [plain])]
  rfl

/-- The channels of the list go to CLOSING, and the command waits while one of them is left. -/
theorem exec_channelClose_waits {bs : List Byte} {t : State} (h : s.ready n 0x53 sl) (fresh : sl.cursor = 0)
    (read : (readVa (sl.who n 5) sl.asid (sl.f 128 57) (16 * sl.entries)).go (s.dispatch n sl) = (.ok bs, t)) :
    let u := (t.closeChannels sl.tenant sl.seq n ((chunksOf 16 sl.entries bs).map leNat)).updSlot n fun x =>
      { x with cursor := 1 }
    (∃ x p, u.slot? n = some x ∧ p ∈ u.grid.channels ∧ x.marks.contains p.2.serial = true) →
      exec (.channelClose n) s = .next u := by
  intro u ⟨x, p, held, left, marked⟩
  have waits : u.grid.channels.any (fun (_, c) => x.marks.contains c.serial) = true := List.any_eq_true.2 ⟨p, left, marked⟩
  show execChannelClose n s = _
  rw [execChannelClose, runSlot, runSlotIf_of_ready h rfl]
  simp only [Slot.run_f, Slot.run_who, Slot.run_asid, Slot.run_tenant, Slot.run_entries, Slot.run_cursor, Slot.run_seq]
  rw [Eng.go_needE_bind _ _ _ (by simp [aligned]), if_pos fresh, Eng.go_bind_ok _ _ _ _ _ read,
    Eng.go_bind_ok _ _ _ _ _ (Eng.go_modify _ t), Eng.go_bind_ok (setCursor n 1) _ _ u ⟨⟩ rfl,
    Eng.go_bind_ok _ _ _ _ _ (Eng.go_getSlot n x u held), Eng.go_bind_ok _ _ _ _ _ (Eng.go_get u), Eng.go_bind, Eng.go_holdE,
    waits]
  rfl

end

theorem exec_channelClosed_closes {producer handle : Nat} {c : Channel} (range : handle < 64)
    (found : s.channel? (chanKey producer handle) = some c) (closing : c.state = .closing) (drained : c.mesh = [])
    (unnoticed : c.notice = false) (acknowledged : c.ack = false) (home : c.credits + c.held = c.granted) :
    exec (.channelClosed producer handle) s = .next (s.delChannel (chanKey producer handle)) := by
  show execChannelClosed producer handle s = _
  simp [execChannelClosed, found, range, closing, drained, unnoticed, acknowledged, home]

end

end Sys2Proof.Machine
end

section

/-!
### Flits, credits and resets (08 R229, R234, R235, R238, R240)
-/

namespace Sys2Proof.Machine

open Sys2Proof

/-! #### Channels and queues -/

theorem chanKey_div {producer handle : Nat} (range : handle < 64) : chanKey producer handle / 64 = producer := by
  rw [chanKey]; omega

section
variable (s : State) (k : Nat)

@[simp] theorem State.channel?_setChannel (c : Channel) : (s.setChannel k c).channel? k = some c := SMap.look_put_same ..

@[simp] theorem State.channel?_updChannel (f : Channel → Channel) : (s.updChannel k f).channel? k = (s.channel? k).map f :=
  SMap.look_upd_same ..

@[simp] theorem State.queue_setChannel (j : Nat) (c : Channel) : (s.setChannel j c).queue k = s.queue k := rfl

@[simp] theorem State.queue_updChannel (j : Nat) (f : Channel → Channel) : (s.updChannel j f).queue k = s.queue k := rfl

end

/-- A record that trace capture does not admit changes nothing (15 R424). -/
theorem State.trace_of_not_traces {s : State} {kind tenant : Nat} (h : s.traces kind tenant = false) (die port body : Nat) :
    s.trace kind die port tenant body = s := by
  simp [State.trace, h]

/-- The KIND of a flit stands in bits 25 and 26 of its sideband (08 Table 8-7). -/
theorem fld_sidebandOf_kind (c : Channel) (key index : Nat) (last abort : Bool) (kind : Nat) (payload : List Byte) :
    fld (sidebandOf c key index last abort kind payload) 25 2 = kind % 4 := by
  rw [sidebandOf, fld_ofNat _ (by decide), bitsOf_add_high _ _ (by decide)]
  exact bitsOf_pack [_, _, _, _, _, _, _] _ kind 2

/-- The acknowledgement of a reset notice, as its producer sends it (08 Table 8-6). -/
def Channel.resetAck (c : Channel) (key : Nat) : MeshSent :=
  { sideband := sidebandOf c key 0 true false 1 (List.replicate 32 0), payload := List.replicate 32 0, after := 0 }

theorem Channel.fld_resetAck_kind (c : Channel) (key : Nat) : fld (c.resetAck key).sideband 25 2 = 1 :=
  fld_sidebandOf_kind ..

/-! #### The flits of a packet -/

/-- The state in which the oldest flit of a channel has left the mesh. -/
def State.popMesh (s : State) (key : Nat) : State := s.updChannel key fun c => { c with mesh := c.mesh.drop 1 }

section
variable {s : State} {key : Nat} {c : Channel} {x : MeshSent} {f : MeshFlit}

/-- What a queue does with a flit of the packet that it assembles or begins, outside a reset and not dropping. -/
theorem State.takeFlit_of_assembling {k : Nat} (live : (s.queue k).state ≠ .reset)
    (turn : (s.queue k).assembling = none ∨ (s.queue k).assembling = some key) (kept : (s.queue k).dropping = false) :
    s.takeFlit k key c x f =
      if f.mismatch then (s.popMesh key).resetQueue k
      else if !flitCrcOk f then (s.popMesh key).rewind k key true (flag x.sideband 19)
      else if flag x.sideband 20 then (s.popMesh key).rewind k key false true
      else (s.popMesh key).writeFlit k key x := by
  have own : ¬ ((s.queue k).assembling.any (· ≠ key)) = true := by rcases turn with e | e <;> simp [e]
  simp only [State.takeFlit]
  rw [if_neg live, if_neg own, if_neg (by simp [kept])]
  rfl

/-- A flit that is the oldest of its channel, with no write before it and no trace of it, comes to its queue. -/
theorem exec_flitArrive_comes {producer handle : Nat} {rest : List MeshSent} (range : handle < 64)
    (found : s.channel? (chanKey producer handle) = some c) (oldest : c.mesh = x :: rest)
    (producerIs : fld f.sideband 40 8 * 160 + fld f.sideband 32 8 = producer) (handleIs : fld f.sideband 48 6 = handle)
    (idle : (s.core producer).tracker = []) (data : fld x.sideband 25 2 = 0) (side : f.sideband = x.sideband)
    (payload : padTo 32 f.payload = padTo 32 x.payload)
    (untraced : s.tracesFlit c.consumer = false ∨ s.traces 4 c.tenant = false) :
    exec (.flitArrive f) s = .next (s.takeFlit c.queueKey (chanKey producer handle) c x f) := by
  have same (die body : Nat) :
      (if s.tracesFlit c.consumer then s.trace 4 die 0 c.tenant body else s) = s := by
    split
    · rename_i admitted
      exact State.trace_of_not_traces (untraced.resolve_left (by simp [admitted])) ..
    · rfl
  show execFlitArrive f s = _
  simp only [execFlitArrive, producerIs, handleIs, found, oldest, chanKey_div range, same]
  rw [if_neg (by simp [idle, data, side, payload])]

end

section
variable {s : State} {k key : Nat} {c : Channel} {x : MeshSent}

/-- The last flit commits its packet (08 R235). -/
theorem State.writeFlit_last (found : s.channel? key = some c) (last : flag x.sideband 19 = true) :
    let q := s.queue k
    let w := (q.wptrA + 1) % 128
    let body := q.partialFlits ++ x.payload
    let p : CorePacket := { producer := key / 64, tag := c.tag, payload := body, channel := key, serial := c.serial }
    s.writeFlit k key x = ((s.setQueue k { q with
      wptrA := w, wptrB := w, commitA := w, commitB := w, packets := q.packets ++ [p], partialFlits := [], state := .open
      assembling := none }).setChannel key { c with held := c.held + body.length / 32 }).wakeRecv k := by
  simp only [State.writeFlit, last, found, if_true]

theorem State.writeFlit_inner (inner : flag x.sideband 19 = false) :
    let q := s.queue k
    let w := (q.wptrA + 1) % 128
    s.writeFlit k key x = s.setQueue k { q with
      wptrA := w, wptrB := w, partialFlits := q.partialFlits ++ x.payload, state := .assembling, assembling := some key } := by
  simp only [State.writeFlit, inner, Bool.false_eq_true, if_false]

end

/-! #### Credits, notices and acknowledgements -/

section
variable {s : State} {producer handle : Nat} (range : handle < 64)
include range

theorem exec_creditReturn_returns :
    exec (.creditReturn producer handle) s = .next
      (s.updChannel (chanKey producer handle) fun c => { c with credits := c.credits + c.returning, returning := 0 }) := by
  show execCreditReturn producer handle s = _
  rw [execCreditReturn, if_pos range]

variable {c : Channel} (found : s.channel? (chanKey producer handle) = some c)
include found

/-- The notice restores the credits, and the acknowledgement follows the flits that were injected (08 R240). -/
theorem exec_resetNotice_restores (due : c.notice = true) :
    exec (.resetNotice producer handle) s = .next (s.setChannel (chanKey producer handle)
      { c with notice := false, credits := c.granted, returning := 0, mesh := c.mesh ++ [c.resetAck (chanKey producer handle)]
               state := if c.state = .open then .queueReset else c.state }) := by
  show execResetNotice producer handle s = _
  simp only [execResetNotice, found]
  rw [if_neg (by simp [range, due])]
  rfl

section
variable {x : MeshSent} {rest : List MeshSent} (oldest : c.mesh = x :: rest) (isAck : fld x.sideband 25 2 = 1)
  (unnoticed : c.notice = false)
include oldest isAck unnoticed

/-- The acknowledgement leaves the mesh, and the last one that a queue in RESET awaits opens it (08 R240). -/
theorem exec_resetAcknowledgement_leaves :
    let t := s.setChannel (chanKey producer handle) { c with mesh := rest, ack := false }
    exec (.resetAcknowledgement producer handle) s = .next
      (if (s.queue c.queueKey).state = .reset && !t.grid.channels.any fun (_, o) => o.queueKey = c.queueKey && o.ack then
        t.setQueue c.queueKey { s.queue c.queueKey with state := .open } else t) := by
  have left : ({ c with mesh := rest, ack := c.notice } : Channel) = { c with mesh := rest, ack := false } := by rw [unnoticed]
  show execResetAcknowledgement producer handle s = _
  simp only [execResetAcknowledgement, found, oldest]
  rw [if_neg (by simp [range, isAck]), left]
  rfl

end

end

/-- Settles O30: the commands on channels, and then the life of one channel's flits, credits and resets. -/
theorem channelsCarryFlitsAndRecover : Obligations.ChannelsCarryFlitsAndRecover := by
  refine ⟨fun s n sl => ⟨?_, ?_, ?_, ?_, ?_⟩, fun s producer handle c => ?_⟩
  · intro bs t u h aligned read opened
    rw [exec_channelOpen_of_read h aligned read, opened]
  · intro bs t st i h aligned read refused
    rw [exec_channelOpen_of_read h aligned read, refused]
  · exact fun h aligned listed closed plain => exec_channelClose_closed aligned h listed closed plain
  · exact fun bs t h aligned fresh read => exec_channelClose_waits aligned h fresh read
  · exact fun producer handle c range found => exec_channelClosed_closes range found
  intro key q range found
  refine ⟨?_, ?_, ?_, ?_⟩
  · intro f x rest oldest producerIs handleIs idle data side payload live turn kept untraced t
    have comes : exec (.flitArrive f) s = .next (s.takeFlit c.queueKey key c x f) :=
      exec_flitArrive_comes range found oldest producerIs handleIs idle data side payload untraced
    rw [State.takeFlit_of_assembling live turn kept] at comes
    have left : t.channel? key = some { c with mesh := rest } := by simp [t, key, found, oldest]
    refine ⟨fun mismatch => ?_, fun agree bad => ?_, fun agree good abort => ?_, fun agree good plain last => ?_,
      fun agree good plain inner => ?_⟩
    · rw [comes, if_pos mismatch]; rfl
    · rw [comes, agree, bad]; rfl
    · rw [comes, agree, good, abort]; rfl
    · rw [comes, agree, good, plain]
      exact congrArg Host.Outcome.next (State.writeFlit_last left last)
    · rw [comes, agree, good, plain]
      exact congrArg Host.Outcome.next (State.writeFlit_inner inner)
  · exact exec_creditReturn_returns range
  · exact fun due => ⟨_, c.resetAck key, exec_resetNotice_restores range found due, State.setChannel_mem, rfl,
      c.fld_resetAck_kind key, State.channel?_setChannel ..⟩
  · intro x rest oldest isAck unnoticed t
    have run := exec_resetAcknowledgement_leaves range found oldest isAck unnoticed
    refine ⟨fun reset last => run.trans (congrArg _ (if_pos ?_)), fun live => run.trans (congrArg _ (if_neg ?_))⟩
    · exact Bool.and_eq_true_iff.2 ⟨decide_eq_true reset, (Bool.not_eq_true' _).mpr last⟩
    · exact fun awaited => live (of_decide_eq_true (Bool.and_eq_true_iff.1 awaited).1)

end Sys2Proof.Machine
end

section

/-!
### Indexes and their records (10 R262 to R267, R281 to R283, R287)

The commands that make and remove an index and those that change what it holds, where their accesses succeed; and what a record
that is taken leaves of its index.
-/

namespace Sys2Proof.Machine

open Sys2Proof

@[simp] theorem State.setIndex_look (s : State) (id : Nat) (x : Index) :
    SMap.look (s.setIndex id x).idx.indexes id = some x := SMap.look_put_same ..

@[simp] theorem State.mirrorMeta_idx (s : State) (slot : Option Nat) : (s.mirrorMeta slot).idx = s.idx := by
  unfold State.mirrorMeta
  split
  · cases slot <;> rfl
  · rfl

/-- A part of an action that runs under a condition, before the rest of it. -/
theorem Eng.go_ite_bind_ok {α : Type} {p : Prop} [Decidable p] {e : Eng Unit} {f : Unit → Eng α} {s t : State} {u : Unit}
    (h : (if p then e else pure ()).go s = (.ok u, t)) : (if p then e >>= f else f ()).go s = (f u).go t := by
  by_cases hp : p
  · rw [if_pos hp] at h ⊢
    exact Eng.go_bind_ok _ _ _ _ _ h
  · rw [if_neg hp] at h ⊢
    cases h
    rfl

/-- A command that waited, as it runs on. -/
def Slot.resumed (sl : Slot) : Slot := { sl with stage := .running }

theorem State.begun_resumed {s : State} {n op : Nat} {sl : Slot} (hop : sl.opcode = op)
    (ready : (s.setSlot n sl.resumed).dispatchable sl.resumed = true) : (s.setSlot n sl.resumed).begun n op sl.resumed :=
  ⟨State.slot?_setSlot .., hop, .inl rfl, ready⟩

theorem indexNamed_go {s : State} {sl : Slot} {x : Index} (found : SMap.look s.idx.indexes (sl.id 128 10) = some x) :
    (indexNamed sl).go s = (.ok x, s) := by
  simp [indexNamed, Eng.go_bind, found]

theorem indexNamed_go_dispatched {s : State} {sl : Slot} {x : Index} (n : Nat)
    (found : SMap.look s.idx.indexes (sl.id 128 10) = some x) :
    (indexNamed (sl.run s.time)).go (s.dispatch n sl) = (.ok x, s.dispatch n sl) :=
  indexNamed_go (by simpa using found)

/-! #### INDEX_CONFIG (10 R262 to R267) -/

theorem keepMarks_go {α : Type} (s : State) (w : Who) (n : Nat) (l : List Nat) (f : Unit → Eng α) :
    Eng.go (execIndexCreate.keepMarks n l >>= fun _ => clearMail w >>= f) s = (f ()).go (s.keeping w n l) := rfl

theorem State.slot?_keeping {s : State} {n : Nat} {x : Slot} (held : s.slot? n = some x) (sl : Slot) (cls : Nat) (l : List Nat) :
    (s.keeping (sl.who n cls) n l).slot? n = some { x with marks := l, resp := [] } := by
  simp [State.keeping, State.setMail, Slot.who, held]

/-- 10 R262 to R267: a descriptor that passes its checks makes an index, once its empty head buckets are written. -/
theorem exec_indexCreate_made {s t u : State} {n : Nat} {sl y : Slot} {a : Asid} {bs : List Byte} {x : Index} {v : Unit}
    (h : s.ready n 0x65 sl) (op : sl.f 138 2 = 0) (aligned : sl.f 192 57 % 64 = 0)
    (unused : SMap.look s.idx.indexes (sl.id 128 10) = none) (ha : s.asid? (sl.id 160 16) = some a) (first : sl.marks = [])
    (read : (readVa (sl.who n 5) sl.asid (sl.f 192 57) 128).go (s.dispatch n sl) = (.ok bs, t))
    (crc : crc32c (bs.take 124) = leNat (bs.drop 124))
    (made : x = Index.fresh a.tenant (sl.id 160 16) (BitVec.ofNat 1024 (leNat bs))) (wf : x.ok = true)
    (held : t.slot? n = some y)
    (emptied : (if x.f 60 1 = 0 then units (sl.who n 5) n x.heads (writeEmptyHead (sl.who n 5) x 1) else pure ()).go
      (t.keeping (sl.who n 5) n [leNat bs]) = (.ok v, u)) :
    exec (.indexCreate n) s = .next (((u.setIndex (sl.id 128 10) x).mirrorMeta (some n)).finish n .ok 0 0) := by
  subst made
  have free : SMap.has s.idx.indexes (sl.id 128 10) = false := by simp [SMap.has, unused]
  have kept := Eng.go_getSlot n _ _ (State.slot?_keeping held sl 5 [leNat bs])
  show execIndexCreate n s = _
  rw [execIndexCreate, runSlotIf_of_ready h (by simp [op])]
  simp only [Slot.run_who, Slot.run_asid, Slot.run_f, Slot.run_id, Slot.run_marks]
  rw [Eng.go_bind_ok _ _ _ _ _ (Eng.go_get _), Eng.go_needE_bind _ _ _ (by simp [aligned, free]), State.asid?_dispatch, ha]
  dsimp only
  rw [if_pos (by simp [first]), Eng.go_bind_ok _ _ _ _ _ read, Eng.go_needE_bind _ _ _ (by simp [crc]),
    Eng.go_needE_bind _ _ _ wf, keepMarks_go, Eng.go_bind_ok _ _ _ _ _ kept]
  exact (congrArg (fun r => Host.Outcome.next (endSlot n r)) (Eng.go_ite_bind_ok emptied)).trans rfl

/-- 10 R262: an idle index is removed; searches that run keep it to their end. -/
theorem exec_indexDestroy_idle {s : State} {n : Nat} {sl : Slot} {x : Index} (h : s.ready n 0x65 sl) (op : sl.f 138 2 = 1)
    (found : SMap.look s.idx.indexes (sl.id 128 10) = some x) (idle : x.merge = .idle) :
    exec (.indexDestroy n) s = .next ((({ s.dispatch n sl with idx := { (s.dispatch n sl).idx with
      indexes := SMap.del (s.dispatch n sl).idx.indexes (sl.id 128 10)
      ending := (s.dispatch n sl).idx.ending ++ (if x.searches.isEmpty then [] else [x.discard]) } } : State).mirrorMeta
        (some n)).finish n .ok 0 0) := by
  show execIndexDestroy n s = _
  rw [execIndexDestroy, runSlotIf_of_ready h (by simp [op]), Eng.go_bind_ok _ _ _ _ _ (indexNamed_go_dispatched n found),
    if_pos idle]
  rfl

/-! #### INSERT and DELETE (10 R281 to R283) -/

/-- Unit `k` of a DELETE: the tombstone bit of its id is set, and counted if it was clear (10 R281). -/
def deleteUnit (w : Who) (n : Nat) (sl : Slot) (k : Nat) : Eng Unit := do
  let j ← indexNamed sl
  let id ← readNat w sl.asid (sl.f 192 57 + 8 * k) 8
  needE (id < j.idLimit) .badDescriptor
  let ga ← translate w j.asid (j.f 448 57 + id / 64 * 8) true
  let old ← atomicPhys w ga 0x2 1 (2 ^ (id % 64)) 0
  if bitOf old (id % 64) then pure ()
  else modify fun s => s.updSlot n fun y => { y with count := y.count + 1 }

theorem execDelete_eq (n : Nat) (s : State) : execDelete n s = .next (runSlot 0x62 n (fun sl => do
    needE (sl.f 192 57 % 8 = 0 && 1 ≤ sl.f 256 32 && sl.f 256 32 ≤ 16777216) .badDescriptor
    let _ ← indexNamed sl
    units (sl.who n 5) n (sl.f 256 32) (deleteUnit (sl.who n 5) n sl)
    pure (.ok, (← getSlot n).count, 0)) s) := rfl

section
variable {s t : State} {n : Nat} {sl x : Slot} {i : Index} {u : Unit} (lo : 1 ≤ sl.f 256 32) (hi : sl.f 256 32 ≤ 16777216)
  (found : SMap.look s.idx.indexes (sl.id 128 10) = some i) (last : t.slot? n = some x)
include lo hi found last

theorem insertBody_go (aligned : sl.f 192 57 % 16 = 0)
    (taken : (units (sl.who n 5) n (sl.f 256 32) (insertRecord (sl.who n 5) n sl)).go s = (.ok u, t)) :
    (insertBody n sl).go s = (.ok (.ok, x.count, 0), t) := by
  rw [insertBody, Eng.go_needE_bind _ _ _ (by simp [aligned, lo, hi]), Eng.go_bind_ok _ _ _ _ _ (indexNamed_go found),
    Eng.go_bind_ok _ _ _ _ _ taken, Eng.go_bind_ok _ _ _ _ _ (Eng.go_getSlot n x t last)]
  rfl

theorem exec_insert_taken (h : s.ready n 0x61 sl) (aligned : sl.f 192 57 % 16 = 0)
    (taken : (units (sl.who n 5) n (sl.f 256 32) (insertRecord (sl.who n 5) n (sl.run s.time))).go (s.dispatch n sl) =
      (.ok u, t)) :
    exec (.insert n) s = .next (t.finish n .ok x.count 0) := by
  have ⟨_, _, fetched, _⟩ := h
  have body := insertBody_go (sl := sl.run s.time) lo hi (by simpa using found) last aligned taken
  show execInsert n s = _
  rw [execInsert, runSlotIf_of_ready h (by simp [fetched]), body]
  rfl

/-- 10 R283: an append that waits goes on once the side list has room. -/
theorem exec_sideListAppend_room (held : s.slot? n = some sl) (op : sl.opcode = 0x61) (waits : sl.stage = .waiting)
    (room : i.sideFull = false) (aligned : sl.f 192 57 % 16 = 0)
    (ready : (s.setSlot n sl.resumed).dispatchable sl.resumed = true)
    (taken : (units (sl.who n 5) n (sl.f 256 32) (insertRecord (sl.who n 5) n sl.resumed)).go (s.setSlot n sl.resumed) =
      (.ok u, t)) :
    exec (.sideListAppend n) s = .next (t.finish n .ok x.count 0) := by
  have body := insertBody_go (s := s.setSlot n sl.resumed) (sl := sl.resumed) lo hi found last aligned taken
  show execSideListAppend n s = _
  rw [execSideListAppend, held]
  simp only [found]
  rw [if_pos (by simp [op, waits, room])]
  exact congrArg Host.Outcome.next ((runSlot_of_begun (State.begun_resumed op ready) _).trans (congrArg (endSlot n) body))

theorem exec_delete_marked (h : s.ready n 0x62 sl) (aligned : sl.f 192 57 % 8 = 0)
    (marked : (units (sl.who n 5) n (sl.f 256 32) (deleteUnit (sl.who n 5) n (sl.run s.time))).go (s.dispatch n sl) =
      (.ok u, t)) :
    exec (.delete n) s = .next (t.finish n .ok x.count 0) := by
  show execDelete n s = _
  rw [execDelete_eq, runSlot, runSlotIf_of_ready h rfl]
  simp only [Slot.run_f, Slot.run_who]
  rw [Eng.go_needE_bind _ _ _ (by simp [aligned, lo, hi]), Eng.go_bind_ok _ _ _ _ _ (indexNamed_go_dispatched n found),
    Eng.go_bind_ok _ _ _ _ _ marked, Eng.go_bind_ok _ _ _ _ _ (Eng.go_getSlot n x t last)]
  rfl

end

/-! #### A record that is taken (10 R282, R287) -/

/-- Whatever state an action begins in, a state that it leaves with an answer has `P`. -/
structure Leaves (P : State → Prop) {α : Type} (e : Eng α) : Prop where
  answer : ∀ (s t : State) (a : α), e.go s = (.ok a, t) → P t

section
variable {α β : Type} {P : State → Prop}

theorem Leaves.modify {f : State → State} (h : ∀ s, P (f s)) : Leaves P (modify f : Eng PUnit) :=
  ⟨fun s _ _ run => by cases run; exact h s⟩

/-- What the end of an action leaves decides. -/
theorem Leaves.bind {e : Eng α} {f : α → Eng β} (h : ∀ a, Leaves P (f a)) : Leaves P (e >>= f) := by
  refine ⟨fun s t b run => ?_⟩
  rw [Eng.go_bind] at run
  split at run
  · rename_i a u _
    exact (h a).answer u t b run
  · cases run

end

/-- The state once record `k` of an INSERT in slot `n` has its place in the side list of `x`. -/
def State.appended (s : State) (n id k : Nat) (x : Index) : State :=
  (((s.setIndex id { x with tail := x.tail + 1 }).mirrorMeta (some n)).updSlot n fun y => { y with count := k + 1 }).autoMerge id

/-- The states that the append of record `k` leaves, whatever state it finds. -/
def State.IsAppended (n id k : Nat) (x : Index) (t : State) : Prop := ∃ s : State, t = s.appended n id k x

/-- An INSERT that takes a record ends with its append. -/
theorem insertRecord_appends {s t : State} {w : Who} {n k : Nat} {sl : Slot} {x : Index} {u : Unit}
    (found : SMap.look s.idx.indexes (sl.id 128 10) = some x) (run : (insertRecord w n sl k).go s = (.ok u, t)) :
    State.IsAppended n (sl.id 128 10) k x t := by
  rw [insertRecord, Eng.go_bind_ok _ _ _ _ _ (indexNamed_go found)] at run
  refine Leaves.answer (P := State.IsAppended n (sl.id 128 10) k x) ?_ _ _ _ run
  refine .bind fun _ => ?_
  extract_lets head id append withAttr
  refine .bind fun _ => .bind fun _ => .bind fun _ => .bind fun _ => ?_
  have appends (u : Unit) : Leaves (State.IsAppended n (sl.id 128 10) k x) (append u) :=
    .bind fun _ => .modify fun s' => ⟨s', rfl⟩
  have ends (u : Unit) : Leaves (State.IsAppended n (sl.id 128 10) k x) (withAttr u) := by
    dsimp only [withAttr]
    split
    · exact .bind fun _ => .bind appends
    · exact appends ()
  split
  · exact ends ()
  · exact .bind ends

/-- A merge that starts by itself changes no more than the merge of its index. -/
theorem State.autoMerge_look {s : State} {id : Nat} {x : Index} (found : SMap.look s.idx.indexes id = some x) :
    ∃ y, SMap.look (s.autoMerge id).idx.indexes id = some y ∧ (y = x ∨ y = x.startMerge true none s.time) := by
  rw [State.autoMerge, found]
  dsimp only
  split
  · exact ⟨_, by rw [State.mirrorMeta_idx, State.setIndex_look], .inr rfl⟩
  · exact ⟨x, found, .inl rfl⟩

/-- 10 R282, R287: an append moves TAIL by 1, and moves neither the generation nor HEAD. -/
theorem State.appended_look (s : State) (n id k : Nat) (x : Index) :
    ∃ y, SMap.look (s.appended n id k x).idx.indexes id = some y ∧ y.tail = x.tail + 1 ∧ y.head = x.head ∧
      y.generation = x.generation ∧ y.areaB = x.areaB ∧ y.searches = x.searches := by
  have moved : SMap.look (((s.setIndex id { x with tail := x.tail + 1 }).mirrorMeta (some n)).updSlot n
      fun y => { y with count := k + 1 }).idx.indexes id = some { x with tail := x.tail + 1 } := by
    rw [State.updSlot_idx, State.mirrorMeta_idx, State.setIndex_look]
  obtain ⟨y, look, rfl | rfl⟩ := State.autoMerge_look moved
  · exact ⟨_, look, rfl, rfl, rfl, rfl, rfl⟩
  · exact ⟨_, look, rfl, rfl, rfl, rfl, rfl⟩

/-- Settles O31, command by command, and then record by record. -/
theorem indexesTakeAndLoseRecords : Obligations.IndexesTakeAndLoseRecords := by
  refine ⟨fun s n sl => ⟨?_, ?_⟩, fun s t n sl x i u lo hi found last => ⟨?_, ?_, ?_⟩, ?_⟩
  · intro a bs t u v h op aligned unused ha first read crc x wf held t2 emptied
    obtain ⟨y, held⟩ := Option.isSome_iff_exists.1 held
    exact ⟨exec_indexCreate_made h op aligned unused ha first read crc rfl wf held emptied, rfl, rfl, rfl, rfl⟩
  · exact fun x h op found idle => exec_indexDestroy_idle h op found idle
  · exact exec_insert_taken lo hi found last
  · exact fun held op waits _ room aligned ready taken =>
      exec_sideListAppend_room lo hi found last held op waits room aligned ready taken
  · exact exec_delete_marked lo hi found last
  · intro s t w n sl k x u found run
    obtain ⟨s', rfl⟩ := insertRecord_appends found run
    exact s'.appended_look n _ k x

end Sys2Proof.Machine
end

section

/-!
### The merges of an index (10 R284 to R286, Table 10-10)

The commands on the merge of an index, and the events of its build.
-/

namespace Sys2Proof.Machine

open Sys2Proof

section
variable {s : State} {n : Nat} {sl : Slot} {x : Index} (found : SMap.look s.idx.indexes (sl.id 128 10) = some x)
include found

/-- 10 R284: MERGE of an idle index begins a build, and the command waits for its end. -/
theorem exec_merge_idle (h : s.ready n 0x63 sl) (keep : sl.f 257 1 = 0) (idle : x.merge = .idle) (alone : x.mergeSlot = none) :
    exec (.merge n) s = .next (((s.dispatch n sl).setIndex (sl.id 128 10)
      (x.startMerge (sl.f 256 1 = 1) (some sl.seq) s.time)).mirrorMeta (some n)) := by
  show execMerge n s = _
  rw [execMerge, runSlotIf_of_ready h (by simp [keep]), Eng.go_bind_ok _ _ _ _ _ (indexNamed_go_dispatched n found)]
  simp [Eng.go_bind, idle, alone]

/-- 10 R284: MERGE with DISCARD discards the merge of its index. -/
theorem exec_mergeDiscard_merging (h : s.ready n 0x63 sl) (discard : sl.f 257 1 = 1) (merging : x.merge ≠ .idle) :
    exec (.mergeDiscard n) s = .next ((((s.dispatch n sl).discardMerge (sl.id 128 10) x .aborted).mirrorMeta (some n)).finish n
      .ok 0 0) := by
  show execMergeDiscard n s = _
  rw [execMergeDiscard, runSlotIf_of_ready h (by simp [discard]), Eng.go_bind_ok _ _ _ _ _ (indexNamed_go_dispatched n found),
    Eng.go_needE_bind _ _ _ (by simp [merging])]
  rfl

/-- 10 R286: INDEX_COMMIT makes a shadow that is built current. -/
theorem exec_indexCommit_built (h : s.ready n 0x64 sl) (built : x.merge = .built) :
    exec (.indexCommit n) s = .next (((s.dispatch n sl).commitIndex (sl.id 128 10) x (some n)).finish n .ok 0
      (x.generation + 1)) := by
  show execIndexCommit n s = _
  rw [execIndexCommit, runSlot, runSlotIf_of_ready h rfl, Eng.go_bind_ok _ _ _ _ _ (indexNamed_go_dispatched n found),
    Eng.go_needE_bind _ _ _ (by simp [built])]
  rfl

end

/-! #### The build (10 R285) -/

section
variable {s : State} {id : Nat} {x : Index} (found : SMap.look s.idx.indexes id = some x) (building : x.merge = .building)
include found building

/-- The build writes its area once no search of the generation before runs. -/
theorem exec_mergeBuildStart_clear {t : State} {u : Unit} (fresh : x.buildStarted = false)
    (clear : x.searches.any (fun (_, g, _) => g + 1 = x.generation) = false) (built : (buildIndex id x).go s = (.ok u, t)) :
    exec (.mergeBuildStart id) s = .next { t with idx := { t.idx with
      indexes := SMap.upd t.idx.indexes id fun y => { y with buildStarted := true, failure := none, resp := [] } } } := by
  show execMergeBuildStart id s = _
  simp only [execMergeBuildStart, found]
  rw [if_neg (by simp [building, fresh, clear]), built]

section
variable (ended : x.buildStarted = true) (alone : x.mergeSlot = none)
include ended alone

theorem exec_buildDone_commits (sound : x.failure = none) (commit : x.commit = true) :
    exec (.buildDone id) s = .next (s.commitIndex id x none) := by
  show execBuildDone id s = _
  simp [execBuildDone, found, building, ended, alone, sound, commit]

/-- A build that is not to be committed is kept as BUILT. -/
theorem exec_buildDone_keeps (sound : x.failure = none) (keep : x.commit = false) :
    exec (.buildDone id) s = .next ((s.setIndex id { x with merge := .built }).mirrorMeta none) := by
  show execBuildDone id s = _
  simp [execBuildDone, found, building, ended, alone, sound, keep]

/-- A build that failed is discarded; that of an auto-merge is logged. -/
theorem exec_buildDone_fails {st : Status} (failed : x.failure = some st) :
    exec (.buildDone id) s = .next ((s.discardMerge id x st).logFree 0x000D 1 x.tenant id) := by
  show execBuildDone id s = _
  simp [execBuildDone, found, building, ended, alone, failed]

end

end

/-- Settles O32, command by command and event by event. -/
theorem mergesBuildCommitAndDiscard : Obligations.MergesBuildCommitAndDiscard := by
  intro s n id sl x found
  refine ⟨?_, ?_, ?_, fun building ended alone => ⟨?_, ?_, ?_⟩, ?_⟩
  · rintro h rfl
    exact exec_merge_idle found h
  · rintro h rfl
    exact exec_mergeDiscard_merging found h
  · exact fun t u building => exec_mergeBuildStart_clear found building
  · exact exec_buildDone_commits found building ended alone
  · exact exec_buildDone_keeps found building ended alone
  · exact fun st => exec_buildDone_fails found building ended alone
  · rintro h rfl
    exact exec_indexCommit_built found h

end Sys2Proof.Machine
end

section

/-!
### Searches (10 R268 to R271, R280, R288 to R290)

A SEARCH where its query, its run and its result go through, and where it waits for a place of a search unit; and the shards of
other packages: a leg here, and the answer of a leg there.
-/

namespace Sys2Proof.Machine

open Sys2Proof

@[simp] theorem State.placeFree_dispatch (s : State) (n : Nat) (sl : Slot) :
    (s.dispatch n sl).placeFree (sl.run s.time) = s.placeFree sl := by
  simp [State.placeFree]

@[simp] theorem State.snapshot?_dispatch (s : State) (n key : Nat) (sl : Slot) :
    (s.dispatch n sl).snapshot? key = s.snapshot? key := by
  simp [State.snapshot?]

@[simp] theorem State.ringOwn_dispatch (s : State) (n ring : Nat) (sl : Slot) :
    (s.dispatch n sl).ringOwn ring = s.ringOwn ring := by
  simp [State.ringOwn, State.ownId]

theorem searchIndexOf_go {s : State} {sl : Slot} {x : Index} (found : SMap.look s.idx.indexes (sl.id 128 10) = some x)
    (own : x.tenant = sl.tenant) : (searchIndexOf sl).go s = (.ok x, s) := by
  simp [searchIndexOf, Eng.go_bind, found, own]

/-! #### SEARCH (10 R268 to R271, R280) -/

/-- A SEARCH of one index that begins: it reads its query, runs, and writes what it found. -/
theorem searchBody_go {s t1 t2 t3 : State} {n : Nat} {sl : Slot} {x : Index} {block : List Byte} {f : Found}
    {r : Status × Nat × Nat} (first : sl.marks = []) (fresh : s.snapshot? sl.seq = none)
    (found : SMap.look s.idx.indexes (sl.id 128 10) = some x) (own : x.tenant = sl.tenant) (whole : sl.f 138 1 = 0)
    (query : (queryBlock (sl.who n 1) n sl x).go s = (.ok block, t1))
    (run : (runSearch (sl.who n 1) (some sl.seq) (sl.id 128 10) sl.seq n block (s.ringOwn sl.ring)).go t1 = (.ok f, t2))
    (written : (do keepResult n (queryOf x block).k 0 f; writeResult (sl.who n 1) n).go t2 = (.ok r, t3)) :
    (searchBody n sl).go s = (.ok r, t3) := by
  rw [searchBody, if_pos (by simp [first]), Eng.go_bind_ok _ _ _ _ _ (Eng.go_get _)]
  extract_lets rest
  have named : (searchIndexOf sl >>= rest).go s = (rest x).go s := Eng.go_bind_ok _ _ _ _ _ (searchIndexOf_go found own)
  rw [fresh]
  refine named.trans ?_
  dsimp only [rest]
  rw [Eng.go_bind_ok _ _ _ _ _ query, if_neg (by simp [whole]), if_neg (by simp [first]), Eng.go_bind_ok _ _ _ _ _ run]
  exact written

theorem exec_search_found {s t1 t2 t3 : State} {n : Nat} {sl : Slot} {x : Index} {block : List Byte} {f : Found}
    {r : Status × Nat × Nat} (h : s.ready n 0x60 sl) (place : s.placeFree sl = true) (first : sl.marks = [])
    (fresh : s.snapshot? sl.seq = none) (found : SMap.look s.idx.indexes (sl.id 128 10) = some x) (own : x.tenant = sl.tenant)
    (whole : sl.f 138 1 = 0) (query : (queryBlock (sl.who n 1) n (sl.run s.time) x).go (s.dispatch n sl) = (.ok block, t1))
    (run : (runSearch (sl.who n 1) (some sl.seq) (sl.id 128 10) sl.seq n block (s.ringOwn sl.ring)).go t1 = (.ok f, t2))
    (written : (do keepResult n (queryOf x block).k 0 f; writeResult (sl.who n 1) n).go t2 = (.ok r, t3)) :
    exec (.search n) s = .next (t3.finish n r.1 r.2.1 r.2.2) := by
  have ⟨_, _, fetched, _⟩ := h
  have body := searchBody_go (s := s.dispatch n sl) (sl := sl.run s.time) first (by simpa using fresh) (by simpa using found) own
    whole query (by simpa using run) written
  show execSearch n s = _
  rw [execSearch, runSlotIf_of_ready h (by simp [fetched]), Eng.go_bind_ok _ _ _ _ _ (Eng.go_get _),
    if_neg (by simp [place]), body]
  rfl

/-- 10 R280: where every unit holds 16 searches, a SEARCH waits for a place. -/
theorem exec_search_waits {s : State} {n : Nat} {sl : Slot} (h : s.ready n 0x60 sl) (full : s.placeFree sl = false)
    (first : sl.marks = []) :
    exec (.search n) s =
      .next ((s.dispatch n sl).updSlot n fun x => { x with stage := .waiting, waitSince := s.time }) := by
  have ⟨_, _, fetched, _⟩ := h
  show execSearch n s = _
  rw [execSearch, runSlotIf_of_ready h (by simp [fetched]), Eng.go_bind_ok _ _ _ _ _ (Eng.go_get _),
    if_pos (by simp [full, first])]
  simp [Eng.go_bind]

/-- 10 R280: a SEARCH that waits begins once it has a place. -/
theorem exec_searchStart_placed {s t : State} {n : Nat} {sl : Slot} {r : Status × Nat × Nat} (held : s.slot? n = some sl)
    (op : sl.opcode = 0x60) (waits : sl.stage = .waiting) (place : s.placeFree sl = true)
    (ready : (s.setSlot n sl.resumed).dispatchable sl.resumed = true)
    (run : (searchBody n sl.resumed).go (s.setSlot n sl.resumed) = (.ok r, t)) :
    exec (.searchStart n) s = .next (t.finish n r.1 r.2.1 r.2.2) := by
  show execSearchStart n s = _
  rw [execSearchStart, held]
  dsimp only
  rw [if_pos (by simp [op, waits, place])]
  exact congrArg Host.Outcome.next ((runSlot_of_begun (State.begun_resumed op ready) _).trans (congrArg (endSlot n) run))

/-! #### Shards (10 R288 to R290) -/

@[simp] theorem State.hold_idx (s : State) (k : Packet) (f : Holding → Holding) : (s.hold k f).idx = s.idx := by
  simp only [State.hold]
  split <;> rfl

@[simp] theorem State.taken_idx (s : State) (k : Packet) : (s.taken k).idx = s.idx := State.hold_idx ..

/-- A leg runs here for a shard of this package, or of the lost twin, and answers what it found. -/
theorem exec_searchLeg_found {s t : State} {k : Packet} {x : Index} {f : Found} (h : s.received 0x04 k) (leg : partKind k = 1)
    (fresh : (s.taken k).snapshot? (legKey (packetHead k)) = none)
    (found : SMap.look s.idx.indexes (fld (partDesc k) 128 10 + (s.taken k).partSpace (packetHead k) 10) = some x)
    (own : x.tenant = (packetHead k).tenant) (wf : (queryOf x (partInputs k)).ok x = true)
    (run : (runSearch (partWho (packetHead k) 1) none (fld (partDesc k) 128 10 + (s.taken k).partSpace (packetHead k) 10)
      (legKey (packetHead k)) (2 ^ 20 + requestKey (packetHead k)) (partInputs k) (packetHead k).dst).go (s.taken k) =
        (.ok f, t)) :
    exec (.searchLeg k) s = .next (t.reply k (plainHead (packetHead k) f.st)
      (partAnswer k (resultHeader f.hits.length 0 f.counts ++ f.hits.flatMap Hit.bytes)) []) := by
  show execSearchLeg k s = _
  rw [execSearchLeg, if_neg (by simp [leg])]
  refine congrArg _ (serve_ok _ _ _ _ _ _ _ _ h ?_)
  rw [legBody, Eng.go_bind_ok _ _ _ _ _ (Eng.go_get _)]
  extract_lets id block rest
  have found' : SMap.look (s.taken k).idx.indexes id = some x := by rwa [State.taken_idx]
  rw [fresh, found']
  refine (Eng.go_bind_ok _ _ _ _ _ (Eng.go_pure x _)).trans ?_
  dsimp only [rest]
  rw [Eng.go_needE_bind _ _ _ (by simp [own]), Eng.go_needE_bind _ _ _ wf, Eng.go_bind_ok _ _ _ _ _ run]
  rfl

/-- The answer of a leg that is awaited is merged. -/
theorem exec_shardResult_merges {s : State} {n : Nat} {sl : Slot} {k : Packet} {q : Request} {m : Merging}
    (answers : s.answered? k = some q) (type : q.type = 0x04) (leg : partKind q.packet = 1)
    (mine : s.isMine (packetHead k) = true) (purpose : q.purpose = .slotPart n)
    (merging : SMap.look s.idx.merging n = some m) (held : s.slot? n = some sl) (awaited : m.awaited.contains q.dst = true)
    (current : partSeq q.packet = sl.seq) :
    exec (.shardResult k) s = .next ((s.freeTag (packetHead k).tag).setMerging n (m.take
      { head := leNat ((partInputs q.packet).take 64), code := 0, vec := [] } q.dst false
      (s.answerStatus q (packetHead k) = 2 || s.fab.rerouted.contains q.dst)
      (foundOf k ((statusOf (packetHead k).status).getD .targetDead)))) := by
  have merging' : SMap.look (s.freeTag (packetHead k).tag).idx.merging n = some m := merging
  have held' : (s.freeTag (packetHead k).tag).slot? n = some sl := held
  show execShardResult k s = _
  rw [execShardResult, answers]
  dsimp only
  rw [if_pos (by simp [type, leg, mine]), State.shardResult, purpose]
  dsimp only
  rw [merging', held']
  dsimp only
  rw [if_neg (by rw [awaited]; simp [current])]
  rfl

/-- Settles O33: the SEARCH of one index, and then the shards of a search. -/
theorem searchesRunAndMergeTheirShards : Obligations.SearchesRunAndMergeTheirShards := by
  intro s t n sl
  refine ⟨?_, ?_, ?_, ?_, ?_⟩
  · exact fun _ _ _ _ _ _ _ => exec_search_found
  · exact exec_search_waits
  · exact fun r => exec_searchStart_placed
  · exact fun _ _ _ => exec_searchLeg_found
  · exact fun k q m => exec_shardResult_merges

end Sys2Proof.Machine
end

section

/-!
### GATHER and SCATTER (11 R299 to R310)

A GATHER that has its gather units and one that waits for them; a SCATTER in its table order; and the update that LAST_WRITER
discards.
-/

namespace Sys2Proof.Machine

open Sys2Proof

/-- The handler of an action that answers is not run. -/
theorem Eng.go_tryCatch_ok {α : Type} {e : Eng α} {s t : State} {a : α} (handler : Stop → Eng α) (h : e.go s = (.ok a, t)) :
    Eng.go (tryCatch e handler) s = (.ok a, t) := by
  have run : StateT.run (ExceptT.run e) s = (.ok a, t) := h
  show StateT.run (ExceptT.tryCatch e handler) s = _
  rw [ExceptT.tryCatch]
  show StateT.run (bind (m := StateM State) (ExceptT.run e) _) s = _
  rw [StateT.run_bind, run]
  rfl

/-- An attempt of an action that answers succeeds with its answer. -/
theorem Eng.go_attempt_ok {α : Type} {e : Eng α} {s t : State} {a : α} (h : e.go s = (.ok a, t)) :
    (attempt e).go s = (.ok (.ok a), t) :=
  Eng.go_tryCatch_ok _ (Eng.go_bind_ok e _ s t a h)

/-! #### Tables of the state -/

@[simp] theorem State.table?_dispatch (s : State) (n id : Nat) (sl : Slot) : (s.dispatch n sl).table? id = s.table? id := by
  simp [State.table?]

theorem tableAt_go {s : State} {id : Nat} {x : Table} (found : s.table? id = some x) : (tableAt id).go s = (.ok x, s) := by
  simp [tableAt, Eng.go_bind, found]

/-! #### GATHER (11 R299 to R305) -/

/-- The state in which a command holds the gather units besides those that hold them already. -/
def State.gathering (s : State) (seq : Nat) : State :=
  { s with idx := { s.idx with gatherUnits := s.idx.gatherUnits ++ [seq] } }

/-- A GATHER that takes its gather units begins, and serves every bag. -/
theorem gatherBody_go {s t1 t2 : State} {n : Nat} {sl y z : Slot} {u : Unit} (first : sl.marks = [])
    (fresh : s.idx.gatherUnits.contains sl.seq = false)
    (begins : (gatherBegin (sl.who n 2) n sl).go (s.gathering sl.seq) = (.ok u, t1)) (begun : t1.slot? n = some y)
    (served : (units (sl.who n 2) n (y.f 176 16) (gatherBag (sl.who n 2) n y)).go t1 = (.ok u, t2))
    (last : t2.slot? n = some z) :
    (gatherBody n sl).go s = (.ok (if y.marks.getD 2 0 = 1 then .okStalePin else .ok, z.count, z.result), t2) := by
  rw [gatherBody, Eng.go_bind_ok _ _ _ _ _ (Eng.go_get _), if_neg (ne_true_of_eq_false fresh),
    if_pos (by simp [first]), Eng.go_bind_ok _ _ _ _ _ (Eng.go_set _ _)]
  refine (Eng.go_bind_ok _ _ _ _ _ begins).trans ?_
  rw [Eng.go_bind_ok _ _ _ _ _ (Eng.go_getSlot n y t1 begun), Eng.go_bind_ok _ _ _ _ _ served,
    Eng.go_bind_ok _ _ _ _ _ (Eng.go_getSlot n z t2 last)]
  rfl

section
variable {s : State} {n : Nat} {sl : Slot} (fresh : s.idx.gatherUnits.contains sl.seq = false)
include fresh

/-- 11 R305: where sixteen GATHERs are at work, a GATHER waits. -/
theorem exec_gather_waits (h : s.ready n 0x70 sl) (full : 16 ≤ s.idx.gatherUnits.length) :
    exec (.gather n) s =
      .next ((s.dispatch n sl).updSlot n fun x => { x with stage := .waiting, waitSince := s.time }) := by
  have ⟨_, _, fetched, _⟩ := h
  have busy : (s.dispatch n sl).gatherRoom (sl.run s.time) = false := by
    rw [State.gatherRoom, State.dispatch_idx, Slot.run_seq, fresh]
    simp [full]
  show execGather n s = _
  rw [execGather, runSlotIf_of_ready h (by simp [fetched]), Eng.go_bind_ok _ _ _ _ _ (Eng.go_get _), if_neg (by simp [busy])]
  simp [Eng.go_bind]

section
variable {t1 t2 : State} {y z : Slot} {u : Unit} (room : s.idx.gatherUnits.length < 16) (first : sl.marks = [])
  (begun : t1.slot? n = some y) (served : (units (sl.who n 2) n (y.f 176 16) (gatherBag (sl.who n 2) n y)).go t1 = (.ok u, t2))
  (last : t2.slot? n = some z)
include room first begun served last

theorem exec_gather_served (h : s.ready n 0x70 sl)
    (begins : (gatherBegin (sl.who n 2) n (sl.run s.time)).go ((s.dispatch n sl).gathering sl.seq) = (.ok u, t1)) :
    exec (.gather n) s = .next (t2.finish n (if y.marks.getD 2 0 = 1 then .okStalePin else .ok) z.count z.result) := by
  have ⟨_, _, fetched, _⟩ := h
  have body := gatherBody_go (s := s.dispatch n sl) (sl := sl.run s.time) first (by simpa using fresh) (by simpa using begins)
    begun served last
  show execGather n s = _
  rw [execGather, runSlotIf_of_ready h (by simp [fetched]), Eng.go_bind_ok _ _ _ _ _ (Eng.go_get _),
    if_pos (by simp [State.gatherRoom, room]), body]
  rfl

/-- 11 R305: a GATHER that waits begins once one of the sixteen has ended. -/
theorem exec_gatherStart_served (held : s.slot? n = some sl) (op : sl.opcode = 0x70) (waits : sl.stage = .waiting)
    (ready : (s.setSlot n sl.resumed).dispatchable sl.resumed = true)
    (begins : (gatherBegin (sl.who n 2) n sl.resumed).go ((s.setSlot n sl.resumed).gathering sl.seq) = (.ok u, t1)) :
    exec (.gatherStart n) s = .next (t2.finish n (if y.marks.getD 2 0 = 1 then .okStalePin else .ok) z.count z.result) := by
  have body := gatherBody_go (s := s.setSlot n sl.resumed) (sl := sl.resumed) first fresh begins begun served last
  show execGatherStart n s = _
  rw [execGatherStart, held]
  dsimp only
  rw [if_pos (by simp [op, waits, State.gatherRoom, room])]
  exact congrArg Host.Outcome.next ((runSlot_of_begun (State.begun_resumed op ready) _).trans (congrArg (endSlot n) body))

end

end

/-! #### SCATTER (11 R307 to R310) -/

/-- The rows that a SCATTER names once its updates have been read, each once. -/
def Slot.scatterRows (y : Slot) : List Nat := distinctRows (((y.marks.drop 2).take (y.f 160 32)).filter (· ≠ padEntry))

/-- The state once a command that may have a place in a table's order has left it. -/
def State.outOfOrder (s : State) (id seq : Nat) : State := if (s.table? id).isSome then s.orderEnd id seq else s

/-- At the package that keeps the table order, a SCATTER leaves it at once. -/
theorem leaveOrder_go {s : State} {w : Who} {sl : Slot} {id : Nat}
    (home : ∀ z, s.table? id = some z → z.primary = s.tableOwn id) :
    (leaveOrder w sl id).go s = (.ok (), s.outOfOrder id sl.seq) := by
  rw [leaveOrder, Eng.go_bind_ok _ _ _ _ _ (Eng.go_get _), State.outOfOrder]
  cases found : s.table? id with
  | none => rfl
  | some z =>
    dsimp only
    rw [Eng.go_bind_ok _ _ _ _ _ (Eng.go_get _), if_pos (home z found)]
    rfl

theorem exec_scatter_applied {s t1 t2 t3 : State} {n v : Nat} {sl y : Slot} {x : Table} {u : Unit} (h : s.ready n 0x71 sl)
    (first : sl.marks = []) (begins : (scatterBegin (sl.who n 2) n (sl.run s.time)).go (s.dispatch n sl) = (.ok u, t1))
    (begun : t1.slot? n = some y) (sound : y.status = .ok) (found : t1.table? (sl.id 128 12) = some x)
    (placed : (takeOrder (sl.who n 2) y (sl.id 128 12) x (y.seq % 2 ^ 49) 0).go t1 = (.ok v, t2))
    (applied : (units (sl.who n 2) n (2 * y.scatterRows.length) (scatterStep (sl.who n 2) n y y.scatterRows)).go t2 = (.ok u, t3))
    (home : ∀ z, t3.table? (sl.id 128 12) = some z → z.primary = t3.tableOwn (sl.id 128 12)) :
    exec (.scatter n) s = .next ((t3.outOfOrder (sl.id 128 12) y.seq).finish n .ok 0 0) := by
  have run : (do
      let _ ← takeOrder (sl.who n 2) y (sl.id 128 12) (← tableAt (sl.id 128 12)) (y.seq % 2 ^ 49) 0
      units (sl.who n 2) n (2 * y.scatterRows.length) (scatterStep (sl.who n 2) n y y.scatterRows)).go t1 = (.ok u, t3) := by
    rw [Eng.go_bind_ok _ _ _ _ _ (tableAt_go found), Eng.go_bind_ok _ _ _ _ _ placed, applied]
  unfold Slot.scatterRows at run
  show execScatter n s = _
  rw [execScatter, runSlot, runSlotIf_of_ready h rfl]
  simp only [Slot.run_who, Slot.run_id, Slot.run_marks]
  rw [if_pos (by simp [first]), Eng.go_bind_ok _ _ _ _ _ begins, Eng.go_bind_ok _ _ _ _ _ (Eng.go_getSlot n y t1 begun),
    if_pos (by simp [sound, Status.isOk, Status.code]), Eng.go_bind_ok _ _ _ _ _ (Eng.go_attempt_ok run)]
  dsimp only
  rw [Eng.go_bind_ok _ _ _ _ _ (leaveOrder_go home)]
  rfl

/-- 11 R309: an update older than the tag of its row is discarded and counted. -/
theorem applyRow_go_older {s t : State} {w : Who} {seq : Option Nat} {package r tag : Nat} {d : Desc} {x : Table} {ups : List Nat}
    (lastWriter : fld d 140 1 = 1) (read : (readNat w x.asid (x.tagVa r) 8).go s = (.ok tag, t)) (tagged : bitOf tag 63 = true)
    (older : fld d 320 48 < bitsOf tag 0 48 ∨ fld d 320 48 = bitsOf tag 0 48 ∧ package < bitsOf tag 48 6) :
    (applyRow w seq package d x r ups).go s = (.ok none, t.bump (dkey 0x8004 1) 1) := by
  rw [applyRow, if_neg (by simp [lastWriter]), Eng.go_bind_ok _ _ _ _ _ read]
  dsimp only
  rw [if_neg]
  · rfl
  · simp [tagged]
    omega

/-- Settles O34: the GATHER by its room at the gather units, then the SCATTER and the update that it discards. -/
theorem gathersAndScattersRun : Obligations.GathersAndScattersRun := by
  refine ⟨?_, ?_, ?_⟩
  · intro s t1 t2 n sl y z u w finishes first fresh begun served last
    refine ⟨?_, exec_gather_waits fresh, ?_⟩
    · rintro _ h room rfl begins
      exact exec_gather_served fresh room first begun served last h begins
    · intro _ held op waits room x rfl ready begins
      exact exec_gatherStart_served fresh room first begun served last held op waits ready begins
  · exact fun s t1 t2 t3 n v sl y x u => exec_scatter_applied
  · exact fun s t w seq package r tag d x ups => applyRow_go_older

end Sys2Proof.Machine
end

section

/-!
### Replacements, pins, and tables made and removed (11 R294 to R297, R311 to R316)

The commands on a table that this package alone holds, where their accesses succeed; and the events of its replacement and of a
pin.
-/

namespace Sys2Proof.Machine

open Sys2Proof

@[simp] theorem State.tableOwn_dispatch (s : State) (n id : Nat) (sl : Slot) :
    (s.dispatch n sl).tableOwn id = s.tableOwn id := by
  simp [State.tableOwn, State.ownId]

theorem State.val_setVal_other {s : State} {key j : Nat} (v : Nat) (other : j ≠ key) : (s.setVal key v).val j = s.val j := by
  simp only [State.setVal, State.val, SMap.putD, SMap.get]
  split
  · rw [SMap.look_del_other _ _ _ other]
  · rw [SMap.look_put_other _ _ _ _ other]

/-- A dispatch changes no value but the count of trace records that are lost. -/
theorem State.val_dispatch {s : State} {j : Nat} (n : Nat) (sl : Slot) (other : j ≠ dkey 0xB020 9) :
    (s.dispatch n sl).val j = s.val j := by
  have traced (s' : State) (k d p t b : Nat) : (s'.trace k d p t b).val j = s'.val j := by
    unfold State.trace
    split
    · dsimp only
      split
      · exact State.val_setVal_other _ other
      · rfl
    · rfl
  unfold State.dispatch
  dsimp only
  rw [traced]
  split
  · split <;> rfl
  · rfl

@[simp] theorem State.mirrorMeta_emb (s : State) (slot : Option Nat) : (s.mirrorMeta slot).emb = s.emb := by
  unfold State.mirrorMeta
  split
  · cases slot <;> rfl
  · rfl

@[simp] theorem State.tableOwn_mirrorMeta (s : State) (slot : Option Nat) (id : Nat) :
    (s.mirrorMeta slot).tableOwn id = s.tableOwn id := by
  unfold State.mirrorMeta
  split
  · cases slot <;> rfl
  · rfl

@[simp] theorem State.table?_mirrorMeta (s : State) (slot : Option Nat) (id : Nat) :
    (s.mirrorMeta slot).table? id = s.table? id := by
  simp [State.table?]

@[simp] theorem State.table?_setTable (s : State) (id : Nat) (x : Table) : (s.setTable id x).table? id = some x :=
  SMap.look_put_same ..

@[simp] theorem State.tableOwn_setTable (s : State) (id j : Nat) (x : Table) : (s.setTable id x).tableOwn j = s.tableOwn j := rfl

@[simp] theorem State.tableOwn_updTable (s : State) (id j : Nat) (f : Table → Table) :
    (s.updTable id f).tableOwn j = s.tableOwn j := rfl

/-! #### A table of one package -/

section
variable {x : Table} {p : Nat} (alone : x.members = [p])
include alone

theorem Table.primary_of_alone : x.primary = p := by
  rw [Table.primary, alone]
  rfl

/-- A table that one package holds has no members to ask. -/
theorem Table.others_of_alone : x.members.filter (· ≠ p) = [] := by
  simp [alone]

end

/-! #### Replacement (11 R311, R312) -/

/-- The replacement that a TABLE_REPLACE starts, at its first row (11 R312). -/
def Slot.replacement (sl : Slot) : Replace :=
  { slot := some sl.seq, first := sl.f 160 40, count := sl.f 208 40, srcVa := sl.f 256 57, asid := sl.asid
    cursor := sl.f 160 40, status := .ok }

/-- A table with a replacement that runs. -/
def Table.replacedBy (x : Table) (p : Replace) : Table := { x with replacing := some p }

theorem Slot.replacement_cursor (sl : Slot) : sl.replacement.cursor = sl.replacement.first := rfl

@[simp] theorem Table.replacedBy_replacing (x : Table) (p : Replace) : (x.replacedBy p).replacing = some p := rfl

theorem State.runReplace_ok {s t : State} {id : Nat} {e : Eng Unit} {u : Unit} (h : e.go s = (.ok u, t)) :
    s.runReplace id e = t := by
  rw [State.runReplace, h]

section
variable {s : State} {id : Nat} {x : Table} (found : s.table? id = some x) (alone : x.members = [s.tableOwn id])
include found alone

/-- 11 R311: TABLE_REPLACE joins the commands that run on its table, and waits for its place in the table order. -/
theorem exec_tableReplace_waits {n : Nat} {sl : Slot} (h : s.ready n 0x72 sl) (hid : sl.id 128 12 = id)
    (nonempty : 1 ≤ sl.f 208 40) (within : sl.f 160 40 + sl.f 208 40 ≤ x.rows) :
    exec (.tableReplace n) s = .next ((s.dispatch n sl).updTable id fun x =>
      if x.running.contains sl.seq then x else { x with running := x.running ++ [sl.seq] }) := by
  subst hid
  have found' : (s.dispatch n sl).table? (sl.id 128 12) = some x := by rwa [State.table?_dispatch]
  have primary := Table.primary_of_alone alone
  show execTableReplace n s = _
  rw [execTableReplace, runSlot, runSlotIf_of_ready h rfl]
  simp only [Slot.run_id, Slot.run_f, Slot.run_seq]
  rw [Eng.go_bind_ok _ _ _ _ _ (tableAt_go found'), Eng.go_needE_bind _ _ _ (by simp [nonempty, within]),
    joinTable, Eng.go_bind_ok _ _ _ _ _ (Eng.go_modify _ _), Eng.go_bind_ok _ _ _ _ _ (Eng.go_get _), State.tableOwn_updTable,
    State.tableOwn_dispatch, if_pos (by simp [primary])]
  rfl

/-- 11 R312: a replacement whose turn it is starts, and its rows are written. -/
theorem exec_replaceStart_writes {t : State} {sl : Slot} {u : Unit} (idle : x.replacing = none)
    (next : s.nextReplace id x = some sl) (clear : x.scatters = []) (unpinned : s.oldPin id x = false)
    (written : (replaceRows id (sl.f 208 40)).go ((s.setTable id (x.replacedBy sl.replacement)).mirrorMeta none) = (.ok u, t)) :
    exec (.replaceStart id) s = .next t := by
  have started : ((s.setTable id (x.replacedBy sl.replacement)).mirrorMeta none).table? id =
      some (x.replacedBy sl.replacement) := by simp
  have others := Table.others_of_alone (x := x.replacedBy sl.replacement) alone
  show execReplaceStart id s = _
  simp only [execReplaceStart, found, idle, next]
  rw [if_neg (by simp [clear, unpinned])]
  refine congrArg Host.Outcome.next (State.runReplace_ok (u := u) ?_)
  refine (Eng.go_bind_ok _ _ _ _ _ (tableAt_go started)).trans ?_
  refine (Eng.go_bind_ok _ _ _ _ _ (Eng.go_get _)).trans ?_
  simp only [Table.replacedBy_replacing]
  rw [Eng.go_needE_bind _ _ _ (by simp [Slot.replacement, Status.isOk, Status.code]), if_pos sl.replacement_cursor,
    State.tableOwn_mirrorMeta, State.tableOwn_setTable, others, tellMembers]
  exact written

/-- 11 R312: once its rows are written, the next version is current and the command completes with it. -/
theorem exec_replaceDone_advances {p : Replace} {k : Nat} {sl y : Slot} (running : x.replacing = some p)
    (slot : p.slot = some sl.seq) (written : p.first + p.count ≤ p.cursor) (live : s.live? sl.seq = some (k, y)) :
    exec (.replaceDone id) s = .next (((s.setTable id (x.advance p s.time)).mirrorMeta (some k)).finishSeq sl.seq p.status 0
      (x.version + 1)) := by
  have told : (tellMembers (p.who x id) sl.seq id 3 p.first p.count []).go s = (.ok (), s) := rfl
  show execReplaceDone id s = _
  simp only [execReplaceDone, found, running]
  rw [if_neg (by simp [written, slot]), Table.others_of_alone alone]
  simp only [slot, Option.getD_some, told, Option.bind_some, live, Option.map_some]

end

/-! #### Pins (11 R313 to R315) -/

section
variable {s : State} {n : Nat} {sl : Slot} {x : Table}

/-- The state with pins replaced, and its metadata mirrored for a command. -/
def State.withPins (s : State) (pins : SMap Pin) (n : Nat) : State :=
  ({ s with emb := { s.emb with pins } } : State).mirrorMeta (some n)

/-- 11 R313: TABLE_PIN takes the lowest free pin and pins the current version. -/
theorem exec_tablePin_pins (h : s.ready n 0x73 sl) (found : s.table? (sl.id 128 12) = some x) (shadow : x.shadowVa ≠ 0)
    (home : x.primary = s.tableOwn (sl.id 128 12)) {pin : Nat}
    (least : pin = leastFree (SMap.keys s.emb.pins) 4096 (pinSpace (sl.id 128 12)))
    (free : pin < pinSpace (sl.id 128 12) + 4096) :
    exec (.tablePin n) s = .next (((s.dispatch n sl).withPins (SMap.put (s.dispatch n sl).emb.pins pin
      { table := sl.id 128 12, tenant := x.tenant, version := x.version, stale := false }) n).finish n .ok x.version
        (pin % 65536)) := by
  subst least
  have found' : (s.dispatch n sl).table? (sl.id 128 12) = some x := by rwa [State.table?_dispatch]
  show execTablePin n s = _
  rw [execTablePin, runSlot, runSlotIf_of_ready h rfl]
  simp only [Slot.run_id]
  rw [Eng.go_bind_ok _ _ _ _ _ (tableAt_go found'), Eng.go_needE_bind _ _ _ (by simp [shadow]),
    Eng.go_bind_ok _ _ _ _ _ (Eng.go_get _), State.dispatch_emb, Eng.go_needE_bind _ _ _ (by simp [free]),
    if_pos (by simp [home]), ← State.dispatch_emb s n sl]
  rfl

/-- 11 R314: TABLE_UNPIN frees a pin of its tenant, and says whether it was stale. -/
theorem exec_tableUnpin_frees {p : Pin} (h : s.ready n 0x74 sl) (held : SMap.look s.emb.pins (sl.id 160 16) = some p)
    (own : p.tenant = sl.tenant) (found : s.table? p.table = some x) (home : x.primary = s.tableOwn p.table) :
    exec (.tableUnpin n) s = .next (((s.dispatch n sl).withPins (SMap.del (s.dispatch n sl).emb.pins (sl.id 160 16)) n).finish n
      (if p.stale then .okStalePin else .ok) 0 0) := by
  show execTableUnpin n s = _
  rw [execTableUnpin, runSlot, runSlotIf_of_ready h rfl, Eng.go_bind_ok _ _ _ _ _ (Eng.go_get _)]
  simp only [Slot.run_id, Slot.run_tenant, State.dispatch_emb, held, State.table?_dispatch, found]
  rw [Eng.go_needE_bind _ _ _ (by simp [own]), if_pos (by simp [home]), ← State.dispatch_emb s n sl]
  rfl

/-- 11 R313, R315: a pin turns stale once the retention time of its version has passed and no GATHER runs under it. -/
theorem exec_pinStale_expires {pin : Nat} {p : Pin} (held : SMap.look s.emb.pins pin = some p) (found : s.table? p.table = some x)
    (fresh : p.stale = false) (old : p.version < x.version) (passed : x.doneTime + s.retain x ≤ s.time)
    (unused : s.pinInUse pin = false) (home : x.primary = s.tableOwn p.table) :
    exec (.pinStale pin) s = .next
      (({ s with emb := { s.emb with pins := SMap.put s.emb.pins pin { p with stale := true } } } : State).bump
        (dkey 0x8005 1) 1) := by
  show execPinStale pin s = _
  simp only [execPinStale, held, found]
  rw [if_neg (by simp [fresh, old, passed, unused]), State.dropHold]
  exact congrArg Host.Outcome.next (if_pos home)

end

/-! #### TABLE_CONFIG (11 R294 to R297) -/

section
variable {s : State} {n : Nat} {sl : Slot}

theorem createHere_go {x : Table} {a : Asid} {id asid : Nat}
    (made : x = Table.fresh x.tenant asid x.desc (s.val (dkey 0x8001 0))) (unused : s.table? id = none)
    (member : bitOf (x.f 320 64) (s.tableOwn id) = true) (ha : s.asid? asid = some a) (own : a.tenant = x.tenant) :
    (createHere x.tenant id asid x.desc).go s = (.ok (), (s.setTable id x).mirrorMeta none) := by
  rw [createHere, Eng.go_bind_ok _ _ _ _ _ (Eng.go_get _), ← made, Eng.go_needE_bind _ _ _ (by simp [unused, member]),
    Eng.go_needE_bind _ _ _ (by simp [ha, own])]
  rfl

theorem Slot.f_congr {y : Slot} (desc : y.desc = sl.desc) (lo w : Nat) : y.f lo w = sl.f lo w := by
  rw [Slot.f, desc]
  rfl

theorem Slot.id_congr {y : Slot} (desc : y.desc = sl.desc) (ring : y.ring = sl.ring) (lo w : Nat) : y.id lo w = sl.id lo w := by
  rw [Slot.id, desc, ring]
  rfl

/-- 11 R294 to R297: a descriptor that passes its checks makes a table of this package alone. -/
theorem exec_tableCreate_made {a : Asid} {bs : List Byte} {t t2 : State} {x : Table} {y : Slot} (h : s.ready n 0x75 sl)
    (op : sl.f 140 2 = 0) (first : sl.marks = []) (aligned : sl.f 192 57 % 64 = 0) (unused : s.table? (sl.id 128 12) = none)
    (ha : s.asid? (sl.id 160 16) = some a)
    (read : (readVa (sl.who n 2) sl.asid (sl.f 192 57) 64).go (s.dispatch n sl) = (.ok bs, t))
    (crc : crc32c (bs.take 60) = leNat (bs.drop 60)) (limit : t.val (dkey 0x8001 0) = s.val (dkey 0x8001 0))
    (made : x = Table.fresh a.tenant (sl.id 160 16) (BitVec.ofNat 512 (leNat bs)) (s.val (dkey 0x8001 0)))
    (kept : t2 = t.keeping (sl.who n 2) n [leNat bs, a.tenant]) (held : t2.slot? n = some y) (desc : y.desc = sl.desc)
    (ring : y.ring = sl.ring) (sound : y.status = .ok) (marks : y.marks = [leNat bs, a.tenant]) (wf : x.ok = true)
    (alone : x.members = [s.tableOwn (sl.id 128 12)]) (own : t2.tableOwn (sl.id 128 12) = s.tableOwn (sl.id 128 12))
    (unused' : t2.table? (sl.id 128 12) = none) (ha' : t2.asid? (sl.id 160 16) = some a)
    (member : bitOf (x.f 320 64) (s.tableOwn (sl.id 128 12)) = true) (init : sl.f 142 1 = 0) :
    exec (.tableCreate n) s = .next (((t2.setTable (sl.id 128 12) x).mirrorMeta none).finish n .ok 0 0) := by
  have limit' : (s.dispatch n sl).val (dkey 0x8001 0) = s.val (dkey 0x8001 0) := State.val_dispatch n sl (by decide)
  have limit2 : t2.val (dkey 0x8001 0) = s.val (dkey 0x8001 0) := by rw [kept]; exact limit
  have created := createHere_go (s := t2) (x := x) (id := sl.id 128 12) (asid := sl.id 160 16)
    (by rw [made, limit2]; rfl) unused' (by rwa [own]) ha' (by rw [made]; rfl)
  show execTableCreate n s = _
  rw [execTableCreate, runSlotIf_of_ready h (by simp [op])]
  simp only [Slot.run_who, Slot.run_asid, Slot.run_f, Slot.run_id, Slot.run_marks, Slot.run_tenant]
  rw [if_pos (by simp [first]), Eng.go_bind_ok _ _ _ _ _ (Eng.go_get _),
    Eng.go_needE_bind _ _ _ (by simp [aligned, unused]), Eng.go_bind_ok _ _ _ _ _ read, Eng.go_needE_bind _ _ _ (by simp [crc])]
  simp only [State.asid?_dispatch, ha, Option.map_some, Option.getD_some, limit', ← made, State.tableOwn_dispatch]
  rw [Eng.go_needE_bind _ _ _ (by simp [wf, member, init])]
  refine (congrArg (fun r => Host.Outcome.next (endSlot n r)) (keepMarks_go t (sl.who n 2) n [leNat bs, a.tenant] _)).trans ?_
  rw [← kept, Eng.go_bind_ok _ _ _ _ _ (Eng.go_getSlot n y t2 held), Eng.go_bind_ok _ _ _ _ _ (Eng.go_get _),
    if_pos (by simp [sound, Status.isOk, Status.code])]
  simp only [Slot.id_congr desc ring, Slot.f_congr desc, marks, List.getD_cons_zero, List.getD_cons_succ, limit2, ← made]
  rw [own, Table.others_of_alone alone, if_neg (by simp [init]), askMembers, pure_bind,
    Eng.go_bind_ok _ _ _ _ _ (Eng.go_attempt_ok created)]
  rfl

/-- 11 R297: a table that no command runs on is removed with its pins. -/
theorem exec_tableDestroy_idle {x : Table} (h : s.ready n 0x75 sl) (op : sl.f 140 2 = 1)
    (found : s.table? (sl.id 128 12) = some x) (idle : x.running = []) (alone : x.members = [s.tableOwn (sl.id 128 12)]) :
    exec (.tableDestroy n) s = .next (((s.dispatch n sl).dropTable (sl.id 128 12)).finish n .ok 0 0) := by
  have found' : (s.dispatch n sl).table? (sl.id 128 12) = some x := by rwa [State.table?_dispatch]
  show execTableDestroy n s = _
  rw [execTableDestroy, runSlotIf_of_ready h (by simp [op])]
  simp only [Slot.run_id]
  rw [Eng.go_bind_ok _ _ _ _ _ (tableAt_go found'), Eng.go_bind_ok _ _ _ _ _ (Eng.go_get _),
    Eng.go_holdE_bind _ _ (by simp [idle]), State.tableOwn_dispatch, Table.others_of_alone alone, askMembers]
  rfl

end

/-- Settles O35: the steps of a replacement in turn, then the life of a pin, and then that of a table. -/
theorem tablesVersionsAndPins : Obligations.TablesVersionsAndPins := by
  refine ⟨?_, fun s n sl x => ⟨?_, ?_, ?_⟩, fun s n sl y => ⟨?_, ?_⟩⟩
  · intro s n id sl x found alone
    refine ⟨exec_tableReplace_waits found alone, ?_, ?_⟩
    · exact fun t u => exec_replaceStart_writes found alone
    · exact fun p k y => exec_replaceDone_advances found alone
  · exact fun h found shadow home free => exec_tablePin_pins h found shadow home rfl free
  · exact fun p => exec_tableUnpin_frees
  · exact fun pin p => exec_pinStale_expires
  · intro a bs t h op first _ aligned unused ha read crc limit x t2 held desc ring sound marks wf alone own unused' ha'
      member init
    exact ⟨exec_tableCreate_made h op first aligned unused ha read crc limit rfl rfl held desc ring sound marks wf alone own
      unused' ha' member init, rfl, rfl, rfl⟩
  · exact fun x => exec_tableDestroy_idle

end Sys2Proof.Machine
end

section

/-!
### Commands that store nothing (12 R329, 14 R401, 15 R422, 17 R453)
-/

namespace Sys2Proof.Machine

open Sys2Proof

/-- A command whose outcome keeps every property of the store leaves the store as it was. -/
theorem mem_eq_of_outKeeps {s t : State} {o : Out} (kept : ∀ R : SMap Byte → Prop, R s.mem → OutKeeps R o) (next : o = .next t) :
    t.mem = s.mem :=
  State.mem_eq_of_keeps fun R hs => (kept R hs).next t next

/-- Settles O4: each of the commands keeps every property of the store (`outKeeps_execF`), so the store itself. -/
theorem commandsThatStoreNothingKeepTheStore : Obligations.CommandsThatStoreNothingKeepTheStore := by
  intro s t n m a k v h key port arrivals x y pins rel
  exact
    -- the ports and packets of the fabric (chapter 12), and the heartbeat of the twin
    ⟨mem_eq_of_outKeeps fun _ => outKeeps_execPortTraining, mem_eq_of_outKeeps fun _ => outKeeps_execTrainingRetry,
     mem_eq_of_outKeeps fun _ => outKeeps_execTrainingTimeout, mem_eq_of_outKeeps fun _ => outKeeps_execRetrainRequest,
     mem_eq_of_outKeeps fun _ => outKeeps_execLockLost, mem_eq_of_outKeeps fun _ => outKeeps_execEnterLowRate,
     mem_eq_of_outKeeps fun _ => outKeeps_execExitLowRate, mem_eq_of_outKeeps fun _ => outKeeps_execLinkCtlResend,
     mem_eq_of_outKeeps fun _ => outKeeps_execNak, mem_eq_of_outKeeps fun _ => outKeeps_execRekey,
     mem_eq_of_outKeeps fun _ => outKeeps_execRekeySend, mem_eq_of_outKeeps fun _ => outKeeps_execCablePresent,
     mem_eq_of_outKeeps fun _ => outKeeps_execJoin, mem_eq_of_outKeeps fun _ => outKeeps_execAssignId,
     mem_eq_of_outKeeps fun _ => outKeeps_execLinkKey, mem_eq_of_outKeeps fun _ => outKeeps_execRestore,
     mem_eq_of_outKeeps fun _ => outKeeps_execStoredResponseExpiry, mem_eq_of_outKeeps fun _ => outKeeps_execNoticeAck,
     mem_eq_of_outKeeps fun _ => outKeeps_execHeartbeatSend,
    -- the scheduler and its tables (chapter 14)
     mem_eq_of_outKeeps fun _ => outKeeps_execPortArbitration, mem_eq_of_outKeeps fun _ => outKeeps_execQueueSample,
     mem_eq_of_outKeeps fun _ => outKeeps_execTenantTable, mem_eq_of_outKeeps fun _ => outKeeps_execLimitTable,
     mem_eq_of_outKeeps fun _ => outKeeps_execSchedStatsClear,
    -- the debug port (chapter 15)
     mem_eq_of_outKeeps fun _ => outKeeps_execArm, mem_eq_of_outKeeps fun _ => outKeeps_execDisarm,
     mem_eq_of_outKeeps fun _ => outKeeps_execCoreDebugHalt, mem_eq_of_outKeeps fun _ => outKeeps_execCoreDebugStep,
     mem_eq_of_outKeeps fun _ => outKeeps_execResume, mem_eq_of_outKeeps fun _ => outKeeps_execReadReg,
     mem_eq_of_outKeeps fun _ => outKeeps_execWriteReg, mem_eq_of_outKeeps fun _ => outKeeps_execReadSpad,
     mem_eq_of_outKeeps fun _ => outKeeps_execStatus,
    -- keys and measurements (chapter 16), supply and power states (chapters 17 and 19)
     mem_eq_of_outKeeps fun _ => outKeeps_execKeyRevoke, mem_eq_of_outKeeps fun _ => outKeeps_execMrExtend,
     mem_eq_of_outKeeps fun _ => outKeeps_execInputPowerUp, mem_eq_of_outKeeps fun _ => outKeeps_execRailTimeout,
     mem_eq_of_outKeeps fun _ => outKeeps_execPowerGood, mem_eq_of_outKeeps fun _ => outKeeps_execRefclkLoss,
     mem_eq_of_outKeeps fun _ => outKeeps_execModuleLoss, mem_eq_of_outKeeps fun _ => outKeeps_execDrowsyIdleExpiry,
     mem_eq_of_outKeeps fun _ => outKeeps_execPowerStateEntry,
    -- known-answer tests, credits of a channel, and frames that stay incomplete (chapters 13, 8 and 18)
     mem_eq_of_outKeeps fun _ => outKeeps_execKatPeriod, mem_eq_of_outKeeps fun _ => outKeeps_execKatDone,
     mem_eq_of_outKeeps fun _ => outKeeps_execCreditReturn, mem_eq_of_outKeeps fun _ => outKeeps_execReassemblyTimeout⟩

end Sys2Proof.Machine
end

section

/-!
### The ports of the fabric (12 R321 to R328, R352)

How training, keys, flits and replay move a port. The layer of laws comes first: what a port reads after a change of a port, and that
the packets that wait at a port leave its state as it is.
-/

namespace Sys2Proof.Machine

open Sys2Proof

/-! #### The ports of the state -/

@[simp] theorem State.port_setPort (s : State) (n : Nat) (p : Port) : (s.setPort n p).port n = p := SMap.get_put_same ..

theorem State.port_setPort_other {s : State} {n m : Nat} (p : Port) (other : m ≠ n) : (s.setPort n p).port m = s.port m :=
  SMap.get_put_other _ _ _ _ _ other

@[simp] theorem State.setPort_setPort (s : State) (n : Nat) (p q : Port) : (s.setPort n p).setPort n q = s.setPort n q := by
  simp [State.setPort]

@[simp] theorem State.updPort_setPort (s : State) (n : Nat) (p : Port) (f : Port → Port) :
    (s.setPort n p).updPort n f = s.setPort n (f p) := by
  simp [State.updPort]

@[simp] theorem State.port_updPort (s : State) (n : Nat) (f : Port → Port) : (s.updPort n f).port n = f (s.port n) :=
  State.port_setPort ..

theorem State.port_of_fab {s t : State} (kept : t.fab = s.fab) (n : Nat) : t.port n = s.port n := by rw [State.port, kept]; rfl

@[simp] theorem State.retrain_setPort (s : State) (n : Nat) (p : Port) :
    (s.setPort n p).retrain n = s.setPort n { p.rekey with state := .retrain, nakCount := 0 } := by
  simp [State.retrain]

/-- A change of port `n` that keeps its state keeps the state of every port. -/
theorem State.updPort_port_state {s : State} {n : Nat} {f : Port → Port} (kept : (f (s.port n)).state = (s.port n).state) (m : Nat) :
    ((s.updPort n f).port m).state = (s.port m).state := by
  rcases eq_or_ne m n with rfl | other
  · rw [State.port_updPort, kept]
  · rw [State.updPort, State.port_setPort_other _ other]

/-! #### Events and work that is counted -/

@[simp] theorem State.fmEvent_outbox (s : State) (code id port detail : Nat) :
    (s.fmEvent code id port detail).fab.outbox = s.fab.outbox := by
  rw [State.fmEvent]; split <;> rfl

@[simp] theorem State.fmEvent_composed (s : State) (code id port detail : Nat) :
    (s.fmEvent code id port detail).fab.composed = s.fab.composed := by
  rw [State.fmEvent]; split <;> rfl

@[simp] theorem State.fmEvent_composeAsked (s : State) (code id port detail : Nat) :
    (s.fmEvent code id port detail).fab.composeAsked = s.fab.composeAsked := by
  rw [State.fmEvent]; split <;> rfl

@[simp] theorem State.countWork_fab (s : State) (tenant : Nat) (seq : Option Nat) (type col n : Nat) :
    (s.countWork tenant seq type col n).fab = s.fab := by
  rw [State.countWork]
  split
  · rfl
  · cases seq <;> rfl

/-! #### The packets that wait at a port -/

/-- With no packet that waits, nothing is sent. -/
theorem State.pump_of_empty {s : State} (empty : s.fab.outbox = []) : s.pump s.fab.outbox [] = s := by
  rw [empty, State.pump, ← empty]

theorem State.pump_port_state (todo kept : List Packet) (s : State) (m : Nat) :
    ((s.pump todo kept).port m).state = (s.port m).state := by
  induction todo generalizing s kept with
  | nil => rfl
  | cons k rest ih =>
    rw [State.pump]
    simp only
    split
    · refine (ih _ _).trans (Eq.trans ?_ (State.updPort_port_state (f := (·.send k)) (n := k.port) rfl m))
      exact congrArg Port.state (State.port_of_fab (by split <;> split <;> simp) m)
    · exact ih _ _

theorem State.route_port_state {s t : State} {h : Head} {payload : List Byte} (sent : s.route h payload = some t) (m : Nat) :
    (t.port m).state = (s.port m).state := by
  rw [State.route] at sent
  split at sent
  · cases sent; rfl
  · split at sent
    · cases sent; exact State.pump_port_state _ _ s m
    · cases sent

theorem State.rerouteFrom_port_state (s : State) (n m : Nat) : ((s.rerouteFrom n).port m).state = (s.port m).state := by
  rw [State.rerouteFrom]
  refine List.foldlRecOn (motive := fun t : State => (t.port m).state = (s.port m).state) _ _ rfl fun t kept k _ => ?_
  simp only
  split
  · exact (State.route_port_state ‹_› m).trans kept
  · split
    · exact kept
    · exact kept

theorem State.portDown_port_state (s : State) (n : Nat) : ((s.portDown n).port n).state = .down := by
  rw [State.portDown, State.rerouteFrom_port_state, State.port_updPort]

/-! #### Training (12 R321, R350) -/

section
variable {s : State} {n : Nat}

/-- An enabled DOWN port with a cable trains, unless an authentication failure holds it DOWN. -/
theorem State.beginTraining_enabled (fitted : n < s.fabricPorts) (enabled : s.portsEnabled = true) (down : (s.port n).state = .down)
    (cable : (s.port n).cable = true) (sound : (s.port n).authFailed = false) :
    s.beginTraining n = s.setPort n { s.port n with state := .training } := by
  simp [State.beginTraining, fitted, enabled, down, cable, sound]

theorem State.beginTraining_authFailed (failed : (s.port n).authFailed = true) : s.beginTraining n = s := by
  simp [State.beginTraining, failed]

theorem laneCount_eq (working : List Nat) : laneCount working = ((List.range 4).filter fun i => i ∈ working).length := by
  simp [laneCount]

theorem laneCount_all {working : List Nat} (all : ∀ i < 4, i ∈ working) : laneCount working = 4 := by
  rw [laneCount_eq, List.filter_eq_self.2 (by simpa using all), List.length_range]

theorem laneCount_first {working : List Nat} (first : 0 ∈ working) (only : ∀ i, 0 < i → i < 4 → i ∉ working) :
    laneCount working = 1 := by
  have lanes : List.range 4 = [0, 1, 2, 3] := rfl
  simp [laneCount_eq, lanes, first, only]

theorem widest_eq {k w : Nat} (wide : 4 ≤ k ∧ w = 4 ∨ 2 ≤ k ∧ k < 4 ∧ w = 2 ∨ k = 1 ∧ w = 1) : widest k = w := by
  rw [widest]
  split_ifs <;> omega

/-- A port that has trained to `w` lanes: it waits for its key, and names the one that it holds. -/
def Port.trained (p : Port) (w : Nat) : Port :=
  let q : Port := { p with state := .keyWait, lanes := w }
  if p.key.isSome then q.control 0x01 else q

/-- The package asks the fabric manager to compose it (12 R350). -/
def State.askCompose (s : State) (n : Nat) : State :=
  ({ s with fab := { s.fab with composeAsked := true } } : State).fmEvent 0x06 (s.fab.id % 64) n 0

/-- The state after a port has trained to `w` lanes. -/
def State.trainedTo (s : State) (n w : Nat) : State := (s.setPort n ((s.port n).trained w)).laneEvent n w

theorem State.trainedTo_keyless {s : State} {n : Nat} (w : Nat) (keyless : (s.port n).key = none) :
    s.trainedTo n w = (s.setPort n { s.port n with state := .keyWait, lanes := w }).laneEvent n w := by
  simp [State.trainedTo, Port.trained, keyless]

theorem State.trainedTo_composed (s : State) (n w : Nat) : (s.trainedTo n w).fab.composed = s.fab.composed := by
  rw [State.trainedTo, State.laneEvent]; split <;> simp [State.setPort]

theorem State.trainedTo_composeAsked (s : State) (n w : Nat) : (s.trainedTo n w).fab.composeAsked = s.fab.composeAsked := by
  rw [State.trainedTo, State.laneEvent]; split <;> simp [State.setPort]

theorem exec_trainingDone_trained {working : List Nat} {w : Nat} (training : (s.port n).state = .training)
    (wide : widest (laneCount working) = w) (trains : w ≠ 0) :
    exec (.trainingDone n working) s = .next
      (if s.fab.composed = true ∨ s.fab.composeAsked = true then s.trainedTo n w else (s.trainedTo n w).askCompose n) := by
  have asks : exec (.trainingDone n working) s = .next
      (if !(s.trainedTo n w).fab.composed && !(s.trainedTo n w).fab.composeAsked then (s.trainedTo n w).askCompose n
      else s.trainedTo n w) := by
    show execTrainingDone n working s = _
    simp only [execTrainingDone, wide, if_neg trains, training]
    rfl
  rw [asks, State.trainedTo_composed, State.trainedTo_composeAsked]
  cases s.fab.composed <;> cases s.fab.composeAsked <;> rfl

theorem exec_trainingDone_none {working : List Nat} (dark : laneCount working = 0) :
    exec (.trainingDone n working) s = .next s := by
  show execTrainingDone n working s = _
  simp [execTrainingDone, dark, widest]

theorem exec_trainingTimeout_training (training : (s.port n).state = .training) :
    exec (.trainingTimeout n) s = .next (s.setPort n { s.port n with state := .down, lanes := 0 }) := by
  show execTrainingTimeout n s = _
  rw [execTrainingTimeout, if_pos training, State.updPort]

/-! #### Link-up, retrain and the low rate (12 Table 12-6, R352) -/

theorem exec_keyCheck_up {k : BitVec 8} (waits : (s.port n).state = .keyWait) (keyed : (s.port n).key.isSome = true)
    (same : (s.port n).keyId = k.toNat) (empty : s.fab.outbox = []) :
    exec (.keyCheck n k) s = .next ((s.setPort n { s.port n with
      state := .up, controls := (s.port n).controls.filter (· ≠ 0x01), txIndex := (s.port n).txIndex + 1
      credits := (List.range 16).map fun i => (i, poolCredits i) }).fmEvent 0x01 0 n (s.port n).lanes) := by
  show execKeyCheck n k s = _
  rw [execKeyCheck, State.keyCheck, if_pos (by simp [waits, keyed, same])]
  exact congrArg Host.Outcome.next (State.pump_of_empty (by rw [State.fmEvent_outbox]; exact empty))

theorem exec_lockLost_up (up : (s.port n).state = .up) :
    exec (.lockLost n) s = .next (s.setPort n { (s.port n).rekey with state := .retrain, nakCount := 0 }) := by
  show execLockLost n s = _
  rw [execLockLost, if_pos up, State.retrain, State.updPort]

theorem exec_retrainRequest_up (up : (s.port n).state = .up) :
    exec (.retrainRequest n) s = .next (s.setPort n
      { ({ s.port n with controls := (s.port n).controls.filter (· ≠ 0x04), txIndex := (s.port n).txIndex + 1 } : Port).rekey with
        state := .retrain, nakCount := 0 }) := by
  show execRetrainRequest n s = _
  rw [execRetrainRequest, if_pos up, State.updPort, State.retrain_setPort]

theorem exec_enterLowRate_up (up : (s.port n).state = .up) :
    exec (.enterLowRate n) s = .next (s.setPort n { s.port n with
      state := .lowRate, lanes := 1, controls := (s.port n).controls.filter (· ≠ 0x02), txIndex := (s.port n).txIndex + 1 }) := by
  show execEnterLowRate n s = _
  rw [execEnterLowRate, State.enterLow, if_pos up, State.updPort]

theorem exec_exitLowRate_low (low : (s.port n).state = .lowRate) :
    exec (.exitLowRate n) s = .next (s.setPort n
      { ({ s.port n with txIndex := (s.port n).txIndex + 1, controls := (s.port n).controls.filter (· ≠ 0x03) } : Port).rekey with
        state := .retrain, nakCount := 0 }) := by
  show execExitLowRate n s = _
  rw [execExitLowRate, State.exitLow, if_pos low, State.updPort, State.retrain_setPort]

theorem exec_retrainTimeout_retries (retrains : (s.port n).state = .retrain)
    (more : (s.port n).retrainFails + 1 < s.val (dkey 0x5034 2)) :
    exec (.retrainTimeout n) s = .next (s.setPort n { s.port n with retrainFails := (s.port n).retrainFails + 1 }) := by
  show execRetrainTimeout n s = _
  simp [execRetrainTimeout, retrains, Nat.not_le.2 more]

theorem exec_retrainTimeout_down (retrains : (s.port n).state = .retrain)
    (last : s.val (dkey 0x5034 2) ≤ (s.port n).retrainFails + 1) :
    exec (.retrainTimeout n) s = .next ((s.portDown n).fmEvent 0x02 0 n 0) := by
  show execRetrainTimeout n s = _
  simp [execRetrainTimeout, retrains, last, State.linkDown]

theorem exec_cablePresent_fitted {mw : Nat} (fitted : n < s.fabricPorts) :
    exec (.cablePresent n mw) s = .next (s.setPort n { s.port n with cable := mw ≤ 2500 }) := by
  show execCablePresent n mw s = _
  rw [execCablePresent, if_pos fitted, State.updPort]

end

/-- Settles O36: the events of a port, in the order of its states. -/
theorem portsTrainComeUpAndRetrain : Obligations.PortsTrainComeUpAndRetrain := by
  intro s n
  refine ⟨?_, ?_, ?_, exec_trainingTimeout_training, fun k => exec_keyCheck_up, ?_, exec_exitLowRate_low, ?_,
    fun mw => exec_cablePresent_fitted, rfl⟩
  · intro fitted enabled down cable sound
    have trains := State.beginTraining_enabled fitted enabled down cable sound
    exact ⟨congrArg Host.Outcome.next trains, congrArg Host.Outcome.next trains⟩
  · intro working training all keyless composed
    rw [exec_trainingDone_trained training (w := 4) (by rw [laneCount_all all]; rfl) (by decide), if_pos (.inl composed),
      State.trainedTo_keyless _ keyless]
    rfl
  · intro working training first only keyless composed asked
    rw [exec_trainingDone_trained training (w := 1) (by rw [laneCount_first first only]; rfl) (by decide),
      if_neg (by simp [composed, asked]), State.trainedTo_keyless _ keyless]
    rfl
  · exact fun up => ⟨exec_lockLost_up up, exec_retrainRequest_up up, exec_enterLowRate_up up⟩
  · exact fun retrains => ⟨exec_retrainTimeout_retries retrains,
      fun last => ⟨exec_retrainTimeout_down retrains last, State.portDown_port_state s n⟩⟩

/-- Settles O37: the width is `widest` of the count of lanes that train. -/
theorem trainingTakesTheWidestWidth : Obligations.TrainingTakesTheWidestWidth := by
  intro s n working p k training
  have lanes : laneCount working = k := laneCount_eq working
  refine ⟨fun dark => ⟨exec_trainingDone_none (lanes.trans dark), exec_trainingTimeout_training training⟩, fun w wide => ?_⟩
  have trains : w ≠ 0 := by omega
  exact exec_trainingDone_trained training (by rw [lanes, widest_eq wide]) trains

/-! #### Flits that arrive (12 R323 to R328) -/

theorem Port.not_keyWait_of_live {p : Port} (live : p.live = true) : p.state ≠ .keyWait := by
  intro waits
  simp [Port.live, waits] at live

/-- A port at which a flit has arrived: the flit counts on the receiving side. -/
def Port.received (p : Port) : Port := { p with rxIndex := p.rxIndex + 1 }

/-- A port that has taken the credits that a flit returns. -/
def Port.credited (p : Port) (f : LinkFlit) : Port := p.received.takeCredits (fld f.header 32 4) (fld f.header 36 12)

section
variable {s : State} {n : Nat} {f : LinkFlit} (live : (s.port n).live = true)
include live

theorem exec_flitReceive_badCrc (bad : f.crcOk = false) :
    exec (.flitReceive n f) s = .next (s.setPort n
      { (s.port n).received with crcErrors := (s.port n).crcErrors + 1, awaitReplay := true }) := by
  have noKeyWait := Port.not_keyWait_of_live live
  show execFlitReceive n f s = _
  simp [execFlitReceive, noKeyWait, live, bad, Port.received]

theorem exec_flitReceive_badTag (whole : f.crcOk = true)
    (bad : f.tagOk = false ∨ fld f.header 64 8 ≠ (s.port n).keyCount % 256) :
    exec (.flitReceive n f) s = .next ((s.setPort n (s.port n).received).authFail n) := by
  have noKeyWait := Port.not_keyWait_of_live live
  show execFlitReceive n f s = _
  simp [execFlitReceive, noKeyWait, live, whole, bad, Port.received]

/-- A DATA flit that neither acknowledges nor asks for a replay, where no packet waits for its credits. -/
theorem exec_flitReceive_data (whole : f.crcOk = true) (tagged : f.tagOk = true)
    (epoch : fld f.header 64 8 = (s.port n).keyCount % 256) (plain : fld f.header 24 2 = 0) (data : fld f.header 26 3 = 0)
    (empty : s.fab.outbox = []) :
    exec (.flitReceive n f) s = .next
      (if fld f.header 0 12 = (s.port n).expectSeq then (s.setPort n ((s.port n).credited f)).takeData n f.header f.payload
      else s.setPort n { (s.port n).credited f with awaitReplay := true }) := by
  have noKeyWait := Port.not_keyWait_of_live live
  have nothingSent : (s.setPort n ((s.port n).credited f)).pump (s.setPort n ((s.port n).credited f)).fab.outbox [] =
      s.setPort n ((s.port n).credited f) := State.pump_of_empty empty
  have credited : ({ s.port n with rxIndex := (s.port n).rxIndex + 1 } : Port).takeCredits (fld f.header 32 4)
      (fld f.header 36 12) = (s.port n).credited f := rfl
  have expects : ((s.port n).credited f).expectSeq = (s.port n).expectSeq := rfl
  show execFlitReceive n f s = _
  simp [execFlitReceive, noKeyWait, live, whole, tagged, epoch, plain, data, credited, nothingSent, expects]

/-! #### Replay and rekey (12 R324 to R326) -/

theorem exec_nak_replays {a : BitVec 12} (fresh : (s.port n).nakSeq ≠ a.toNat) (more : 1 < s.val (dkey 0x5034 1)) :
    let left := ackedUpTo (s.port n).replay a.toNat
    exec (.nak n a) s = .next (s.setPort n
      { s.port n with
        replay := left.map (resealed (s.port n).keyCount), nakSeq := a.toNat, nakCount := 1
        replays := (s.port n).replays + left.length, txIndex := (s.port n).txIndex + left.length
        flitsSinceKey := (s.port n).flitsSinceKey + left.length }) := by
  show execNak n a s = _
  simp [execNak, State.nak, live, fresh, Nat.not_le.2 more]

theorem exec_nak_retrains {a : BitVec 12} (again : (s.port n).nakSeq = a.toNat)
    (last : s.val (dkey 0x5034 1) ≤ (s.port n).nakCount + 1) (up : (s.port n).state = .up) :
    exec (.nak n a) s = .next (s.setPort n
      { ({ s.port n with
          replay := ackedUpTo (s.port n).replay a.toNat, nakSeq := a.toNat, nakCount := 0 } : Port).rekey with
        state := .retrain, nakCount := 0 }) := by
  show execNak n a s = _
  simp [execNak, State.nak, live, again, last, up]

theorem exec_rekey_expected {q : BitVec 12} (expected : (s.port n).expectSeq = q.toNat) :
    exec (.rekey n q) s = .next (s.setPort n (s.port n).takeSeq.rekey) := by
  show execRekey n q s = _
  simp [execRekey, State.takeRekey, live, expected]

theorem exec_rekeySend_due (due : s.val (dkey 0x5034 0) ≤ (s.port n).flitsSinceKey) (room : (s.port n).replay.length < 512) :
    exec (.rekeySend n) s = .next (s.setPort n (s.port n).sendRekey) := by
  show execRekeySend n s = _
  simp [execRekeySend, live, due, room]

end

/-- Settles O39: a flit that arrives, the acknowledgement of flits sent, and the advance of the key. -/
theorem flitsAreCheckedReplayedAndRekeyed : Obligations.FlitsAreCheckedReplayedAndRekeyed := by
  intro s n f p t live
  refine ⟨exec_flitReceive_badCrc live, exec_flitReceive_badTag live, ?_,
    fun a => ⟨exec_nak_replays live, exec_nak_retrains live⟩, fun q => exec_rekey_expected live, exec_rekeySend_due live⟩
  intro whole tagged epoch plain data empty
  have arrives := exec_flitReceive_data live whole tagged epoch plain data empty
  exact ⟨fun other => by rw [arrives, if_neg other]; rfl, fun next => by rw [arrives, if_pos next]; rfl⟩

/-! #### Ports that an authentication failure has taken DOWN (12 R327) -/

section
variable {s : State} {n : Nat}

/-- Nothing that arrives at a DOWN port which awaits a new key changes the state. -/
theorem exec_portEvents_of_authFailed (down : (s.port n).state = .down) (failed : (s.port n).authFailed = true) (f : LinkFlit)
    (working : List Nat) (id : BitVec 8) (a q : BitVec 12) :
    exec (.portTraining n) s = .next s ∧ exec (.trainingRetry n) s = .next s ∧ exec (.trainingDone n working) s = .next s ∧
    exec (.keyCheck n id) s = .next s ∧ exec (.flitReceive n f) s = .next s ∧ exec (.retrainRequest n) s = .next s ∧
    exec (.lockLost n) s = .next s ∧ exec (.enterLowRate n) s = .next s ∧ exec (.exitLowRate n) s = .next s ∧
    exec (.retrainTimeout n) s = .next s ∧ exec (.nak n a) s = .next s ∧ exec (.rekey n q) s = .next s ∧
    exec (.rekeySend n) s = .next s := by
  have dead : (s.port n).live = false := by simp [Port.live, down]
  have untrained : s.beginTraining n = s := State.beginTraining_authFailed failed
  refine ⟨congrArg Host.Outcome.next untrained, congrArg Host.Outcome.next untrained, ?_, ?_, ?_, ?_, ?_, ?_, ?_, ?_, ?_, ?_, ?_⟩
  · show execTrainingDone n working s = _
    simp [execTrainingDone, down]
  · show execKeyCheck n id s = _
    simp [execKeyCheck, State.keyCheck, down]
  · show execFlitReceive n f s = _
    simp [execFlitReceive, down, dead]
  · show execRetrainRequest n s = _
    simp [execRetrainRequest, down]
  · show execLockLost n s = _
    simp [execLockLost, down]
  · show execEnterLowRate n s = _
    simp [execEnterLowRate, State.enterLow, down]
  · show execExitLowRate n s = _
    simp [execExitLowRate, State.exitLow, down]
  · show execRetrainTimeout n s = _
    simp [execRetrainTimeout, down]
  · show execNak n a s = _
    simp [execNak, State.nak, dead]
  · show execRekey n q s = _
    simp [execRekey, State.takeRekey, dead]
  · show execRekeySend n s = _
    simp [execRekeySend, dead]

end

/-! #### Commands of the fabric manager (12 R349) -/

section
variable {s : State} {h : BitVec 128} {code : Nat} {f : State → MStatus × State}

/-- A command of the fabric manager with the right code is answered with its result. -/
theorem fmOut_of_code {r : State → MStatus × State} (answers : s.mgmtAnswers = true) (loaded : s.pwr.bootOnly = false)
    (right : fld h 0 8 = code) : fmOut code h r s = .next (State.answer (r s)) := by
  simp [fmOut, right, State.manage, answers, loaded]

theorem fmCommand_done {t : State} (done : f s = (.ok, t)) : fmCommand h true true f s = (.ok, t.fmDone h) := by
  simp [fmCommand, done]

theorem fmCommand_rejected {t : State} {st : MStatus} (rejected : f s = (st, t)) (bad : st ≠ .ok) :
    fmCommand h true true f s = (st, s) := by
  cases st <;> simp_all [fmCommand]

end

section
variable {s : State} {h : BitVec 128} {key : List Byte}

theorem State.linkKey_taken (shape : fmShape h false true false = true) (whole : key.length = 32) (fitted : fmPort h < s.fabricPorts)
    (noKeyWait : (s.port (fmPort h)).state ≠ .keyWait) :
    s.linkKey h key = (.ok, (s.setPort (fmPort h) { (s.port (fmPort h)).keyEvent with
      key := some key, keyId := fld h 32 8, salt := fld h 64 32, authFailed := false }).fmDone h) := by
  have waits : (s.port (fmPort h)).keyEvent.state ≠ .keyWait := noKeyWait
  rw [State.linkKey, shape, decide_eq_true whole]
  exact fmCommand_done (by simp [Nat.not_le.2 fitted, waits])

theorem exec_linkKey_taken (answers : s.mgmtAnswers = true) (loaded : s.pwr.bootOnly = false) (right : fld h 0 8 = 0x03)
    (shape : fmShape h false true false = true) (whole : key.length = 32) (fitted : fmPort h < s.fabricPorts)
    (noKeyWait : (s.port (fmPort h)).state ≠ .keyWait) :
    exec (.linkKey h key) s = .next (State.answer (.ok, (s.setPort (fmPort h) { (s.port (fmPort h)).keyEvent with
      key := some key, keyId := fld h 32 8, salt := fld h 64 32, authFailed := false }).fmDone h)) := by
  show execLinkKey h key s = _
  rw [execLinkKey, fmOut_of_code answers loaded right, State.linkKey_taken shape whole fitted noKeyWait]

end

/-- Settles O38: the failure takes the port DOWN, no event of the port brings it up, and a LINK_KEY gives it a key. -/
theorem authenticationFailureTakesThePortDown : Obligations.AuthenticationFailureTakesThePortDown := by
  intro s n f
  refine ⟨fun live whole bad => ⟨exec_flitReceive_badTag live whole bad, ?_, ?_⟩, fun down failed =>
    fun working => exec_portEvents_of_authFailed down failed f working, ?_⟩
  · rw [State.port_updPort]
    exact State.portDown_port_state _ n
  · rw [State.port_updPort]
  · rintro h key answers loaded right shape whole rfl fitted down
    exact exec_linkKey_taken answers loaded right shape whole fitted (by simp [down])

end Sys2Proof.Machine
end

section

/-!
### The commands of the fabric manager (12 R348 to R351)

A command that is well formed is answered with what its own checks say (`fmCommand_done`, `fmCommand_rejected`); the laws below give
that result command by command.
-/

namespace Sys2Proof.Machine

open Sys2Proof

section
variable {s : State} {h : BitVec 128}

/-! #### ASSIGN_ID and ROUTE_SET -/

theorem State.assignId_composed (shape : fmShape h true false false = true) (composed : s.fab.composed = true) :
    s.assignId h = (.state, s) := by
  rw [State.assignId, shape]
  exact fmCommand_rejected (t := s) (by rw [if_pos composed]) (by decide)

theorem State.assignId_uncomposed (shape : fmShape h true false false = true) (composed : s.fab.composed = false)
    (unrefused : s.twin.pair ≠ .refused) :
    s.assignId h = (.ok, ({ s with fab := { s.fab with id := fmId h } } : State).fmDone h) := by
  rw [State.assignId, shape]
  exact fmCommand_done (by simp [composed, unrefused])

section
variable {row : BitVec 64} (shape : fmShape h false false true = true) (one : fmRows h = 1) (low : fld row 6 10 = 0)
  (high : fld row 50 14 = 0)
include shape one low high

/-- A ROUTE_SET of one row whose reserved fields are 0 is well formed. -/
theorem State.routeSet_one : s.routeSet h [row] = fmCommand h true true (fun s =>
    if !s.rowPortsOk row then (.range, s)
    else (.ok, { s with fab := { s.fab with
      routes := SMap.put s.fab.routes (routeOf row).1 (routeOf row).2
      fresh := if s.fab.torn.contains (routeOf row).1 then insertNat s.fab.fresh (routeOf row).1 else s.fab.fresh } })) s := by
  simp [State.routeSet, shape, one, low, high]

theorem State.routeSet_badPorts (bad : s.rowPortsOk row = false) : s.routeSet h [row] = (.range, s) := by
  rw [State.routeSet_one shape one low high]
  exact fmCommand_rejected (t := s) (by simp [bad]) (by decide)

theorem State.routeSet_replaced (good : s.rowPortsOk row = true) (live : s.fab.torn.contains (fld row 0 6) = false) :
    s.routeSet h [row] = (.ok, ({ s with fab := { s.fab with
      routes := SMap.put s.fab.routes (fld row 0 6) { ports := BitVec.ofNat 32 (fld row 16 32), hops := fld row 48 2 } } } :
        State).fmDone h) := by
  rw [State.routeSet_one shape one low high]
  have kept : s.fab.torn.contains (routeOf row).1 = false := live
  exact fmCommand_done (by simp only [good, kept]; rfl)

end

/-! #### LINK_KEY of a port that is not fitted, or with a key of a wrong length -/

theorem State.linkKey_unfitted {key : List Byte} (shape : fmShape h false true false = true) (whole : key.length = 32)
    (unfitted : s.fabricPorts ≤ fmPort h) : s.linkKey h key = (.range, s) := by
  rw [State.linkKey, shape, decide_eq_true whole]
  exact fmCommand_rejected (t := s) (by simp [unfitted]) (by decide)

theorem State.linkKey_length {key : List Byte} (short : key.length ≠ 32) : s.linkKey h key = (.length, s) := by
  simp [State.linkKey, fmCommand, short]

/-! #### JOIN and LEAVE -/

theorem State.join_done (shape : fmShape h false false false = true) :
    s.join h = (.ok, ({ s with fab := { s.fab with composed := true } } : State).fmDone h) := by
  rw [State.join, shape]
  exact fmCommand_done rfl

theorem State.leave_done (shape : fmShape h false false false = true) :
    s.leave h = (.ok, ({ s.endRequests (fun _ => true) with
      fab := { (s.endRequests fun _ => true).fab with composed := false } } : State).fmDone h) := by
  rw [State.leave, shape]
  exact fmCommand_done rfl

/-! #### TEARDOWN and RESTORE -/

section
variable (shape : fmShape h true false false = true)
include shape

theorem State.teardown_own (own : fmId h = s.fab.id) : s.teardown h = (.range, s) := by
  rw [State.teardown, shape]
  exact fmCommand_rejected (t := s) (by rw [if_pos own]) (by decide)

/-- The routes and notices of a package without an id that is torn down. -/
def State.tornDown (s : State) (id : Nat) : State := { s with fab := { s.fab with
  routes := SMap.del s.fab.routes id, torn := insertNat s.fab.torn id, fresh := s.fab.fresh.filter (· ≠ id)
  rerouted := s.fab.rerouted.filter (· ≠ id), notices := s.fab.notices.filter (·.destination ≠ id) } }

theorem State.teardown_other (other : fmId h ≠ s.fab.id) (silent : s.twin.answersFor ≠ some (fmId h)) :
    s.teardown h = (.ok, (((((s.tornDown (fmId h)).endRequests (·.dst = fmId h)).dropLinesOf (fmId h)).dropPublisher
      (fmId h)).fmEvent 0x0A (fmId h) 0 0).fmDone h) := by
  rw [State.teardown, shape]
  exact fmCommand_done (by simp only [if_neg other, if_neg silent]; rfl)

section
variable (other : fmId h ≠ s.fab.id)
include other

theorem State.restoreId_live (live : fmId h ∉ s.fab.torn) : s.restoreId h = (.ok, s.fmDone h) := by
  rw [State.restoreId, shape]
  exact fmCommand_done (by simp [other, live])

theorem State.restoreId_stale (torn : fmId h ∈ s.fab.torn) (stale : fmId h ∉ s.fab.fresh) : s.restoreId h = (.state, s) := by
  rw [State.restoreId, shape]
  exact fmCommand_rejected (t := s) (by simp [other, torn, stale]) (by decide)

theorem State.restoreId_fresh (torn : fmId h ∈ s.fab.torn) (fresh : fmId h ∈ s.fab.fresh) :
    s.restoreId h = (.ok, ({ s with fab := { s.fab with
      torn := s.fab.torn.filter (· ≠ fmId h), fresh := s.fab.fresh.filter (· ≠ fmId h) } } : State).fmDone h) := by
  rw [State.restoreId, shape]
  exact fmCommand_done (by simp [other, torn, fresh])

end

end

end

/-! #### FM_EVENT_ACK (12 R351) -/

theorem exec_fmEventAck_answered {s : State} {v : BitVec 64} (answers : s.mgmtAnswers = true) (loaded : s.pwr.bootOnly = false) :
    exec (.fmEventAck v) s = .next (State.answer (s.writeEventAck v.toNat)) := by
  show execFmEventAck v s = _
  simp [execFmEventAck, State.manage, answers, loaded]

theorem State.writeEventAck_inRange {s : State} {v : Nat} (lo : s.val (dkey 0x5033 2) ≤ v) (hi : v ≤ s.fab.nextEvent) :
    s.writeEventAck v = (.ok, s.setVal (dkey 0x5033 2) v) := by
  simp [State.writeEventAck, Nat.not_lt.2 lo, Nat.not_lt.2 hi]

theorem State.writeEventAck_outOfRange {s : State} {v : Nat} (out : v < s.val (dkey 0x5033 2) ∨ s.fab.nextEvent < v) :
    s.writeEventAck v = (.range, s) := by
  simp [State.writeEventAck, out]

/-- Settles O45: each command has the right code, so it is answered with its result. -/
theorem fabricManagerCommandsTakeEffect : Obligations.FabricManagerCommandsTakeEffect := by
  intro s h id port answers loaded
  have answered {code : Nat} {r : State → MStatus × State} {x : MStatus × State} (right : fld h 0 8 = code) (result : r s = x) :
      fmOut code h r s = .next (State.answer x) := by
    rw [fmOut_of_code answers loaded right, result]
  refine ⟨?_, ?_, ?_, ?_, ?_, ?_, ?_, ?_, ?_, ?_⟩
  · exact fun right shape => ⟨fun composed => answered right (State.assignId_composed shape composed),
      fun uncomposed unrefused => answered right (State.assignId_uncomposed shape uncomposed unrefused)⟩
  · exact fun row right shape one low high =>
      ⟨fun bad => answered right (State.routeSet_badPorts shape one low high bad),
        fun good live => answered right (State.routeSet_replaced shape one low high good live)⟩
  · exact fun key right shape whole => ⟨fun unfitted => answered right (State.linkKey_unfitted shape whole unfitted),
      exec_linkKey_taken answers loaded right shape whole⟩
  · exact fun key right short => answered right (State.linkKey_length short)
  · exact fun right shape => answered right (State.join_done shape)
  · exact fun right shape own => answered right (State.teardown_own shape own)
  · exact fun right shape other silent => answered right (State.teardown_other shape other silent)
  · exact fun right shape other => ⟨fun live => answered right (State.restoreId_live shape other live),
      fun torn stale => answered right (State.restoreId_stale shape other torn stale),
      fun torn fresh => answered right (State.restoreId_fresh shape other torn fresh)⟩
  · exact fun right shape => answered right (State.leave_done shape)
  · intro v
    rw [exec_fmEventAck_answered answers loaded]
    exact ⟨fun lo hi => by rw [State.writeEventAck_inRange lo hi], fun out => by rw [State.writeEventAck_outOfRange out]⟩

end Sys2Proof.Machine
end

section

/-!
### Requests at their home (12 R332 to R342)

A request that is served is answered with what its body gives (`serve_ok`), with the status that the body fails with (`serve_fail`),
or stays held (`serve_wait`); each law below runs one body.
-/

namespace Sys2Proof.Machine

open Sys2Proof

/-! #### The answer of a request that fails, and requests that are not served -/

/-- A request that is served now and fails is answered with the status. -/
theorem serve_fail {s t : State} {type : Nat} {k : Packet} {body : Head → Eng (Head × List Byte × List Nat)} {st : Status}
    (h : s.received type k) (run : (body (packetHead k)).go (s.taken k) = (.error (.fail st), t)) :
    serve type k body s = t.reply k { type, dst := (packetHead k).src, status := st.code } [] [] := by
  have unstored := h.unstored
  obtain ⟨isType, mine, serves, awake, unanswered, -⟩ := h
  have mine' : (s.takeIn k).isMine (packetHead k) = true := mine
  have serves' : (s.takeIn k).servesNone = false := serves
  have awake' : (s.takeIn k).awake = true := awake
  have unanswered' : ((s.takeIn k).held? (packetHead k).src (packetHead k).tag).bind (·.answer) = none := unanswered
  rw [State.taken] at run
  simp only [serve]
  rw [if_neg (by simp [isType, mine']), if_neg (by simp [serves']), if_neg (by simp [awake']), if_neg (by simp [unanswered']),
    unstored, run]

/-- A packet of another type, or for another package, is taken from the input buffer and not served. -/
theorem serve_other {s : State} {type : Nat} {k : Packet} (body : Head → Eng (Head × List Byte × List Nat))
    (other : (packetHead k).type ≠ type ∨ s.isMine (packetHead k) = false) : serve type k body s = s.takeIn k := by
  have other' : (packetHead k).type ≠ type ∨ (s.takeIn k).isMine (packetHead k) = false := other
  simp only [serve]
  rw [if_pos (by simpa using other')]

/-- An action that fails stops what follows it. -/
theorem Eng.go_bind_fail {α β : Type} {e : Eng α} {s t : State} {x : Stop} (f : α → Eng β) (h : e.go s = (.error x, t)) :
    Eng.go (e >>= f) s = (.error x, t) := by
  rw [Eng.go_bind, h]

/-- The handler of an action that fails runs. -/
theorem Eng.go_tryCatch_fail {α : Type} {e : Eng α} {s t : State} {x : Stop} (handler : Stop → Eng α)
    (h : e.go s = (.error x, t)) : Eng.go (tryCatch e handler) s = (handler x).go t := by
  have run : StateT.run (ExceptT.run e) s = (.error x, t) := h
  show StateT.run (ExceptT.tryCatch e handler) s = _
  rw [ExceptT.tryCatch]
  show StateT.run (bind (m := StateM State) (ExceptT.run e) _) s = _
  rw [StateT.run_bind, run]
  rfl

/-- An attempt of an action that fails succeeds with the status. -/
theorem Eng.go_attempt_fail {α : Type} {e : Eng α} {s t : State} {st : Status} (h : e.go s = (.error (.fail st), t)) :
    (attempt e).go s = (.ok (.error st), t) :=
  Eng.go_tryCatch_fail _ (Eng.go_bind_fail _ h)

/-! #### Reads, fills, atomics and parts (12 R332, R333, R340) -/

section
variable {s t : State} {k : Packet}

theorem exec_rd_read {u : State} {l : List (Nat × Nat)} {bs : List Byte} {p : Bool} (h : s.received 0x01 k)
    (pieces : (homePieces (packetHead k) (piecesOf (packetHead k).addr (packetHead k).len)).go (s.taken k) = (.ok l, t))
    (read : (readHome (packetHead k).tenant l).go t = (.ok (bs, p), u)) :
    exec (.rd k) s = .next ((u.reply k { plainHead (packetHead k) (if p then .poisoned else .ok) with poison := p } bs []).probed
      (packetHead k)) := by
  have mine : s.isMine (packetHead k) = true := h.2.1
  show execRd k s = _
  simp only [execRd, mine, if_true]
  rw [serve_ok _ _ _ _ u (dataHead (packetHead k) p) bs [] h]
  · rfl
  · rw [Eng.go_bind_ok _ _ _ _ _ pieces, Eng.go_bind_ok _ _ _ _ _ read]
    rfl

theorem exec_rd_fails {st : Status} (h : s.received 0x01 k)
    (pieces : (homePieces (packetHead k) (piecesOf (packetHead k).addr (packetHead k).len)).go (s.taken k) =
      (.error (.fail st), t)) :
    exec (.rd k) s = .next ((t.reply k { type := 0x01, dst := (packetHead k).src, status := st.code } [] []).probed
      (packetHead k)) := by
  have mine : s.isMine (packetHead k) = true := h.2.1
  show execRd k s = _
  simp only [execRd, mine, if_true]
  rw [serve_fail h (Eng.go_bind_fail _ pieces)]

theorem exec_remoteFill_read {la : Nat} {bs : List Byte} {p : Bool} (h : s.received 0x02 k) (outside : ∀ n, t.areaOf la ≠ .scratch n)
    (place : (homeAddress (packetHead k) ((packetHead k).addr / 64 * 64)).go (s.taken k) = (.ok la, s.taken k))
    (permit : (permitE (packetHead k).tenant la).go (s.taken k) = (.ok (), s.taken k))
    (read : (homeReadP (packetHead k).tenant la 64).go (s.taken k) = (.ok (bs, p), t)) :
    exec (.remoteFill k) s = .next (t.reply k { plainHead (packetHead k) (if p then .poisoned else .ok) with
      poison := p, versioned := t.versioned (lineOf la), uncached := SMap.has t.coh.watches (lineOf la) } bs []) := by
  show execRemoteFill k s = _
  rw [execRemoteFill, serve_ok _ _ _ _ t _ bs [] h]
  rw [Eng.go_bind_ok _ _ _ _ _ place, Eng.go_bind_ok _ _ _ _ _ permit, Eng.go_bind_ok _ _ _ _ _ read,
    Eng.go_bind_ok _ _ _ _ _ (Eng.go_get _)]
  cases area : t.areaOf la with
  | scratch n => exact absurd area (outside n)
  | _ => rfl

theorem exec_atomic_done {la old : Nat} (h : s.received 0x03 k) (plain : (packetHead k).addr ≠ ledgerWordAddress)
    (aligned : (packetHead k).addr % atomicBytes (packetHead k).asize = 0)
    (allowed : atomicAllowed (packetHead k).aop (packetHead k).asize = true)
    (place : (homeAddress (packetHead k) (packetHead k).addr).go (s.taken k) = (.ok la, s.taken k))
    (permit : (permitE (packetHead k).tenant la).go (s.taken k) = (.ok (), s.taken k))
    (done : (atomicAtHome (packetHead k).tenant la (packetHead k).aop (packetHead k).asize
      (leNat (k.payload.take (atomicBytes (packetHead k).asize))) (leNat (k.payload.drop (atomicBytes (packetHead k).asize)))
        none).go (s.taken k) = (.ok old, t)) :
    exec (.atomic k) s = .next ((t.checkRetire la).reply k (plainHead (packetHead k) .ok)
      (leBytes (atomicBytes (packetHead k).asize) old) [lineOf la]) := by
  show execAtomic k s = _
  rw [execAtomic, serve_ok _ _ _ _ _ _ _ _ h]
  rw [if_neg plain, Eng.go_needE_bind _ _ _ (by simp [aligned, allowed]), Eng.go_bind_ok _ _ _ _ _ place,
    Eng.go_bind_ok _ _ _ _ _ permit, Eng.go_bind_ok _ _ _ _ _ done]
  rfl

/-- 13 R375: an ownership word has its home at the ledger. -/
theorem exec_atomic_ledger {old : Nat} (h : s.received 0x03 k) (word : (packetHead k).addr = ledgerWordAddress)
    (done : (ledgerCas (packetHead k).ctr (leNat (k.payload.take 8)) (leNat (k.payload.drop 8))).go (s.taken k) = (.ok old, t)) :
    exec (.atomic k) s = .next (t.reply k (plainHead (packetHead k) .ok) (leBytes 8 old) [metaLine]) := by
  show execAtomic k s = _
  rw [execAtomic, serve_ok _ _ _ _ _ _ _ _ h]
  rw [if_pos word, Eng.go_bind_ok _ _ _ _ _ done]
  rfl

end

/-- Settles O40, request by request. -/
theorem requestsAreServedAtTheirHome : Obligations.RequestsAreServedAtTheirHome := by
  intro s t u k
  refine ⟨fun l bs p => exec_rd_read, fun st => exec_rd_fails, fun la bs p => exec_remoteFill_read, fun la old => exec_atomic_done,
    fun old => exec_atomic_ledger, ?_, ?_, ?_⟩
  · exact fun r out lines h run => congrArg Host.Outcome.next (serve_ok _ _ _ _ _ _ _ _ h run)
  · exact fun other => congrArg Host.Outcome.next (serve_other _ other)
  · exact fun other => congrArg Host.Outcome.next (serve_other _ other)

/-! #### Copy groups (12 R341, R342) -/

@[simp] theorem State.hold_id (s : State) (k : Packet) (f : Holding → Holding) : (s.hold k f).fab.id = s.fab.id := by
  rw [State.hold]; split <;> rfl

@[simp] theorem State.hold_groups (s : State) (k : Packet) (f : Holding → Holding) : (s.hold k f).fab.groups = s.fab.groups := by
  rw [State.hold]; split <;> rfl

@[simp] theorem State.taken_id (s : State) (k : Packet) : (s.taken k).fab.id = s.fab.id := State.hold_id ..

@[simp] theorem State.group_taken (s : State) (k : Packet) (key : Nat) : (s.taken k).group key = s.group key := by
  rw [State.group, State.taken, State.hold_groups]; rfl

/-- A group without its entry. -/
def State.withoutGroup (s : State) (q : Head) : State :=
  { s with fab := { s.fab with groups := SMap.del s.fab.groups (trackerKey q) } }

theorem freeGroup_go (q : Head) (s : State) : (freeGroup q).go s = (.ok ⟨⟩, s.withoutGroup q) := rfl

section
variable {s : State} {k : Packet} {q : Head} (own : q.dst = s.fab.id)
include own

theorem closeGroup_go_early (early : (s.group (trackerKey q)).count < q.prior) (listed : k ∈ (s.group (trackerKey q)).held) :
    (closeGroup k q).go s = (.error .wait, s.setGroup (trackerKey q) (s.group (trackerKey q))) := by
  rw [closeGroup, Eng.go_bind_ok _ _ _ _ _ (Eng.go_get _), Eng.go_needE_bind _ _ _ (by simp [own])]
  simp [early, listed, Eng.go_bind]

theorem closeGroup_go_sound (counted : q.prior ≤ (s.group (trackerKey q)).count) (sound : (s.group (trackerKey q)).failed = none) :
    (closeGroup k q).go s = (.ok (), s) := by
  rw [closeGroup, Eng.go_bind_ok _ _ _ _ _ (Eng.go_get _), Eng.go_needE_bind _ _ _ (by simp [own])]
  simp [Nat.not_lt.2 counted, sound]

theorem closeGroup_go_failed {code : Nat} (counted : q.prior ≤ (s.group (trackerKey q)).count)
    (failed : (s.group (trackerKey q)).failed = some code) :
    (closeGroup k q).go s = (.error (.fail ((statusOf code).getD .targetDead)), s.withoutGroup q) := by
  rw [closeGroup, Eng.go_bind_ok _ _ _ _ _ (Eng.go_get _), Eng.go_needE_bind _ _ _ (by simp [own])]
  simp [Nat.not_lt.2 counted, failed, Eng.go_bind, State.withoutGroup]

end

section
variable {s t : State} {k : Packet}

/-- A WR that is performed is counted where its group has its entry here. -/
theorem exec_wr_written {lines : List Nat} (h : s.received 0x06 k)
    (written : (performWrite k (packetHead k)).go (s.taken k) = (.ok lines, t)) :
    exec (.wr k) s = .next ((if (packetHead k).grouped && (packetHead k).dst = t.fab.id then
      t.countGroup (trackerKey (packetHead k)) .ok else t).reply k (plainHead (packetHead k) .ok) [] lines) := by
  show execWr k s = _
  rw [execWr, serve_ok _ _ _ _ _ _ _ _ h]
  rw [Eng.go_bind_ok _ _ _ _ _ (Eng.go_attempt_ok written), Eng.go_bind_ok _ _ _ _ _ (Eng.go_get _)]
  dsimp only
  split <;> rfl

theorem exec_wr_fails {st : Status} (h : s.received 0x06 k)
    (failed : (performWrite k (packetHead k)).go (s.taken k) = (.error (.fail st), t)) :
    exec (.wr k) s = .next ((if (packetHead k).grouped && (packetHead k).dst = t.fab.id then
      t.countGroup (trackerKey (packetHead k)) st else t).reply k
        { type := 0x06, dst := (packetHead k).src, status := st.code } [] []) := by
  show execWr k s = _
  rw [execWr, serve_fail h]
  rw [Eng.go_bind_ok _ _ _ _ _ (Eng.go_attempt_fail failed), Eng.go_bind_ok _ _ _ _ _ (Eng.go_get _)]
  dsimp only
  split <;> rfl

theorem State.countGroup_ok (s : State) (key : Nat) :
    s.countGroup key .ok = s.setGroup key { s.group key with count := (s.group key).count + 1 } := by
  simp [State.countGroup]

theorem State.countGroup_revoked {s : State} {key : Nat} (sound : (s.group key).failed = none) :
    s.countGroup key .revoked =
      s.setGroup key { s.group key with count := (s.group key).count + 1, failed := some Status.revoked.code } := by
  simp [State.countGroup, sound]

/-! #### GROUP_END and WR_FINAL -/

section
variable (own : (packetHead k).dst = s.fab.id)
include own

theorem exec_groupEnd_early (h : s.received 0x08 k)
    (early : (s.group (trackerKey (packetHead k))).count < (packetHead k).prior)
    (listed : k ∈ (s.group (trackerKey (packetHead k))).held) :
    exec (.groupEnd k) s = .next
      ((s.taken k).setGroup (trackerKey (packetHead k)) ((s.taken k).group (trackerKey (packetHead k)))) :=
  congrArg Host.Outcome.next (serve_wait h (Eng.go_bind_fail _
    (closeGroup_go_early (by simpa using own) (by simpa using early) (by simpa using listed))))

theorem exec_groupEnd_sound (h : s.received 0x08 k)
    (counted : (packetHead k).prior ≤ (s.group (trackerKey (packetHead k))).count)
    (sound : (s.group (trackerKey (packetHead k))).failed = none) :
    exec (.groupEnd k) s = .next (((s.taken k).withoutGroup (packetHead k)).reply k (plainHead (packetHead k) .ok) [] []) := by
  refine congrArg Host.Outcome.next (serve_ok _ _ _ _ _ _ _ _ h ?_)
  rw [Eng.go_bind_ok _ _ _ _ _ (closeGroup_go_sound (by simpa using own) (by simpa using counted) (by simpa using sound))]
  rfl

theorem exec_groupEnd_failed {code : Nat} (h : s.received 0x08 k)
    (counted : (packetHead k).prior ≤ (s.group (trackerKey (packetHead k))).count)
    (failed : (s.group (trackerKey (packetHead k))).failed = some code) :
    exec (.groupEnd k) s = .next (((s.taken k).withoutGroup (packetHead k)).reply k
      { type := 0x08, dst := (packetHead k).src, status := ((statusOf code).getD .targetDead).code } [] []) :=
  congrArg Host.Outcome.next (serve_fail h (Eng.go_bind_fail _
    (closeGroup_go_failed (by simpa using own) (by simpa using counted) (by simpa using failed))))

/-- A WR_FINAL whose group is counted and sound: its write, the ADD of its counter, and the release of its entry. -/
theorem exec_wrFinal_closes {u v x : State} {lines : List Nat} {la old : Nat} {pieces : List (Nat × Nat)}
    (h : s.received 0x07 k) (unwritten : (stageOf (packetHead k)).go (s.taken k) = (.ok 0, s.taken k))
    (counted : (packetHead k).prior ≤ (s.group (trackerKey (packetHead k))).count)
    (sound : (s.group (trackerKey (packetHead k))).failed = none)
    (written : (performWrite k (packetHead k)).go (s.taken k) = (.ok lines, t))
    (staged : (setStage k writtenStage).go t = (.ok (), u))
    (place : (homeAddress (packetHead k) (packetHead k).ctr).go u = (.ok la, u))
    (permit : (permitE (packetHead k).tenant la).go u = (.ok (), u))
    (added : (atomicAtHome (packetHead k).tenant la 0x0 1 1 0 none).go u = (.ok old, v))
    (range : (homePieces (packetHead k) (piecesOf (packetHead k).addr (packetHead k).len)).go
      ((v.checkRetire la).withoutGroup (packetHead k)) = (.ok pieces, x)) :
    exec (.wrFinal k) s = .next (x.reply k (plainHead (packetHead k) .ok) []
      (lineOf la :: pieces.map fun (a, _) => lineOf a)) := by
  have closed : (closeGroup k (packetHead k)).go (s.taken k) = (.ok (), s.taken k) :=
    closeGroup_go_sound (by simpa using own) (by simpa using counted) (by simpa using sound)
  refine congrArg Host.Outcome.next (serve_ok _ _ _ _ _ _ _ _ h ?_)
  rw [Eng.go_bind_ok _ _ _ _ _ unwritten, if_pos (by decide), Eng.go_bind_ok _ _ _ _ _ closed,
    Eng.go_bind_ok _ _ _ _ _ written, Eng.go_bind_ok _ _ _ _ _ staged, Eng.go_bind_ok _ _ _ _ _ place,
    Eng.go_bind_ok _ _ _ _ _ permit, Eng.go_bind_ok _ _ _ _ _ added, Eng.go_bind_ok _ _ _ _ _ (Eng.go_modify _ _),
    Eng.go_bind_ok _ _ _ _ _ (freeGroup_go _ _), Eng.go_bind_ok _ _ _ _ _ range]
  rfl

end

end

/-- Settles O41: a WR and its count, then GROUP_END and WR_FINAL. -/
theorem groupedWritesAreCountedAndClosed : Obligations.GroupedWritesAreCountedAndClosed := by
  intro s t k q key
  refine ⟨fun lines h written => ⟨fun single => ?_, fun grouped here => ?_⟩, fun h grouped failed here sound => ?_,
    fun h own => ⟨exec_groupEnd_early own h, exec_groupEnd_sound own h, exec_groupEnd_failed own h⟩, ?_⟩
  · rw [exec_wr_written h written, if_neg (by simp [q, single])]
  · rw [exec_wr_written h written, if_pos (by simp [q, grouped, here]), State.countGroup_ok]
  · rw [exec_wr_fails h failed, if_pos (by simp [q, grouped, here]), State.countGroup_revoked sound]
  · rintro u v w x lines la old pieces h own unwritten counted sound written staged place permit added f rfl range
    exact exec_wrFinal_closes own h unwritten counted sound written staged place permit added range

end Sys2Proof.Machine
end

section

/-!
### Responses, timers and notices at the requester (12 R333 to R341, R347)
-/

namespace Sys2Proof.Machine

open Sys2Proof

/-! #### Responses (12 R333, R338) -/

section
variable {s : State} {k : Packet} (mine : s.isMine (packetHead k) = true)
include mine

/-- A response that no request awaits is dropped. -/
theorem takeResponse_unawaited {type : Nat} (isType : (packetHead k).type = type) (f : State → Request → Head → State)
    (unawaited : (s.takeIn k).answered? k = none) : takeResponse type k f s = s.takeIn k := by
  have mine' : (s.takeIn k).isMine (packetHead k) = true := mine
  simp [takeResponse, isType, mine', unawaited]

/-- A response is taken up for the request that it answers. -/
theorem takeResponse_awaited {type : Nat} {q : Request} (isType : (packetHead k).type = type)
    (f : State → Request → Head → State) (awaited : (s.takeIn k).answered? k = some q) :
    takeResponse type k f s = f (s.takeIn k) q (packetHead k) := by
  have mine' : (s.takeIn k).isMine (packetHead k) = true := mine
  simp [takeResponse, isType, mine', awaited]

/-- PENDING and NO_ROUTE change the request that they name. -/
theorem takeNote_mine {type : Nat} (isType : (packetHead k).type = type) (f : Request → Request) :
    takeNote type k f s =
      { s.takeIn k with fab := { (s.takeIn k).fab with tags := SMap.upd (s.takeIn k).fab.tags (packetHead k).tag f } } := by
  have mine' : (s.takeIn k).isMine (packetHead k) = true := mine
  simp [takeNote, isType, mine']

section
variable {q : Request} (awaited : (s.takeIn k).answered? k = some q)
include awaited

theorem exec_cmdRsp_part (isType : (packetHead k).type = 0x0E) (part : q.isLeg = false) :
    exec (.cmdRsp k) s = .next ((s.takeIn k).accept q (packetHead k) (partInputs k)) := by
  show execCmdRsp k s = _
  rw [execCmdRsp, takeResponse_awaited mine isType _ awaited, if_neg (by simp [part])]

theorem exec_cmdRsp_leg (isType : (packetHead k).type = 0x0E) (leg : q.isLeg = true) :
    exec (.cmdRsp k) s = .next ((s.takeIn k).shardResult k q) := by
  show execCmdRsp k s = _
  rw [execCmdRsp, takeResponse_awaited mine isType _ awaited, if_pos leg]

/-- The state that has taken up the fill of a line and counted its bytes. -/
def State.fillCounted (s : State) (k : Packet) : State := (s.takeIn k).countWork (packetHead k).tenant none 6 0xF k.payload.length

/-- 05 R129: a line that may be cached enters the remote line cache. -/
theorem exec_fillRsp_cached (isType : (packetHead k).type = 0x0C) (ok : (packetHead k).status = 0)
    (cached : (packetHead k).uncached = false) :
    exec (.fillRsp k) s = .next
      ((((s.fillCounted k).endRequest (packetHead k).tag q).rlcInstall (lineOf (globalOf q.dst (packetHead q.packet).addr)) k.payload
        (packetHead k).versioned (packetHead k).poison).bump (dkey 0x5020 0) 1) := by
  show execFillRsp k s = _
  rw [execFillRsp, takeResponse_awaited mine isType _ awaited]
  simp only [ok, cached]
  rfl

/-- 05 R129: a line that must not be cached goes to the access that waits for it. -/
theorem exec_fillRsp_uncached (isType : (packetHead k).type = 0x0C) (ok : (packetHead k).status = 0)
    (uncached : (packetHead k).uncached = true) :
    exec (.fillRsp k) s = .next (((s.fillCounted k).endRequest (packetHead k).tag q).hand q
      ((s.fillCounted k).answerStatus q (packetHead k) + uncachedMark) k.payload) := by
  show execFillRsp k s = _
  rw [execFillRsp, takeResponse_awaited mine isType _ awaited]
  simp only [ok, uncached]
  rfl

end

end

/-- Settles O42: responses that nothing awaits, those that end a request, and the two notes that end none. -/
theorem responsesEndTheirRequests : Obligations.ResponsesEndTheirRequests := by
  intro s k r u
  refine ⟨fun mine unawaited => ?_, fun q mine awaited => ?_, fun mine isType => ?_, fun mine isType => ?_⟩
  · have dropped {type : Nat} (f : State → Request → Head → State) (isType : r.type = type) :
        Host.Outcome.next (takeResponse type k f s) = (Host.Outcome.next u : Out) :=
      congrArg Host.Outcome.next (takeResponse_unawaited mine isType f unawaited)
    exact ⟨dropped _, dropped _, dropped _, dropped _, dropped _, dropped _⟩
  · have taken {type : Nat} (f : State → Request → Head → State) (isType : r.type = type) :
        Host.Outcome.next (takeResponse type k f s) = (Host.Outcome.next (f u q r) : Out) :=
      congrArg Host.Outcome.next (takeResponse_awaited mine isType f awaited)
    exact ⟨taken _, taken _, taken _, taken _, exec_cmdRsp_part mine awaited, exec_cmdRsp_leg mine awaited,
      fun isType ok => ⟨exec_fillRsp_cached mine awaited isType ok, exec_fillRsp_uncached mine awaited isType ok⟩⟩
  · exact congrArg Host.Outcome.next (takeNote_mine mine isType _)
  · exact congrArg Host.Outcome.next (takeNote_mine mine isType _)

/-! #### Timers (12 R339, R347) -/

section
variable {s : State} {tag : Nat} {q : Request} (inFlight : SMap.look s.fab.tags tag = some q)
include inFlight

theorem exec_requestTimer_runs (runs : s.time < q.since + usToTicks (s.val (dkey 0x5035 0))) :
    exec (.requestTimer tag) s = .next s := by
  show execRequestTimer tag s = _
  simp [execRequestTimer, inFlight, runs]

theorem exec_requestTimer_reissues (out : q.since + usToTicks (s.val (dkey 0x5035 0)) ≤ s.time)
    (more : q.reissues < s.val (dkey 0x5035 1)) : exec (.requestTimer tag) s = .next (s.resend tag q) := by
  show execRequestTimer tag s = _
  simp [execRequestTimer, inFlight, Nat.not_lt.2 out, State.mayReissue, more]

theorem exec_requestTimer_dead (out : q.since + usToTicks (s.val (dkey 0x5035 0)) ≤ s.time)
    (last : s.val (dkey 0x5035 1) ≤ q.reissues) :
    exec (.requestTimer tag) s = .next ((s.requestDead tag q).fmEvent 0x05 q.dst 0 0) := by
  show execRequestTimer tag s = _
  simp [execRequestTimer, inFlight, Nat.not_lt.2 out, State.mayReissue, Nat.not_lt.2 last]

end

theorem exec_pendingTimer_held {s : State} {source tag : Nat} {x : Holding} (held : s.held? source tag = some x) :
    let q := packetHead x.packet
    exec (.pendingTimer source tag) s = .next
      ((s.route { type := 0x11, dst := q.src, src := q.src, tenant := q.tenant, tag := q.tag, addr := q.addr } []).getD s) := by
  show execPendingTimer source tag s = _
  simp only [execPendingTimer, held]

/-! #### Notices (12 R337) -/

section
variable {s : State} {id source : Nat}

section
variable (composed : s.fab.composed = true)
include composed

theorem exec_takeoverNotice_own (own : id = (s.sendCtl source false true id).fab.id) :
    exec (.takeoverNotice id source) s = .next (s.sendCtl source false true id).fence := by
  show execTakeoverNotice id source s = _
  simp only [execTakeoverNotice, composed]
  exact congrArg Host.Outcome.next (if_pos own)

/-- The state with the id of a failed package routed to its twin. -/
def State.rerouting (s : State) (id : Nat) : State := { s with fab := { s.fab with rerouted := insertNat s.fab.rerouted id } }

theorem exec_takeoverNotice_other (other : id ≠ (s.sendCtl source false true id).fab.id) :
    exec (.takeoverNotice id source) s = .next
      ((((s.sendCtl source false true id).rerouting id).dropPublisher id).resendHeld id) := by
  show execTakeoverNotice id source s = _
  simp only [execTakeoverNotice, composed]
  exact congrArg Host.Outcome.next (if_neg other)

theorem exec_releaseIdNotice_composed :
    let v := s.sendCtl source true true id
    exec (.releaseIdNotice id source) s = .next { v with fab := { v.fab with rerouted := v.fab.rerouted.filter (· ≠ id) } } := by
  show execReleaseIdNotice id source s = _
  simp only [execReleaseIdNotice, composed]
  rfl

end

/-- An acknowledgement takes out the one notice that it names. -/
theorem mem_noticeAck {l : List Notice} {n : Notice} {release : Bool} :
    n ∈ l.filter (fun n => !(n.id = id && n.destination = source && n.release = release)) ↔
      n ∈ l ∧ ¬ (n.id = id ∧ n.destination = source ∧ n.release = release) := by
  simp only [List.mem_filter, Bool.not_eq_true', Bool.eq_false_iff, ne_eq, Bool.and_eq_true, decide_eq_true_eq, and_assoc]

end

/-- Settles O43: the timers, then the notices. -/
theorem requestTimersAndNotices : Obligations.RequestTimersAndNotices := by
  intro s source tag id dst
  refine ⟨fun x => exec_pendingTimer_held,
    fun q inFlight => ⟨exec_requestTimer_runs inFlight, exec_requestTimer_reissues inFlight, exec_requestTimer_dead inFlight⟩, rfl,
    fun composed => ⟨exec_takeoverNotice_own composed, exec_takeoverNotice_other composed, exec_releaseIdNotice_composed composed⟩,
    fun uncomposed => ⟨?_, ?_⟩, fun release => ⟨_, rfl, fun n mem => (mem_noticeAck.1 mem).2,
      fun n mem other => mem_noticeAck.2 ⟨mem, other⟩, rfl⟩, fun n found => ?_⟩
  · show execTakeoverNotice id source s = _
    simp [execTakeoverNotice, uncomposed]
  · show execReleaseIdNotice id source s = _
    simp [execReleaseIdNotice, uncomposed]
  · show execNoticeRepeat id dst s = _
    simp only [execNoticeRepeat, found]

end Sys2Proof.Machine
end

section

/-!
### Fabric commands (12 R344 to R346)
-/

namespace Sys2Proof.Machine

open Sys2Proof

section
variable {s t : State} {n : Nat} {sl : Slot}

@[simp] theorem Slot.run_copyGroup (sl : Slot) (time : Nat) : (sl.run time).copyGroup = sl.copyGroup := rfl

/-! #### ACOPY (12 R344) -/

/-- An ACOPY of bytes without a counter, whose destination lies in one package and whose lines are copied. -/
theorem exec_acopy_copied {p : Nat} {l : List (Nat × Nat)} {s1 s2 : State} {x : Slot} {v : Unit} (h : s.ready n 0x80 sl)
    (bytes : sl.f 300 1 = 0) (uncounted : sl.f 301 1 = 0) (nonempty : 1 ≤ sl.f 256 40) (fresh : sl.cursor = 0) (first : sl.marks = [])
    (package : (packageOf (sl.who n 3) sl.asid (sl.f 192 57)).go (s.dispatch n sl) = (.ok p, s1))
    (range : (rangePieces (sl.who n 3) sl.asid (sl.f 192 57) (sl.f 256 40) true (sl.f 256 40 / 65536 + 2)).go s1 = (.ok l, s2))
    (one : onePackage l = true)
    (copied : (units (sl.who n 3) n (lineCount (sl.f 192 57) (sl.f 256 40)) (copyLine (sl.who n 3) n (sl.run s.time))).go
      (s2.updSlot n fun y => { y with marks := [0, 0] }) = (.ok v, t))
    (held : t.slot? n = some x) :
    exec (.acopy n) s = .next (t.finish n .ok 0 0) := by
  show execAcopy n s = _
  rw [execAcopy, runSlot, runSlotIf_of_ready h rfl, copyBody]
  simp only [Slot.run_f, Slot.run_who, Slot.run_asid, Slot.run_cursor, Slot.run_marks]
  simp [bytes, uncounted, fresh, first, nonempty, one, Eng.go_bind, package, range, copied, Eng.go_getSlot n x t held]

/-! #### ACOPY_FINAL (12 R345) -/

theorem exec_acopyFinal_waits (h : s.ready n 0x81 sl) (early : (s.dispatch n sl).groupClear (sl.run s.time) = false) :
    exec (.acopyFinal n) s = .next ((s.dispatch n sl).updSlot n fun y => { y with stage := .waiting, waitSince := s.time }) := by
  show execAcopyFinal n s = _
  rw [execAcopyFinal, runSlotIf_of_ready h (by simp [h.2.2.1]), Eng.go_bind_ok _ _ _ _ _ (Eng.go_get _), if_neg (by simp [early])]
  simp [Eng.go_bind]

/-- An ACOPY_FINAL whose group is clear runs at once. -/
theorem exec_acopyFinal_clear (h : s.ready n 0x81 sl) (clear : (s.dispatch n sl).groupClear (sl.run s.time) = true) :
    exec (.acopyFinal n) s = .next (endSlot n ((finalBody n (sl.run s.time)).go (s.dispatch n sl))) := by
  show execAcopyFinal n s = _
  rw [execAcopyFinal, runSlotIf_of_ready h (by simp [h.2.2.1]), Eng.go_bind_ok _ _ _ _ _ (Eng.go_get _), if_pos clear]

/-- After a failure in its group, an ACOPY_FINAL takes the failure out and fails with it. -/
theorem finalBody_go_failed {st : Status} (failed : SMap.look s.fe.groupFails sl.copyGroup = some st) :
    (finalBody n sl).go s = (.error (.fail st),
      { s with fe := { s.fe with groupFails := SMap.del s.fe.groupFails sl.copyGroup } }) := by
  rw [finalBody, Eng.go_bind_ok _ _ _ _ _ (Eng.go_get _)]
  simp [failed, Eng.go_bind]

theorem finalBody_go_sound (sound : SMap.look s.fe.groupFails sl.copyGroup = none) :
    (finalBody n sl).go s = (copyBody true n sl).go s := by
  rw [finalBody, Eng.go_bind_ok _ _ _ _ _ (Eng.go_get _)]
  simp only [sound]

/-- 12 R345: the earlier commands of its group have completed, and the ACOPY_FINAL that waited for them runs. -/
theorem exec_acopyFinalSend_clear (held : s.slot? n = some sl) (op : sl.opcode = 0x81) (waits : sl.stage = .waiting)
    (clear : s.groupClear sl = true)
    (free : (s.setSlot n sl.resumed).dispatchable sl.resumed = true) :
    exec (.acopyFinalSend n) s = .next (endSlot n ((finalBody n sl.resumed).go (s.setSlot n sl.resumed))) := by
  show execAcopyFinalSend n s = _
  simp only [execAcopyFinalSend, held]
  rw [if_pos (by simp [op, waits, clear])]
  exact congrArg Host.Outcome.next (runSlot_of_begun (State.begun_resumed op free) _)

/-! #### REMOTE_ATOMIC (12 R346) -/

/-- The state after an atomic of this package, which may take RETIRE of a model beyond READY (02 R51). -/
def State.retiredAt (u : State) (ga : Nat) : State :=
  match u.placeOf ga with
  | .here la => u.checkRetire la
  | _ => u

/-- A command whose atomic has been performed, with the old value that it keeps. -/
def Slot.atomicDone (sl : Slot) (old : Nat) : Slot := { sl with cursor := 1, marks := [old], resp := [] }

theorem exec_remoteAtomic_done {ga old : Nat} {u : State} {x : Slot} (h : s.ready n 0x82 sl)
    (aligned : sl.f 128 57 % atomicBytes (sl.f 189 2) = 0) (allowed : atomicAllowed (sl.f 185 4) (sl.f 189 2) = true)
    (small : sl.f 189 2 ≠ 2) (unkept : sl.f 448 57 = 0) (fresh : sl.cursor = 0)
    (trans : (translate (sl.who n 5) sl.asid (sl.f 128 57) true).go (s.dispatch n sl) = (.ok ga, t))
    (done : (atomicPhys (sl.who n 5) ga (sl.f 185 4) (sl.f 189 2) (sl.f 192 128) (sl.f 320 128)).go t = (.ok old, u))
    (held : (u.retiredAt ga).slot? n = some x) :
    exec (.remoteAtomic n) s = .next
      (((u.retiredAt ga).updSlot n (·.atomicDone old)).finish n .ok 0 (old % 2 ^ 64)) := by
  show execRemoteAtomic n s = _
  rw [execRemoteAtomic, runSlot, runSlotIf_of_ready h rfl]
  simp only [Slot.run_f, Slot.run_who, Slot.run_asid, Slot.run_cursor]
  rw [Eng.go_needE_bind _ _ _ (by simp [aligned, allowed, small, unkept]), if_pos fresh, if_pos unkept,
    Eng.go_bind_ok _ _ _ _ _ trans, Eng.go_bind_ok _ _ _ _ _ done, Eng.go_bind_ok _ _ _ _ _ (Eng.go_modify _ _),
    Eng.go_bind_ok _ _ _ _ _ (Eng.go_modify _ _)]
  have kept : ((u.retiredAt ga).updSlot n (·.atomicDone old)).slot? n = some (x.atomicDone old) := by simp [held]
  refine (congrArg (fun r => Host.Outcome.next (endSlot n r)) (Eng.go_bind_ok _ _ _ _ _ (Eng.go_getSlot n _ _ kept))).trans ?_
  rw [if_pos unkept]
  rfl

end

/-- Settles O44: ACOPY, ACOPY_FINAL as it finds its group, and REMOTE_ATOMIC. -/
theorem fabricCopiesAndAtomicsComplete : Obligations.FabricCopiesAndAtomicsComplete := by
  intro s t u n sl x v w dst len
  refine ⟨fun p l s1 s2 => exec_acopy_copied, exec_acopyFinal_waits, fun h clear => ⟨fun st failed => ?_, fun a b c sound run => ?_⟩,
    fun a b c held op waits clear free sound run => ?_, fun ga old x => exec_remoteAtomic_done⟩
  · rw [exec_acopyFinal_clear h clear, finalBody_go_failed (by rwa [Slot.run_copyGroup])]
    rfl
  · rw [exec_acopyFinal_clear h clear, finalBody_go_sound (by rwa [Slot.run_copyGroup]), run]
    rfl
  · have runs : (finalBody n sl.resumed).go (s.setSlot n sl.resumed) = (.ok (a, b, c), t) :=
      (finalBody_go_sound (s := s.setSlot n sl.resumed) (sl := sl.resumed) sound).trans run
    rw [exec_acopyFinalSend_clear held op waits clear free, runs]
    rfl

end Sys2Proof.Machine
end

section

/-!
### The pair (13 R354 to R368)

A record of identity by what the exchange of rollback values leaves; heartbeats; then the loss of the twin, by the clock, by the
unanswered probe and by its announced reset.
-/

namespace Sys2Proof.Machine

open Sys2Proof

@[simp] theorem State.logError_twin (s : State) (code cls tenant idx detail : Nat) :
    (s.logError code cls tenant idx detail).twin = s.twin := by
  simp [State.logError]

@[simp] theorem State.logFree_twin (s : State) (code cls tenant idx : Nat) : (s.logFree code cls tenant idx).twin = s.twin := by
  simp [State.logFree, State.draw]

@[simp] theorem State.fmEvent_twin (s : State) (code id port detail : Nat) : (s.fmEvent code id port detail).twin = s.twin := by
  unfold State.fmEvent
  split <;> rfl

@[simp] theorem State.wake_twin (s : State) : s.wake.twin = s.twin := by
  obtain ⟨pwr, woken⟩ := s.wake_eq
  rw [woken]

/-! #### Records of identity (13 R354, R355, R357, 16 R434) -/

@[simp] theorem State.refuse_pair (s : State) (r : IdentityRecord) : (s.refuse r).twin.pair = .refused := by
  simp [State.refuse]

section
variable {s : State} {r : IdentityRecord} (ready : s.pwr.device = .ready) (unpaired : s.twin.pair = .unpaired)
  (first : s.twin.record = none)
include ready unpaired first

/-- The first record of identity of a package that is READY is taken: the rollback values are exchanged, then the pair is judged. -/
theorem exec_identityRecord_taken : exec (.identityRecord r) s = .next
    (let t := s.exchangeRollback r
     if t.runningSvn < t.sec.rollback then t.refuse r
     else if s.fab.id = 0xFF ∨ r.packageId = 0xFF then t
     else if t.matches r = false then t.refuse r
     else t.pairUp r) := by
  have pair : (s.exchangeRollback r).twin.pair = .unpaired := unpaired
  have id : (s.exchangeRollback r).fab.id = s.fab.id := rfl
  show execIdentityRecord r s = _
  simp [execIdentityRecord, ready, unpaired, first, pair, id]

theorem exec_identityRecord_rolledBack (old : (s.exchangeRollback r).runningSvn < (s.exchangeRollback r).sec.rollback) :
    exec (.identityRecord r) s = .next ((s.exchangeRollback r).refuse r) := by
  rw [exec_identityRecord_taken ready unpaired first, if_pos old]

section
variable (current : (s.exchangeRollback r).sec.rollback ≤ (s.exchangeRollback r).runningSvn)
include current

theorem exec_identityRecord_unnamed (unnamed : s.fab.id = 0xFF ∨ r.packageId = 0xFF) :
    exec (.identityRecord r) s = .next (s.exchangeRollback r) := by
  rw [exec_identityRecord_taken ready unpaired first, if_neg (Nat.not_lt.2 current), if_pos unnamed]

section
variable (own : s.fab.id ≠ 0xFF) (theirs : r.packageId ≠ 0xFF)
include own theirs

theorem exec_identityRecord_unlike (unlike : (s.exchangeRollback r).matches r = false) :
    exec (.identityRecord r) s = .next ((s.exchangeRollback r).refuse r) := by
  rw [exec_identityRecord_taken ready unpaired first, if_neg (Nat.not_lt.2 current), if_neg (by simp [own, theirs]),
    if_pos unlike]

theorem exec_identityRecord_alike (alike : (s.exchangeRollback r).matches r = true) :
    exec (.identityRecord r) s = .next ((s.exchangeRollback r).pairUp r) := by
  rw [exec_identityRecord_taken ready unpaired first, if_neg (Nat.not_lt.2 current), if_neg (by simp [own, theirs]),
    if_neg (by simp [alike])]

end

end

end

/-- Packages match when their ids differ in the last bit alone and their assemblies are alike. -/
theorem State.matches_iff {s : State} {r : IdentityRecord} : s.matches r = true ↔
    r.packageId = s.fab.id ^^^ 1 ∧ r.hbm = s.asm.hbm ∧ r.flash = s.asm.flash ∧ r.ports = s.asm.ports := by
  simp [State.matches, and_assoc]

/-! #### Heartbeats (13 R355, R356) -/

/-- A sending counts one heartbeat, and adds a record for each UP twin port, or none where the pair is REFUSED. -/
theorem exec_heartbeatSend_counts (s : State) : ∃ t, exec .heartbeatSend s = .next t ∧
    t.twin.heartbeats = (s.twin.heartbeats + 1) % 2 ^ 16 ∧ (s.twin.pair = .refused → t.twin.sent = s.twin.sent) ∧
    (s.twin.pair ≠ .refused →
      t.twin.sent.length = s.twin.sent.length + (s.twinPorts.filter fun p => (s.port p).live).length) := by
  refine ⟨_, rfl, rfl, fun refused => ?_, fun unrefused => ?_⟩
  · simp [refused]
  · simp [unrefused]

section
variable {s : State} {f : HeartbeatFrame}

theorem exec_heartbeat_dropped (bad : f.crcOk = false ∨ f.packageId ≠ s.twin.twinId) : exec (.heartbeat f) s = .next s := by
  show execHeartbeat f s = _
  rw [execHeartbeat, if_neg (by rcases bad with crc | id <;> simp [*])]

/-- A frame of the twin that does not report JOINING is a heartbeat and nothing else. -/
theorem exec_heartbeat_heard (crc : f.crcOk = true) (twin : f.packageId = s.twin.twinId) (settled : f.pairState ≠ 2) :
    exec (.heartbeat f) s = .next s.heard := by
  show execHeartbeat f s = _
  rw [execHeartbeat, if_pos (by simp [crc, twin]), State.peerState, if_neg (by simp [settled])]

end

/-! #### The loss of the twin (13 R357, R362 to R365, R368) -/

section
variable {s : State}

theorem exec_twinLost_early (early : s.time < s.twin.lastHeartbeat + usToTicks (s.val (dkey 0xA001 1))) :
    exec .twinLost s = .next s := by
  show execTwinLost s = _
  rw [execTwinLost, if_pos (by simp [early])]

section
variable (watches : s.watchesTwin = true) (silent : s.twin.lastHeartbeat + usToTicks (s.val (dkey 0xA001 1)) ≤ s.time)
include watches silent

theorem exec_twinLost_fences (cut : s.wake.domainUp = false) : exec .twinLost s = .next s.wake.fence := by
  show execTwinLost s = _
  simp [execTwinLost, watches, Nat.not_lt.2 silent, cut]

theorem exec_twinLost_probes (reached : s.wake.domainUp = true) (paired : s.wake.twin.pair = .paired) :
    exec .twinLost s = .next s.wake.recordDegraded.probe := by
  show execTwinLost s = _
  simp only [State.wake_twin] at paired
  simp [execTwinLost, watches, Nat.not_lt.2 silent, reached, paired]

end

/-- The state whose probe is given up. -/
def State.probeDropped (s : State) : State :=
  { s with fab := { s.fab with tags := SMap.only s.fab.tags fun _ q => q.purpose ≠ Purpose.probe } }

theorem exec_probeTimeout_promotes (probing : s.twin.probing = true) :
    exec .probeTimeout s = .next s.probeDropped.promote := by
  show execProbeTimeout s = _
  rw [execProbeTimeout, if_pos probing]
  rfl

theorem exec_warmResetAnnounce_promotes (paired : s.twin.pair = .paired) (unprobed : s.twin.probing = false) :
    exec .warmResetAnnounce s = .next ({ s with twin := { s.twin with announced := true } } : State).heard.promote := by
  show execWarmResetAnnounce s = _
  rw [execWarmResetAnnounce, if_pos (by simp [paired, unprobed])]

end

/-- Settles O46: a record of identity by its verdict, then heartbeats, then the ways in which a twin is lost. -/
theorem pairsFormAndSurviveTheirTwin : Obligations.PairsFormAndSurviveTheirTwin := by
  intro s r
  refine ⟨fun ready unpaired first => ⟨exec_identityRecord_rolledBack ready unpaired first,
      exec_identityRecord_unnamed ready unpaired first, fun current own theirs => ⟨fun differs => ⟨?_, State.refuse_pair _ _⟩,
        fun id hbm flash ports => ?_⟩⟩, exec_heartbeatSend_counts s,
    fun f => ⟨exec_heartbeat_dropped, exec_heartbeat_heard⟩,
    fun watches => ⟨exec_twinLost_early,
      fun silent => ⟨exec_twinLost_fences watches silent, exec_twinLost_probes watches silent⟩⟩,
    exec_probeTimeout_promotes, exec_warmResetAnnounce_promotes⟩
  · have unlike : (s.exchangeRollback r).matches r = false := by
      rw [Bool.eq_false_iff, ne_eq, State.matches_iff]
      rintro ⟨id, hbm, flash, ports⟩
      rcases differs with other | other | other | other <;> contradiction
    exact exec_identityRecord_unlike ready unpaired first current own theirs unlike
  · exact exec_identityRecord_alike ready unpaired first current own theirs (State.matches_iff.2 ⟨id, hbm, flash, ports⟩)

end Sys2Proof.Machine
end

section

/-!
### Mirror records, the resilver and admission (13 R360, R361, R369, R371)
-/

namespace Sys2Proof.Machine

open Sys2Proof

section
variable {s : State}

/-! #### Records and acknowledgements (13 R361) -/

/-- A pair state in which records are taken is neither REFUSED nor FENCED. -/
theorem State.pair_ne_of_takesRecords (takes : s.takesRecords = true) : s.twin.pair ≠ .refused ∧ s.twin.pair ≠ .fenced := by
  rw [State.takesRecords] at takes
  constructor <;> intro shut <;> simp [shut] at takes

/-- The state that has heard of the twin and holds one record of it. -/
def State.receiving (s : State) (r : MirrorRecord) : State :=
  { s.heard with twin := { s.heard.twin with received := [r] } }

section
variable {r : MirrorRecord} (takes : s.takesRecords = true) (plain : fld r.header 0 8 ≠ 7)
include takes plain

theorem exec_mirror_again (again : mseqOf r < s.twin.appliedMseq) : exec (.mirror r) s = .next s.heard := by
  obtain ⟨unrefused, unfenced⟩ := State.pair_ne_of_takesRecords takes
  have again' : mseqOf r < s.heard.twin.appliedMseq := again
  show execMirror r s = _
  rw [execMirror, if_neg (by simp [unrefused, unfenced]), if_neg plain, if_pos (by simp [again'])]

/-- A record that was not applied yet, where none waits, is received; it is applied if it is the next. -/
theorem exec_mirror_received (new : s.twin.appliedMseq ≤ mseqOf r) (empty : s.twin.received = []) :
    exec (.mirror r) s = .next ((s.receiving r).applyReceived 1) := by
  obtain ⟨unrefused, unfenced⟩ := State.pair_ne_of_takesRecords takes
  have takes' : s.heard.takesRecords = true := takes
  have new' : s.heard.twin.appliedMseq ≤ mseqOf r := new
  have empty' : s.heard.twin.received = [] := empty
  show execMirror r s = _
  rw [execMirror, if_neg (by simp [unrefused, unfenced]), if_neg plain, if_neg (by simp [takes', new']), empty']
  rfl

end

theorem State.receiving_early {r : MirrorRecord} (early : mseqOf r ≠ s.twin.appliedMseq) :
    (s.receiving r).applyReceived 1 = s.receiving r := by
  simp [State.applyReceived, State.receiving, State.heard, early]

theorem State.receiving_next {r : MirrorRecord} (next : mseqOf r = s.twin.appliedMseq) :
    (s.receiving r).applyReceived 1 = ({ s.heard with twin := { s.heard.twin with
      received := [], appliedMseq := s.twin.appliedMseq + 1 } } : State).applyRecord r := by
  simp [State.applyReceived, State.receiving, State.heard, next]

/-- An acknowledgement lets go every record up to its number. -/
theorem exec_mirrorAck_taken {m : BitVec 64} (takes : s.takesRecords = true) :
    exec (.mirrorAck m) s = .next (({ s with twin := { s.twin with
      lastHeartbeat := s.time
      unacked := s.twin.unacked.filter fun x => !(decide (x.1 ≤ m.toNat))
      sent := s.twin.sent.filter fun x => !(decide (mseqOf x ≤ m.toNat)) } } : State).flushAnswers.commitDone) := by
  show execMirrorAck m s = _
  rw [execMirrorAck, if_pos takes]
  rfl

/-! #### The resilver (13 R369) -/

/-- The state whose copy has passed `done` bytes, and goes on at chunk `c` of its extent. -/
def State.copyAt (s : State) (done c : Nat) : State :=
  { s with twin := { s.twin with resilverDone := done, resilverChunk := c } }

theorem State.copyAt_eq (s : State) (done c : Nat) :
    (let t : State := { s with twin := { s.twin with resilverDone := done } }
     ({ t with twin := { t.twin with resilverChunk := c } } : State)) = s.copyAt done c := by
  cases s
  rfl

section
variable (recorded : s.twin.recordedDegraded = false) (running : s.twin.resilvered = false) (unpaired : s.twin.pair ≠ .paired)
  (mirrors : s.mirrorsMeta = true)
include recorded running unpaired mirrors

theorem exec_resilverChunk_sends {e : Nat} {l : List Nat} (left : s.copyList = e :: l) (more : s.twin.resilverChunk + 1 < 256) :
    let t := s.sendChunk e s.twin.resilverChunk
    exec .resilverChunk s = .next (t.copyAt (t.twin.resilverDone + 2 ^ 22) (s.twin.resilverChunk + 1)) := by
  show execResilverChunk s = _
  rw [execResilverChunk, if_neg (by simp [recorded, running, unpaired, mirrors]), left]
  exact congrArg Host.Outcome.next ((if_pos more).trans (State.copyAt_eq _ _ _))

theorem exec_resilverChunk_done (whole : s.copyList = []) (acked : ∀ x ∈ s.twin.unacked, x.2.1 ≠ metaLine) :
    exec .resilverChunk s = .next s.copyDone := by
  show execResilverChunk s = _
  rw [execResilverChunk, if_neg (by simp [recorded, running, unpaired, mirrors]), whole]
  have clear : ¬ (s.twin.unacked.any fun x => x.2.1 = metaLine) = true := by
    simpa only [List.any_eq_true, decide_eq_true_eq, not_exists, not_and] using acked
  exact congrArg Host.Outcome.next (if_neg clear)

end

/-! #### Admission (13 R371) -/

theorem exec_stepAdmit_done {n : Nat} {sl : Slot} (h : s.ready n 0x95 sl) :
    exec (.stepAdmit n) s = .next ((s.dispatch n sl).stepBoundary.finish n .ok 0 (sl.f 320 48)) := by
  show execStepAdmit n s = _
  rw [execStepAdmit, runSlot, runSlotIf_of_ready h rfl, Eng.go_bind_ok _ _ _ _ _ (Eng.go_modify _ _), Slot.run_f]
  rfl

theorem exec_admitWaitExpiry_waits (limited : s.val (dkey 0xA003 1) ≠ 0) : exec .admitWaitExpiry s = .next s.stepBoundary :=
  congrArg Host.Outcome.next (if_neg limited)

theorem exec_admitWaitExpiry_unlimited (unlimited : s.val (dkey 0xA003 1) = 0) : exec .admitWaitExpiry s = .next s :=
  congrArg Host.Outcome.next (if_pos unlimited)

/-- The state that has handed the rings of package `x` over, and holds nothing of its twin. -/
def State.handedOver (s : State) (x : Nat) : State :=
  let k := s.keepContexts
  (k.sendRecord 2 0 0 (2 ^ 64 - 1) metaLine none
    { header := 0, data := [], content := [s.metaFor x true, k.metaOf] }).dropTwin

/-- The twin of a handover answers for its id again. -/
def State.twinAdmitted (s : State) (m : Meta) : State :=
  { s with twin := { s.twin with
    pair := .paired, answersFor := none, admission := false, resilvered := false, announced := false
    held := some { m with handover := false }, copied := [], resilverChunk := 0 } }

theorem exec_admissionHandover_done {x : Nat} (answers : s.twin.answersFor = some x) (admits : s.twin.admission = true)
    (idle : ∀ p ∈ s.fe.slots, p.2.ring < resumedRing) :
    exec .admissionHandover s = .next
      (((((s.handedOver x).twinAdmitted (s.metaFor x true)).sendNotices x true).fmEvent 0x09 x 0 0).logFree 0x0014 13 0 x) := by
  show execAdmissionHandover s = _
  rw [execAdmissionHandover, answers]
  exact congrArg Host.Outcome.next (if_neg (by simpa [admits] using idle))

end

/-- Settles O47: the records, then the resilver, then the admission. -/
theorem twinRecordsResilverAndAdmission : Obligations.TwinRecordsResilverAndAdmission := by
  intro s
  refine ⟨fun r takes plain => ⟨exec_mirror_again takes plain, fun early empty => ?_, fun next empty => ?_⟩,
    fun m => exec_mirrorAck_taken,
    fun recorded running unpaired mirrors =>
      ⟨fun e l => exec_resilverChunk_sends recorded running unpaired mirrors,
        exec_resilverChunk_done recorded running unpaired mirrors⟩,
    fun n sl => exec_stepAdmit_done, exec_admitWaitExpiry_waits, exec_admitWaitExpiry_unlimited,
    fun x => exec_admissionHandover_done⟩
  · rw [exec_mirror_received takes plain early.le empty, State.receiving_early early.ne']
    rfl
  · rw [exec_mirror_received takes plain next.ge empty, State.receiving_next next]
    rfl

end Sys2Proof.Machine
end

section

/-!
### Request contexts (13 R372 to R384)

A command on a context runs at the owner that it has found, and ends or waits as its action at the owner does; then the actions
one by one, and the deadline of an offer.
-/

namespace Sys2Proof.Machine

open Sys2Proof

section
variable {s t : State} {n : Nat} {sl : Slot}

/-! #### CONTEXT_OPEN (13 R374) -/

/-- The entry of a context that a CONTEXT_OPEN makes at package `own` of pages of the pool. -/
def Slot.openedEntry (sl : Slot) (own : Nat) (pages : List Nat) : Ledger :=
  { tenant := sl.tenant, epoch := 1, state := .owned, owner := own, peer := 0, phaseDone := 0, ckptSeq := 0,
    deadline := 0, asid := sl.asid, length := sl.f 192 32, va := sl.f 256 57, pool := pages, offerSlot := none }

/-- The state that has given a serial number to a context. -/
def State.serialTaken (s : State) : State := { s with ctx := { s.ctx with serial := (s.ctx.serial + 1) % 2 ^ 34 } }

theorem exec_contextOpen_made (h : s.ready n 0x96 sl) (lo : 1 ≤ sl.f 192 32) (hi : sl.f 192 32 ≤ 2048)
    (free : (s.dispatch n sl).rangeOk sl.asid (sl.f 256 57) 1 (sl.f 192 32 * 2 ^ 21) = true)
    (pool : ((s.dispatch n sl).poolPages.take (sl.f 192 32)).length = sl.f 192 32)
    (mirror : (s.dispatch n sl).twinRoom (sl.f 192 32) = true) (room : (s.dispatch n sl).ctx.ledger.length < 65536) :
    let d := s.dispatch n sl
    let pages := d.poolPages.take (sl.f 192 32)
    let key := d.ownId * 2 ^ 34 + d.ctx.serial
    let e := sl.openedEntry d.ownId pages
    exec (.contextOpen n) s = .next
      ((((((d.serialTaken).zeroPages pages).setEntry key e).mapContext e).mirrorMeta (some n)).finish n .ok 0 key) := by
  show execContextOpen n s = _
  rw [execContextOpen, runSlot, runSlotIf_of_ready h rfl, Eng.go_bind_ok _ _ _ _ _ (Eng.go_get _)]
  simp only [Slot.run_f, Slot.run_asid, Slot.run_tenant]
  rw [Eng.go_needE_bind _ _ _ (by simp [-Nat.reducePow, lo, hi, free]),
    Eng.go_needE_bind _ _ _ (by simp only [pool, mirror, room]; rfl)]
  rfl

/-! #### Commands at the owner (13 R380) -/

/-- The action at the owner of a command of this package. -/
def Slot.ownAct (sl : Slot) (n : Nat) (s : State) : ContextAct :=
  { who := sl.who n 5, slot := some n, key := sl.seq, driver := ((s.ring? sl.ring).map (·.driver)).getD false
    stage := sl.cursor, mark := setCursor n }

/-- What a command of an opcode does to the entry of its context. -/
def ContextAct.command (a : ContextAct) (op k : Nat) (d : Desc) (e : Ledger) : Eng (Status × Nat × Nat) :=
  match op with
  | 0x90 => offerAct a k d e
  | 0x92 => releaseAct a k e
  | 0x94 => checkpointAct a k e
  | _ => runAct a k d e

theorem contextAct_go_owned {a : ContextAct} {op k : Nat} {d : Desc} {e : Ledger} (found : s.entry? k = some e)
    (tenant : e.tenant = a.who.tenant) (here : a.stage ≠ 0 ∨ e.state ≠ .gone) :
    (contextAct a op k d).go s = (a.command op k d e).go s := by
  have moved : ¬ (a.stage = 0 ∧ e.state = .gone) := by tauto
  rw [contextAct, Eng.go_bind_ok _ _ _ _ _ (Eng.go_get _), found]
  dsimp only
  rw [if_neg (by simp [tenant]), if_neg (by simpa using moved)]
  rfl

/-- What a command does with the answer of its action at the owner: it looks for an owner again where the context has moved, and
a RELEASE frees the entries passed, of which there are none. -/
def contextAnswer (op n : Nat) (sl : Slot) (x : Status × Nat × Nat) : Eng (Status × Nat × Nat) := do
  if x.2.1 = movedMark then do
    clearMail (sl.who n 5)
    modify fun s => s.updSlot n fun x => { x with marks := [] }
    waitE
  else do
    if op = 0x92 && x.1.isOk then freeChain (sl.who n 5) sl (sl.f 128 40) [] else pure ()
    pure x

theorem contextAnswer_go_stays {op c r : Nat} {st : Status} (stays : c ≠ movedMark) :
    (contextAnswer op n sl (st, c, r)).go s = (.ok (st, c, r), s) := by
  simp [contextAnswer, stays, freeChain]

section
variable {op p : Nat} {e : Ledger} (h : s.begun n op sl) (known : sl.marks = [p]) (mine : s.answersTo p = true)
  (found : s.entry? (sl.f 128 40) = some e) (tenant : e.tenant = sl.tenant) (here : sl.cursor ≠ 0 ∨ e.state ≠ .gone)
include h known mine found tenant here

/-- A command that has found this package to be the owner runs its action here. -/
theorem contextCommand_owned : contextCommand op n s = .next
    (endSlot n (((sl.ownAct n s).command op (sl.f 128 40) sl.desc e >>= contextAnswer op n sl).go s)) := by
  have owner : (ownerOf (sl.who n 5) n sl (sl.f 128 40)).go s = (.ok (p, []), s) := by simp [ownerOf, known]
  have act := contextAct_go_owned (a := sl.ownAct n s) (op := op) (d := sl.desc) found tenant here
  rw [Eng.go_bind, ← act, ← Eng.go_bind, contextCommand, runSlot_of_begun h, Eng.go_bind_ok _ _ _ _ _ (Eng.go_get _),
    Eng.go_bind_ok _ _ _ _ _ owner, Eng.go_bind_ok _ _ _ _ _ (Eng.go_get _)]
  simp only [mine, if_true]
  rfl

theorem contextCommand_waits (run : ((sl.ownAct n s).command op (sl.f 128 40) sl.desc e).go s = (.error .wait, t)) :
    contextCommand op n s = .next t := by
  rw [contextCommand_owned h known mine found tenant here, Eng.go_bind_fail _ run, endSlot_wait]

theorem contextCommand_done {st : Status} {c r : Nat} (stays : c ≠ movedMark)
    (run : ((sl.ownAct n s).command op (sl.f 128 40) sl.desc e).go s = (.ok (st, c, r), t)) :
    contextCommand op n s = .next (t.finish n st c r) := by
  rw [contextCommand_owned h known mine found tenant here, Eng.go_bind_ok _ _ _ _ _ run, contextAnswer_go_stays stays,
    endSlot_ok]

end

/-! #### OFFER, RELEASE and CHECKPOINT at the owner (13 R376 to R380) -/

section
variable {a : ContextAct} {k : Nat} {d : Desc} {e : Ledger}

/-- An OFFER that begins is checkpointed, and waits for the twin to have it. -/
theorem offerAct_go_begins {v : Unit} (first : a.stage = 0) (owned : e.state = .owned) (other : fld d 168 6 ≠ s.ownId)
    (settled : (settlePages e.pool).go s = (.ok v, t)) (mark : a.mark = setCursor n) :
    (offerAct a k d e).go s = (.error .wait, (t.sendCheckpoint k e a.slot).updSlot n fun x => { x with cursor := 1 }) := by
  rw [offerAct, Eng.go_bind_ok _ _ _ _ _ (Eng.go_get _), first]
  refine (Eng.go_needE_bind _ _ _ (by simp [owned, other])).trans ?_
  rw [Eng.go_bind_ok _ _ _ _ _ settled,
    Eng.go_bind_ok _ _ _ _ _ (Eng.go_modify _ _), mark]
  rfl

section
variable {epoch : Nat} (waits : a.stage = 2 + epoch)
include waits

theorem offerAct_go_gone (gone : e.state = .gone) : (offerAct a k d e).go s = (.ok (.ok, 0, epoch + 1), s) := by
  rw [offerAct, Eng.go_bind_ok _ _ _ _ _ (Eng.go_get _), waits, Nat.add_comm]
  simp [gone]

theorem offerAct_go_reclaimed (back : e.state = .owned) (after : e.epoch = epoch + 2) :
    (offerAct a k d e).go s = (.ok (.offerExpired, 0, epoch + 2), s) := by
  rw [offerAct, Eng.go_bind_ok _ _ _ _ _ (Eng.go_get _), waits, Nat.add_comm]
  simp [back, after]

end

theorem releaseAct_go_released (owned : e.state = .owned)
    (idle : ∀ r ∈ s.ctx.runs, r.2.context = k → r.2.done.isSome = true) :
    (releaseAct a k e).go s = (.ok (.ok, 0, 0), ((s.leaveContext k e).delEntry k).mirrorMeta a.slot) := by
  have ended : (s.ctx.runs.any fun r => r.2.context = k && r.2.done.isNone) = false := by
    rw [List.any_eq_false]
    intro r mem
    simpa [Option.ne_none_iff_isSome] using idle r mem
  rw [releaseAct, Eng.go_bind_ok _ _ _ _ _ (Eng.go_get _), Eng.go_needE_bind _ _ _ (by simp [owned]),
    Eng.go_holdE_bind _ _ (by rw [ended]; rfl)]
  rfl

theorem checkpointAct_go_sent {v : Unit} (held : e.state = .owned ∨ e.state = .offered)
    (settled : (settlePages e.pool).go s = (.ok v, t)) :
    (checkpointAct a k e).go s = (.ok (.ok, 0, 0), t.sendCheckpoint k e a.slot) := by
  rw [checkpointAct, Eng.go_needE_bind _ _ _ (by simpa using held), Eng.go_bind_ok _ _ _ _ _ settled]
  rfl

end

end

/-! #### The deadline of an offer (13 R378) -/

section
variable {s : State} {c : Nat} {e : Ledger} (found : s.entry? c = some e)
include found

theorem exec_offerDeadline_passed (offered : e.state = .offered) (passed : e.deadline ≤ s.time) :
    exec (.offerDeadline c) s = .next (s.reclaim c e) := by
  show execOfferDeadline c s = _
  simp [execOfferDeadline, found, offered, passed]

theorem exec_offerDeadline_runs (runs : e.state ≠ .offered ∨ s.time < e.deadline) : exec (.offerDeadline c) s = .next s := by
  have early : e.state = .offered → s.time < e.deadline := fun offered => runs.resolve_left (not_not.2 offered)
  show execOfferDeadline c s = _
  simpa [execOfferDeadline, found] using fun offered passed => absurd (early offered) (Nat.not_lt.2 passed)

end

/-- Settles O48: CONTEXT_OPEN, then the commands at the owner by their actions, then the deadline of an offer. -/
theorem contextsOpenOfferAndRelease : Obligations.ContextsOpenOfferAndRelease := by
  intro s t n sl v k
  refine ⟨exec_contextOpen_made, fun p e known mine found tenant => ⟨fun h first owned other settled => ?_,
    fun epoch h waits => ?_, fun h owned idle => ?_, fun h here held settled => ?_⟩,
    fun c e found => ⟨fun offered passed => ?_, exec_offerDeadline_runs found⟩⟩
  · exact contextCommand_waits h known mine found tenant (.inr (by simp [owned]))
      (offerAct_go_begins first owned other settled rfl)
  · have begun : sl.cursor ≠ 0 := by omega
    exact ⟨fun gone => contextCommand_done h known mine found tenant (.inl begun) (by decide) (offerAct_go_gone waits gone),
      fun back after => contextCommand_done h known mine found tenant (.inl begun) (by decide)
        (offerAct_go_reclaimed waits back after)⟩
  · exact contextCommand_done h known mine found tenant (.inr (by simp [owned])) (by decide) (releaseAct_go_released owned idle)
  · exact contextCommand_done h known mine found tenant here (by decide) (checkpointAct_go_sent held settled)
  · rw [exec_offerDeadline_passed found offered passed, State.reclaim]
    exact ⟨fun silent => by rw [silent], fun q slot => by rw [slot]⟩

end Sys2Proof.Machine
end

section

/-!
### TAKE and LEDGER_QUERY (13 R379, R381)
-/

namespace Sys2Proof.Machine

open Sys2Proof

section
variable {s t u : State} {n : Nat} {sl : Slot} {e : Ledger}

/-! #### TAKE (13 R379) -/

/-- The entry of an offer that its taker begins to take in address space `asid`. -/
def Ledger.taken (e : Ledger) (asid : Nat) : Ledger := { e with state := .taking, epoch := e.epoch + 1, asid }

/-- A TAKE whose offer has landed makes its entry TAKING, and waits for the twin to have that. -/
theorem exec_take_begins {a : Asid} (h : s.ready n 0x91 sl) (found : (s.dispatch n sl).entry? (sl.f 128 40) = some e)
    (inbound : e.state = .inbound) (peer : e.peer = sl.f 168 6) (tenant : e.tenant = sl.tenant) (own : sl.ring < resumedRing)
    (space : (s.dispatch n sl).asid? (e.asid % 2 ^ 16) = some a) (theirs : a.tenant = e.tenant)
    (unmapped : (s.dispatch n sl).mapped (e.asid % 2 ^ 16) e.va (e.length * 2 ^ 21) = false) :
    exec (.take n) s = .next
      (((s.dispatch n sl).setEntry (sl.f 128 40) (e.taken (e.asid % 2 ^ 16))).mirrorMeta (some n)) := by
  show execTake n s = _
  rw [execTake, runSlot, runSlotIf_of_ready h rfl, Eng.go_bind_ok _ _ _ _ _ (Eng.go_get _)]
  simp only [Slot.run_f, Slot.run_tenant, Slot.run_ring, found, inbound, if_pos own, Nat.add_zero]
  rw [Eng.go_holdE_bind _ _ (by simp [peer]), Eng.go_needE_bind _ _ _ (by simp [tenant]),
    Eng.go_bind_ok _ _ _ _ _ (Eng.go_get _), Eng.go_needE_bind _ _ _ (by rw [space]; simp [theirs]),
    Eng.go_needE_bind _ _ _ (by rw [unmapped]; rfl)]
  rfl

section
variable (h : s.begun n 0x91 sl) (found : s.entry? (sl.f 128 40) = some e) (taking : e.state = .taking)
  (tenant : e.tenant = sl.tenant) (acked : s.acked (some n) = true)
include h found taking tenant acked

/-- A TAKE whose entry the twin has sends its CAS. -/
theorem exec_take_sends : exec (.take n) s =
    .next (endSlot n ((takeCas (sl.who n 5) n (sl.f 128 40) e).go s)) := by
  show execTake n s = _
  rw [execTake, runSlot_of_begun h, Eng.go_bind_ok _ _ _ _ _ (Eng.go_get _)]
  simp only [found, taking]
  rw [Eng.go_needE_bind _ _ _ (by simp [tenant]), Eng.go_bind_ok _ _ _ _ _ (Eng.go_get _), Eng.go_holdE_bind _ _ acked]

end

/-- The request of the CAS of a TAKE of context `k`. -/
def Ledger.casHead (e : Ledger) (k : Nat) : Head :=
  { type := 0x03, dst := e.peer, tenant := e.tenant, addr := ledgerWordAddress, len := 8, aop := 9, asize := 1, ctr := k }

/-- A TAKE whose CAS has found `word` at the offerer takes the context, or has lost it to the owner that the word names. -/
def casAnswer (n k : Nat) (e : Ledger) (expected word : Nat) : Eng (Status × Nat × Nat) :=
  if word = expected then do
    modify fun s => s.winContext k e (some n)
    pure (.ok, 0, e.epoch)
  else do
    modify fun s => s.loseContext k e (bitsOf word 52 6) (some n)
    pure (.offerExpired, 0, bitsOf word 0 48)

theorem casAnswer_go_won {k expected word : Nat} (won : word = expected) :
    (casAnswer n k e expected word).go s = (.ok (.ok, 0, e.epoch), s.winContext k e (some n)) := by
  rw [casAnswer, if_pos won]
  rfl

theorem casAnswer_go_lost {k expected word : Nat} (lost : word ≠ expected) : (casAnswer n k e expected word).go s =
    (.ok (.offerExpired, 0, bitsOf word 0 48), s.loseContext k e (bitsOf word 52 6) (some n)) := by
  rw [casAnswer, if_neg lost]
  rfl

/-- The CAS of a TAKE expects the word of an offer to this package, and is judged by the word that it has found. -/
theorem takeCas_go_answered {k : Nat} {w : Who} {r : Resp} {v : Unit}
    (answered : (askRaw w (globalOf e.peer ledgerWordAddress + atomicMark) (e.casHead k)
      (leBytes 8 (ownershipWord e.epoch 5 s.ownId s.ownId) ++ leBytes 8 (ownershipWord (e.epoch - 1) 2 e.owner s.ownId))
        (.slotAtomic n)).go s = (.ok r, t))
    (done : r.status < 0x40) (noted : (noteTwin w r).go t = (.ok v, u)) :
    (takeCas w n k e).go s =
      (casAnswer n k e (ownershipWord (e.epoch - 1) 2 e.owner s.ownId) (leNat (r.data.take 8))).go u := by
  rw [takeCas, Eng.go_bind_ok _ _ _ _ _ (Eng.go_get _)]
  refine (Eng.go_bind_ok _ _ _ _ _ (Eng.go_attempt_ok answered)).trans ?_
  simp only [if_pos done]
  exact Eng.go_bind_ok _ _ _ _ _ noted

section
variable (held : s.slot? n = some sl) (op : sl.opcode = 0x91) (running : sl.stage = .running)
  (unlanded : s.entry? (sl.f 128 40) = none)
include held op running unlanded

theorem exec_takeWaitExpiry_ends (late : sl.dispatchTime + usToTicks (s.val (dkey 0xA010 2)) ≤ s.time) :
    exec (.takeWaitExpiry n) s = .next (s.finish n .offerExpired 0 0) := by
  show execTakeWaitExpiry n s = _
  simp [execTakeWaitExpiry, held, op, running, unlanded, Nat.not_lt.2 late]

theorem exec_takeWaitExpiry_waits (early : s.time < sl.dispatchTime + usToTicks (s.val (dkey 0xA010 2))) :
    exec (.takeWaitExpiry n) s = .next s := by
  show execTakeWaitExpiry n s = _
  simp [execTakeWaitExpiry, held, op, running, unlanded, early]

end

/-! #### LEDGER_QUERY (13 R381) -/

/-- A LEDGER_QUERY of its own tenant's context, which this package does not take, counts the entries that it has read. -/
theorem exec_ledgerQuery_done {l : List (Option Nat)} {v : Unit} (h : s.ready n 0x93 sl)
    (read : (readLedgers (sl.who n 5) (sl.run s.time) (sl.f 128 40) ((s.dispatch n sl).queryPackages (sl.f 128 40))).go
      (s.dispatch n sl) = (.ok l, t))
    (theirs : ((newestEntry l).all fun x => x = 0 || bitsOf x 48 12 = sl.tenant) = true)
    (written : (writeVa (sl.who n 5) sl.asid (sl.f 256 57) (l.flatMap fun x => leBytes 64 (x.getD 0))).go t = (.ok v, u))
    (settled : ∀ e, (s.dispatch n sl).entry? (sl.f 128 40) = some e → e.state ≠ .taking) :
    exec (.ledgerQuery n) s = .next (u.finish n .ok (l.filter (·.isSome)).length (((newestEntry l).map entryOwner).getD 0)) := by
  show execLedgerQuery n s = _
  rw [execLedgerQuery, runSlot, runSlotIf_of_ready h rfl, Eng.go_bind_ok _ _ _ _ _ (Eng.go_get _)]
  simp only [Slot.run_f, Slot.run_who, Slot.run_tenant, Slot.run_ring, Slot.run_asid]
  rw [Eng.go_bind_ok _ _ _ _ _ read, Eng.go_needE_bind _ _ _ (by rw [theirs, Bool.or_true]), Eng.go_bind_ok _ _ _ _ _ written]
  cases found : (s.dispatch n sl).entry? (sl.f 128 40) with
  | none => rfl
  | some e =>
    dsimp only
    rw [if_neg (settled e found)]
    rfl

end

/-- Settles O49: a TAKE by its steps, then LEDGER_QUERY. -/
theorem takesAndLedgerQueriesComplete : Obligations.TakesAndLedgerQueriesComplete := by
  intro s t u n sl v k w d
  refine ⟨fun e h found inbound peer tenant own ⟨a, space, theirs⟩ unmapped =>
      exec_take_begins h found inbound peer tenant own space theirs unmapped,
    fun e r h found taking tenant acked answered done noted => ?_,
    fun held op running unlanded => ⟨exec_takeWaitExpiry_ends held op running unlanded,
      exec_takeWaitExpiry_waits held op running unlanded⟩,
    fun l => exec_ledgerQuery_done⟩
  rw [exec_take_sends h found taking tenant acked, takeCas_go_answered answered done noted]
  exact ⟨fun won => by rw [casAnswer_go_won won, endSlot_ok], fun lost => by rw [casAnswer_go_lost lost, endSlot_ok]⟩

end Sys2Proof.Machine
end

section

/-!
### Phases, known-answer tests and the firmware watchdog (13 R383, R388, R390)
-/

namespace Sys2Proof.Machine

open Sys2Proof

/-! #### Phases (13 R383) -/

/-- The run of a CONTEXT_RUN of context `k`: its phases and their table are in its descriptor. -/
def ContextAct.newRun (a : ContextAct) (k : Nat) (d : Desc) : Running :=
  { context := k, phase := fld d 192 32, first := fld d 192 32, last := fld d 192 32 + fld d 224 32, table := fld d 256 57
    driver := a.driver, child := none, saved := false, done := none }

/-- A CONTEXT_RUN whose table lies in its context records its run and starts the first phase. -/
theorem runAct_go_begins {s : State} {a : ContextAct} {k : Nat} {d : Desc} {e : Ledger} (new : SMap.look s.ctx.runs a.key = none)
    (owned : e.state = .owned) (least : 1 ≤ fld d 224 32) (most : fld d 224 32 ≤ 65536) (begins : e.va ≤ fld d 256 57)
    (aligned : fld d 256 57 % 64 = 0)
    (ends : fld d 256 57 + 64 * (fld d 192 32 + fld d 224 32) ≤ e.va + e.length * 2 ^ 21) :
    (runAct a k d e).go s = (.error .wait, ((s.setRun a.key (a.newRun k d)).mirrorMeta none).beginPhase a.key (a.newRun k d)) := by
  have counted : fld d 224 32 ≠ 0 := by omega
  rw [runAct, Eng.go_bind_ok _ _ _ _ _ (Eng.go_get _), new]
  simp only [if_neg counted]
  rw [Eng.go_holdE_bind _ _ (by simp [owned]), Eng.go_needE_bind _ _ _ (by simp [owned]),
    Eng.go_needE_bind _ _ _ (by simp [-Nat.reducePow, most, begins, aligned, ends])]
  rfl

section
variable {s : State} {n key : Nat} {sl : Slot} {r : Running}

/-- The end of a phase is taken up once its slot is settled, or its checkpoint was sent already. -/
theorem exec_phaseComplete_taken (held : s.slot? n = some sl) (runs : s.runOf n = some (key, r)) (finished : sl.stage = .finished)
    (settled : r.saved = true ∨ s.slotSettled n = true) :
    exec (.phaseComplete n) s = .next ((phaseEnd n sl key r).go s).2 := by
  show execPhaseComplete n s = _
  rw [execPhaseComplete, held, runs]
  exact congrArg Host.Outcome.next (if_neg (by rcases settled with h | h <;> simp [finished, h]))

theorem phaseEnd_go_saved (saved : r.saved = true) (ok : sl.status = .ok) (acked : s.acked (some n) = true) :
    (phaseEnd n sl key r).go s = (.ok (), (s.freeSlot n sl).nextPhase key r) := by
  rw [phaseEnd, Eng.go_bind_ok _ _ _ _ _ (Eng.go_get _), if_neg (by simp [ok, Status.isOk, Status.code]), if_pos saved]
  exact (Eng.go_bind_ok _ _ _ _ _ (Eng.go_get _)).trans (Eng.go_holdE_bind _ _ acked)

theorem phaseEnd_go_failed (failed : sl.status.isOk = false) :
    (phaseEnd n sl key r).go s = (.ok (), (s.freeSlot n sl).endRun key r sl.status) := by
  rw [phaseEnd, Eng.go_bind_ok _ _ _ _ _ (Eng.go_get _), if_pos (by simp [failed])]
  rfl

end

/-! #### Known-answer tests (13 R388) -/

section
variable {s : State}

theorem exec_katPeriod_starts (awake : s.awake = true) (serves : s.pwr.served = true) : exec .katPeriod s = .next
    (((List.range 25600).filter s.katDue).foldl (fun s n => s.updCore n fun c => { c with testing := true }) s) := by
  show execKatPeriod s = _
  rw [execKatPeriod, if_pos (by simp [awake, serves])]

theorem exec_katPeriod_idle (asleep : s.awake = false ∨ s.pwr.served = false) : exec .katPeriod s = .next s := by
  show execKatPeriod s = _
  rw [execKatPeriod, if_neg (by rcases asleep with h | h <;> simp [h])]

/-- A core that passes its test stays as available as it was. -/
theorem exec_katDone_passes {n : Nat} (testing : (s.core n).testing = true) : exec (.katDone n true) s =
    .next (s.updCore n fun c => { c with testing := false, available := c.available && true }) := by
  show execKatDone n true s = _
  rw [execKatDone, if_neg (by simp [testing])]
  rfl

/-- A failed test is counted and logged, and its core is unavailable. -/
theorem exec_katDone_fails {n : Nat} (testing : (s.core n).testing = true) : exec (.katDone n false) s =
    .next (((s.updCore n fun c => { c with testing := false, available := c.available && false }).bump
      (dkey 0xA021 1) 1).logFree 0x0017 0 0 n) := by
  show execKatDone n false s = _
  rw [execKatDone, if_neg (by simp [testing])]
  rfl

@[simp] theorem State.logFree_grid (s : State) (code cls tenant idx : Nat) : (s.logFree code cls tenant idx).grid = s.grid := by
  simp [State.logFree, State.draw, State.logError]

@[simp] theorem State.core_logFree (s : State) (code cls tenant idx n : Nat) :
    (s.logFree code cls tenant idx).core n = s.core n := by
  simp [State.core]

@[simp] theorem State.core_bump (s : State) (k v n : Nat) : (s.bump k v).core n = s.core n := rfl

/-! #### The firmware watchdog (13 R390) -/

@[simp] theorem State.writeMgmtBlock_mgmt (s : State) : s.writeMgmtBlock.mgmt = s.mgmt := by
  unfold State.writeMgmtBlock
  split <;> rfl

@[simp] theorem State.restartFirmware_restarting (s : State) : s.restartFirmware.mgmt.restarting = true := by
  simp [State.restartFirmware]

@[simp] theorem State.restartFirmware_sources (s : State) : s.restartFirmware.mgmt.sources = [] := by
  simp [State.restartFirmware]

theorem exec_mgmtWatchdogExpiry_restarts (up : s.pwr.mgmtUp = true) (loaded : s.pwr.bootOnly = false)
    (runs : s.mgmt.restarting = false) : exec .mgmtWatchdogExpiry s = .next s.restartFirmware :=
  congrArg Host.Outcome.next (if_pos (by simp [up, loaded, runs]))

/-- The state whose firmware answers again. -/
def State.restarted (s : State) : State := { s with mgmt := { s.mgmt with restarting := false } }

theorem exec_firmwareRestartDone_measures (restarting : s.mgmt.restarting = true) (loaded : s.pwr.bootOnly = false) :
    exec .firmwareRestartDone s = .next (s.restarted.extendMr 1 s.restarted.running.digest).writeMgmtBlock := by
  have loaded' : ¬ s.restarted.pwr.bootOnly = true := by simp [State.restarted, loaded]
  show execFirmwareRestartDone s = _
  rw [execFirmwareRestartDone, if_neg (by simp [restarting])]
  exact congrArg Host.Outcome.next (if_neg loaded')

end

/-- Settles O50: the phases, then the known-answer tests, then the firmware. -/
theorem phasesTestsAndTheFirmwareWatchdog : Obligations.PhasesTestsAndTheFirmwareWatchdog := by
  intro s n sl
  refine ⟨fun p e known mine found tenant h new owned least most begins aligned ends => ?_,
    fun key r held runs finished => ⟨fun saved ok acked => ?_, fun settled failed => ?_⟩,
    exec_katPeriod_starts, exec_katPeriod_idle,
    fun testing => ⟨exec_katDone_passes testing, _, exec_katDone_fails testing, ?_, ?_⟩,
    fun up loaded runs => ⟨exec_mgmtWatchdogExpiry_restarts up loaded runs, s.restartFirmware_restarting,
      s.restartFirmware_sources⟩,
    exec_firmwareRestartDone_measures⟩
  · exact contextCommand_waits h known mine found tenant (.inr (by simp [owned]))
      (runAct_go_begins new owned least most begins aligned ends)
  · rw [exec_phaseComplete_taken held runs finished (.inl saved), phaseEnd_go_saved saved ok acked]
  · rw [exec_phaseComplete_taken held runs finished (.inr settled), phaseEnd_go_failed (by rw [failed]; rfl), failed]
  · simp
  · simp

end Sys2Proof.Machine
end

section

/-!
### A step, and the store at power-on
-/

namespace Sys2Proof.Machine

open Sys2Proof

/-- Settles O1: the step matches on the queue. -/
theorem stepRunsFrontCommand : Obligations.StepRunsFrontCommand := by
  intro c rest s front
  rw [step, front]

/-- Settles O3: no byte of the store is listed at power-on. -/
theorem resetHasStoreForm : Obligations.ResetHasStoreForm := Memory.wf_nil

end Sys2Proof.Machine
end

section

/-!
### Counter sets and counter pages (15 R411 to R417)
-/

namespace Sys2Proof.Machine

open Sys2Proof

section
variable {s : State} {n : Nat} {sl : Slot}

/-! #### COUNTER_SAMPLE -/

@[simp] theorem State.trace_cnt_pages (s : State) (kind die port tenant body : Nat) :
    (s.trace kind die port tenant body).cnt.pages = s.cnt.pages := by
  unfold State.trace
  split <;> [(simp only []; split <;> rfl); rfl]

@[simp] theorem State.dispatch_cnt_pages (s : State) (n : Nat) (sl : Slot) : (s.dispatch n sl).cnt.pages = s.cnt.pages := by
  unfold State.dispatch
  simp only [State.trace_cnt_pages]
  split <;> [(split <;> rfl); rfl]

@[simp] theorem State.mapped_dispatch (s : State) (n : Nat) (sl : Slot) (asid va k : Nat) :
    (s.dispatch n sl).mapped asid va k = s.mapped asid va k := by
  simp [State.mapped]

/-- A ready COUNTER_SAMPLE runs its operation, dispatched. -/
theorem sampleOp_of_ready {op : Nat} (h : s.ready n 0x04 sl) (hop : sl.f 128 4 = op) (body : Slot → Eng (Status × Nat × Nat)) :
    sampleOp op n body s = endSlot n ((body (sl.run s.time)).go (s.dispatch n sl)) := by
  rw [sampleOp, runSlotIf_of_ready h (by simpa using hop)]

theorem exec_sampleTenantSet_written {t : State} {u : Unit} (h : s.ready n 0x04 sl) (op : sl.f 128 4 = 0)
    (aligned : sl.f 192 57 % 64 = 0)
    (written : (writeVa (sl.who n 5) sl.asid (sl.f 192 57) (sampleHeader 0 (sl.f 132 12) 0 0 s.time
      (SMap.get (s.dispatch n sl).cnt.since (sl.f 132 12) 0) false ++
        ((s.dispatch n sl).tenantSet (sl.f 132 12)).bytes)).go (s.dispatch n sl) = (.ok u, t)) :
    exec (.sampleTenantSet n) s =
      .next ((if sl.f 256 1 = 1 then t.clearSet (sl.f 132 12) else t).finish n .ok 0 0) := by
  show execSampleTenantSet n s = _
  rw [execSampleTenantSet, sampleOp_of_ready h op]
  simp only [Slot.run_f, Slot.run_who, Slot.run_asid]
  rw [Eng.go_needE_bind _ _ _ (by simp [aligned]), Eng.go_bind_ok _ _ _ _ _ (Eng.go_get _)]
  simp only [State.dispatch_time]
  rw [Eng.go_bind_ok _ _ _ _ _ written]
  by_cases clears : sl.f 256 1 = 1
  · rw [if_pos clears, if_pos clears]
    rfl
  · rw [if_neg clears, if_neg clears]
    rfl

theorem exec_sampleRingSet_written {t : State} {u : Unit} {r : Ring} {x : RingSet} (h : s.ready n 0x04 sl) (op : sl.f 128 4 = 1)
    (aligned : sl.f 192 57 % 64 = 0) (registered : s.ring? (sl.id 144 14) = some r)
    (counted : SMap.look (s.dispatch n sl).cnt.ringSets (sl.id 144 14) = some x)
    (written : (writeVa (sl.who n 5) sl.asid (sl.f 192 57) (sampleHeader 1 r.tenant (sl.id 144 14) (x.tag.getD (2 ^ 64 - 1)) s.time
      x.since x.running ++ x.set.bytes)).go (s.dispatch n sl) = (.ok u, t)) :
    exec (.sampleRingSet n) s = .next (t.finish n .ok 0 (x.tag.getD (2 ^ 64 - 1))) := by
  show execSampleRingSet n s = _
  rw [execSampleRingSet, sampleOp_of_ready h op]
  simp only [Slot.run_f, Slot.run_id, Slot.run_who, Slot.run_asid]
  rw [Eng.go_needE_bind _ _ _ (by simp [aligned]), Eng.go_bind_ok _ _ _ _ _ (Eng.go_get _)]
  simp only [State.ring?_dispatch, registered, State.dispatch_time, SMap.get, counted, Option.getD_some]
  rw [Eng.go_bind_ok _ _ _ _ _ written]
  rfl

theorem exec_clearTenantSet_cleared (h : s.ready n 0x04 sl) (op : sl.f 128 4 = 2) :
    exec (.clearTenantSet n) s = .next (((s.dispatch n sl).clearSet (sl.f 132 12)).finish n .ok 0 0) := by
  show execClearTenantSet n s = _
  rw [execClearTenantSet, sampleOp_of_ready h op, Slot.run_f]
  rfl

/-! #### Counter pages (15 R412, R413) -/

/-- The mapping of the counter page of an ASID. -/
def Slot.pageMapping (sl : Slot) : Mapping :=
  { asid := sl.asid, va := sl.f 192 57, page := 0, package := none, address := counterPageAt sl.asid, readOnly := true,
    kind := .devicePage }

theorem exec_mapCounterPage_maps (h : s.ready n 0x04 sl) (op : sl.f 128 4 = 3) (aligned : sl.f 192 57 % 2 ^ 16 = 0)
    (outside : inAlias (sl.f 192 57) = false) (unmapped : s.mapped sl.asid (sl.f 192 57) (2 ^ 16) = false)
    (first : SMap.has s.cnt.pages sl.asid = false) :
    let d := s.dispatch n sl
    exec (.mapCounterPage n) s = .next
      ((({ d with tr := { d.tr with maps := d.tr.maps ++ [sl.pageMapping] } } : State).refreshPage sl.asid
        { tenant := sl.tenant, va := sl.f 192 57, address := counterPageAt sl.asid, refreshes := 0 }).finish n .ok 0 0) := by
  show execMapCounterPage n s = _
  rw [execMapCounterPage, sampleOp_of_ready h op]
  simp only [Slot.run_f, Slot.run_asid, Slot.run_tenant]
  rw [Eng.go_bind_ok _ _ _ _ _ (Eng.go_get _), Eng.go_needE_bind _ _ _ (by simp [-Nat.reducePow, aligned, outside, unmapped]),
    Eng.go_needE_bind _ _ _ (by simp [first])]
  rfl

/-- The state without the counter page of ASID `asid` at `va`. -/
def State.withoutPage (s : State) (asid va : Nat) : State :=
  let u := s.unmapIf fun m => m.asid = asid && m.kind = .devicePage && m.va = va
  { u with cnt := { u.cnt with pages := SMap.del u.cnt.pages asid } }

@[simp] theorem State.withoutPage_pages (s : State) (asid va : Nat) :
    (s.withoutPage asid va).cnt.pages = SMap.del s.cnt.pages asid := rfl

@[simp] theorem State.slot?_withoutPage (s : State) (asid va m : Nat) : (s.withoutPage asid va).slot? m = s.slot? m := rfl

theorem exec_unmapCounterPage_unmaps {p : CounterPage} (h : s.ready n 0x04 sl) (op : sl.f 128 4 = 4)
    (page : SMap.look s.cnt.pages sl.asid = some p) (here : p.va = sl.f 192 57) :
    exec (.unmapCounterPage n) s = .next (((s.dispatch n sl).withoutPage sl.asid (sl.f 192 57)).finish n .ok 0 0) := by
  show execUnmapCounterPage n s = _
  rw [execUnmapCounterPage, sampleOp_of_ready h op]
  simp only [Slot.run_f, Slot.run_asid]
  rw [Eng.go_bind_ok _ _ _ _ _ (Eng.go_get _), Eng.go_needE_bind _ _ _ (by simp [page, here])]
  rfl

@[simp] theorem length_padTo (k : Nat) (bs : List Byte) : (padTo k bs).length = k := by
  simp only [padTo, List.length_append, List.length_take, List.length_replicate]
  omega

/-- A read of the first `k` bytes of a longer read. -/
theorem memRead_take {m : SMap Byte} {a k j : Nat} (within : k ≤ j) : memRead m a k = (memRead m a j).take k := by
  induction k generalizing a j with
  | zero => rfl
  | succ k ih =>
    obtain ⟨i, rfl⟩ := Nat.exists_eq_add_of_lt within
    rw [memRead, ih (j := k + i) (by omega), show k + i + 1 = (k + i) + 1 from rfl]
    rfl

/-- The counters of the tenant end 1,280 bytes into the image, and the figures of its classes follow. -/
theorem State.length_counterImage (s : State) (p : CounterPage) : 1280 ≤ (s.counterImage p).length := by
  simp only [State.counterImage, List.length_append, length_padTo]
  omega

/-- What a refresh of a counter page writes reads as its image (15 Table 15-2). -/
theorem State.peek_refreshPage {a k : Nat} {p : CounterPage} (ok : s.storeOk)
    (within : k ≤ (s.counterImage { p with refreshes := p.refreshes + 1 }).length) :
    (s.refreshPage a p).peek p.address k = (s.counterImage { p with refreshes := p.refreshes + 1 }).take k := by
  have written := State.peek_poke s p.address (s.counterImage { p with refreshes := p.refreshes + 1 }) ok
  simp only [State.peek, State.refreshPage] at written ⊢
  rw [memRead_take within, written]

/-- With one counter page, a refresh rewrites it. -/
theorem exec_counterPageRefresh_one {a : Nat} {p : CounterPage} (only : s.cnt.pages = [(a, p)]) :
    exec .counterPageRefresh s = .next (s.refreshPage a p) := by
  show execCounterPageRefresh s = _
  rw [execCounterPageRefresh, only]
  rfl

theorem State.refreshPage_pages_one {a : Nat} {p : CounterPage} (only : s.cnt.pages = [(a, p)]) :
    (s.refreshPage a p).cnt.pages = [(a, { p with refreshes := p.refreshes + 1 })] := by
  show SMap.put s.cnt.pages a _ = _
  simp [only, SMap.put]

/-! #### COUNTER_CLEAR (15 R411) -/

theorem exec_counterClear_tenant {v : BitVec 16} (managed : s.managed) (tenant : v.toNat < 4096) :
    exec (.counterClear v) s = .next (State.answer (.ok, s.clearSet v.toNat)) := by
  have notAll : v.toNat ≠ 0xFFFF := by omega
  have clear : s.writeCounterClear v.toNat = (.ok, s.clearSet v.toNat) := by
    rw [State.writeCounterClear, if_neg notAll, if_pos tenant]
  exact congrArg Host.Outcome.next (manageData_ok _ _ _ _ managed clear)

end

end Sys2Proof.Machine
end

section

/-!
### Tile moves and KV commands (02 R46, R47, R60, R61)
-/

namespace Sys2Proof.Machine

open Sys2Proof

section
variable {s t : State} {n : Nat} {sl x : Slot} {u : Unit}

@[simp] theorem Slot.run_tileWho (sl : Slot) (time n : Nat) : (sl.run time).tileWho n = sl.tileWho n := rfl

theorem exec_tileMove_landed (h : s.ready n 0x20 sl) (least : 1 ≤ sl.f 256 32) (most : sl.f 256 32 ≤ 1048576)
    (sourceStep : sl.f 288 32 % 64 = 0) (destStep : sl.f 320 32 % 64 = 0) (plain : sl.f 360 1 = 0)
    (counter : sl.f 361 1 = 0 ∨ sl.f 384 57 % 8 = 0)
    (landed : (units (sl.tileWho n) n (sl.f 256 32) (moveTile n)).go (s.dispatch n sl) = (.ok u, t)) (held : t.slot? n = some x) :
    exec (.tileMove n) s = .next (t.finish n .ok x.count 0) := by
  show execTileMove n s = _
  rw [execTileMove, runSlot, runSlotIf_of_ready h rfl]
  simp only [Slot.run_f, Slot.run_tileWho]
  rw [Eng.go_needE_bind _ _ _ (by simp [least, most, sourceStep, destStep]), Eng.go_needE_bind _ _ _ (by simp [plain]),
    Eng.go_needE_bind _ _ _ (by simpa using counter), Eng.go_bind_ok _ _ _ _ _ landed,
    Eng.go_bind_ok _ _ _ _ _ (Eng.go_getSlot n _ _ held)]
  rfl

theorem kvRun_landed {op : Nat} {spill : Bool} (h : s.ready n op sl) (least : 1 ≤ sl.f 224 32) (most : sl.f 224 32 ≤ 1048576)
    (counter : sl.f 257 1 = 0 ∨ sl.f 320 57 % 8 = 0)
    (landed : (units (sl.tileWho n) n (sl.f 224 32) (kvBlock spill n)).go (s.dispatch n sl) = (.ok u, t))
    (held : t.slot? n = some x) : kvRun op spill n s = t.finish n .ok x.count 0 := by
  rw [kvRun, runSlot, runSlotIf_of_ready h rfl]
  simp only [Slot.run_f, Slot.run_tileWho]
  rw [Eng.go_needE_bind _ _ _ (by simp [least, most, counter]), Eng.go_bind_ok _ _ _ _ _ landed,
    Eng.go_bind_ok _ _ _ _ _ (Eng.go_getSlot n _ _ held)]
  rfl

/-- A unit that has not landed lands, is counted and marked, and only then increases its counter. -/
theorem landOnce_go_lands {w : Who} {i asid ctrVa : Nat} {on : Bool} {land : Eng Unit} (held : s.slot? n = some sl)
    (new : sl.parts = 0) (lands : land.go s = (.ok u, t)) :
    (landOnce w n i asid on ctrVa land).go s = (landCounter w n asid on ctrVa).go
      ((t.updSlot n fun y => { y with count := i + 1 }).updSlot n fun y => { y with parts := 1 }) := by
  rw [landOnce, Eng.go_bind_ok _ _ _ _ _ (Eng.go_getSlot n _ _ held), if_pos new]
  exact Eng.go_bind_ok _ _ _ _ _ lands

end

/-- Settles O10: the operations on counter sets, then the tile and KV commands. -/
theorem counterSetsAndTileCommandsComplete : Obligations.CounterSetsAndTileCommandsComplete := by
  refine ⟨fun s n sl => ⟨fun t u => exec_sampleTenantSet_written, fun t u r x => exec_sampleRingSet_written,
    exec_clearTenantSet_cleared, ?_, ?_, ?_, ?_⟩, fun s n sl x t u => ⟨exec_tileMove_landed, ?_, ?_, ?_⟩⟩
  · rintro m rfl
    exact exec_mapCounterPage_maps
  · intro p h op page here
    refine ⟨_, exec_unmapCounterPage_unmaps h op page here, ?_, ?_, ?_⟩ <;> simp [State.finish]
  · exact fun a p only => ⟨exec_counterPageRefresh_one only, State.refreshPage_pages_one only,
      fun ok => State.peek_refreshPage ok (s.length_counterImage _)⟩
  · exact fun v tenant data answers loaded => ⟨exec_counterClear_tenant ⟨data, answers, loaded⟩ tenant, rfl⟩
  · exact fun h least most counter landed held => congrArg Host.Outcome.next (kvRun_landed h least most counter landed held)
  · exact fun h least most counter landed held => congrArg Host.Outcome.next (kvRun_landed h least most counter landed held)
  · exact fun i asid ctrVa on land s2 held new lands => landOnce_go_lands held new lands

end Sys2Proof.Machine
end

section

/-!
### Debug requests (15 R421, R422)

Every request runs `State.dbgRun` with what it asks for and what it does; the laws of its run and of its check give each of them.
-/

namespace Sys2Proof.Machine

open Sys2Proof

section
variable {s : State} {r : BitVec 128}

/-! #### What a request finds (log 43) -/

section
variable (kernel halted : Bool)

theorem State.dbgCheck_malformed {good : Bool} (bad : dbgShape r = false ∨ good = false) : s.dbgCheck r good kernel halted = 4 := by
  rcases bad with bad | bad <;> simp [State.dbgCheck, bad]

section
variable (shape : dbgShape r = true)
include shape

theorem State.dbgCheck_forbidden (forbidden : s.dbgPermits (dbgCore r) = false) : s.dbgCheck r true kernel halted = 2 := by
  simp [State.dbgCheck, shape, forbidden]

theorem State.dbgCheck_noKernel (permitted : s.dbgPermits (dbgCore r) = true) (idle : (s.core (dbgCore r)).run = .idle) :
    s.dbgCheck r true true halted = 3 := by
  simp [State.dbgCheck, shape, permitted, idle]

end

end

/-! #### How a request runs -/

section
variable {good kernel halted : Bool} {op : Nat} {w : State → MStatus × State}

/-- A request that finds nothing against it acts on its core. -/
theorem State.dbgRun_acts (found : s.dbgCheck r good kernel halted = 0) (f : Core → Core) (data : Core → List Byte) :
    s.dbgRun r good kernel halted f data =
      (.ok, (s.updCore (dbgCore r) f).dbgResult (dbgCore r) 0 (data (f (s.core (dbgCore r))))) := by
  simp only [State.dbgRun, found, State.core_updCore]

/-- A request that finds something against it leaves that as its result, and does nothing else. -/
theorem State.dbgRun_refused {code : Nat} (refused : code ≠ 0) (found : s.dbgCheck r good kernel halted = code) (f : Core → Core)
    (data : Core → List Byte) : s.dbgRun r good kernel halted f data = (.ok, s.dbgResult (dbgCore r) code []) := by
  cases code with
  | zero => contradiction
  | succ code => simp only [State.dbgRun, found]

section
variable (managed : s.managed) (hop : fld r 0 8 = op)
include managed hop

theorem dbgOut_answered : dbgOut op r w s = .next (State.answer (w s)) := by
  rw [dbgOut, if_pos hop]
  exact congrArg Host.Outcome.next (manageData_ok _ _ _ _ managed rfl)

/-- A request to the debug entry whose run is `f` on its core, answering `data`, where nothing is against it. -/
theorem dbgOut_acts {f : Core → Core} (data : Core → List Byte) (runs : w s = s.dbgRun r good kernel halted f data)
    (found : s.dbgCheck r good kernel halted = 0) : dbgOut op r w s = .next (State.answer
      (.ok, (s.updCore (dbgCore r) f).dbgResult (dbgCore r) 0 (data (f (s.core (dbgCore r)))))) := by
  rw [dbgOut_answered managed hop, runs, State.dbgRun_acts found]

theorem dbgOut_refused {f : Core → Core} {data : Core → List Byte} {code : Nat}
    (runs : w s = s.dbgRun r good kernel halted f data) (refused : code ≠ 0) (found : s.dbgCheck r good kernel halted = code) :
    dbgOut op r w s = .next (State.answer (.ok, s.dbgResult (dbgCore r) code [])) := by
  rw [dbgOut_answered managed hop, runs, State.dbgRun_refused refused found]

end

end

/-! #### Registers -/

/-- The bytes of a register are those of its file. -/
theorem State.dbgBytes_of_file (s : State) (r : BitVec 128) (c : Core) :
    (dbgFile r = 0 → s.dbgBytes r c = leBytes 8 (c.getS (dbgReg r)).toNat) ∧
    (dbgFile r = 1 → s.dbgBytes r c = leBytes 128 (c.getV (dbgReg r)).toNat) ∧
    (dbgFile r = 2 → s.dbgBytes r c = leBytes 256 (c.getA (dbgReg r)).toNat) ∧
    (dbgFile r = 3 → s.dbgBytes r c = leBytes 16 (c.getP (dbgReg r)).toNat) ∧
    (dbgFile r = 4 → s.dbgBytes r c = leBytes 8 c.pc.toNat) := by
  refine ⟨?_, ?_, ?_, ?_, ?_⟩ <;> intro file <;> rw [State.dbgBytes, file] <;> rfl

/-- A value of the size of its file, and aligned where it is a PC, leaves only the name of the register to be checked. -/
theorem State.dbgWrite_of_fits {value : List Byte} (whole : value.length = dbgSize (dbgFile r))
    (aligned : dbgFile r ≠ 4 ∨ leNat value % 4 = 0) :
    s.dbgWrite r value = s.dbgRun r (s.dbgNames r) true true (fun c => c.dbgSet r (leNat value)) fun _ => [] := by
  have fits : (dbgFile r ≠ 4 || leNat value % 4 = 0) = true := by simpa using aligned
  rw [State.dbgWrite, fits, decide_eq_true whole, Bool.and_true, Bool.and_true]

end

/-- Settles O52: each request by its run, then what a check finds. -/
theorem debugRequestsActOnTheirCore : Obligations.DebugRequestsActOnTheirCore := by
  intro s r managed n done found
  have acts {op : Nat} {good kernel halted : Bool} {f : Core → Core} {w : State → MStatus × State} (data : List Byte)
      (runs : w s = s.dbgRun r good kernel halted f fun _ => data) (hop : fld r 0 8 = op) (names : found good kernel halted = 0) :
      dbgOut op r w s = .next (done f data) := dbgOut_acts managed hop (fun _ => data) runs names
  refine ⟨acts _ rfl, acts _ rfl, acts _ rfl, acts _ rfl, acts _ rfl, fun op names => ?_,
    fun value op whole aligned => acts _ (State.dbgWrite_of_fits whole aligned) op, acts _ rfl, acts _ rfl,
    fun op code => dbgOut_refused managed op rfl, fun good kernel halted => ⟨?_, ?_, ?_⟩⟩
  · have read : exec (.readReg r) s = .next (done id (s.dbgBytes r (s.core n))) := dbgOut_acts managed op (s.dbgBytes r) rfl names
    obtain ⟨scalar, vector, acc, pred, pc⟩ := s.dbgBytes_of_file r (s.core n)
    exact ⟨fun file => scalar file ▸ read, fun file => vector file ▸ read, fun file => acc file ▸ read,
      fun file => pred file ▸ read, fun file => pc file ▸ read⟩
  · exact State.dbgCheck_malformed kernel halted
  · rintro shape rfl
    exact State.dbgCheck_forbidden kernel halted shape
  · rintro shape rfl permitted rfl
    exact State.dbgCheck_noKernel halted shape permitted

end Sys2Proof.Machine
end

section

/-!
### Firmware, revocation and measurement (16 R431 to R434)
-/

namespace Sys2Proof.Machine

open Sys2Proof

section
variable {s : State}

/-- A management write, while the controller answers and its own firmware runs, is answered with its outcome. -/
theorem State.manage_of_answers (answers : s.mgmtAnswers = true) (loaded : s.pwr.bootOnly = false) (boot : Bool)
    (f : State → MStatus × State) : s.manage boot f = State.answer (f s) := by
  simp [State.manage, answers, loaded]

/-! #### FW_STAGE (16 R432) -/

section
variable {offset : Nat} {chunk : List Byte}

theorem State.writeStage_waits (waits : s.sec.commit.isSome = true) : s.writeStage offset chunk = (.state, s) := by
  rw [State.writeStage, if_pos waits]

section
variable (free : s.sec.commit = none)
include free

theorem State.writeStage_long (long : 4096 < chunk.length) : s.writeStage offset chunk = (.length, s) := by
  rw [State.writeStage, if_neg (by simp [free]), if_pos long]

section
variable (short : chunk.length ≤ 4096)
include short

theorem State.writeStage_outside (outside : imageLimit < offset + chunk.length) : s.writeStage offset chunk = (.range, s) := by
  rw [State.writeStage, if_neg (by simp [free]), if_neg (by omega), if_pos outside]

theorem State.writeStage_staged (within : offset + chunk.length ≤ imageLimit) :
    s.writeStage offset chunk = (.ok, s.setStaged { s.staged with
      image := memWrite s.staged.image offset chunk, length := max s.staged.length (offset + chunk.length)
      accepted := false }) := by
  rw [State.writeStage, if_neg (by simp [free]), if_neg (by omega), if_neg (by omega)]

end

end

end

/-! #### FW_COMMIT (16 R432, R434) -/

/-- The state whose staged image, checked, is the active one. -/
def State.switched (s : State) : State :=
  let t := s.setStaged s.staged.check
  { t with sec := { t.sec with activeB := !s.sec.activeB } }

/-- The state whose staged image, checked, is the active one, and whose ROLLBACK_SVN is at least that image's. -/
def State.advanced (s : State) : State :=
  let t := s.setStaged s.staged.check
  { t with sec := { t.sec with activeB := !s.sec.activeB, rollback := max s.sec.rollback s.staged.check.svn } }

@[simp] theorem State.setStaged_activeB (x : FwSlot) : (s.setStaged x).sec.activeB = s.sec.activeB := by
  unfold State.setStaged
  cases h : s.sec.activeB <;> simp [h]

@[simp] theorem State.setStaged_rollback (x : FwSlot) : (s.setStaged x).sec.rollback = s.sec.rollback := by
  unfold State.setStaged
  cases h : s.sec.activeB <;> simp

theorem State.writeCommit_refused (advance : Bool) (bad : s.sec.commit.isSome = true ∨ s.bootable s.staged.check = false) :
    s.writeCommit advance = (.state, s, false) := by
  simp only [State.writeCommit]
  rw [if_pos (by rcases bad with h | h <;> simp [h])]

section
variable (free : s.sec.commit = none) (good : s.bootable s.staged.check = true)
include free good

theorem State.writeCommit_switches : s.writeCommit false = (.ok, s.switched, false) := by
  simp only [State.writeCommit]
  rw [if_neg (by simp [free, good])]
  simp [State.switched]

theorem State.writeCommit_advances (unpaired : s.twin.pair ≠ .paired) : s.writeCommit true = (.ok, s.advanced, false) := by
  have alone : (s.setStaged s.staged.check).twin.pair ≠ .paired := unpaired
  simp only [State.writeCommit]
  rw [if_neg (by simp [free, good])]
  simp [State.advanced, alone]

end

section
variable (answers : s.mgmtAnswers = true)
include answers

theorem State.commitWrite_refused (advance : Bool) (bad : s.sec.commit.isSome = true ∨ s.bootable s.staged.check = false) :
    s.commitWrite advance = State.answer (.state, s) := by
  rw [State.commitWrite, if_neg (by simp [answers]), State.writeCommit_refused advance bad]

theorem State.commitWrite_restarts {advance : Bool} {t : State} (done : s.writeCommit advance = (.ok, t, false)) :
    s.commitWrite advance = (State.answer (.ok, t)).restartFirmware := by
  rw [State.commitWrite, if_neg (by simp [answers]), done]

end

/-! #### KEY_REVOKE (16 R433) -/

theorem State.writeRevoke_outside {mask : Nat} (outside : 16 ≤ mask) : s.writeRevoke mask = (.range, s) := by
  rw [State.writeRevoke, if_pos outside]

section
variable {mask : Nat} (within : mask < 16)
include within

theorem State.writeRevoke_running (own : bitOf mask s.running.keyIndex = true) : s.writeRevoke mask = (.state, s) := by
  rw [State.writeRevoke, if_neg (by omega), if_pos own]

theorem State.writeRevoke_revokes (other : bitOf mask s.running.keyIndex = false) :
    s.writeRevoke mask = (.ok, { s with sec := { s.sec with revoked := s.sec.revoked ||| BitVec.ofNat 4 mask } }) := by
  rw [State.writeRevoke, if_neg (by omega), if_neg (by simp [other])]

end

/-! #### MR_EXTEND (16 R431) -/

section
variable {index : Nat} {digest : List Byte}

theorem State.writeExtend_length (wrong : digest.length ≠ 64) : s.writeExtend index digest = (.length, s) := by
  rw [State.writeExtend, if_pos wrong]

section
variable (whole : digest.length = 64)
include whole

theorem State.writeExtend_outside (outside : index < 5 ∨ 7 < index) : s.writeExtend index digest = (.range, s) := by
  rw [State.writeExtend, if_neg (by simp [whole]), if_pos (by simpa using outside)]

theorem State.writeExtend_extends (least : 5 ≤ index) (most : index ≤ 7) :
    s.writeExtend index digest = (.ok, s.extendMr index digest) := by
  rw [State.writeExtend, if_neg (by simp [whole]), if_neg (by simp [least, most])]

end

end

end

/-- Settles O53: every write is answered with its outcome, as the laws above give it. -/
theorem firmwareIsStagedCommittedAndMeasured : Obligations.FirmwareIsStagedCommittedAndMeasured := by
  intro s answers
  have answered {boot : Bool} {f : State → MStatus × State} {r : MStatus × State} (loaded : s.pwr.bootOnly = false)
      (outcome : f s = r) : Host.Outcome.next (s.manage boot f) = (.next (State.answer r) : Out) := by
    rw [State.manage_of_answers answers loaded, outcome]
  refine ⟨fun offset chunk loaded => ⟨?_, ?_, ?_, ?_⟩, ⟨fun bad => ⟨?_, ?_⟩, fun free good => ⟨?_, fun unpaired => ?_⟩⟩,
    fun mask loaded => ⟨?_, ?_, ?_⟩, fun index digest loaded => ⟨?_, ?_, ?_⟩⟩
  · exact fun waits => answered loaded (State.writeStage_waits waits)
  · exact fun free long => answered loaded (State.writeStage_long free long)
  · exact fun free short outside => answered loaded (State.writeStage_outside free short outside)
  · exact fun free short within => answered loaded (State.writeStage_staged free short within)
  · exact congrArg Host.Outcome.next (State.commitWrite_refused answers false bad)
  · exact congrArg Host.Outcome.next (State.commitWrite_refused answers true bad)
  · exact congrArg Host.Outcome.next (State.commitWrite_restarts answers (State.writeCommit_switches free good))
  · exact congrArg Host.Outcome.next (State.commitWrite_restarts answers (State.writeCommit_advances free good unpaired))
  · exact fun outside => answered loaded (State.writeRevoke_outside outside)
  · exact fun within own => answered loaded (State.writeRevoke_running within own)
  · exact fun within other => answered loaded (State.writeRevoke_revokes within other)
  · exact fun wrong => answered loaded (State.writeExtend_length wrong)
  · exact fun whole outside => answered loaded (State.writeExtend_outside whole outside)
  · exact fun whole least most => answered loaded (State.writeExtend_extends whole least most)

end Sys2Proof.Machine
end

section

/-!
### ATTEST and tenant keys (16 R436 to R439)
-/

namespace Sys2Proof.Machine

open Sys2Proof

section
variable {s t u : State} {n : Nat} {sl : Slot}

/-! #### ATTEST (16 R436) -/

section
variable (h : s.ready n 0xA0 sl) (nonceAligned : sl.f 192 57 % 64 = 0) (bufferAligned : sl.f 256 57 % 64 = 0)
include h nonceAligned bufferAligned

theorem exec_attest_noIdentity (failed : (s.dispatch n sl).sec.identityOk = false) :
    exec (.attest n) s = .next ((s.dispatch n sl).rejectSlot n .notPermitted) := by
  show execAttest n s = _
  rw [execAttest, runSlot, runSlotIf_of_ready h rfl]
  simp only [Slot.run_f]
  rw [Eng.go_needE_bind _ _ _ (by simp [nonceAligned, bufferAligned]), Eng.go_bind_ok _ _ _ _ _ (Eng.go_get _), failed]
  rfl

section
variable (identity : (s.dispatch n sl).sec.identityOk = true)
include identity

/-- A buffer that is too small is refused, and COUNT is the size of a report. -/
theorem exec_attest_short (short : sl.f 320 32 < 3840) :
    exec (.attest n) s = .next (((s.dispatch n sl).updSlot n fun x => { x with count := 3840 }).rejectSlot n .resource) := by
  show execAttest n s = _
  rw [execAttest, runSlot, runSlotIf_of_ready h rfl]
  simp only [Slot.run_f]
  rw [Eng.go_needE_bind _ _ _ (by simp [nonceAligned, bufferAligned]), Eng.go_bind_ok _ _ _ _ _ (Eng.go_get _),
    Eng.go_needE_bind _ _ _ identity, if_pos short]
  rfl

/-- A report before its signature, and then its signature. -/
def State.signedReport (t : State) (tenant : Nat) (nonce : List Byte) : List Byte :=
  let body := t.report tenant nonce (t.sec.attests + 1)
  body ++ padTo 1280 (Config.falconSign Config.deviceSeed (shake256 64 body) t.sec.signs)

/-- The state that has counted a report and its signature. -/
def State.reported (u : State) : State :=
  { u with sec := { u.sec with attests := u.sec.attests + 1, signs := u.sec.signs + 1 } }

theorem exec_attest_reports {nonce : List Byte} {v : Unit} (room : 3840 ≤ sl.f 320 32)
    (read : (readVa (sl.who n 5) sl.asid (sl.f 192 57) 64).go (s.dispatch n sl) = (.ok nonce, t))
    (written : (writeVa (sl.who n 5) sl.asid (sl.f 256 57) (t.signedReport (sl.f 128 12) nonce)).go t = (.ok v, u)) :
    exec (.attest n) s = .next (u.reported.finish n .ok 3840 0) := by
  show execAttest n s = _
  rw [execAttest, runSlot, runSlotIf_of_ready h rfl]
  simp only [Slot.run_f, Slot.run_who, Slot.run_asid]
  rw [Eng.go_needE_bind _ _ _ (by simp [nonceAligned, bufferAligned]), Eng.go_bind_ok _ _ _ _ _ (Eng.go_get _),
    Eng.go_needE_bind _ _ _ identity, if_neg (by omega), Eng.go_bind_ok _ _ _ _ _ read,
    Eng.go_bind_ok _ _ _ _ _ (Eng.go_get _)]
  rw [State.signedReport] at written
  rw [Eng.go_bind_ok _ _ _ _ _ written]
  rfl

end

end

/-! #### KEY_INSTALL (16 R437 to R439) -/

section
variable (h : s.ready n 0xA1 sl) (aligned : sl.f 192 57 % 64 = 0)
include h aligned

theorem exec_keyInstall_stored (op : sl.f 128 2 = 0) (stored : (s.dispatch n sl).ownsStored (sl.f 132 12) = true) :
    exec (.keyInstall n) s = .next ((s.dispatch n sl).rejectSlot n .notPermitted) := by
  show execKeyInstall n s = _
  rw [execKeyInstall, runSlotIf_of_ready h (by simpa using op)]
  simp only [Slot.run_f]
  rw [Eng.go_bind_ok _ _ _ _ _ (Eng.go_get _), Eng.go_needE_bind _ _ _ (by simp [aligned]), stored, Bool.not_true, Bool.and_false]
  rfl

theorem exec_keyDestroy_stored (op : sl.f 128 2 = 1) (stored : (s.dispatch n sl).ownsStored (sl.f 132 12) = true) :
    exec (.keyDestroy n) s = .next ((s.dispatch n sl).rejectSlot n .notPermitted) := by
  show execKeyDestroy n s = _
  rw [execKeyDestroy, runSlotIf_of_ready h (by simpa using op)]
  simp only [Slot.run_f]
  rw [Eng.go_bind_ok _ _ _ _ _ (Eng.go_get _), Eng.go_needE_bind _ _ _ (by simp [aligned]), stored, Bool.not_true, Bool.and_false]
  rfl

section
variable (identity : (s.dispatch n sl).sec.identityOk = true) (unstored : (s.dispatch n sl).ownsStored (sl.f 132 12) = false)
include identity unstored

/-- The state that keeps the bytes of a key with its command. -/
def State.keyRead (t : State) (n : Nat) (bs : List Byte) : State :=
  t.updSlot n fun y => { y with cursor := 1, marks := bs.map (·.toNat) }

theorem exec_keyInstall_installs {bs : List Byte} {x : Slot} (op : sl.f 128 2 = 0)
    (new : ((s.dispatch n sl).tenantKey (sl.f 132 12)).installed = false) (first : sl.cursor = 0) (kept : sl.f 256 1 = 0)
    (read : (readVa (sl.who n 5) sl.asid (sl.f 192 57) 64).go (s.dispatch n sl) = (.ok bs, t))
    (halves : bs.take 32 ≠ bs.drop 32) (held : t.slot? n = some x) :
    let r := t.keyRead n bs
    exec (.keyInstall n) s = .next ((r.setKey n (sl.f 132 12)
      { installed := true, key := bs, generation := (r.tenantKey (sl.f 132 12)).generation + 1, changed := r.time }).finish n .ok
        0 0) := by
  have keyBytes : (bs.map (·.toNat)).map (BitVec.ofNat 8) = bs := by simp [Function.comp_def]
  have marked : (t.keyRead n bs).slot? n = some { x with cursor := 1, marks := bs.map (·.toNat) } := by
    simp [State.keyRead, held]
  show execKeyInstall n s = _
  rw [execKeyInstall, runSlotIf_of_ready h (by simpa using op)]
  simp only [Slot.run_f, Slot.run_who, Slot.run_asid, Slot.run_cursor]
  rw [Eng.go_bind_ok _ _ _ _ _ (Eng.go_get _), Eng.go_needE_bind _ _ _ (by simp [aligned]),
    Eng.go_needE_bind _ _ _ (by rw [identity, unstored]; rfl), Eng.go_needE_bind _ _ _ (by simp [new]), if_pos first,
    Eng.go_bind_ok _ _ _ _ _ read, Eng.go_needE_bind _ _ _ (by simpa using halves)]
  rw [Eng.go_bind_ok _ _ _ _ _ (Eng.go_modify _ _), if_neg (by simp [kept]), ← State.keyRead,
    Eng.go_bind_ok _ _ _ _ _ (Eng.go_getSlot n _ _ marked), keyBytes]
  rfl

theorem exec_keyDestroy_destroys (op : sl.f 128 2 = 1)
    (installed : ((s.dispatch n sl).tenantKey (sl.f 132 12)).installed = true) :
    let d := s.dispatch n sl
    exec (.keyDestroy n) s = .next ((d.setKey n (sl.f 132 12)
      { installed := false, key := [], generation := (d.tenantKey (sl.f 132 12)).generation, changed := d.time }).finish n .ok
        0 0) := by
  show execKeyDestroy n s = _
  rw [execKeyDestroy, runSlotIf_of_ready h (by simpa using op)]
  simp only [Slot.run_f]
  rw [Eng.go_bind_ok _ _ _ _ _ (Eng.go_get _), Eng.go_needE_bind _ _ _ (by simp [aligned]),
    Eng.go_needE_bind _ _ _ (by rw [identity, unstored]; rfl), if_pos installed]
  rfl

theorem exec_keyDestroy_none (op : sl.f 128 2 = 1)
    (derived : ((s.dispatch n sl).tenantKey (sl.f 132 12)).installed = false) :
    exec (.keyDestroy n) s = .next ((s.dispatch n sl).finish n .ok 0 0) := by
  show execKeyDestroy n s = _
  rw [execKeyDestroy, runSlotIf_of_ready h (by simpa using op)]
  simp only [Slot.run_f]
  rw [Eng.go_bind_ok _ _ _ _ _ (Eng.go_get _), Eng.go_needE_bind _ _ _ (by simp [aligned]),
    Eng.go_needE_bind _ _ _ (by rw [identity, unstored]; rfl), if_neg (by simp [derived])]
  rfl

end

end

end

/-- Settles O54: ATTEST, then the keys. -/
theorem reportsAreWrittenAndKeysChange : Obligations.ReportsAreWrittenAndKeysChange := by
  intro s t u n sl v w d tenant
  refine ⟨fun h nonce buffer identity => ⟨exec_attest_short h nonce buffer identity,
      fun bytes room read => exec_attest_reports h nonce buffer identity room read⟩,
    exec_attest_noIdentity, fun h aligned identity =>
      ⟨fun stored => ⟨(exec_keyInstall_stored h aligned · stored), (exec_keyDestroy_stored h aligned · stored)⟩,
        fun unstored => ⟨fun bs x op new first kept read halves held => ?_, ?_, ?_⟩⟩⟩
  · exact exec_keyInstall_installs h aligned identity unstored op new first kept read halves held
  · exact exec_keyDestroy_destroys h aligned identity unstored
  · exact exec_keyDestroy_none h aligned identity unstored

end Sys2Proof.Machine
end

section

/-!
### Resets of the package, of tenants and of cores (17 R448 to R452, R455; 19 R484, R487)
-/

namespace Sys2Proof.Machine

open Sys2Proof

section
variable {s : State}

/-! #### RESET_N (19 R484) -/

theorem exec_resetN_low {hot : List Nat} (high : s.pwr.resetPin = true) (good : s.pwr.supply = .good) :
    let t := ({ s with pwr := { s.pwr with resetPin := false } } : State).coldReset 1
    exec (.resetN false hot) s = .next { t with pwr := { t.pwr with supply := .good } } := by
  show execResetN false hot s = _
  simp [execResetN, high, good]

theorem exec_resetN_high {hot : List Nat} (low : s.pwr.resetPin = false) (good : s.pwr.supply = .good) :
    exec (.resetN true hot) s = .next { s with pwr := { s.pwr with resetPin := true } } := by
  show execResetN true hot s = _
  simp [execResetN, low, good]

/-! #### Requests (17 R448, R450, R455) -/

section
variable {hot : List Nat} {cold : Bool} {cause : Nat}

theorem State.requestReset_refused (busy : s.mayReset hot = false) : s.requestReset cold cause hot = (.state, s) := by
  rw [State.requestReset, if_neg (by simp [busy])]

theorem State.requestReset_starts (free : s.mayReset hot = true) :
    s.requestReset cold cause hot = (.ok, s.startReset cold cause) := by
  rw [State.requestReset, if_pos free]

/-- The state in which a reset waits. -/
def State.resetWaits (s : State) (cold : Bool) (cause : Nat) : State :=
  { s with pwr := { s.pwr with pendingReset := some (cold, cause) } }

theorem State.startReset_asleep (asleep : s.awake = false) : s.startReset cold cause = (s.resetWaits cold cause).wake := by
  rw [State.startReset, if_pos (by simp [asleep])]
  rfl

section
variable (awake : s.awake = true)
include awake

theorem State.startReset_cold : s.startReset true cause = s.coldReset cause := by
  rw [State.startReset, if_neg (by simp [awake]), if_neg (by simp), State.resetNow, if_pos (by simp)]

theorem State.startReset_announces (good : s.pwr.supply = .good) (paired : s.twin.pair = .paired) :
    s.startReset false cause = { s.resetWaits false cause with twin := { s.twin with awaitingTakeover := some s.time } } := by
  rw [State.startReset, if_neg (by simp [awake]), if_pos (by simp [good, paired])]
  rfl

theorem State.startReset_warm (good : s.pwr.supply = .good) (unpaired : s.twin.pair ≠ .paired) :
    s.startReset false cause = s.warmReset cause := by
  rw [State.startReset, if_neg (by simp [awake]), if_neg (by simp [unpaired]), State.resetNow, if_neg (by simp [good])]

end

/-! #### The announcement (17 R450) -/

section
variable {t : Nat} (announced : s.twin.awaitingTakeover = some t) (waits : s.pwr.pendingReset = some (cold, cause))
include announced waits

theorem exec_announceWaitEnd_early (unfenced : s.twin.pair ≠ .fenced) (early : s.time < t + usToTicks 4000) :
    exec .announceWaitEnd s = .next s := by
  show execAnnounceWaitEnd s = _
  simp only [execAnnounceWaitEnd, announced, waits]
  rw [if_neg (by simp [unfenced, early])]

theorem exec_announceWaitEnd_strikes (ended : s.twin.pair = .fenced ∨ t + usToTicks 4000 ≤ s.time) :
    let f := s.fence
    exec .announceWaitEnd s = .next (({ f with twin := { f.twin with
      awaitingTakeover := none, announcedAbsence := true } } : State).resetNow cold cause) := by
  show execAnnounceWaitEnd s = _
  simp only [execAnnounceWaitEnd, announced, waits]
  rw [if_pos (by simpa using ended)]

end

end

/-! #### What a cold reset leaves (17 Table 17-4) -/

theorem State.coldReset_mem (s : State) (cause : Nat) :
    (s.coldReset cause).mem = s.mem.filter fun (a, _) => durable a := by
  show s.clearMemory.clearEngines.mem = _
  rw [State.clearEngines_mem]
  rfl

/-- A byte outside the memory that keeps its contents is gone. -/
theorem State.coldReset_forgets (s : State) (cause : Nat) {a : Nat} (volatile : durable a = false) :
    SMap.look (s.coldReset cause).mem a = none := by
  have cut := SMap.look_filter_key s.mem durable a
  rw [State.coldReset_mem, cut, if_neg (by simp [volatile])]

end

end Sys2Proof.Machine
end

section

/-!
### Resets of tenants and of cores (17 R451, R452)
-/

namespace Sys2Proof.Machine

open Sys2Proof

section
variable {s : State}

/-! #### Tenant reset (17 R451) -/

section
variable {t : Nat}

theorem State.tenantReset_refused (shut : s.dataPath = false ∨ s.pwr.tenantBusy.isSome = true) :
    s.tenantReset t = (.state, s) := by
  simp only [State.tenantReset]
  rw [if_pos (by rcases shut with h | h <;> simp [h])]

section
variable (serves : s.dataPath = true) (free : s.pwr.tenantBusy = none)
include serves free

theorem State.tenantReset_outside (outside : 4096 ≤ t) : s.tenantReset t = (.range, s) := by
  simp only [State.tenantReset]
  rw [if_neg (by simp [serves, free]), if_pos outside]

theorem State.tenantReset_begins (within : t < 4096) : ∃ u, s.tenantReset t = (.ok, u) ∧ u.pwr.tenantBusy = some t := by
  simp only [State.tenantReset]
  rw [if_neg (by simp [serves, free]), if_neg (by omega)]
  exact ⟨_, rfl, rfl⟩

end

theorem exec_tenantResetComplete_ends (busy : s.pwr.tenantBusy = some t)
    (noCommand : ∀ p ∈ s.fe.slots, p.2.tenant = t → p.2.stage = .finished)
    (noCore : ∀ p ∈ s.grid.cores, p.2.tenant = t → p.2.run = .idle) :
    let u := s.releasePins t
    exec .tenantResetComplete s = .next { u with
      fe := { u.fe with rings := SMap.each u.fe.rings fun _ r => if r.tenant = t then { r with mode := .normal } else r }
      pwr := { u.pwr with tenantBusy := none } } := by
  have commands : (s.fe.slots.any fun (_, x) => x.tenant = t && x.stage ≠ .finished) = false := by
    simpa using fun k x held => noCommand (k, x) held
  have cores : (s.grid.cores.any fun (_, c) => c.run ≠ .idle && c.tenant = t) = false := by
    simpa using fun k c held => mt (noCore (k, c) held)
  show execTenantResetComplete s = _
  simp only [execTenantResetComplete, busy]
  rw [if_neg (by rw [commands, cores]; simp)]

end

/-! #### Core reset (17 R452) -/

section
variable {n : Nat}

theorem State.coreReset_shut (shut : s.dataPath = false) : s.coreReset n = (.state, s) := by
  simp only [State.coreReset]
  rw [if_pos (by simp [shut])]

section
variable (serves : s.dataPath = true)
include serves

theorem State.coreReset_outside (outside : 25600 ≤ n) : s.coreReset n = (.range, s) := by
  simp only [State.coreReset]
  rw [if_neg (by simp [serves]), if_pos outside]

section
variable (within : n < 25600)
include within

theorem State.coreReset_unavailable (unavailable : (s.core n).available = false) : s.coreReset n = (.ok, s) := by
  simp only [State.coreReset]
  rw [if_neg (by simp [serves]), if_neg (by omega), if_pos (by simp [unavailable])]

end

end

@[simp] theorem State.core_instrAt (m : Nat) : (s.instrAt n).2.core m = s.core m := by
  unfold State.instrAt
  dsimp only
  split <;> rfl

/-- The state in which a core that runs no kernel is reset: its channels are closed, its queues empty and its scratchpad zero. -/
def State.coreCleared (s : State) (n : Nat) : State :=
  let t := (s.instrAt n).2
  let cut := (t.grid.queues.filter fun (_, q) => q.assembling.any fun k => k / 64 = n).length
  ((List.range 4).foldl (fun s q => s.emptyQueue (n * 4 + q)) ((t.bump (dkey 0x6002 2) cut).tenantChange n fun _ => true)).zeroRange
    (scratchBase n) 0x2_0000

@[simp] theorem State.core_coreCleared (m : Nat) : (s.coreCleared n).core m = s.core m := by
  refine (State.core_of_cores ?_ m).trans (State.core_instrAt (n := n) m)
  exact (State.foldl_emptyQueue_cores ..).trans (State.tenantChange_cores ..)

/-- An idle core that is available is reset. -/
theorem State.coreReset_idle (serves : s.dataPath = true) (within : n < 25600) (available : (s.core n).available = true)
    (idle : (s.core n).run = .idle) : s.coreReset n = (.ok, (s.coreCleared n).updCore n Core.reset) := by
  have ended : (((s.coreCleared n).updCore n Core.reset).core n).run ≠ .ending := by
    rw [State.core_updCore, State.core_coreCleared]
    simp [Core.reset, idle]
  have still : ((s.instrAt n).2.core n).run ≠ .running := by simp [idle]
  simp only [State.coreReset]
  rw [if_neg (by simp [serves]), if_neg (by omega), if_neg (by simp [available]), if_neg still]
  refine congrArg (Prod.mk MStatus.ok) ((if_pos ended : ((s.coreCleared n).updCore n Core.reset).coreProgress n = _))

/-- The scratchpad of a core that is reset reads zero. -/
theorem State.peek_coreCleared_updCore {a : Nat} (f : Core → Core) (least : scratchBase n ≤ a)
    (most : a < scratchBase n + 0x2_0000) : ((s.coreCleared n).updCore n f).peek a 1 = [0] := by
  rw [State.peek, State.mem_updCore, ← State.peek, State.coreCleared, State.peek_zeroRange, if_pos ⟨least, most⟩]

end

end

/-- Settles O56: resets of the package, then of a tenant, then of a core. -/
theorem resetsOfThePackageTenantsAndCores : Obligations.ResetsOfThePackageTenantsAndCores := by
  refine ⟨fun s => ⟨fun hot => exec_resetN_low, fun hot => exec_resetN_high, fun hot answers loaded => ?_,
    fun t cold cause announced waits => ⟨exec_announceWaitEnd_early announced waits,
      exec_announceWaitEnd_strikes announced waits⟩,
    fun cause => ⟨rfl, rfl, rfl, fun a => s.coldReset_forgets cause⟩⟩, fun s answers loaded => ⟨fun tenant => ?_,
      fun t => exec_tenantResetComplete_ends, fun core => ?_⟩⟩
  all_goals
    have answered {f : State → MStatus × State} {r : MStatus × State} (outcome : f s = r) :
        Host.Outcome.next (s.manage false f) = (.next (State.answer r) : Out) := by
      rw [State.manage_of_answers answers loaded, outcome]
  · refine ⟨fun busy => ⟨answered (State.requestReset_refused busy), answered (State.requestReset_refused busy)⟩,
      fun free => ⟨fun asleep => ?_, fun awake => ⟨?_, fun good paired => ?_, fun good unpaired => ?_⟩⟩⟩
    · exact answered (by rw [State.requestReset_starts free, State.startReset_asleep asleep, State.resetWaits])
    · exact answered (by rw [State.requestReset_starts free, State.startReset_cold awake])
    · exact answered (by rw [State.requestReset_starts free, State.startReset_announces awake good paired, State.resetWaits])
    · exact answered (by rw [State.requestReset_starts free, State.startReset_warm awake good unpaired])
  · refine ⟨fun shut => answered (State.tenantReset_refused shut),
      fun serves free outside => answered (State.tenantReset_outside serves free outside), fun serves free within => ?_⟩
    obtain ⟨u, begins, busy⟩ := State.tenantReset_begins serves free within
    exact ⟨u, answered begins, busy⟩
  · refine ⟨fun shut => answered (State.coreReset_shut shut),
      fun serves outside => answered (State.coreReset_outside serves outside),
      fun serves within unavailable => answered (State.coreReset_unavailable serves within unavailable),
      fun serves within available idle => ⟨_, answered (State.coreReset_idle serves within available idle), ?_⟩⟩
    simp only [State.core_updCore]
    exact ⟨rfl, rfl, rfl, rfl, fun a => State.peek_coreCleared_updCore Core.reset⟩

end Sys2Proof.Machine
end

section

/-!
### Profiles and power states (17 R445, R447, R453 to R455; 12 R352)
-/

namespace Sys2Proof.Machine

open Sys2Proof

section
variable {s : State}

/-! #### Profiles (17 R445, R447) -/

theorem State.switchProfile_within {p : Nat} (within : p < 4) : s.switchProfile p = (.ok, s.selectProfile p) := by
  rw [State.switchProfile, if_pos within]

theorem State.switchProfile_outside {p : Nat} (outside : 4 ≤ p) : s.switchProfile p = (.range, s) := by
  rw [State.switchProfile, if_neg (by omega)]

theorem State.switchReset_refused {v : Nat} {hot : List Nat} (busy : s.mayReset hot = false) :
    s.switchReset v hot = (.state, s) := by
  rw [State.switchReset, if_neg (by simp [busy])]

theorem State.switchReset_starts {v : Nat} {hot : List Nat} (free : s.mayReset hot = true) :
    s.switchReset v hot = (.ok, (s.selectProfile (v - 0x80)).startReset false 4) := by
  rw [State.switchReset, if_pos free]

theorem State.copyProfile_outside {v : Nat} (outside : 4 ≤ v % 256 ∨ 3 ≤ v / 256) : s.copyProfile v = (.range, s) := by
  simp only [State.copyProfile]
  rw [if_pos (by simpa using outside)]

theorem State.copyProfile_stores {v : Nat} (source : v % 256 < 4) (target : v / 256 < 3) (inactive : v / 256 ≠ s.prof.active) :
    s.copyProfile v = (.ok, s.setProfile (v / 256) (s.profile (v % 256))) := by
  have other : v / 256 ≠ (s.setProfile (v / 256) (s.profile (v % 256))).prof.active := inactive
  simp only [State.copyProfile]
  rw [if_neg (by simp [source, target]), if_neg other]

section
variable (answers : s.mgmtAnswers = true) (loaded : s.pwr.bootOnly = false)
include answers loaded

/-- A PROFILE_SELECT that names no reset is answered with the switch. -/
theorem exec_profileSelect_answered {p : BitVec 8} (plain : p.toNat < 0x80 ∨ 0x84 ≤ p.toNat) :
    exec (.profileSelect p) s = .next (State.answer (s.switchProfile p.toNat)) := by
  show execProfileSelect p s = _
  rw [execProfileSelect, if_neg (by simpa [or_iff_not_imp_left] using plain), State.manage_of_answers answers loaded]

theorem exec_profileSelectReset_answered {p : BitVec 8} {hot : List Nat} (least : 0x80 ≤ p.toNat) (most : p.toNat < 0x84) :
    exec (.profileSelectReset p hot) s = .next (State.answer (s.switchReset p.toNat hot)) := by
  show execProfileSelectReset p hot s = _
  rw [execProfileSelectReset, if_pos (by simp [least, most]), State.manage_of_answers answers loaded]

theorem exec_profileCopy_answered (v : BitVec 16) :
    exec (.profileCopy v) s = .next (State.answer (s.copyProfile v.toNat)) :=
  congrArg Host.Outcome.next (State.manage_of_answers answers loaded _ _)

end

/-! #### Power states (17 R453, R454) -/

theorem State.powerRequest_within {v : Nat} (within : v < 3) :
    s.powerRequest v = (.ok, (s.storeVal (dkey 0x2010 1) v).setLive (dkey 0x2010 1) v) := by
  rw [State.powerRequest, if_pos within]

theorem exec_drowsyIdleExpiry_arms (counted : s.val (dkey 0x2010 2) ≠ 0) (idle : s.fe.slots = []) (unarmed : s.pwr.armed = 0) :
    exec .drowsyIdleExpiry s = .next { s with pwr := { s.pwr with armed := 1 } } := by
  show execDrowsyIdleExpiry s = _
  rw [execDrowsyIdleExpiry, if_pos (by simp [counted, idle, unarmed])]

/-- The state that has entered its armed power state. -/
def State.slept (s : State) : State := { s with pwr := { s.pwr with state := s.pwr.armed, waking := none } }

theorem exec_powerStateEntry_stays (busy : s.maySleep = false) : exec .powerStateEntry s = .next s := by
  show execPowerStateEntry s = _
  rw [execPowerStateEntry, if_neg (by simp [busy])]

section
variable (may : s.maySleep = true)
include may

theorem exec_powerStateEntry_drowsy (drowsy : s.pwr.armed ≠ 2) : exec .powerStateEntry s = .next s.slept := by
  show execPowerStateEntry s = _
  rw [execPowerStateEntry, if_pos may]
  exact congrArg Host.Outcome.next (if_neg drowsy)

theorem exec_powerStateEntry_dormant (dormant : s.pwr.armed = 2) :
    exec .powerStateEntry s = .next ((List.range s.fabricPorts).foldl State.enterLow s.slept) := by
  show execPowerStateEntry s = _
  rw [execPowerStateEntry, if_pos may]
  exact congrArg Host.Outcome.next (if_pos dormant)

end

/-! #### The end of a wake (17 R455) -/

/-- A wake from a state that keeps the ports, with no reset waiting, ends in Active: the wake is counted and timed, and every lease
runs from now. -/
theorem exec_wakeComplete_active {t : Nat} (waking : s.pwr.waking = some t) (drowsy : s.pwr.state = 1)
    (free : s.pwr.pendingReset = none) :
    let u := (s.bump (dkey 0x2010 3) 1).setVal (dkey 0x2010 4) (min 2000 (s.usSince t))
    exec .wakeComplete s = .next { u with
      fe := { u.fe with leases := SMap.each u.fe.leases fun _ _ => u.time }
      pwr := { u.pwr with state := 0, waking := none, pendingReset := none, armed := u.val (dkey 0x2010 1) } } := by
  intro u
  have unreset : u.pwr.pendingReset = none := free
  show execWakeComplete s = _
  simp only [execWakeComplete, waking, drowsy]
  rw [if_neg (by decide)]
  simp only [u] at unreset ⊢
  rw [unreset]

end

/-- Settles O57: the profiles, then the power states. -/
theorem profilesAndPowerStates : Obligations.ProfilesAndPowerStates := by
  intro s
  refine ⟨fun answers loaded => ⟨fun p => ⟨?_, ?_, fun hot least most => ⟨?_, ?_⟩⟩, fun v => ⟨?_, ?_⟩, ?_, ?_, ?_⟩,
    exec_drowsyIdleExpiry_arms, exec_powerStateEntry_drowsy, exec_powerStateEntry_dormant, exec_powerStateEntry_stays,
    fun t => exec_wakeComplete_active⟩
  · intro within
    rw [exec_profileSelect_answered answers loaded (.inl (by omega)), State.switchProfile_within within]
  · intro outside plain
    rw [exec_profileSelect_answered answers loaded plain, State.switchProfile_outside outside]
  · intro busy
    rw [exec_profileSelectReset_answered answers loaded least most, State.switchReset_refused busy]
  · intro free
    rw [exec_profileSelectReset_answered answers loaded least most, State.switchReset_starts free]
  · intro outside
    rw [exec_profileCopy_answered answers loaded, State.copyProfile_outside outside]
  · intro source target inactive
    rw [exec_profileCopy_answered answers loaded, State.copyProfile_stores source target inactive]
  all_goals
    exact congrArg Host.Outcome.next ((State.manage_of_answers answers loaded _ _).trans
      (congrArg State.answer (State.powerRequest_within (by decide))))

end Sys2Proof.Machine
end

section

/-!
### Requests to the object dictionary (18 R462, R463)

The fields of an operation header, what each operation performs, and that a refused request has no effect.
-/

namespace Sys2Proof.Machine

open Sys2Proof

/-! #### Operation headers (18 Table 18-2) -/

section
variable {op e b first rows : Nat}

theorem fld_opHeader_op (known : op < 2 ^ 8) : fld (opHeader op e b first rows) 0 8 = op :=
  (fld_ofNat _ (by decide)).trans ((bitsOf_pack [] [(0, 8), (e, 16), (b, 8), (0, 24), (first, 32), (rows, 32)] op 8).trans
    (Nat.mod_eq_of_lt known))

theorem fld_opHeader_low : fld (opHeader op e b first rows) 8 8 = 0 :=
  (fld_ofNat _ (by decide)).trans (bitsOf_pack [(op, 8)] [(e, 16), (b, 8), (0, 24), (first, 32), (rows, 32)] 0 8)

theorem fld_opHeader_entry (name : e < 2 ^ 16) : fld (opHeader op e b first rows) 16 16 = e :=
  (fld_ofNat _ (by decide)).trans ((bitsOf_pack [(op, 8), (0, 8)] [(b, 8), (0, 24), (first, 32), (rows, 32)] e 16).trans
    (Nat.mod_eq_of_lt name))

theorem fld_opHeader_sub (name : b < 2 ^ 8) : fld (opHeader op e b first rows) 32 8 = b :=
  (fld_ofNat _ (by decide)).trans ((bitsOf_pack [(op, 8), (0, 8), (e, 16)] [(0, 24), (first, 32), (rows, 32)] b 8).trans
    (Nat.mod_eq_of_lt name))

theorem fld_opHeader_high : fld (opHeader op e b first rows) 40 24 = 0 :=
  (fld_ofNat _ (by decide)).trans (bitsOf_pack [(op, 8), (0, 8), (e, 16), (b, 8)] [(first, 32), (rows, 32)] 0 24)

theorem fld_opHeader_first (bound : first < 2 ^ 32) : fld (opHeader op e b first rows) 64 32 = first :=
  (fld_ofNat _ (by decide)).trans ((bitsOf_pack [(op, 8), (0, 8), (e, 16), (b, 8), (0, 24)] [(rows, 32)] first 32).trans
    (Nat.mod_eq_of_lt bound))

theorem fld_opHeader_rows (bound : rows < 2 ^ 32) : fld (opHeader op e b first rows) 96 32 = rows :=
  (fld_ofNat _ (by decide)).trans
    ((bitsOf_pack [(op, 8), (0, 8), (e, 16), (b, 8), (0, 24), (first, 32)] [] rows 32).trans (Nat.mod_eq_of_lt bound))

/-- An operation without rows leaves both of their fields zero. -/
theorem fld_opHeader_noRows : fld (opHeader op e b 0 0) 64 64 = 0 := by
  have zeros : opHeader op e b 0 0 = BitVec.ofNat 128 (pack [(op, 8), (0, 8), (e, 16), (b, 8), (0, 24), (0, 64)]) := by
    simp [opHeader, pack]
  rw [zeros]
  exact (fld_ofNat _ (by decide)).trans (bitsOf_pack [(op, 8), (0, 8), (e, 16), (b, 8), (0, 24)] [] 0 64)

theorem opClean_opHeader (least : 1 ≤ op) (most : op ≤ 6) (fields : op = 3 ∨ op = 4 ∨ first = 0 ∧ rows = 0) :
    opClean (opHeader op e b first rows) = true := by
  simp only [opClean, fld_opHeader_op (show op < 2 ^ 8 by omega), fld_opHeader_low, fld_opHeader_high]
  rcases fields with rfl | rfl | ⟨rfl, rfl⟩
  · rfl
  · rfl
  · simp [fld_opHeader_noRows, least, most]

end

/-! #### Refused requests -/

theorem isCommit_of_refused {h : BitVec 128} {r : Reply} (refused : r.status ≠ .ok) : isCommit h r = false := by
  simp [isCommit, refused]

section
variable (s : State)

theorem orRefused_refused (r : MStatus × State) : (orRefused s r).1 ≠ .ok → (orRefused s r).2 = s := by
  unfold orRefused
  split
  · exact fun refused => absurd ‹r.1 = .ok› refused
  · exact fun _ => rfl

theorem State.readRows_refused (e b first rows : Nat) :
    (s.readRows e b first rows).1.status ≠ .ok → (s.readRows e b first rows).2 = s := by
  unfold State.readRows
  split
  · exact fun _ => rfl
  · split
    · exact fun _ => rfl
    · split
      · exact fun _ => rfl
      · generalize (if s.shows e = true then s.rowsOf _ b else _) = l
        dsimp only
        split
        · exact fun _ => rfl
        · exact fun refused => absurd rfl refused

theorem State.writeEntry_refused (e b : Nat) (bs : List Byte) :
    (s.writeEntry e b bs).1 ≠ .ok → (s.writeEntry e b bs).2 = s := by
  unfold State.writeEntry
  split
  · exact fun _ => rfl
  · split
    · exact fun _ => rfl
    · split
      · exact fun _ => rfl
      · split
        · split
          · exact fun _ => rfl
          · exact orRefused_refused s _
        · exact orRefused_refused s _

theorem State.writeFlags_refused (key first : Nat) (bs : List Byte) :
    (s.writeFlags key first bs).1 ≠ .ok → (s.writeFlags key first bs).2 = s := by
  unfold State.writeFlags
  split
  · exact fun _ => rfl
  · exact fun refused => absurd rfl refused

theorem State.writeRows_refused (e b first rows : Nat) (bs : List Byte) :
    (s.writeRows e b first rows bs).1 ≠ .ok → (s.writeRows e b first rows bs).2 = s := by
  unfold State.writeRows
  split
  · exact fun _ => rfl
  next r _ =>
    split
    · exact fun _ => rfl
    · split
      · exact fun _ => rfl
      · split
        · exact fun _ => rfl
        · dsimp only
          by_cases agents : e = 0x5001
          · rw [if_pos agents]
            split
            · exact fun _ => rfl
            · exact orRefused_refused s _
          by_cases tenants : e = 0x9000
          · rw [if_neg agents, if_pos tenants]
            exact orRefused_refused s _
          by_cases limits : e = 0x9001
          · rw [if_neg agents, if_neg tenants, if_pos limits]
            split
            · exact fun _ => rfl
            · split
              · exact fun _ => rfl
              · exact orRefused_refused s _
          · rw [if_neg agents, if_neg tenants, if_neg limits]
            exact s.writeFlags_refused _ _ _

/-- A request that is refused, whatever it asks, leaves the state as it was. -/
theorem State.perform_refused (h : BitVec 128) (v : List Byte) :
    (s.perform h v).1.status ≠ .ok → (s.perform h v).2 = s := by
  unfold State.perform
  dsimp only
  split
  · split <;> exact fun _ => rfl
  · exact s.writeEntry_refused _ _ v
  · split
    · exact s.readRows_refused _ _ _ _
    · exact fun _ => rfl
  · exact s.writeRows_refused _ _ _ _ v
  · split <;> exact fun _ => rfl
  · split <;> exact fun _ => rfl

/-- The state that has left a reply. -/
def State.replied (s : State) (r : Reply) : State := { s with mgmt := { s.mgmt with reply := some r } }

section
variable {s} {h : BitVec 128} {v : List Byte} (answers : s.mgmtAnswers = true) (clean : opClean h = true)
include answers clean

/-- A request that is no accepted commit is performed and answered. -/
theorem State.request_replied (uncommitted : isCommit h (s.perform h v).1 = false) :
    s.request h v = (s.perform h v).2.replied (s.perform h v).1 := by
  rw [State.request, if_neg (by simp [answers]), if_neg (by simp [clean])]
  generalize s.perform h v = done at uncommitted ⊢
  exact if_neg (by simp [uncommitted])

theorem State.request_refused (refused : (s.perform h v).1.status ≠ .ok) :
    s.request h v = s.replied (s.perform h v).1 := by
  rw [State.request_replied answers clean (isCommit_of_refused refused), s.perform_refused h v refused]

end

end

/-- Settles O59: every request has a clean header, and a refused one changes the reply only. -/
theorem refusedRequestsHaveNoEffect : Obligations.RefusedRequestsHaveNoEffect := by
  intro s entry sub value first rows _ _ answers e b told
  have settled {i : Instr} {h : BitVec 128} {v : List Byte} (runs : exec i s = .next (s.request h v)) (clean : opClean h = true) :
      told i h v :=
    ⟨clean, fun refused => runs.trans (congrArg Host.Outcome.next (State.request_refused answers clean refused)),
      fun _ uncommitted => runs.trans (congrArg Host.Outcome.next (State.request_replied answers clean uncommitted))⟩
  exact ⟨settled rfl (opClean_opHeader (by decide) (by decide) (.inr (.inr ⟨rfl, rfl⟩))),
    settled rfl (opClean_opHeader (by decide) (by decide) (.inr (.inr ⟨rfl, rfl⟩))),
    settled rfl (opClean_opHeader (by decide) (by decide) (.inl rfl)),
    settled rfl (opClean_opHeader (by decide) (by decide) (.inr (.inl rfl))),
    settled rfl (opClean_opHeader (by decide) (by decide) (.inr (.inr ⟨rfl, rfl⟩))),
    settled rfl (opClean_opHeader (by decide) (by decide) (.inr (.inr ⟨rfl, rfl⟩)))⟩

end Sys2Proof.Machine
end

section

/-!
### Reads, writes and descriptions of entries (18 R457 to R463)

What each operation performs of its header's fields, and how the request is answered; then the outcomes of reads and writes, check
by check.
-/

namespace Sys2Proof.Machine

open Sys2Proof

section
variable {s : State} {e b first rows : Nat} {value : List Byte}

/-! #### What a request performs -/

section
variable (name : e < 2 ^ 16) (sub : b < 2 ^ 8)
include name sub

theorem State.perform_read : s.perform (opHeader 1 e b 0 0) [] = (s.readEntry e b, s) := by
  simp only [State.perform, fld_opHeader_op (show 1 < 2 ^ 8 by decide), fld_opHeader_entry name, fld_opHeader_sub sub]
  rfl

theorem State.perform_write :
    s.perform (opHeader 2 e b 0 0) value = (plain (s.writeEntry e b value).1, (s.writeEntry e b value).2) := by
  simp only [State.perform, fld_opHeader_op (show 2 < 2 ^ 8 by decide), fld_opHeader_entry name, fld_opHeader_sub sub]

theorem State.perform_describe : s.perform (opHeader 5 e b 0 0) [] = (s.describe e b, s) := by
  simp only [State.perform, fld_opHeader_op (show 5 < 2 ^ 8 by decide), fld_opHeader_entry name, fld_opHeader_sub sub]
  rfl

theorem State.perform_nextEntry : s.perform (opHeader 6 e b 0 0) [] = (s.nextName e b, s) := by
  simp only [State.perform, fld_opHeader_op (show 6 < 2 ^ 8 by decide), fld_opHeader_entry name, fld_opHeader_sub sub]
  rfl

section
variable (bound : first < 2 ^ 32) (many : rows < 2 ^ 32)
include bound many

theorem State.perform_readRows : s.perform (opHeader 3 e b first rows) [] = s.readRows e b first rows := by
  simp only [State.perform, fld_opHeader_op (show 3 < 2 ^ 8 by decide), fld_opHeader_entry name, fld_opHeader_sub sub,
    fld_opHeader_first bound, fld_opHeader_rows many]
  rfl

theorem State.perform_writeRows : s.perform (opHeader 4 e b first rows) value =
    ({ plain (s.writeRows e b first rows value).1 with rows := if (s.writeRows e b first rows value).1 = .ok then rows else 0 },
      (s.writeRows e b first rows value).2) := by
  simp only [State.perform, fld_opHeader_op (show 4 < 2 ^ 8 by decide), fld_opHeader_entry name, fld_opHeader_sub sub,
    fld_opHeader_first bound, fld_opHeader_rows many]

end

end

/-! #### How a request is answered -/

/-- Only a WRITE is a commit. -/
theorem isCommit_opHeader_of_op {op : Nat} {r : Reply} (known : op < 2 ^ 8) (other : op ≠ 2) :
    isCommit (opHeader op e b first rows) r = false := by
  simp [isCommit, fld_opHeader_op known, other]

/-- Only a WRITE of FW_COMMIT is a commit. -/
theorem isCommit_opHeader_of_entry {op : Nat} {r : Reply} (name : e < 2 ^ 16) (other : e ≠ 0xC001) :
    isCommit (opHeader op e b first rows) r = false := by
  simp [isCommit, fld_opHeader_entry name, other]

section
variable {entry : BitVec 16} {sub : BitVec 8} {r : Reply} {st : MStatus} {t : State} (answers : s.mgmtAnswers = true)
include answers

/-- A request with a clean header that is no accepted commit leaves the reply of what it performs. -/
theorem State.request_performed {h : BitVec 128} (clean : opClean h = true) (uncommitted : isCommit h r = false)
    (performed : s.perform h value = (r, t)) : s.request h value = t.replied r := by
  rw [State.request_replied answers clean (by rw [performed]; exact uncommitted), performed]

theorem exec_read_replied (outcome : s.readEntry entry.toNat sub.toNat = r) :
    exec (.read entry sub) s = .next (s.replied r) :=
  congrArg Host.Outcome.next (State.request_performed answers
    (opClean_opHeader (by decide) (by decide) (.inr (.inr ⟨rfl, rfl⟩))) (isCommit_opHeader_of_op (by decide) (by decide))
    ((State.perform_read entry.isLt sub.isLt).trans (congrArg (·, s) outcome)))

theorem exec_describe_replied (outcome : s.describe entry.toNat sub.toNat = r) :
    exec (.describe entry sub) s = .next (s.replied r) :=
  congrArg Host.Outcome.next (State.request_performed answers
    (opClean_opHeader (by decide) (by decide) (.inr (.inr ⟨rfl, rfl⟩))) (isCommit_opHeader_of_op (by decide) (by decide))
    ((State.perform_describe entry.isLt sub.isLt).trans (congrArg (·, s) outcome)))

theorem exec_nextEntry_replied : exec (.nextEntry entry sub) s = .next (s.replied (s.nextName entry.toNat sub.toNat)) :=
  congrArg Host.Outcome.next (State.request_performed answers
    (opClean_opHeader (by decide) (by decide) (.inr (.inr ⟨rfl, rfl⟩))) (isCommit_opHeader_of_op (by decide) (by decide))
    (State.perform_nextEntry entry.isLt sub.isLt))

/-- A WRITE that is no accepted commit is answered with its outcome. -/
theorem exec_write_answered (outcome : s.writeEntry entry.toNat sub.toNat value = (st, t))
    (uncommitted : st ≠ .ok ∨ entry.toNat ≠ 0xC001) : exec (.write entry sub value) s = .next (State.answer (st, t)) :=
  congrArg Host.Outcome.next (State.request_performed (r := plain st) answers
    (opClean_opHeader (by decide) (by decide) (.inr (.inr ⟨rfl, rfl⟩)))
    (uncommitted.elim (fun refused => isCommit_of_refused refused) (isCommit_opHeader_of_entry entry.isLt))
    ((State.perform_write entry.isLt sub.isLt).trans (by rw [outcome])))

section
variable (bound : first < 2 ^ 32) (many : rows < 2 ^ 32)
include bound many

theorem exec_readRows_replied (outcome : s.readRows entry.toNat sub.toNat first rows = (r, t)) :
    exec (.readRows entry sub first rows) s = .next (t.replied r) :=
  congrArg Host.Outcome.next (State.request_performed answers (opClean_opHeader (by decide) (by decide) (.inl rfl))
    (isCommit_opHeader_of_op (by decide) (by decide))
    ((State.perform_readRows entry.isLt sub.isLt bound many).trans outcome))

theorem exec_writeRows_replied (outcome : s.writeRows entry.toNat sub.toNat first rows value = (st, t)) :
    exec (.writeRows entry sub first rows value) s =
      .next (t.replied { plain st with rows := if st = .ok then rows else 0 }) :=
  congrArg Host.Outcome.next (State.request_performed answers (opClean_opHeader (by decide) (by decide) (.inr (.inl rfl)))
    (isCommit_opHeader_of_op (by decide) (by decide))
    ((State.perform_writeRows entry.isLt sub.isLt bound many).trans (by rw [outcome])))

end

end

/-! #### Names that do not exist (18 R457) -/

section
variable (unknown : s.entryOf e b = none)
include unknown

theorem State.readEntry_unknown : s.readEntry e b = plain .noEntry := by
  rw [State.readEntry, unknown]

theorem State.describe_unknown : s.describe e b = plain .noEntry := by
  rw [State.describe, unknown]

theorem State.writeEntry_unknown : s.writeEntry e b value = (.noEntry, s) := by
  rw [State.writeEntry, unknown]

theorem State.readRows_unknown : s.readRows e b first rows = (plain .noEntry, s) := by
  rw [State.readRows, unknown]

theorem State.writeRows_unknown : s.writeRows e b first rows value = (.noEntry, s) := by
  rw [State.writeRows, unknown]

end

/-! #### Reads (18 Table 18-3) -/

section
variable {r : DictRow} (known : s.entryOf e b = some r)
include known

theorem State.readEntry_closed (closed : r.access = .wo ∨ r.type = .table) : s.readEntry e b = plain .access := by
  rw [State.readEntry, known]
  exact if_pos (by simpa using closed)

section
variable (loaded : s.pwr.bootOnly = false) (readable : r.access ≠ .wo)
include loaded readable

theorem State.readEntry_open (value : r.type ≠ .table) :
    s.readEntry e b = { status := .ok, value := s.encode r b, rows := 0 } := by
  rw [State.readEntry, known]
  exact (if_neg (by simp [readable, value])).trans (if_neg (by simp [State.bootRefuses, loaded]))

/-- Rows that exist are read, as many as there are, as were asked and as fit. -/
theorem State.readRows_open (table : r.type = .table) (unlogged : e ≠ 0xA050) (shows : s.shows e = true)
    (within : first = 0 ∨ first < (s.rowsOf r b).length) :
    let l := ((s.rowsOf r b).drop first).take (min rows (8192 / r.size))
    s.readRows e b first rows = ({ status := .ok, value := l.flatten, rows := l.length }, s) := by
  have unread (n : Nat) : s.noteRead e b first n = s := by simp [State.noteRead, unlogged]
  have inside : ¬ ((first ≠ 0 && first ≥ (s.rowsOf r b).length) = true) := by
    rcases within with zero | below <;> simp [*]
  rw [State.readRows, known]
  simp only [shows, unread]
  rw [if_neg (by simp [readable, table]), if_neg (by simp [State.bootRefuses, loaded]), if_pos trivial, if_neg inside]

end

/-! #### Writes, check by check (18 R463, log 45) -/

theorem State.writeEntry_closed (closed : r.access = .ro ∨ r.type = .table) : s.writeEntry e b value = (.access, s) := by
  rw [State.writeEntry, known]
  exact if_pos (by simpa using closed)

section
variable (writable : r.access ≠ .ro)
include writable

section
variable (single : r.type ≠ .table)
include single

theorem State.writeEntry_state (refused : s.refusesWrite r b = true) : s.writeEntry e b value = (.state, s) := by
  rw [State.writeEntry, known]
  exact (if_neg (by simp [writable, single])).trans (if_pos refused)

section
variable {k : Nat} (taken : s.refusesWrite r b = false) (sized : r.type.size = some k)
include taken sized

theorem State.writeEntry_length (wrong : value.length ≠ k) : s.writeEntry e b value = (.length, s) := by
  rw [State.writeEntry, known]
  simp only [sized]
  rw [if_neg (by simp [writable, single]), if_neg (by simp [taken]), if_pos wrong]

theorem State.writeEntry_number {t : State} (whole : value.length = k) (written : s.writeNumber r b (leNat value) = (.ok, t)) :
    s.writeEntry e b value = (.ok, t) := by
  rw [State.writeEntry, known]
  simp only [sized]
  rw [if_neg (by simp [writable, single]), if_neg (by simp [taken]), if_neg (by simp [whole]), written, orRefused, if_pos rfl]

end

end

section
variable (table : r.type = .table) (taken : s.refusesWrite r b = false)
include table taken

theorem State.writeRows_length (wrong : value.length ≠ rows * r.size) : s.writeRows e b first rows value = (.length, s) := by
  rw [State.writeRows, known]
  exact (if_neg (by simp [writable, table])).trans ((if_neg (by simp [taken])).trans (if_pos wrong))

theorem State.writeRows_tenants {t : State} (tenants : e = 0x9000) (whole : value.length = rows * r.size)
    (written : s.writeTenants first ((chunksOf r.size (rows + 1) value).map fun x => BitVec.ofNat 256 (leNat x)) = (.ok, t)) :
    s.writeRows e b first rows value = (.ok, t) := by
  rw [State.writeRows, known]
  dsimp only
  rw [if_neg (by simp [writable, table]), if_neg (by simp [taken]), if_neg (by simp [whole]), if_neg (by simp [tenants]),
    if_pos tenants, written, orRefused, if_pos rfl]

end

end

end

end

/-- Settles O58: names that do not exist, then reads and writes of one that does. -/
theorem entriesAreReadWrittenAndDescribed : Obligations.EntriesAreReadWrittenAndDescribed := by
  intro s entry sub value e b told reply answers loaded
  refine ⟨fun unknown => ⟨?_, ?_, ?_, fun first rows bound many => ⟨?_, ?_⟩⟩,
    fun r known => ⟨fun closed => ?_, fun readable single => ?_, fun closed => ?_, fun writable single refused => ?_,
      fun k writable single taken sized wrong => ?_, fun k t writable single taken sized whole written other => ?_,
      fun first rows bound many unlogged readable table shows within => ?_,
      fun first rows bound many writable table taken => ⟨fun wrong => ?_, fun t tenants whole written => ?_⟩⟩,
    ⟨_, exec_describe_replied answers rfl, rfl⟩, exec_nextEntry_replied answers⟩
  · exact exec_read_replied answers (State.readEntry_unknown unknown)
  · exact exec_write_answered answers (State.writeEntry_unknown unknown) (.inl (by decide))
  · exact exec_describe_replied answers (State.describe_unknown unknown)
  · exact exec_readRows_replied answers bound many (State.readRows_unknown unknown)
  · exact exec_writeRows_replied answers bound many (State.writeRows_unknown unknown)
  · exact exec_read_replied answers (State.readEntry_closed known closed)
  · exact exec_read_replied answers (State.readEntry_open known loaded readable single)
  · exact exec_write_answered answers (State.writeEntry_closed known closed) (.inl (by decide))
  · exact exec_write_answered answers (State.writeEntry_state known writable single refused) (.inl (by decide))
  · exact exec_write_answered answers (State.writeEntry_length known writable single taken sized wrong) (.inl (by decide))
  · exact exec_write_answered answers (State.writeEntry_number known writable single taken sized whole written) (.inr other)
  · exact exec_readRows_replied answers bound many (State.readRows_open known loaded readable table unlogged shows within)
  · exact exec_writeRows_replied answers bound many (State.writeRows_length known writable table taken wrong)
  · exact exec_writeRows_replied (t := t) answers bound many
      (State.writeRows_tenants known writable table taken tenants whole written)

end Sys2Proof.Machine
end

section

/-!
### Management frames and the management ring (18 R465 to R471)
-/

namespace Sys2Proof.Machine

open Sys2Proof

section
variable {s : State}

/-! #### Frames (18 R465 to R468) -/

section
variable (answers : s.mgmtAnswers = true) (port : s.portOn = true)
include answers port

theorem exec_discover_answered (source : Nat) (req : BitVec 16) :
    exec (.discover source req) s = .next ((s.bump (dkey 0x1100 3) 1).discovered source req.toNat) := by
  show execDiscover source req s = _
  rw [execDiscover, if_neg (by simp [answers, port])]

section
variable {f : MgmtFrame}

theorem exec_mgmtFrame_bad (bad : f.fcsOk = false) : exec (.mgmtFrame f) s = .next s.frameBad := by
  show execMgmtFrame f s = _
  rw [execMgmtFrame, if_neg (by simp [answers, port]), if_pos (by simp [bad])]

section
variable (whole : f.fcsOk = true)
include whole

theorem exec_mgmtFrame_other (other : f.addressed = false) : exec (.mgmtFrame f) s = .next s := by
  show execMgmtFrame f s = _
  rw [execMgmtFrame, if_neg (by simp [answers, port]), if_neg (by simp [whole]), if_pos (by simp [other])]

/-- The management header of a frame. -/
def frameHead (f : MgmtFrame) : BitVec 128 := BitVec.ofNat 128 (leNat (f.payload.take 16))

section
variable (mine : f.addressed = true) (clean : headClean (frameHead f) = true) (least : 46 ≤ f.payload.length)
  (most : f.payload.length ≤ 1500)
include mine clean least most

theorem exec_mgmtFrame_fragment (kind : fld (frameHead f) 24 3 = 0) : exec (.mgmtFrame f) s = .next
    (((s.bump (dkey 0x1100 3) 1).hear f.source).takeFragment f.source (frameHead f) (f.payload.drop 16)) := by
  show execMgmtFrame f s = _
  rw [execMgmtFrame, if_neg (by simp [answers, port]), if_neg (by simp [whole]), if_neg (by simp [mine])]
  rw [frameHead] at clean kind ⊢
  dsimp only
  rw [if_neg (by simp [clean, least, most]), if_neg (by simp [kind]), if_pos kind]

theorem exec_mgmtFrame_discover (kind : fld (frameHead f) 24 3 = 2) : exec (.mgmtFrame f) s = .next
    ((s.bump (dkey 0x1100 3) 1).discovered f.source (fld (frameHead f) 32 16)) := by
  show execMgmtFrame f s = _
  rw [execMgmtFrame, if_neg (by simp [answers, port]), if_neg (by simp [whole]), if_neg (by simp [mine])]
  rw [frameHead] at clean kind ⊢
  dsimp only
  rw [if_neg (by simp [clean, least, most]), if_pos kind]

end

end

end

end

section
variable {source : Nat} {x : MgmtSource} (known : SMap.look s.mgmt.sources source = some x)
include known

theorem exec_reassemblyTimeout_discards (part : x.frag ≠ 0) : exec (.reassemblyTimeout source) s = .next
    ((s.updSource source fun x => { x with frag := 0, message := [] }).frameBad) := by
  show execReassemblyTimeout source s = _
  simp only [execReassemblyTimeout, known]
  rw [if_neg part]

theorem exec_reassemblyTimeout_idle (whole : x.frag = 0) : exec (.reassemblyTimeout source) s = .next s := by
  show execReassemblyTimeout source s = _
  simp only [execReassemblyTimeout, known]
  rw [if_pos whole]

end

/-! #### The words of the ring (18 R471) -/

section
variable (present : s.mgmt.ring ≠ .absent)
include present

/-- The state of the ring with a new state and TAIL_SEEN, whose status block says so. -/
def State.ringSeen (s : State) (ring : MgmtRingState) (tail : Nat) : State :=
  ({ s with mgmt := { s.mgmt with ring, tailSeen := tail } } : State).writeMgmtBlock

section
variable {v : BitVec 64} (plain : flag v 63 = false) (active : s.wake.mgmt.ring = .active)
include plain active

theorem exec_mgmtTailPresented_inRange (least : s.wake.mgmt.tailSeen ≤ fld v 0 63)
    (most : fld v 0 63 ≤ s.wake.mgmt.fetched + 16) :
    exec (.mgmtTailPresented v) s = .next (s.wake.ringSeen .active (fld v 0 63)) := by
  show execMgmtTailPresented v s = _
  simp only [execMgmtTailPresented]
  rw [if_neg present, if_neg (by simp [plain]), if_neg (by simp [active]), if_neg (by simp [least, most])]
  rfl

theorem exec_mgmtTailPresented_outside (outside : fld v 0 63 < s.wake.mgmt.tailSeen ∨ s.wake.mgmt.fetched + 16 < fld v 0 63) :
    exec (.mgmtTailPresented v) s = .next (s.wake.ringSeen .error s.wake.mgmt.tailSeen) := by
  show execMgmtTailPresented v s = _
  simp only [execMgmtTailPresented]
  rw [if_neg present, if_neg (by simp [plain]), if_neg (by simp [active]), if_pos (by simpa using outside)]
  rfl

end

theorem exec_mgmtHeadPresented_inRange {v : BitVec 64} (least : s.mgmt.headSeen ≤ v.toNat) (most : v.toNat ≤ s.mgmt.written) :
    exec (.mgmtHeadPresented v) s = .next ({ s with mgmt := { s.mgmt with headSeen := v.toNat } } : State).writeMgmtBlock := by
  show execMgmtHeadPresented v s = _
  rw [execMgmtHeadPresented, if_neg (by simp [present, least, most])]

end

theorem exec_mgmtHeadPresented_outside {v : BitVec 64}
    (outside : v.toNat < s.mgmt.headSeen ∨ s.mgmt.written < v.toNat) :
    exec (.mgmtHeadPresented v) s = .next s := by
  show execMgmtHeadPresented v s = _
  rw [execMgmtHeadPresented, if_pos (by rcases outside with h | h <;> simp [h])]

/-! #### Requests of the ring (18 R470) -/

section
variable (settled : s.mgmt.owed = none)
include settled

theorem exec_mgmtRequestTake_taken {head : BitVec 128} {msg : List Byte} {t : State} (may : s.mayTakeRequest = true)
    (read : takeRequest.go s = (.ok (head, msg), t)) : exec .mgmtRequestTake s = .next (t.ringRequest head msg) := by
  show execMgmtRequestTake s = _
  simp only [execMgmtRequestTake, settled]
  rw [if_pos may, read]

theorem exec_mgmtRequestTake_idle (held : s.mayTakeRequest = false) : exec .mgmtRequestTake s = .next s := by
  show execMgmtRequestTake s = _
  simp only [execMgmtRequestTake, settled]
  rw [if_neg (by simp [held])]

end

end

/-- Settles O60: frames, then the words and the requests of the ring. -/
theorem framesAndTheManagementRing : Obligations.FramesAndTheManagementRing := by
  intro s
  refine ⟨fun f answers port => ⟨exec_mgmtFrame_bad answers port, exec_mgmtFrame_other answers port,
      fun whole mine clean least most => ⟨exec_mgmtFrame_fragment answers port whole mine clean least most,
        exec_mgmtFrame_discover answers port whole mine clean least most⟩⟩,
    fun source x known => ⟨exec_reassemblyTimeout_discards known, exec_reassemblyTimeout_idle known⟩,
    fun source req answers port => exec_discover_answered answers port source req,
    fun v present plain active => ⟨exec_mgmtTailPresented_inRange present plain active,
      exec_mgmtTailPresented_outside present plain active⟩,
    fun v present => ⟨exec_mgmtHeadPresented_inRange present, exec_mgmtHeadPresented_outside⟩,
    fun head msg t settled => exec_mgmtRequestTake_taken settled, exec_mgmtRequestTake_idle⟩

end Sys2Proof.Machine
end
